-- ==== Sys2Proof/Word.lean ====
section
/-!
DEFINITION. The widths the manual computes in: a 32-bit register word, a byte, a 64-bit
double word (00_scope R2), and a half word of 16 bits.
-/

namespace Sys2Proof

/-- A byte of memory or scratchpad. -/
abbrev Byte := BitVec 8

/-- A 16-bit half word (M16 fields, FP16 and BF16 values). -/
abbrev Half := BitVec 16

/-- A 32-bit register or instruction word. -/
abbrev Word := BitVec 32

/-- A 64-bit double word: a register pair, an address, a format record. -/
abbrev DWord := BitVec 64

end Sys2Proof
end

