-- ==== Sys2Proof/Config.lean ====
section
/-!
DEFINITION. The values the manual leaves open. Each is a constant without a body, so no proof
can see what it is: a claim about it holds whatever it is. `State.freeCtr`, which every step
advances, gives each use its own argument.
-/

namespace Sys2Proof

/-- Whether a read of the destination of an outstanding load receives the new value: chosen per
lane and 32-bit word (02_encoding R30). Arguments: the step, the register word's key. -/
opaque Config.pendingNew : Nat → Nat → Bool

/-- A word whose value the manual does not give. Arguments: the step, which of the step's words. -/
opaque Config.freeWord : Nat → Nat → Word

/-- A byte whose value the manual does not give. Arguments: the step, the byte's address. -/
opaque Config.freeByte : Nat → Nat → Byte

/-- A choice the manual leaves open. Arguments: the step, which of the step's choices. -/
opaque Config.freeBool : Nat → Nat → Bool

/-- Whether an entry of a context's trampoline table is the Thresher's own (16_loading R366): no register or
table says which the loader left to it. Arguments: the context, the entry's index. -/
opaque Config.thresherTramp : Nat → Nat → Bool

/-- Bytes of the security root's output: a measurement, a signature, a certificate (17_cold
R392, R393). Arguments: which output, the step, the byte's offset. -/
opaque Config.rootByte : Nat → Nat → Nat → Byte

end Sys2Proof
end

