-- ==== Sys2Proof/Machine/SMap.lean ====
section
/-!
DEFINITION. Sparse tables: a list of (key, value) pairs in one canonical form, keys strictly
rising and no entry equal to what an unlisted key reads as. Memory, register files and every
table of the machine are held so; equal tables are equal lists.
-/

namespace Sys2Proof.Machine

/-- A table from numbers to values. -/
abbrev SMap (α : Type) := List (Nat × α)

/-- The value at `k`; an unlisted key reads as `d`. -/
def SMap.getD {α : Type} (m : SMap α) (k : Nat) (d : α) : α :=
  match m with
  | [] => d
  | (j, v) :: t => if j = k then v else SMap.getD t k d

/-- Every entry but those at `k`. -/
def SMap.erase {α : Type} (m : SMap α) (k : Nat) : SMap α := m.filter (fun e => e.1 != k)

/-- The entry put where the keys stay rising. -/
def SMap.ins {α : Type} (m : SMap α) (k : Nat) (v : α) : SMap α :=
  match m with
  | [] => [(k, v)]
  | (j, u) :: t => if k < j then (k, v) :: (j, u) :: t else (j, u) :: SMap.ins t k v

/-- The table with `v` at `k`, where an unlisted `k` reads as `d`. -/
def SMap.set {α : Type} [DecidableEq α] (m : SMap α) (k : Nat) (v d : α) : SMap α :=
  if v = d then m.erase k else (m.erase k).ins k v

/-- Keys strictly rise. -/
def SMap.sorted {α : Type} : SMap α → Bool
  | [] => true
  | (_, _) :: [] => true
  | (j, _) :: (k, v) :: t => decide (j < k) && SMap.sorted ((k, v) :: t)

/-- The canonical form: rising keys, no entry equal to its key's blank value. -/
def SMap.wf {α : Type} [DecidableEq α] (m : SMap α) (blank : Nat → α) : Bool :=
  m.sorted && m.all (fun e => decide (e.2 ≠ blank e.1))

/-- The keys listed, rising. -/
def SMap.keys {α : Type} (m : SMap α) : List Nat := m.map (·.1)

/-- The entries satisfying a test, in key order. -/
def SMap.findIdx? {α : Type} (m : SMap α) (p : Nat → α → Bool) : Option Nat :=
  (m.find? (fun e => p e.1 e.2)).map (·.1)

/-- The values mapped, an entry that becomes the blank `d` dropped. -/
def SMap.mapV {α : Type} [DecidableEq α] (m : SMap α) (d : α) (f : Nat → α → α) : SMap α :=
  m.foldr (fun e t => if f e.1 e.2 = d then SMap.erase t e.1 else (e.1, f e.1 e.2) :: t) []

end Sys2Proof.Machine
end

