-- ==== Sys2Proof/Machine/Bits.lean ====
section
/-!
DEFINITION. Bit fields, lane masks, register pairs and byte order (00_scope R2 to R4).
-/

namespace Sys2Proof.Machine

/-- The mask of the lanes satisfying `f`. -/
def maskOf (f : Nat → Bool) : Word :=
  (BitVec.ofBoolListLE ((List.range 32).map f)).setWidth 32

/-- Lane `L` is in the mask. -/
def inMask (m : Word) (L : Nat) : Bool := m.getLsbD L

/-- The lanes of a mask, ascending. -/
def lanesOf (m : Word) : List Nat := (List.range 32).filter (fun L => m.getLsbD L)

/-- The 64-bit value of a register pair (R2). -/
def pair (lo hi : Word) : DWord := hi ++ lo

/-- The less significant word of a pair. -/
def lo32 (x : DWord) : Word := x.extractLsb' 0 32

/-- The more significant word of a pair. -/
def hi32 (x : DWord) : Word := x.extractLsb' 32 32

/-- Bits `[lo + w - 1 : lo]` of a natural number. -/
def bitsOf (x lo w : Nat) : Nat := x / 2 ^ lo % 2 ^ w

/-- The `n` bytes of `x`, least significant first (R2). -/
def bytesLE (n x : Nat) : List Byte := (List.range n).map (fun i => BitVec.ofNat 8 (x / 256 ^ i))

/-- The number whose bytes, least significant first, are given (R2). -/
def natLE : List Byte → Nat
  | [] => 0
  | b :: t => b.toNat + 256 * natLE t

/-- The `w`-bit value read as two's complement (R4). -/
def sext (w : Nat) (x : Nat) : Int :=
  if x % 2 ^ w < 2 ^ (w - 1) then (x % 2 ^ w : Nat) else (x % 2 ^ w : Nat) - (2 ^ w : Nat)

/-- An integer modulo 2^w (R4). -/
def truncZ (w : Nat) (x : Int) : Nat := (x % (2 ^ w : Nat)).toNat

/-- The least number of set bits below `n` in `x`. -/
def popCount (n x : Nat) : Nat := ((List.range n).filter (fun i => x.testBit i)).length

/-- The index of the least significant set bit below `n`, or `n`. -/
def ctz (n x : Nat) : Nat := ((List.range n).find? (fun i => x.testBit i)).getD n

/-- The largest element of a list, or 0. -/
def maxOf (l : List Nat) : Nat := l.foldl max 0

/-- `x` rounded up to a multiple of `m`. -/
def roundUp (x m : Nat) : Nat := (x + m - 1) / m * m

/-- The least power of two at least `x`. -/
def pow2Up (x : Nat) : Nat := if x ≤ 1 then 1 else 2 ^ (Nat.log2 (x - 1) + 1)

/-- The 32-bit words of a byte list, least significant byte first. -/
def wordsLE (bs : List Byte) (n : Nat) : List Word :=
  (List.range n).map (fun i => BitVec.ofNat 32 (natLE ((bs.drop (4 * i)).take 4)))

/-- The elements mapped with their positions, counted from 0. -/
def mapI {α β : Type} (l : List α) (f : Nat → α → β) : List β :=
  (List.zip (List.range l.length) l).map (fun p => f p.1 p.2)

/-- The list without repeats, the first occurrence kept. -/
def dedup (l : List Nat) : List Nat :=
  l.foldl (fun acc x => if acc.contains x then acc else acc ++ [x]) []

end Sys2Proof.Machine
end

