-- ==== Sys2Proof/Syntax.lean ====
section
/-!
DEFINITION. The instruction type: one constructor per row of spec/opcode_table.json.

A coded instruction carries every field of its words, in the record of its layout
(02_encoding R31 to R35); which fields an opcode uses is Sys2Proof/WellFormed.lean.
An event row (PICK and the rows after ECCI) has no words: its constructor carries the agent
that moves and what that agent chose.
-/

namespace Sys2Proof

/-- Word 0 of an instruction that is not of branch format (R31), without OPC and W. -/
structure W0 where
  /-- Guard: 0-11 select p0-p11, 12-15 select gp0-gp3. -/
  g : BitVec 4
  /-- Negate the guard. -/
  n : Bool
  /-- Flag select: false = FLA, true = FLB. -/
  f : Bool
  /-- Destination, or the data register of a store. -/
  d : BitVec 8
  /-- First source, or the base pair of an address. -/
  a : BitVec 8
  /-- Hold operand A in the collector latch. -/
  h : Bool
deriving DecidableEq, Repr

/-- Branch format (R33): guard and signed word offset. -/
structure Br where
  g : BitVec 4
  n : Bool
  off : BitVec 16
deriving DecidableEq, Repr

/-- Word 1 of R kind with M16 in the ALU layout (R32, R35). -/
structure Alu where
  b : BitVec 8
  c : BitVec 8
  ty : BitVec 5
  rnd : BitVec 2
  na : Bool
  aa : Bool
  nb : Bool
  ab : Bool
  nc : Bool
  opx : BitVec 4
deriving DecidableEq, Repr

/-- Word 1 of R kind with M16 in the memory layout (R32, R35). -/
structure MemF where
  b : BitVec 8
  c : BitVec 8
  ty : BitVec 5
  sco : BitVec 3
  ord : BitVec 2
  hnt : BitVec 2
  e : Bool
  nob : Bool
  opx : BitVec 2
deriving DecidableEq, Repr

/-- Word 1 of R kind whose M16 the instruction's entry defines (R35). -/
structure RRaw where
  b : BitVec 8
  c : BitVec 8
  m16 : Half
deriving DecidableEq, Repr

/-- One constructor per row of the opcode table. -/
inductive Instr where
  /-- NOP, opcode 0x00 (R38): Does nothing and may stand anywhere in any clause. -/
  | nop (w : W0)
  /-- BRA, opcode 0x01 (R69): Moves the whole slot to the clause at the branch offset when its group guard is true. -/
  | bra (b : Br)
  /-- BRD, opcode 0x02 (R70): Splits the issuing path by a lane predicate into two partner paths with a common join address, evicting any partner to a record. -/
  | brd (b : Br) (join : Word)
  /-- JOIN, opcode 0x03 (R75): Marks the path arrived at its join address and merges it with its partner, or acts as a plain branch when the address is not its join. -/
  | join (b : Br)
  /-- BRX, opcode 0x04 (R69): Moves the whole slot to the code address held in a group-wide register pair. -/
  | brx (w : W0)
  /-- CALL, opcode 0x05 (R82): Calls the clause at the branch offset, sealing divergence state in a CALL record and writing the link. -/
  | call (b : Br)
  /-- CALLG, opcode 0x06 (R82): Calls the code address held in a group-wide register pair. -/
  | callg (w : W0)
  /-- RET, opcode 0x07 (R83): Returns through the link in g62:g63, popping a CALL record, or exits the lanes when the link is zero. -/
  | ret (w : W0)
  /-- EXIT, opcode 0x08 (R78): Removes the Active lanes from the group and from every record, freeing the slot when it has no lanes left. -/
  | exit (w : W0)
  /-- REFILL, opcode 0x09 (R84): At divergence and call depth 0, admits items of the launch's item queue into vacant lanes, or retires the group when the queue is closed and empty. -/
  | refill (w : W0)
  /-- YIELD, opcode 0x0A (R86): Ends the continuation of its group at the port's next pick, with no architectural effect. -/
  | yield (w : W0)
  /-- SLEEP, opcode 0x0B (R87): Puts the issuing slot to sleep for at least the given number of time-base ticks. -/
  | sleep (w : W0) (imm : Word)
  /-- DSTAT, opcode 0x0C (R81): Writes the issuing slot's divergence status word to a group-wide register. -/
  | dstat (w : W0)
  /-- MASKR, opcode 0x0D (R80): Writes the slot's active mask to a group-wide register. -/
  | maskr (w : W0)
  /-- MASKW, opcode 0x0E (R80): Narrows the slot's active mask to a group-wide value ANDed with OWN. -/
  | maskw (w : W0)
  /-- TRAP, opcode 0x0F (R88): Raises the software trap for the Active lanes with the D field recorded as code. -/
  | trap (w : W0)
  /-- TRET, opcode 0x10 (R347): Resumes the interrupted group from its trap frame, restoring slots, stack state and saved status. -/
  | tret (w : W0)
  /-- BRK, opcode 0x11 (R90): Parks the whole group with cause BRK when breakpoints are enabled and Active is non-empty. -/
  | brk (w : W0)
  /-- CALLX, opcode 0x12 (R82): Calls through a context linkage entry read with DEV-scope acquire. -/
  | callx (w : W0) (imm : Word)
  /-- TRAMP, opcode 0x1C (R69): Moves the slot to the target held in a trampoline table entry read with DEV-scope acquire. -/
  | tramp (w : W0) (imm : Word)
  /-- GMOV, opcode 0x20 (R54): Copies a group-wide register. -/
  | gmov (w : W0)
  /-- GMOVI, opcode 0x21 (R54): Writes a 32-bit immediate to a group-wide register. -/
  | gmovi (w : W0) (imm : Word)
  /-- GADD, opcode 0x22 (R54): Group-wide wrapping 32-bit addition. -/
  | gadd (w : W0) (r : Alu)
  /-- GSUB, opcode 0x23 (R54): Group-wide wrapping 32-bit subtraction. -/
  | gsub (w : W0) (r : Alu)
  /-- GMUL, opcode 0x24 (R54): Group-wide low 32 bits of a product. -/
  | gmul (w : W0) (r : Alu)
  /-- GMAD, opcode 0x25 (R54): Group-wide wrapping multiply-add. -/
  | gmad (w : W0) (r : Alu)
  /-- GAND, opcode 0x26 (R54): Group-wide bitwise AND. -/
  | gand (w : W0) (r : Alu)
  /-- GOR, opcode 0x27 (R54): Group-wide bitwise OR. -/
  | gor (w : W0) (r : Alu)
  /-- GXOR, opcode 0x28 (R54): Group-wide bitwise exclusive OR. -/
  | gxor (w : W0) (r : Alu)
  /-- GSHL, opcode 0x29 (R54): Group-wide left shift, zero for counts of 32 or more. -/
  | gshl (w : W0) (r : Alu)
  /-- GSHR, opcode 0x2A (R54): Group-wide logical right shift, zero for counts of 32 or more. -/
  | gshr (w : W0) (r : Alu)
  /-- GSAR, opcode 0x2B (R54): Group-wide arithmetic right shift with sign fill. -/
  | gsar (w : W0) (r : Alu)
  /-- GADD64, opcode 0x2C (R54): Group-wide wrapping 64-bit addition on register pairs. -/
  | gadd64 (w : W0) (r : Alu)
  /-- GCMP, opcode 0x2D (R55): Compares group-wide values and writes a group-wide predicate. -/
  | gcmp (w : W0) (r : Alu)
  /-- GSEL, opcode 0x2E (R55): Selects one of two group-wide registers by a group-wide predicate. -/
  | gsel (w : W0) (r : Alu)
  /-- GMIN, opcode 0x2F (R54): Group-wide signed or unsigned minimum. -/
  | gmin (w : W0) (r : Alu)
  /-- GMAX, opcode 0x30 (R54): Group-wide signed or unsigned maximum. -/
  | gmax (w : W0) (r : Alu)
  /-- GPOPC, opcode 0x31 (R54): Counts the set bits of a group-wide register. -/
  | gpopc (w : W0)
  /-- GFFS, opcode 0x32 (R54): Finds the least significant set bit of a group-wide register, 32 if none. -/
  | gffs (w : W0)
  /-- GLEA, opcode 0x33 (R56): Forms a 64-bit group-wide address from a base pair and a shifted index. -/
  | glea (w : W0) (r : Alu)
  /-- GLD, opcode 0x34 (R57): Loads 1 to 16 bytes from memory into group-wide registers. -/
  | gld (w : W0) (m : MemF)
  /-- GST, opcode 0x35 (R57): Stores 1 to 16 bytes of group-wide registers to memory. -/
  | gst (w : W0) (m : MemF)
  /-- GSREAD, opcode 0x36 (R59): Writes a group special into a group-wide register. -/
  | gsread (w : W0)
  /-- GPLOP, opcode 0x37 (R55): Computes any function of three group-wide predicates from an 8-bit table. -/
  | gplop (w : W0) (r : Alu)
  /-- MOV, opcode 0x40 (R96): Copies a lane register per Active lane. -/
  | mov (w : W0)
  /-- MOVI, opcode 0x41 (R96): Writes a 32-bit immediate to a lane register. -/
  | movi (w : W0) (imm : Word)
  /-- IADD, opcode 0x42 (R96): Lane wrapping 32-bit addition. -/
  | iadd (w : W0) (r : Alu)
  /-- ISUB, opcode 0x43 (R96): Lane wrapping 32-bit subtraction. -/
  | isub (w : W0) (r : Alu)
  /-- IMUL, opcode 0x44 (R97): Lane low 32 bits of a product. -/
  | imul (w : W0) (r : Alu)
  /-- IMULH, opcode 0x45 (R97): Lane high 32 bits of a signed or unsigned product. -/
  | imulh (w : W0) (r : Alu)
  /-- IMAD, opcode 0x46 (R97): Lane wrapping multiply-add. -/
  | imad (w : W0) (r : Alu)
  /-- IMADW, opcode 0x47 (R97): Lane widening multiply-add into a 64-bit pair. -/
  | imadw (w : W0) (r : Alu)
  /-- IADD64, opcode 0x48 (R98): Lane wrapping 64-bit addition on pairs. -/
  | iadd64 (w : W0) (r : Alu)
  /-- ISUB64, opcode 0x49 (R98): Lane wrapping 64-bit subtraction on pairs. -/
  | isub64 (w : W0) (r : Alu)
  /-- IAND, opcode 0x4A (R96): Lane bitwise AND. -/
  | iand (w : W0) (r : Alu)
  /-- IOR, opcode 0x4B (R96): Lane bitwise OR. -/
  | ior (w : W0) (r : Alu)
  /-- IXOR, opcode 0x4C (R96): Lane bitwise exclusive OR. -/
  | ixor (w : W0) (r : Alu)
  /-- INOT, opcode 0x4D (R96): Lane bitwise NOT. -/
  | inot (w : W0)
  /-- ISHL, opcode 0x4E (R99): Lane left shift at 32 or 64 bits, zero for large counts. -/
  | ishl (w : W0) (r : Alu)
  /-- ISHR, opcode 0x4F (R99): Lane logical right shift at 32 or 64 bits. -/
  | ishr (w : W0) (r : Alu)
  /-- ISAR, opcode 0x50 (R99): Lane arithmetic right shift at 32 or 64 bits. -/
  | isar (w : W0) (r : Alu)
  /-- BFE, opcode 0x51 (R100): Extracts a bit field per lane, optionally sign-extended. -/
  | bfe (w : W0) (r : Alu)
  /-- BFI, opcode 0x52 (R100): Inserts a bit field into the destination per lane. -/
  | bfi (w : W0) (r : Alu)
  /-- POPC, opcode 0x53 (R101): Counts the set bits of a lane register. -/
  | popc (w : W0)
  /-- CLZ, opcode 0x54 (R101): Counts the leading zero bits of a lane register. -/
  | clz (w : W0)
  /-- BREV, opcode 0x55 (R101): Reverses the bits of a lane register. -/
  | brev (w : W0)
  /-- IMIN, opcode 0x56 (R102): Lane signed or unsigned minimum. -/
  | imin (w : W0) (r : Alu)
  /-- IMAX, opcode 0x57 (R102): Lane signed or unsigned maximum. -/
  | imax (w : W0) (r : Alu)
  /-- IABS, opcode 0x58 (R102): Lane wrapping absolute value. -/
  | iabs (w : W0)
  /-- ICMP, opcode 0x59 (R103): Compares lane values and writes a lane predicate. -/
  | icmp (w : W0) (r : Alu)
  /-- SEL, opcode 0x5A (R104): Selects one of two lane registers by a lane predicate. -/
  | sel (w : W0) (r : Alu)
  /-- LEA, opcode 0x5B (R105): Forms a per-lane 64-bit address from a group-wide base and a lane index. -/
  | lea (w : W0) (r : Alu)
  /-- ICVT, opcode 0x5C (R106): Converts between integer types with saturation. -/
  | icvt (w : W0) (r : Alu)
  /-- IADDS, opcode 0x5D (R107): Lane saturating addition or subtraction. -/
  | iadds (w : W0) (r : Alu)
  /-- IDOT4, opcode 0x5E (R97): Adds a four-way int8 dot product to an accumulator per lane. -/
  | idot4 (w : W0) (r : Alu)
  /-- FADD, opcode 0x60 (R118): Floating-point addition rounded once. -/
  | fadd (w : W0) (r : Alu)
  /-- FSUB, opcode 0x61 (R118): Floating-point subtraction rounded once. -/
  | fsub (w : W0) (r : Alu)
  /-- FMUL, opcode 0x62 (R118): Floating-point multiplication rounded once. -/
  | fmul (w : W0) (r : Alu)
  /-- FFMA, opcode 0x63 (R118): Fused floating-point multiply-add with a single rounding. -/
  | ffma (w : W0) (r : Alu)
  /-- FMIN, opcode 0x64 (R119): IEEE minimumNumber per lane. -/
  | fmin (w : W0) (r : Alu)
  /-- FMAX, opcode 0x65 (R119): IEEE maximumNumber per lane. -/
  | fmax (w : W0) (r : Alu)
  /-- FCMP, opcode 0x66 (R120): Compares floating-point values and writes a lane predicate. -/
  | fcmp (w : W0) (r : Alu)
  /-- FCLASS, opcode 0x67 (R121): Writes a one-hot class of a floating-point operand. -/
  | fclass (w : W0) (r : Alu)
  /-- FRND, opcode 0x68 (R122): Rounds to an integral value in the same format. -/
  | frnd (w : W0) (r : Alu)
  /-- FRCP, opcode 0x69 (R123): Correctly rounded reciprocal. -/
  | frcp (w : W0) (r : Alu)
  /-- FRSQ, opcode 0x6A (R123): Correctly rounded reciprocal square root. -/
  | frsq (w : W0) (r : Alu)
  /-- FSQRT, opcode 0x6B (R123): Correctly rounded square root. -/
  | fsqrt (w : W0) (r : Alu)
  /-- FEXP2, opcode 0x6C (R123): Correctly rounded power of two. -/
  | fexp2 (w : W0) (r : Alu)
  /-- FLOG2, opcode 0x6D (R123): Correctly rounded base-2 logarithm. -/
  | flog2 (w : W0) (r : Alu)
  /-- FSIN, opcode 0x6E (R123): Correctly rounded sin(pi a). -/
  | fsin (w : W0) (r : Alu)
  /-- FCOS, opcode 0x6F (R123): Correctly rounded cos(pi a). -/
  | fcos (w : W0) (r : Alu)
  /-- FTANH, opcode 0x70 (R123): Correctly rounded hyperbolic tangent. -/
  | ftanh (w : W0) (r : Alu)
  /-- FSCALE, opcode 0x71 (R124): Multiplies by a power of two with one rounding. -/
  | fscale (w : W0) (r : Alu)
  /-- DADD, opcode 0x72 (R118): FP64 addition on register pairs. -/
  | dadd (w : W0) (r : Alu)
  /-- DMUL, opcode 0x73 (R118): FP64 multiplication on register pairs. -/
  | dmul (w : W0) (r : Alu)
  /-- DFMA, opcode 0x74 (R118): FP64 fused multiply-add on register pairs. -/
  | dfma (w : W0) (r : Alu)
  /-- DCMP, opcode 0x75 (R120): Compares FP64 values and writes a lane predicate. -/
  | dcmp (w : W0) (r : Alu)
  /-- HADD2, opcode 0x76 (R125): Packed half-width addition per element. -/
  | hadd2 (w : W0) (r : Alu)
  /-- HMUL2, opcode 0x77 (R125): Packed half-width multiplication per element. -/
  | hmul2 (w : W0) (r : Alu)
  /-- HFMA2, opcode 0x78 (R125): Packed half-width fused multiply-add per element. -/
  | hfma2 (w : W0) (r : Alu)
  /-- FDOT2, opcode 0x79 (R126): Accumulates a packed two-way product into FP32 with one rounding. -/
  | fdot2 (w : W0) (r : Alu)
  /-- PLOP, opcode 0x80 (R132): Computes any function of three predicates per lane into a lane predicate. -/
  | plop (w : W0) (r : Alu)
  /-- PMOV, opcode 0x81 (R133): Moves predicates between the PALL word or one predicate and lane registers. -/
  | pmov (w : W0) (r : Alu)
  /-- VOTE, opcode 0x82 (R134): Writes ANY, ALL or UNI of a lane predicate over Active to a group-wide predicate. -/
  | vote (w : W0) (r : Alu)
  /-- BALLOT, opcode 0x83 (R134): Writes the mask of Active lanes holding a predicate to a group-wide register. -/
  | ballot (w : W0) (r : Alu)
  /-- SHFL, opcode 0x84 (R136): Gives each Active lane the register of a source lane by index, up, down or xor. -/
  | shfl (w : W0) (r : Alu)
  /-- RDLANE, opcode 0x85 (R135): Copies one lane's register into a group-wide register. -/
  | rdlane (w : W0) (r : Alu)
  /-- WRLANE, opcode 0x86 (R135): Copies a group-wide register into one Active lane. -/
  | wrlane (w : W0) (r : Alu)
  /-- MATCH, opcode 0x87 (R137): Gives each Active lane the mask of Active lanes with equal operand bits. -/
  | matchv (w : W0) (r : Alu)
  /-- PRANK, opcode 0x88 (R134): Gives each Active lane the count of lower Active lanes holding a predicate. -/
  | prank (w : W0) (r : Alu)
  /-- LRED, opcode 0x89 (R138): Reduces an operand over the Active lanes by a fixed tree and broadcasts the result. -/
  | lred (w : W0) (r : Alu)
  /-- LSREAD, opcode 0x8A (R140): Writes a lane special to every Active lane. -/
  | lsread (w : W0)
  /-- FCVT, opcode 0x90 (R157): Converts between standard floating and integer formats. -/
  | fcvt (w : W0) (r : Alu)
  /-- FPACK, opcode 0x91 (R158): Encodes k FP32 values into one register under a format register. -/
  | fpack (w : W0) (r : Alu)
  /-- FUNPACK, opcode 0x92 (R158): Decodes the k narrow codes of one register into FP32 registers. -/
  | funpack (w : W0) (r : Alu)
  /-- FMLD, opcode 0x93 (R160): Loads a format register from a register pair or the context format table. -/
  | fmld (w : W0) (r : Alu)
  /-- FMST, opcode 0x94 (R160): Copies a format register to a group-wide pair. -/
  | fmst (w : W0) (r : Alu)
  /-- FSCL, opcode 0x95 (R159): Chooses the block scale byte for a lane's largest magnitude. -/
  | fscl (w : W0) (r : Alu)
  /-- LD, opcode 0xA0 (R186): Loads one access per Active lane from memory. -/
  | ld (w : W0) (m : MemF)
  /-- ST, opcode 0xA1 (R186): Stores one access per Active lane into the group store buffer. -/
  | st (w : W0) (m : MemF)
  /-- LDW, opcode 0xA2 (R187): Loads one group-contiguous block, one share per lane. -/
  | ldw (w : W0) (m : MemF)
  /-- STW, opcode 0xA3 (R187): Stores one group-contiguous block, one share per lane. -/
  | stw (w : W0) (m : MemF)
  /-- LDG, opcode 0xA4 (R188): Gathers one element per lane through a memory-side packet and the Sieve. -/
  | ldg (w : W0) (m : MemF)
  /-- STG, opcode 0xA5 (R188): Scatters one element per lane through a memory-side packet. -/
  | stg (w : W0) (m : MemF)
  /-- LDS, opcode 0xA6 (R190): Loads from a team scratchpad allocation with offset wrap. -/
  | lds (w : W0) (m : MemF)
  /-- STS, opcode 0xA7 (R190): Stores to a team scratchpad allocation with offset wrap. -/
  | sts (w : W0) (m : MemF)
  /-- PREF, opcode 0xA8 (R189): Requests lines into L1 and L2 without trapping. -/
  | pref (w : W0) (m : MemF)
  /-- COMMIT, opcode 0xA9 (R232): Pushes the group's buffered writes, and cumulatively the team's and cluster's, up to a level. -/
  | commit (w : W0) (r : RRaw)
  /-- COMMIT_CHK, opcode 0xA9 (R234): Checks for sibling write conflicts in the window and either commits to TEAM or CLUS or fails. -/
  | commitChk (w : W0) (r : RRaw)
  /-- ABORT, opcode 0xAA (R235): Discards buffered entries of the group, team or cluster at and below a level. -/
  | abort (w : W0) (r : RRaw)
  /-- FENCE, opcode 0xAB (R247): Performs a release, acquire, both, or an SC fence at a scope. -/
  | fence (w : W0) (r : RRaw)
  /-- WBR, opcode 0xAC (R245): Writes pending-home bytes of a range back to their homes, and to SYS if asked. -/
  | wbr (w : W0) (r : RRaw)
  /-- INVR, opcode 0xAD (R246): Sends pending bytes and drops stale guest and L1 copies of a range on the issuing die. -/
  | invr (w : W0) (r : RRaw)
  /-- APPEND, opcode 0xAE (R195): Appends bytes to a Granary log and returns their offset. -/
  | append (w : W0) (r : RRaw)
  /-- APSYNC, opcode 0xAF (R197): Completes when the group's earlier appends to a log are durable in flash. -/
  | apsync (w : W0) (r : RRaw)
  /-- CSTAT, opcode 0xB0 (R253): Reads and clears the commit status word or MEMST. -/
  | cstat (w : W0)
  /-- ATOM, opcode 0xC0 (R260): Performs an atomic read-modify-write per lane and returns the old value. -/
  | atom (w : W0) (m : MemF)
  /-- CAS, opcode 0xC1 (R260): Performs an atomic compare-and-swap per lane and returns the old value. -/
  | cas (w : W0) (m : MemF)
  /-- RED, opcode 0xC2 (R260): Performs an atomic reduction per lane without returning a value. -/
  | red (w : W0) (m : MemF)
  /-- ATOMS, opcode 0xC3 (R260): Performs an atomic operation on scratchpad in the core's atomic unit. -/
  | atoms (w : W0) (m : MemF)
  /-- UATOM, opcode 0xC4 (R266): Invokes a user-defined atomic operation run by the owning Miller. -/
  | uatom (w : W0) (m : MemF)
  /-- BINIT, opcode 0xC5 (R271): Initialises a barrier object with its arrival target. -/
  | binit (w : W0) (r : RRaw)
  /-- BARV, opcode 0xC6 (R272): Releases and arrives at a barrier object of the own or a peer team. -/
  | barv (w : W0) (r : RRaw)
  /-- BWAIT, opcode 0xC7 (R273): Holds the slot until a barrier phase has passed, then acquires. -/
  | bwait (w : W0) (r : RRaw)
  /-- BTEST, opcode 0xC8 (R273): Writes whether a barrier phase has passed and acquires. -/
  | btest (w : W0) (r : RRaw)
  /-- BEXP, opcode 0xC9 (R271): Adds to the byte target of a barrier object and checks for completion. -/
  | bexp (w : W0) (r : RRaw)
  /-- CHKT, opcode 0xCA (R274): Tests chunk-bitmap bits against a mask into a group-wide predicate. -/
  | chkt (w : W0) (r : RRaw)
  /-- TIME, opcode 0xCB (R276): Writes the die's 64-bit time base to a group-wide pair. -/
  | time (w : W0)
  /-- CPY, opcode 0xD0 (R286): Queues a linear block-transfer command built in eight group-wide registers. -/
  | cpy (w : W0)
  /-- CPY2D, opcode 0xD1 (R286): Queues a two-dimensional block-transfer command. -/
  | cpy2d (w : W0)
  /-- CPYM, opcode 0xD2 (R290): Queues a multicast copy to selected teams of the cluster. -/
  | cpym (w : W0)
  /-- CPYG, opcode 0xD3 (R290): Queues an indexed gather copy into scratchpad. -/
  | cpyg (w : W0)
  /-- CPYQ, opcode 0xD4 (R292): Reads the group's copy status and clears its error fields. -/
  | cpyq (w : W0)
  /-- CPYC, opcode 0xD5 (R293): Cancels the team's uncompleted copy commands by tag or all. -/
  | cpyc (w : W0)
  /-- MMA, opcode 0xD8 (R312): Queues a dense matrix multiply-accumulate into an accumulator tile. -/
  | mma (w : W0) (r : RRaw)
  /-- MMAS, opcode 0xD9 (R312): Queues a 2:4-sparse matrix multiply-accumulate. -/
  | mmas (w : W0) (r : RRaw)
  /-- MZERO, opcode 0xDA (R314): Queues the clearing of an accumulator tile and its status. -/
  | mzero (w : W0)
  /-- MLDC, opcode 0xDB (R315): Queues a load of an accumulator tile from scratchpad. -/
  | mldc (w : W0) (r : RRaw)
  /-- MDRAIN, opcode 0xDC (R316): Queues the conversion and write-out of a tile, with optional amax merge. -/
  | mdrain (w : W0) (r : RRaw)
  /-- MFENCE, opcode 0xDD (R318): Closes the group's unbatched matrix commands into a batch naming a barrier object. -/
  | mfence (w : W0) (r : RRaw)
  /-- MYOKE_REPORT, opcode 0xDE (R319): Writes the yoke report word. -/
  | myokeReport (w : W0)
  /-- MYOKE_UNBIND, opcode 0xDE (R319): Unbinds the team's yoke once the leader queue holds none of its commands. -/
  | myokeUnbind (w : W0)
  /-- MYOKE_BIND, opcode 0xDE (R319): Binds the team's yoke once the follower's matrix queue is empty. -/
  | myokeBind (w : W0)
  /-- MSTAT, opcode 0xDF (R320): Reads the matrix engine, residue or tile status word. -/
  | mstat (w : W0)
  /-- ALLOC, opcode 0xE0 (R214): Binds a new scratchpad allocation to a handle from the team's reserve. -/
  | alloc (w : W0) (r : RRaw)
  /-- FREE, opcode 0xE1 (R215): Unbinds a handle and returns its rows once no lock or command covers it. -/
  | free (w : W0)
  /-- RENEW, opcode 0xE2 (R216): Sets a new lease and restamps the live rows of an allocation. -/
  | renew (w : W0)
  /-- AQRY, opcode 0xE3 (R217): Writes the state of an allocation to a group-wide pair. -/
  | aqry (w : W0)
  /-- RECLASS, opcode 0xE4 (R218): Changes the class, lease and format of an allocation. -/
  | reclass (w : W0) (r : RRaw)
  /-- SRD, opcode 0xF0 (R327): Reads a system register. -/
  | srd (w : W0) (imm : Word)
  /-- SWR, opcode 0xF1 (R327): Writes a system register under its access codes. -/
  | swr (w : W0) (imm : Word)
  /-- LAUNCH, opcode 0xF2 (R340): Releases and submits a launch record to the context's device-side queue. -/
  | launch (w : W0)
  /-- IPUSH, opcode 0xF3 (R341): Pushes each Active lane's value into the launch's item queue. -/
  | ipush (w : W0)
  /-- IPUSH_CLOSE, opcode 0xF3 (R341): Closes the launch's item queue when Active is non-empty. -/
  | ipushClose (w : W0)
  /-- RESUME, opcode 0xF4 (R349): Makes a parked group or team ready, or releases an engine fault entry. -/
  | resume (w : W0)
  /-- KILLG, opcode 0xF5 (R349): Kills every lane of a group or team and discards its parked instructions. -/
  | killg (w : W0)
  /-- TLBINV, opcode 0xF6 (R354): Drops cached translations of a range, a context or all contexts on every die. -/
  | tlbinv (w : W0) (r : RRaw)
  /-- EVCNT, opcode 0xF7 (R357): Reads an event counter into a group-wide pair. -/
  | evcnt (w : W0)
  /-- HALTC, opcode 0xF8 (R355): Soft-halts or freezes a core. -/
  | haltc (w : W0) (r : RRaw)
  /-- GOC, opcode 0xF9 (R355): Ends the halt and freeze of a core. -/
  | goc (w : W0)
  /-- ECCI, opcode 0xFA (R358): Arms an injected error at a register, L2 or DRAM site. -/
  | ecci (w : W0) (r : RRaw)
  /-- PICK, event (R66): An issue port chooses a (group, PC slot) pair for the cycle, updating wait counts, and may lose shared-resource arbitration. -/
  | pick (die : Nat) (core : Nat) (port : Nat) (lose : Bool)
  /-- COMPLETION, event (R28): A long-latency instruction completes, writing its results and decrementing its completion flag. -/
  | completion (grp : Nat) (op : Nat)
  /-- GROUP_RETIRE, event (R85): A group with no lanes retires after its counted instructions complete, committing its GSB to TEAM and freeing its rows and slot. -/
  | groupRetire (grp : Nat)
  /-- SLEEP_WAKE, event (R87): A sleeping slot becomes ready once the time base has advanced by its count. -/
  | sleepWake (grp : Nat) (slotB : Bool)
  /-- TRAP_ENTRY, event (R344): After both slots stop, the trap frame is written and the handler entered at TRAPVEC on the trapping lanes. -/
  | trapEntry (grp : Nat)
  /-- FAULT_BUFFER_ENTRY_FREE, event (R177): A freed fault-buffer entry is reserved for the oldest waiter, which is issued again. -/
  | faultBufferEntryFree (core : Nat)
  /-- FAULT_QUEUE_ENTRY, event (R348): A 32-byte park or engine-fault entry is written to the package fault queue, waiting while the queue is full. -/
  | faultQueueEntry
  /-- BACKGROUND_DRAIN, event (R242): Pending-home data is sent to its homes by the unbounded background drain. -/
  | backgroundDrain (die : Nat) (lines : Nat)
  /-- GUEST_EVICTION, event (R242): Eviction of a guest line sends its pending-home bytes to the home. -/
  | guestEviction (die : Nat) (line : Nat)
  /-- L1_LINE_DROP, event (R162): An L1 line nearing the end of its retention is dropped instead of refreshed. -/
  | l1LineDrop (core : Nat) (line : Nat)
  /-- MILLER_ATOMIC, event (R257): A Miller performs a queued standard atomic lane operation under a line lock and writes the old value to the requesting lane. -/
  | millerAtomic (die : Nat) (req : Nat)
  /-- AMAX, event (R317): The owning Miller merges a drained tile's largest magnitude into a memory word. -/
  | amax (core : Nat) (cmd : Nat)
  /-- BARW, event (R275): A Miller applies an arrival to a saved barrier object of an absent team. -/
  | barw (req : Nat)
  /-- USER_OPERATION, event (R266): A Miller runs a user-defined operation fragment for one lane operation. -/
  | userOperation (die : Nat) (req : Nat)
  /-- REMOTE_ARRIVAL, event (R272): An arrival of a BARV is applied to the barrier object of the target team. -/
  | remoteArrival (req : Nat)
  /-- COPY_COMMAND_START, event (R280): The engine starts a queued command once conflicting earlier commands have finished. -/
  | copyCommandStart (core : Nat) (cmd : Nat)
  /-- GUARD_RESOLVE, event (R287): A queued command with an unresolved guard runs or is discarded when its predicate is written. -/
  | guardResolve (core : Nat) (matrix : Bool)
  /-- CHUNK_LAND, event (R288): A 512-byte chunk lands, then its bitmap bit is set and its bytes are counted on the barrier. -/
  | chunkLand (core : Nat) (cmd : Nat) (chunk : Nat)
  /-- MATRIX_COMMAND_START, event (R302): A queued matrix command starts on the array or tile port once earlier tile and range conflicts are clear. -/
  | matrixCommandStart (core : Nat) (cmd : Nat)
  /-- BATCH_ARRIVAL, event (R318): A batch whose commands have completed arrives at its barrier object after its predecessors. -/
  | batchArrival (core : Nat) (batch : Nat)
  /-- COLUMN_REMAP, event (R325): A spare array column replaces a marked one when the array is next idle. -/
  | columnRemap (core : Nat)
  /-- REFRESH, event (R220): The refresh engine rewrites a live operand-store row within its refresh period. -/
  | refresh (core : Nat) (row : Nat)
  /-- ROW_REMAP, event (R223): A row queued for remapping is replaced by a spare row once no allocation holds it. -/
  | rowRemap (core : Nat)
  /-- HOST_NOP, event (R328): Host command that does nothing. -/
  | hostNop (q : Nat)
  /-- HOST_LAUNCH, event (R331): Host command carrying a launch record. -/
  | hostLaunch (q : Nat)
  /-- SIGNAL, event (R328): Writes a value with SYS release after earlier commands of the queue complete. -/
  | signal (q : Nat)
  /-- WAIT, event (R328): Holds later commands of the queue until a memory value reaches the operand. -/
  | wait (q : Nat)
  /-- BUFSET, event (R328): Sets the range of a buffer handle. -/
  | bufset (q : Nat)
  /-- BUFFREE, event (R328): Frees a buffer handle. -/
  | buffree (q : Nat)
  /-- CTXSET, event (R328): Writes up to 15 registers of a context from queue 0. -/
  | ctxset (q : Nat)
  /-- QSET, event (R328): Configures a host queue from queue 0. -/
  | qset (q : Nat)
  /-- LOGBIND, event (R196): Binds, rebinds or unbinds a Granary log. -/
  | logbind (q : Nat)
  /-- LOGBIND_REBIND, event (R196): A rebind takes effect once every append already accepted to the log has completed. -/
  | logbindRebind (ctx : Nat) (log : Nat)
  /-- UOPSET, event (R328): Installs or removes a user operation in every Miller's table. -/
  | uopset (q : Nat)
  /-- PREEMPT, event (R328): Holds or releases a queue's launches, swapping out their placed teams. -/
  | preempt (q : Nat)
  /-- CTXRESET, event (R328): Resets a context from queue 0. -/
  | ctxreset (q : Nat)
  /-- CONTEXT_RESET, event (R350): A context reset removes its groups, buffers, commands and fault entries and ends its launches with status 3. -/
  | contextReset (ctx : Nat)
  /-- WATCHDOG_EXPIRY, event (R350): A launch not complete WDLIMIT microseconds after dispatch resets or reports its context. -/
  | watchdogExpiry (launch : Nat)
  /-- LAUNCH_DISPATCH, event (R337): A launch is dispatched to the distributors once queue order, handle waits and DEP allow, with the handle write-back and invalidation. -/
  | launchDispatch (launch : Nat)
  /-- CLUSTER_PLACE, event (R336): A distributor places one cluster on the first fitting rectangle and gives its groups private windows. -/
  | clusterPlace (die : Nat)
  /-- LAUNCH_COMPLETE, event (R333): A launch whose teams have retired completes and its completion record is written. -/
  | launchComplete (launch : Nat)
  /-- ITEM_BATCH, event (R342): A core whose item queue holds fewer than 256 receives the next batch of initial items. -/
  | itemBatch (core : Nat) (launch : Nat)
  /-- PLACEMENT_TIMEOUT, event (R351): A higher-priority cluster that fails to fit for 100 microseconds causes lower-priority teams to be swapped out. -/
  | placementTimeout (die : Nat)
  /-- SWAP_OUT, event (R352): A team is stopped, drained of outstanding work, saved to its save area and freed from its core. -/
  | swapOut (team : Nat)
  /-- SWAP_IN, event (R352): A saved team is placed again and its state restored after pending BARW and landings. -/
  | swapIn (team : Nat) (core : Nat)
  /-- TRANSLATION_JOB_COMPLETE, event (R370): The Thresher installs a translated clause in the address map and resumes the groups parked with CNR.`map` pairs stream words with their clauses, both as word indices of the code window; pairs whose first number is past the window give, in order, the words of the object's kernel table (R360). -/
  | translationJobComplete (job : Nat) (arena : Nat) (words : List (BitVec 32)) (map : List (Nat × Nat))
  /-- FIRST_PASS, event (R368): The Thresher makes the first translation of a level-1 kernel as epoch 1. `map` as of TRANSLATION_JOB_COMPLETE. -/
  | firstPass (ctx : Nat) (obj : Nat) (arena : Nat) (words : List (BitVec 32)) (map : List (Nat × Nat))
  /-- SECOND_PASS, event (R368): The Thresher makes a packed retranslation as a new epoch in the background. `map` as of TRANSLATION_JOB_COMPLETE. -/
  | secondPass (ctx : Nat) (obj : Nat) (arena : Nat) (words : List (BitVec 32)) (map : List (Nat × Nat))
  /-- APPEND_DURABLE, event (R197): Appended data held in the append buffer becomes durable in flash. -/
  | appendDurable (req : Nat)
  /-- DOORBELL, event (R328): A host write of a queue doorbell gives the ring's new tail for the command processor to read. -/
  | doorbell (q : Nat) (tail : BitVec 32)
  /-- ADMEN, event (R387): Writing ADMEN enables the administrative queue 0 from ADMBASE and ADMSIZE. -/
  | admen
  /-- HOST_READ, event (R386): An inbound BAR2 read through a window returns bytes accepted at DEV. -/
  | hostRead (off : Nat) (len : Nat)
  /-- HOST_WRITE, event (R386): An inbound BAR2 posted write is accepted at its home L2. -/
  | hostWrite (off : Nat) (data : List (BitVec 8))
  /-- HOST_ATOMICOP, event (R385): An inbound PCIe AtomicOp on BAR2 is performed by the owning Miller at DEV. -/
  | hostAtomicop (off : Nat) (op : Nat) (wide : Bool) (v : BitVec 64) (v2 : BitVec 64)
  /-- ATTESTATION_REPORT, event (R393): Writing 1 to ATTREQ makes the security root write a signed report and raise vector 3. -/
  | attestationReport
  /-- IDENTITY_CERTIFICATE, event (R393): Writing 2 to ATTREQ places the identity certificate in the mailbox. -/
  | identityCertificate
  /-- PEER_ACCESS, event (R389): A TIER 3 access arriving over a Veath link is checked against the export table and served at the home L2. -/
  | peerAccess (port : Nat) (kind : Nat) (off : Nat) (data : List (BitVec 8)) (v : BitVec 64) (v2 : BitVec 64)
  /-- LINK_RETRAIN, event (R388): After 16 consecutive failed flit replays a Veath link retrains, or goes down if it fails. -/
  | linkRetrain (port : Nat) (ok : Bool)
  /-- DRAIN_START, event (R251): Writing START to DRAINCTL begins a drain of the selected kinds. -/
  | drainStart (value : BitVec 32)
  /-- DRAIN_COMPLETE, event (R251): A drain finishes, clearing BUSY and setting DONE. -/
  | drainComplete
  /-- EVSEL_CLR, event (R356): Writing CLR zeroes the selected event counter. -/
  | evselClr (index : Nat) (unit : Nat)
  /-- TEMPMAX_CLR, event (R381): Writing CLR sets HIGH to the current temperature. -/
  | tempmaxClr
  /-- THRESHOLD_WRITE, event (R381): A write of THR1 to THR3 stores UP and DOWN clamped to their limits. -/
  | thresholdWrite (k : Nat) (value : BitVec 32)
  /-- THCMD_COOL, event (R382): Thermal command COOL starts descent from PURGE or re-cooling from WARM. -/
  | thcmdCool
  /-- THCMD_GO, event (R382): Thermal command GO moves READY to RUN. -/
  | thcmdGo
  /-- THCMD_RESUME, event (R382): Thermal command RESUME leaves SAFE for EXCURSION-2 when cool enough. -/
  | thcmdResume
  /-- THCMD_SAFE, event (R382): Thermal command SAFE enters SAFE from a running state. -/
  | thcmdSafe
  /-- THCMD_ASCEND, event (R382): Thermal command ASCEND enters ASCENT. -/
  | thcmdAscend
  /-- REGISTER_WRITE, event (R3): A write to a register with no behaviour of its own, under its access codes. -/
  | registerWrite (space : Nat) (index : Nat) (unit : Nat) (value : BitVec 32)
  /-- SENSOR_SAMPLE, event (R378): The supervisor samples all sensors each millisecond, forms the package temperature and evaluates band and state triggers. -/
  | sensorSample (readings : List Nat) (dew : Nat)
  /-- BAND_CHANGE, event (R380): A band change applies refresh, timing set and clock in the fixed order within 2 ms of its trigger. -/
  | bandChange
  /-- BAND_RETURN_HOLD, event (R379): Ten seconds of samples below the DOWN threshold return the package one band. -/
  | bandReturnHold
  /-- POWER_ON, event (R382): Standby power applied leaves OFF for PURGE when boot verification passes. -/
  | powerOn (verified : Bool) (appendOk : Bool)
  /-- POWER_OFF, event (R382): Standby power removed returns the package to OFF. -/
  | powerOff
  /-- DEW_POINT_HOLD, event (R382): Five minutes with the dew point below 200 K in PURGE enables descent on COOL. -/
  | dewPointHold
  /-- PURGE_TIMEOUT, event (R382): Failing to reach the dew point within 60 minutes returns PURGE to OFF with TERR 1. -/
  | purgeTimeout
  /-- RATE_MEASURE, event (R382): Every 60 s in DESCENT the cooling rate is measured and RATEV set if above 2 K/min. -/
  | rateMeasure (rate : Nat)
  /-- SOAK_HOLD, event (R382): Ten minutes with every sensor in 77 to 80 K moves SOAK to COLDTRAIN. -/
  | soakHold
  /-- COLDTRAIN_COMPLETE, event (R382): Cold self-test and training finish, entering READY or recording TERR 2. -/
  | coldtrainComplete (ok : Bool) (die : Nat) (badCores : List Nat)
  /-- FLIT_REPLAY, event (R388): A Veath flit that fails its CRC at the receiver is asked for again by sequence number and replayed. -/
  | flitReplay (port : Nat)
deriving DecidableEq, Repr

end Sys2Proof
end

