-- ==== Sys2Proof/Machine/State.lean ====
section
/-!
DEFINITION. The state of the package as plain data, the reasons a step can stop, and the state
after reset. Every table is an `SMap`, so equal states are equal data. INVENTORY.md lists every
field with the rule that names it; fields marked "model's own" there carry no architectural
meaning of their own.
-/

namespace Sys2Proof.Machine

/-- Why the machine stops. No instruction of this hardware stops the package: traps and parks
are next states (15_system R343). -/
inductive Fault where
  /-- Raised by no meaning: kept so that the type is inhabited by a name. Safe. -/
  | halted
deriving DecidableEq, Repr

/-- Why an instruction has no meaning here. -/
inductive Refusal where
  /-- The instruction's meaning is not written: raised by its arm of `exec` only. Safe. -/
  | notModelled (mnemonic : String)
deriving DecidableEq, Repr

/-- A PC slot (04_control R63). `wake` is the time at which a SLEEP ends, `wpc` and `wins` where the
slot then goes on (R87), `only` the lanes a replay is limited to (09_memory R178), `again` the Active of
an instruction that parked at issue and is to issue again (09_memory R176; 15_system R349): all five
the model's own. -/
structure PcSlot where
  v : Bool := false
  pc : BitVec 24 := 0
  ins : Nat := 0
  own : Word := 0
  act : Word := 0
  ja : BitVec 24 := 0
  nj : Bool := false
  arr : Bool := false
  slp : Bool := false
  wake : Nat := 0
  wpc : BitVec 24 := 0
  wins : Nat := 0
  only : Option Word := none
  again : Option Word := none
deriving DecidableEq, Repr

/-- Kinds of divergence record (04_control R71). -/
inductive RecKind where
  | path | join | call
deriving DecidableEq, Repr

/-- A cached divergence record (04_control R71). -/
structure DivRec where
  kind : RecKind := .path
  arr : Bool := false
  ins : Nat := 0
  pc : BitVec 24 := 0
  nj : Bool := false
  ja : BitVec 24 := 0
  mask : Word := 0
  exm : Word := 0
deriving DecidableEq, Repr

/-- A class range cr0 to cr3 of a group (10_allocation R201, R206). -/
structure ClassRange where
  valid : Bool := false
  first : Nat := 0
  last : Nat := 0
  cls : Nat := 0
  lease : Nat := 0
deriving DecidableEq, Repr

/-- What an outstanding counted instruction writes when it completes: a 32-bit word. -/
structure PendWord where
  key : Nat
  val : Word
  pois : Bool := false
deriving DecidableEq, Repr

/-- What an outstanding counted instruction is, for the rules that order completions (11_visibility
R238, R241, R247, R253; 13_copy R286): a load, a scratchpad store, an instruction of the ladder
(COMMIT, WBR, INVR), ABORT, FENCE, CSTAT, an atomic, a barrier instruction, an APPEND, an APSYNC, a
command of an engine, or another. -/
inductive OpKind where
  | other | load | sts | ladder | abort | fence | cstat | atomic | barrier | append | apsync | engine
deriving DecidableEq, Repr

/-- An outstanding counted instruction (02_encoding R28, R30). `flag` is the flag it counts on,
`ready` is false while an engine or a Miller still has its work, `lc` its issue clock. -/
structure PendOp where
  id : Nat := 0
  kind : OpKind := .other
  /-- An acquire at a scope: until it completes, with its self-invalidation, it holds back the group's
  later accesses (11_visibility R238, R239). -/
  acq : Option Nat := none
  flag : Option Nat := none
  v : List PendWord := []
  g : List PendWord := []
  gp : Option (Nat × Bool) := none
  lc : Nat := 0
  ready : Bool := true
  /-- Lane words the operation will write whose values it does not have yet. -/
  dst : List Nat := []
  /-- The log an APPEND went to, or an APSYNC waits on, with the order number (R197). -/
  log : Option (Nat × Nat) := none
  /-- What an STS stores when it completes (09_memory R191): the handle, and per byte its offset, its
  value and the bits written. -/
  sh : Nat := 0
  sts : List (Nat × Byte × Byte) := []
deriving DecidableEq, Repr

/-- One buffered byte (11_visibility R225 to R227): its value, the bits of it that are written
(R150), its poison mark, the group or team whose commit placed it and that commit's number, and the
group that stored it (09_memory R183). -/
structure BCell where
  val : Byte := 0
  mask : Byte := 0
  pois : Bool := false
  by_ : Nat := 0
  seq : Nat := 0
  wr : Nat := 0
deriving DecidableEq, Repr

/-- What a page says of the lines in it (09_memory R169, R170): the tier, the home die of the
byte, the cache policy and SWC. -/
structure PAttr where
  tier : Nat := 0
  home : Nat := 0
  cp : Nat := 0
  swc : Bool := false
deriving DecidableEq, Repr

/-- A buffer entry of one 16-byte sector (11_visibility R225 to R227). `sec` is the sector's
number, its physical key over 16, and `age` the order of its allocation. -/
structure SecEntry where
  sec : Nat := 0
  attr : PAttr := {}
  age : Nat := 0
  cells : SMap BCell := []
deriving DecidableEq, Repr

/-- A park of a group (15_system R348). `entry` is its fault-buffer entry. -/
structure Park where
  cause : Nat := 0
  slotB : Bool := false
  lanes : Word := 0
  addr : DWord := 0
  nrep : Bool := false
  entry : Option Nat := none
  /-- The D field of BRK (04_control R90). -/
  code : Nat := 0
  /-- The word index of the instruction that parked (15_system R348). -/
  word : BitVec 24 := 0
deriving DecidableEq, Repr

/-- What the hardware keeps of an interrupted group beside its frame (15_system R344 to R347):
the trapping slot and resume point, the lanes to replay, the records below the handler's, and
the lanes exited or killed meanwhile whose bits the frame could not take, its page not translating. -/
structure TrapCtx where
  slotB : Bool := false
  pc : BitVec 24 := 0
  ins : Nat := 0
  replay : Bool := false
  tlanes : Word := 0
  base : Nat := 0
  xk : Word := 0
  /-- The two slots as they were, for what the frame does not hold of a sleeping slot. -/
  keepA : PcSlot := {}
  keepB : PcSlot := {}
  /-- An ERX of this handler has opened the nested frame (R346). -/
  nested : Bool := false
deriving DecidableEq, Repr

/-- One lane's trap: its lane, cause, exception bits of FPX. -/
structure LaneTrap where
  lane : Nat := 0
  cause : Nat := 0
  lexc : Nat := 0
  addr : DWord := 0
deriving DecidableEq, Repr

/-- A trap still to be taken (15_system R344): its slot, the lanes with their causes, the code
of TRAP, and whether the resume point is the instruction itself. -/
structure PendTrap where
  slotB : Bool := false
  /-- The cause of a trap of a slot that has no lane. -/
  cause : Nat := 0
  lanes : List LaneTrap := []
  code : Nat := 0
  replay : Bool := true
  /-- The resume point. -/
  pc : BitVec 24 := 0
  ins : Nat := 0
  /-- The place and the word of the instruction that raised it (15_system R343, R348). -/
  ipc : BitVec 24 := 0
  iins : Nat := 0
  word : BitVec 24 := 0
deriving DecidableEq, Repr

/-- The state of a group (04_control R63, 03_groupwide R48 to R50, and the status words). -/
structure Group where
  live : Bool := false
  /-- The translations whose code the group has executed (16_loading R371). -/
  epochs : List Nat := []
  away : Bool := false
  launch : Nat := 0
  team : Nat := 0
  gidx : Nat := 0
  ctx : Nat := 0
  die : Nat := 0
  core : Nat := 0
  port : Nat := 0
  gslot : Nat := 0
  nreg : Nat := 0
  populated : Word := 0
  count : Bool := false
  fpte : Nat := 0
  window : Nat := 0
  slotA : PcSlot := {}
  slotB : PcSlot := {}
  /-- Cached records, newest first; `spilled` older ones are in memory. -/
  recs : List DivRec := []
  spilled : Nat := 0
  xs : Word := 0
  calldepth : Nat := 0
  rp : Option (BitVec 24) := none
  flags : SMap Nat := []
  g : SMap Word := []
  gp : SMap Bool := []
  v : SMap Word := []
  vst : SMap Nat := []
  vx : SMap Word := []
  vpois : SMap Word := []
  crs : SMap ClassRange := []
  p : SMap Word := []
  fm : SMap DWord := []
  fpstat : Word := 0
  memst : Word := 0
  csw : Word := 0
  cpyst : Word := 0
  mstst : Word := 0
  tlatch : Word := 0
  workidx : SMap Word := []
  issued : Nat := 0
  waitCnt : Nat := 0
  lastB : Bool := false
  /-- The slot that a MYOKE BIND or UNBIND holds until it takes effect (14_matrix R319, R324). -/
  yokeHeld : Option Bool := none
  gsb : List SecEntry := []
  gsbCap : Nat := 16
  horizon : Bool := false
  winTeam : Nat := 0
  winClus : Nat := 0
  pend : List PendOp := []
  unbatched : List Nat := []
  traps : List TrapCtx := []
  trapPend : Option PendTrap := none
  park : Option Park := none
  killed : Bool := false
deriving DecidableEq, Repr

/-- A scratchpad allocation (10_allocation R202 to R206); a size of 0 is an unbound handle. -/
structure Alloc where
  size : Nat := 0
  cls : Nat := 0
  fmtIdx : Nat := 0
  record : DWord := 0
  owner : Nat := 0
  lease : Nat := 0
  data : SMap Byte := []
  st : SMap Nat := []
  x : SMap Word := []
  pois : SMap Bool := []
  /-- The clock stamp of a row that `st` does not list: the binding's. -/
  st0 : Nat := 0
  /-- Count-mode clock of an owner that has retired (R204). -/
  frozen : Option Nat := none
  /-- Errors of cells that the next read of a word meets: the word's number to 1 plus the kind
  (10_allocation R222). -/
  arm : SMap Nat := []
deriving DecidableEq, Repr

/-- An accumulator tile (14_matrix R300, R321): elements by row*128 + column; status bits. -/
structure Tile where
  elems : SMap Word := []
  epois : SMap Bool := []
  nv : Bool := false
  of_ : Bool := false
  pois : Bool := false
  dnv : Bool := false
  dof : Bool := false
deriving DecidableEq, Repr

/-- The state of a team. -/
structure Team where
  live : Bool := false
  away : Bool := false
  launch : Nat := 0
  idx : Nat := 0
  ctx : Nat := 0
  die : Nat := 0
  core : Nat := 0
  ngrp : Nat := 0
  base : Nat := 0
  cluster : Nat := 0
  px : Nat := 0
  py : Nat := 0
  saveSlot : Nat := 0
  /-- Chosen to be swapped out, its slots stopped (15_system R351, R352). -/
  leaving : Bool := false
  handles : SMap Alloc := []
  /-- Rows of the ALLOC reserve still free, and all rows the team holds. -/
  reserve : Nat := 0
  rows : Nat := 0
  twb : List SecEntry := []
  quota : Nat := 512
  abortGen : Word := 0
  horizon : Bool := false
  l1thr : Nat := 0
  /-- The threshold the team was given when it was placed or swapped in: it sees no line filled
  before, .RO and SWC lines included (11_visibility R239). -/
  arrThr : Nat := 0
  nacc : Nat := 0
  /-- The core's tile numbers granted to the team, in the order of the team's own (01_machine R18;
  14_matrix R299). -/
  tileNos : List Nat := []
  tiles : SMap Tile := []
  yokeMode : Bool := false
  yokeBound : Bool := false
  yokeGrant : Nat := 0
  leftGroups : Nat := 0
  /-- The time-mode lease clock when the team was swapped out (12_atomics_barriers R267). -/
  awayAt : Nat := 0
deriving DecidableEq, Repr

/-- The state of a cluster (01_machine R14, 11_visibility R227). -/
structure Cluster where
  live : Bool := false
  launch : Nat := 0
  idx : Nat := 0
  ctx : Nat := 0
  die : Nat := 0
  x0 : Nat := 0
  y0 : Nat := 0
  w : Nat := 1
  h : Nat := 1
  leftTeams : Nat := 0
  merge : List SecEntry := []
  horizon : Bool := false
deriving DecidableEq, Repr

/-- A clean cached sector: its fill stamp, .RO and SWC marks, bytes and poisoned words. `clus` is the
cluster whose merge area gave some of its bytes, 0 for none (09_memory R182). -/
structure CSec where
  have_ : Bool := false
  stamp : Nat := 0
  ro : Bool := false
  swc : Bool := false
  clus : Nat := 0
  bytes : List Byte := []
  pois : List Bool := []
deriving DecidableEq, Repr

/-- A cached translation (09_memory R174): the context, the page's number at its own size, the leaf,
its size, and the format record captured with it (08_formats R152). -/
structure TlbEnt where
  ctx : Nat := 0
  page : Nat := 0
  leaf : DWord := 0
  big : Bool := false
  rec_ : DWord := 0
deriving DecidableEq, Repr

/-- Pending-home bytes of one line (11_visibility R242, R243). -/
structure PLine where
  have_ : Bool := false
  attr : PAttr := {}
  rel : Nat := 0
  cells : SMap BCell := []
deriving DecidableEq, Repr

/-- An issue port's memory of its last pick (04_control R66). -/
structure Port where
  last : Option Nat := none
  run : Nat := 0
  yld : Bool := false
deriving DecidableEq, Repr

/-- A locked range (13_copy R294): `whole` marks a scratchpad interval that wraps, which covers the whole
allocation, gaps included. -/
structure LockRange where
  owner : Nat := 0
  team : Nat := 0
  mem : Bool := false
  handle : Nat := 0
  lo : Nat := 0
  hi : Nat := 0
  wr : Bool := false
  whole : Bool := false
deriving DecidableEq, Repr

/-- One error armed by ECCI (15_system R358), or one of the cells: the site, where, and the kind. -/
structure ArmedErr where
  site : Nat := 0
  at_ : Nat := 0
  kind : Nat := 0
  /-- An error of the cells themselves, not one that ECCI armed (10_allocation R222). -/
  cell : Bool := false
deriving DecidableEq, Repr

/-- A copied chunk whose packets a frozen core holds in the mesh (13_copy R298): the destination team and
the bytes by their offsets in the tile, with whether the chunk's bit is to be set. -/
structure HeldPkt where
  chunk : Nat := 0
  team : Nat := 0
  runs : List (Nat × List Byte) := []
  good : Bool := true
deriving DecidableEq, Repr

/-- A command in the block-transfer engine's queue (13_copy R279 to R293). `kind`: 0 CPY, 1 CPY2D,
2 CPYM, 3 CPYG. `guard` is an unresolved guard: the predicate and its negation (R287). `after`
are the group's operations it waits for (R286). -/
structure CopyCmd where
  live : Bool := false
  kind : Nat := 0
  words : List Word := []
  grp : Nat := 0
  team : Nat := 0
  ctx : Nat := 0
  die : Nat := 0
  op : Nat := 0
  slotB : Bool := false
  guard : Option (Nat × Bool) := none
  /-- What the guard has resolved to. -/
  gval : Option Bool := none
  /-- The word index of the instruction that issued the command. -/
  word : Nat := 0
  after : List Nat := []
  started : Bool := false
  /-- Chunks landed or failed, but for packets still held. -/
  landed : List Nat := []
  held : List HeldPkt := []
  /-- Chunks waiting in the fault buffer, or released to be performed again. -/
  paused : List Nat := []
  dests : List Nat := []
  /-- CPYG's index list, read when the command starts. -/
  index : List Nat := []
deriving DecidableEq, Repr

/-- A command in the matrix queue (14_matrix R302 to R317). `kind`: 0 MMA, 1 MMAS, 2 MZERO,
3 MLDC, 4 MDRAIN. `a` is A or the descriptor as read at issue, `sc` A's scales, `fa` and `fc` the
format records. -/
structure MatCmd where
  live : Bool := false
  kind : Nat := 0
  grp : Nat := 0
  team : Nat := 0
  ctx : Nat := 0
  die : Nat := 0
  op : Nat := 0
  guard : Option (Nat × Bool) := none
  /-- What the guard has resolved to. -/
  gval : Option Bool := none
  /-- The word index of the instruction that issued the command. -/
  word : Nat := 0
  after : List Nat := []
  tile : Nat := 0
  ty : Nat := 0
  level1 : Bool := false
  a : List Word := []
  sc : List Word := []
  fa : DWord := 0
  fc : DWord := 0
  asc : Bool := false
  yoked : Bool := false
  handle : Nat := 0
  off : Nat := 0
  /-- Bytes of the range the command registers. -/
  span : Nat := 0
  dk : Bool := false
  amx : Option DWord := none
  started : Bool := false
  snap : Tile := {}
  landed : List Nat := []
  paused : List Nat := []
  amaxDone : Bool := false
deriving DecidableEq, Repr

/-- A batch closed by MFENCE and not yet arrived (14_matrix R318). -/
structure Batch where
  live : Bool := false
  grp : Nat := 0
  team : Nat := 0
  handle : Nat := 0
  off : Nat := 0
  cmds : List Nat := []
deriving DecidableEq, Repr

/-- An entry of a core's fault buffer (09_memory R176, 13_copy R291). `chunk` is an engine
chunk's place in its command; the amax merge is chunk 2^40. -/
structure FaultEnt where
  used : Bool := false
  engine : Bool := false
  matrix : Bool := false
  grp : Nat := 0
  cmd : Nat := 0
  chunk : Nat := 0
  cause : Nat := 0
  addr : DWord := 0
  lanes : Word := 0
  word : Nat := 0
  /-- Reserved for the waiter named by `grp` and `cmd` (R177). -/
  reserved : Bool := false
deriving DecidableEq, Repr

/-- A waiter for a fault-buffer entry (09_memory R177): an instruction of a slot, or an engine
command. -/
structure Waiter where
  engine : Bool := false
  matrix : Bool := false
  grp : Nat := 0
  slotB : Bool := false
  cmd : Nat := 0
  chunk : Nat := 0
deriving DecidableEq, Repr

/-- One lane operation of a Miller request: the lane, its byte key, its two operands. -/
structure LaneOp where
  lane : Nat := 0
  at_ : Nat := 0
  v1 : DWord := 0
  v2 : DWord := 0
deriving DecidableEq, Repr

/-- The fragment of a user operation as UOPSET copied it: its first clause, and the memory and context
registers that its code is read through (12_atomics_barriers R266; 15_system R328). -/
structure Frag where
  installed : Bool := false
  start : BitVec 24 := 0
  mem : SMap Byte := []
  creg : SMap Word := []
deriving DecidableEq, Repr

/-- An entry of a die's Miller queues (12_atomics_barriers R257): one instruction's lane
operations on one line. `code` 0-9 standard, 10 AMAX; `user` names a user operation. -/
structure MillReq where
  live : Bool := false
  grp : Nat := 0
  op : Nat := 0
  ctx : Nat := 0
  fromDie : Nat := 0
  core : Nat := 0
  code : Nat := 0
  ty : Nat := 0
  user : Bool := false
  reply : Bool := true
  dest : Nat := 0
  attr : PAttr := {}
  scope : Nat := 4
  acq : Bool := false
  rel : Option Nat := none
  lanes : List LaneOp := []
  /-- The fragment of a user operation as the Miller found it when it accepted the request
  (15_system R328). -/
  frag : Frag := {}
  slotB : Bool := false
  pc : BitVec 24 := 0
  ins : Nat := 0
  word : BitVec 24 := 0
deriving DecidableEq, Repr

/-- An arrival on its way to a barrier object (12_atomics_barriers R272, R275): `off` is 16 * C, which
the size of the target's allocation wraps when it is performed, and `lc` its issue clock (10_allocation
R205). `barw` marks a count of bytes that no instruction issued, whose clock is the owner's. -/
structure Arrival where
  live : Bool := false
  barw : Bool := false
  team : Nat := 0
  handle : Nat := 0
  off : Nat := 0
  lc : Nat := 0
  na : Nat := 0
  nb : Nat := 0
  grp : Nat := 0
  op : Nat := 0
deriving DecidableEq, Repr

/-- An item queue of one launch on one core (15_system R341, R342): (item, position). -/
structure ItemQ where
  items : List (Word × Nat) := []
deriving DecidableEq, Repr

/-- The state of a core. -/
structure Core where
  l1 : SMap CSec := []
  fillCtr : Nat := 0
  /-- The L1 TLB, oldest entry first (09_memory R174; 01_machine R9). -/
  tlb : List TlbEnt := []
  cpy : List Nat := []
  locks : List LockRange := []
  mat : List Nat := []
  batches : List Nat := []
  faults : SMap FaultEnt := []
  waiters : List Waiter := []
  evsel : SMap Word := []
  ctrs : SMap DWord := []
  halted : Bool := false
  frozen : Bool := false
  ports : SMap Port := []
  /-- The port, plus 1, that won each shared resource last (01_machine R11): 0 memory issue, 1 the copy
  queue, 2 the matrix array. -/
  won : SMap Nat := []
  items : SMap ItemQ := []
  /-- Spare rows used, allocatable rows withdrawn, rows awaiting remap (team, row). -/
  sparesUsed : Nat := 0
  withdrawn : Nat := 0
  rowRemaps : List (Nat × Nat) := []
  columnsUsed : Nat := 0
  marked : Nat := 0
  replay : Nat := 0
  /-- The core has been reported to the privileged handler: a column is marked and no spare is left
  (14_matrix R325). -/
  noSpare : Bool := false
  armed : List ArmedErr := []
deriving DecidableEq, Repr

/-- The state of a compute die. -/
structure Die where
  /-- Ticks by which the die's copy of the time base is ahead of the least a copy may read
  (R277); at most 16. -/
  skew : Nat := 0
  guest : SMap CSec := []
  gfill : Nat := 0
  gthr : Nat := 0
  pendH : SMap PLine := []
  relSeq : Nat := 0
  relRec : SMap Nat := []
  relSum : SMap Nat := []
  /-- The L2 TLB, oldest entry first (09_memory R174). -/
  tlb : List TlbEnt := []
  devsel : SMap Word := []
  ctrs : SMap DWord := []
  /-- Bytes of TIER 2 and 3 lines accepted here as home and not yet written on. -/
  dirty : SMap BCell := []
  /-- Clean copies of TIER 2 and 3 sectors held here as home (11_visibility R239). -/
  clean : SMap CSec := []
  /-- Granary lines held in the home L2, and the bytes in them that memory has since changed. -/
  flash : List Nat := []
  flashOld : SMap BCell := []
  miller : List Nat := []
  armed : List ArmedErr := []
  /-- L2 lines withdrawn, by the configuration image or since (17_cold R391). -/
  withdrawn : Nat := 0
deriving DecidableEq, Repr

/-- A host queue (15_system R328, 17_cold R387). -/
structure Queue where
  enable : Bool := false
  ctx : Nat := 0
  prio : Nat := 0
  base : DWord := 0
  entries : Nat := 0
  head : Nat := 0
  tail : Nat := 0
  hold : Bool := false
  errs : Nat := 0
  /-- How many commands at the head a reset of the context found in the ring (R350). -/
  stale : Nat := 0
deriving DecidableEq, Repr

/-- A buffer handle (15_system R330). Launches are named by their number. -/
structure Handle where
  set_ : Bool := false
  base : DWord := 0
  len : DWord := 0
  writer : Option Nat := none
  readers : List Nat := []
  horizon : Nat := 0
  /-- Every launch that named the handle, for the reader horizon. -/
  named : List Nat := []
deriving DecidableEq, Repr

/-- The stage of a launch: submitted, dispatched to the distributors, complete. -/
inductive LStage where
  | none | queued | dispatched | complete
deriving DecidableEq, Repr

/-- A launch (15_system R331 to R342). -/
structure Launch where
  stage : LStage := .none
  rec_ : List Word := []
  ctx : Nat := 0
  device : Bool := false
  parent : Nat := 0
  queue : Nat := 0
  prio : Nat := 0
  entry : BitVec 24 := 0
  epoch : Nat := 0
  status : Nat := 0
  reason : Nat := 0
  killed : Bool := false
  /-- Clusters placed so far on each die of the pattern; teams retired. -/
  placed : SMap Nat := []
  retired : Nat := 0
  dies : List Nat := []
  itemNext : Nat := 0
  returned : List (Word × Nat) := []
  pushed : Nat := 0
  discarded : Nat := 0
  closed : Bool := false
  since : Nat := 0
  doneAt : Nat := 0
  wdFired : Bool := false
  /-- Since when a cluster has failed to fit on a die, plus 1 (R351). -/
  failSince : SMap Nat := []
  /-- The format records of the presets, captured when the record was checked (08_formats R152). -/
  presets : List DWord := []
  /-- Memory as the homes held it when the launch was dispatched, for its code (02_encoding R43). -/
  codeAt : Option (SMap Byte) := none
deriving DecidableEq, Repr

/-- A Granary log of a context (09_memory R194 to R196). -/
structure Log where
  bound : Bool := false
  die : Nat := 0
  base : Nat := 0
  cap : Nat := 0
  next : Nat := 0
  order : Nat := 0
  rebind : Option (Nat × Nat × Nat) := none
deriving DecidableEq, Repr

/-- An append held in an append buffer and not yet durable (09_memory R195, R197). -/
structure Append where
  live : Bool := false
  grp : Nat := 0
  log : Nat := 0
  order : Nat := 0
  at_ : Nat := 0
  bytes : List Byte := []
deriving DecidableEq, Repr

/-- A translation of a level-1 object (16_loading R366 to R371): stream words to clauses, both
as word indices of the code window. -/
structure Translation where
  live : Bool := false
  ctx : Nat := 0
  obj : Nat := 0
  epoch : Nat := 0
  complete : Bool := false
  /-- The clause of each stream word that begins one; the stream word, plus 1, of each clause. -/
  map : SMap Nat := []
  src : SMap Nat := []
  /-- The word ranges of the arena it takes, each its first word and the word after its last. -/
  ranges : List (Nat × Nat) := []
  /-- The trampoline entries it reaches substitutes through (R366). -/
  tramps : List Nat := []
deriving DecidableEq, Repr

/-- What the Thresher has of a registered object's file: the directory entry that the file was
registered with, and its kernel table, a list of entries of 16 words (16_loading R360). -/
structure ObjFile where
  dir : List Nat := []
  kers : List (List Word) := []
deriving DecidableEq, Repr

/-- A translation job and the groups parked on it (16_loading R370). -/
structure Job where
  live : Bool := false
  ctx : Nat := 0
  obj : Nat := 0
  epoch : Nat := 0
  word : Nat := 0
  groups : List Nat := []
deriving DecidableEq, Repr

/-- The thermal supervisor (17_cold R378 to R383). -/
structure Thermal where
  state : Nat := 0
  wsm : Bool := true
  band : Nat := 3
  hot : Nat := 0
  temp : Nat := 0
  bandlog : Word := 0
  thr1 : Word := 0x014C0154
  thr2 : Word := 0x01880190
  thr3 : Word := 0x00000208
  busy : Bool := false
  high : Nat := 0
  terrDie : Nat := 0
  terrCode : Nat := 0
  sensors : List Nat := []
  valid : List Bool := []
  dew : Nat := 0
  /-- Consecutive samples above UP of THR1 and THR2. -/
  over1 : Nat := 0
  over2 : Nat := 0
  /-- Since when every sample has been below DOWN of THR1, of THR2, below UP of THR2. -/
  below1 : Option Nat := none
  below2 : Option Nat := none
  belowR : Option Nat := none
  /-- The dew point below 200 K since; every valid sensor within 77 to 80 K since. -/
  dewSince : Option Nat := none
  soakSince : Option Nat := none
  stateSince : Nat := 0
  dewOk : Bool := false
  trainFail : Bool := false
  bandTo : Option Nat := none
  appendOk : Bool := false
  /-- The steps that end the entry into SAFE are still to come (R383, steps 3 and 4), and the drain in
  progress is theirs. -/
  safeDrain : Bool := false
  safeOwn : Bool := false
  /-- The dew point has stayed below 200 K for 5 min since PURGE was entered. -/
  dewMet : Bool := false
deriving DecidableEq, Repr

/-- A record of the configuration image's append area (17_cold R391). -/
structure Repair where
  type_ : Nat := 0
  die : Nat := 0
  unit_ : Nat := 0
  old : Nat := 0
  new : Nat := 0
  at_ : Nat := 0
deriving DecidableEq, Repr

/-- Where the instruction being performed stands, as the issue stage found it: its clause, the
clause after it, its own word index, how many instructions of the clause precede it, whether it
is the last, its clock value (10_allocation R205), the flags FLA and FLB, and its guard. The model's
own. -/
structure Latch where
  clause : BitVec 24 := 0
  next : BitVec 24 := 0
  word : BitVec 24 := 0
  ins : Nat := 0
  last : Bool := false
  lc : Nat := 0
  fla : Option Nat := none
  flb : Option Nat := none
  yld : Bool := false
  /-- Its guard field and whether it is negated. -/
  gd : BitVec 4 := 15
  gn : Bool := false
deriving DecidableEq, Repr

/-- What the signed base of the configuration image gives: the reset values of the thresholds, and its
repairs (17_cold R391). -/
structure Image where
  thr1 : Word := 0x014C0154
  thr2 : Word := 0x01880190
  thr3 : Word := 0x00000208
  base : List Repair := []
deriving DecidableEq, Repr

/-- The state of the package. -/
structure State where
  mem : SMap Byte := []
  mpois : SMap Bool := []
  creg : SMap Word := []
  /-- What a context register held before it was last changed under placed or swapped-out teams, plus 1:
  fetches and frame accesses may still use it (15_system R327). -/
  cregOld : SMap Nat := []
  preg : SMap Word := []
  bar : SMap Word := []
  msix : List Nat := []
  therm : Thermal := {}
  groups : SMap Group := []
  teams : SMap Team := []
  clusters : SMap Cluster := []
  cores : SMap Core := []
  dies : SMap Die := []
  copies : SMap CopyCmd := []
  mats : SMap MatCmd := []
  batches : SMap Batch := []
  mills : SMap MillReq := []
  arrivals : SMap Arrival := []
  queues : SMap Queue := []
  handles : SMap Handle := []
  launches : SMap Launch := []
  faultQ : List (List Word) := []
  uops : SMap Frag := []
  logs : SMap Log := []
  appends : SMap Append := []
  /-- Where SWAP OUT wrote the image of a team: its first virtual address plus 1 (15_system R353). -/
  saved : SMap Nat := []
  trans : SMap Translation := []
  jobs : SMap Job := []
  files : SMap ObjFile := []
  image : Image := {}
  repairs : List Repair := []
  absent : List Nat := []
  sparesUsed : SMap Nat := []
  time : Nat := 0
  cur : Nat := 0
  curB : Bool := false
  lat : Latch := {}
  picked : Bool := false
  /-- The instruction being performed may not issue yet (04_control R65). -/
  held : Bool := false
  inputs : List (Nat × Instr) := []
  freeCtr : Nat := 0
  /-- How many free choices have been drawn one after the other (`State.draw`). -/
  draws : Nat := 0
  seq : Nat := 0
  nextId : Nat := 1
  /-- The kinds that the drain in progress was started with (11_visibility R251). -/
  drainSel : Word := 0
  /-- What the last read or atomic of the host or of a peer was answered with (17_cold R386, R389). -/
  answer : List Byte := []
  rrCore : Nat := 0
deriving DecidableEq, Repr

/-- What a byte of memory that nothing has written reads as: 0xFF for the Granary, whose erased
value it is (09_memory R198); 0x00 elsewhere, DESIGN CHOICE, log entry 6. Keys are
tier * 2^64 + address. -/
def memBlank (k : Nat) : Byte := if k / 2 ^ 64 = 1 then 0xFF else 0x00

/-- The machine right after reset: package power just applied, nothing powered on (17_cold
R382, state OFF). Every register is at the value its map states, or at the one a log entry
names. -/
def State.reset : State := {}

end Sys2Proof.Machine
end

