-- ==== Sys2Proof/Machine/Ops.lean ====
section
/-!
DEFINITION. The named operations over the state: access to its tables, to the issuing group and
its registers, the advance of a slot, flags and outstanding operations. Every meaning reads and
writes the state through these.
-/

namespace Sys2Proof.Machine

/-- What a meaning answers. -/
abbrev Out := Host.Outcome State Fault Refusal

/-! Tables. -/

def State.group (s : State) (k : Nat) : Group := s.groups.getD k {}
def State.setGroup (s : State) (k : Nat) (g : Group) : State :=
  { s with groups := s.groups.set k g {} }
def State.modGroup (s : State) (k : Nat) (f : Group → Group) : State := s.setGroup k (f (s.group k))

/-- The issuing group. -/
def State.grp (s : State) : Group := s.group s.cur
def State.setGrp (s : State) (g : Group) : State := s.setGroup s.cur g
def State.modGrp (s : State) (f : Group → Group) : State := s.setGrp (f s.grp)

def State.team (s : State) (k : Nat) : Team := s.teams.getD k {}
def State.setTeam (s : State) (k : Nat) (t : Team) : State := { s with teams := s.teams.set k t {} }
def State.modTeam (s : State) (k : Nat) (f : Team → Team) : State := s.setTeam k (f (s.team k))

def State.cluster (s : State) (k : Nat) : Cluster := s.clusters.getD k {}
def State.setCluster (s : State) (k : Nat) (c : Cluster) : State :=
  { s with clusters := s.clusters.set k c {} }
def State.modCluster (s : State) (k : Nat) (f : Cluster → Cluster) : State :=
  s.setCluster k (f (s.cluster k))

/-- The key of core `c` of die `d`. -/
def coreKey (d c : Nat) : Nat := d * 256 + c
def State.coreAt (s : State) (k : Nat) : Core := s.cores.getD k {}
def State.setCore (s : State) (k : Nat) (c : Core) : State := { s with cores := s.cores.set k c {} }
def State.modCore (s : State) (k : Nat) (f : Core → Core) : State := s.setCore k (f (s.coreAt k))

def State.die (s : State) (d : Nat) : Die := s.dies.getD d {}
def State.setDie (s : State) (d : Nat) (x : Die) : State := { s with dies := s.dies.set d x {} }
def State.modDie (s : State) (d : Nat) (f : Die → Die) : State := s.setDie d (f (s.die d))

def State.copy (s : State) (k : Nat) : CopyCmd := s.copies.getD k {}
def State.setCopy (s : State) (k : Nat) (c : CopyCmd) : State := { s with copies := s.copies.set k c {} }
def State.mat (s : State) (k : Nat) : MatCmd := s.mats.getD k {}
def State.setMat (s : State) (k : Nat) (c : MatCmd) : State := { s with mats := s.mats.set k c {} }
def State.batch (s : State) (k : Nat) : Batch := s.batches.getD k {}
def State.setBatch (s : State) (k : Nat) (c : Batch) : State := { s with batches := s.batches.set k c {} }
def State.mill (s : State) (k : Nat) : MillReq := s.mills.getD k {}
def State.setMill (s : State) (k : Nat) (c : MillReq) : State := { s with mills := s.mills.set k c {} }
def State.arrival (s : State) (k : Nat) : Arrival := s.arrivals.getD k {}
def State.setArrival (s : State) (k : Nat) (c : Arrival) : State :=
  { s with arrivals := s.arrivals.set k c {} }
def State.queue (s : State) (k : Nat) : Queue := s.queues.getD k {}
def State.setQueue (s : State) (k : Nat) (c : Queue) : State := { s with queues := s.queues.set k c {} }
def State.handle (s : State) (k : Nat) : Handle := s.handles.getD k {}
def State.setHandle (s : State) (k : Nat) (c : Handle) : State :=
  { s with handles := s.handles.set k c {} }
def State.launch (s : State) (k : Nat) : Launch := s.launches.getD k {}
def State.setLaunch (s : State) (k : Nat) (c : Launch) : State :=
  { s with launches := s.launches.set k c {} }
def State.modLaunch (s : State) (k : Nat) (f : Launch → Launch) : State := s.setLaunch k (f (s.launch k))
def State.log (s : State) (k : Nat) : Log := s.logs.getD k {}
def State.setLog (s : State) (k : Nat) (c : Log) : State := { s with logs := s.logs.set k c {} }
def State.setAppend (s : State) (k : Nat) (c : Append) : State :=
  { s with appends := s.appends.set k c {} }

/-- A context register (15_system R327): `i` is its index 0x000 to 0x014. -/
def State.cr (s : State) (ctx i : Nat) : Word := s.creg.getD (ctx * 32 + i) 0
def State.setCr (s : State) (ctx i : Nat) (v : Word) : State :=
  { s with creg := s.creg.set (ctx * 32 + i) v 0 }
/-- A 64-bit context register pair. -/
def State.cr64 (s : State) (ctx i : Nat) : Nat := (s.cr ctx i).toNat + 2 ^ 32 * (s.cr ctx (i + 1)).toNat

/-- Teams of a context are placed or swapped out. -/
def State.ctxTeams (s : State) (ctx : Nat) : Bool := s.teams.any (fun e => e.2.live && e.2.ctx = ctx)

/-- A context register as a fetch, a frame access or a save reads it: CODEBASE, PRIVAREA, PRIVCFG and the
save pool, changed under teams, give the old or the new value as a free choice of the access says
(R327); `who` tells the accesses of one step apart. -/
def State.crAcc (s : State) (ctx i who : Nat) : Word :=
  match s.cregOld.getD (ctx * 32 + i) 0 with
  | 0 => s.cr ctx i
  | n + 1 => if Config.freeBool s.freeCtr (2 ^ 51 + who) then BitVec.ofNat 32 n else s.cr ctx i

/-- A 64-bit context register pair as such an access reads it. -/
def State.crAcc64 (s : State) (ctx i who : Nat) : Nat :=
  (s.crAcc ctx i who).toNat + 2 ^ 32 * (s.crAcc ctx (i + 1) who).toNat

/-- A context register that fetches, frames or saves use is changed: under teams, the old value stays
usable (R327). -/
def State.keepOld (s : State) (ctx i : Nat) : State :=
  if [4, 5, 0x0E, 0x0F, 0x10, 0x11, 0x12, 0x13].contains i then
    { s with cregOld := s.cregOld.set (ctx * 32 + i) (if s.ctxTeams ctx then (s.cr ctx i).toNat + 1 else 0) 0 }
  else s

/-- The context is privileged (R326). -/
def State.privileged (s : State) (ctx : Nat) : Bool := (s.cr ctx 0).getLsbD 1
/-- The context exists (R326). -/
def State.ctxValid (s : State) (ctx : Nat) : Bool := (s.cr ctx 0).getLsbD 0

/-- A fresh name for an outstanding operation, and the state without it. -/
def State.fresh (s : State) : Nat × State := (s.nextId, { s with nextId := s.nextId + 1 })

/-- A free choice: each draw of a step is its own. -/
def State.draw (s : State) : Bool × State :=
  (Config.freeBool s.freeCtr (2 ^ 50 + s.draws), { s with draws := s.draws + 1 })

/-- The die's copy of the time base (12_atomics_barriers R277). -/
def State.dieTime (s : State) (d : Nat) : Nat := (s.time + (s.die d).skew) % 2 ^ 64

/-! Cores of a die (01_machine R6, R12, R19). -/

/-- Columns of a die's mesh, and its cores. -/
def dieCols (die : Nat) : Nat := if die < 4 then 12 else 8
def dieCores (die : Nat) : Nat := 8 * dieCols die

/-- Hamlets of a die, and the cores of one, ascending (R19). -/
def hamlets (die : Nat) : Nat := 2 * dieCols die
def hamletCores (die h : Nat) : List Nat :=
  let c := dieCols die
  let at_ := 2 * (h / (c / 2)) * c + 2 * (h % (c / 2))
  [at_, at_ + 1, at_ + c, at_ + c + 1]

/-- The core holds a position of the mesh that is not absent (17_cold R391). -/
def State.corePresent (s : State) (die core : Nat) : Bool :=
  die < 8 && core < dieCores die && !s.absent.contains (coreKey die core)

/-- The core a hamlet's Miller runs on: its lowest-numbered present one (R391). -/
def State.millerOf (s : State) (die h : Nat) : Option Nat :=
  (hamletCores die h).find? (s.corePresent die)

/-- The core of the Miller that serves a line (12_atomics_barriers R256; 17_cold R391). -/
def State.millerCore (s : State) (die line : Nat) : Option Nat :=
  let n := hamlets die
  (List.range n).findSome? (fun i => s.millerOf die ((line % 2 ^ 41 + i) % n))

/-- A core hosts a Miller. -/
def State.hostsMiller (s : State) (die core : Nat) : Bool :=
  (List.range (hamlets die)).any (fun h => s.millerOf die h = some core)

/-- A team's core is frozen: what is bound for it stays in the mesh (15_system R355). -/
def State.frozenAt (s : State) (die core : Nat) : Bool := (s.coreAt (coreKey die core)).frozen

/-! Event counters (15_system R356). -/

/-- A selector counts an event of a source and a context. -/
def evCounts (sel : Word) (code : Nat) (ctx : Option Nat) : Bool :=
  sel.getLsbD 8 && (sel.extractLsb' 0 8).toNat = code
    && (!sel.getLsbD 18 || ctx = some (sel.extractLsb' 12 6).toNat)

/-- Counters after `n` events of a source. -/
def countIn (sel : SMap Word) (ctrs : SMap DWord) (cnt code : Nat) (ctx : Option Nat) (n : Nat) :
    SMap DWord :=
  (List.range cnt).foldl (fun m i =>
    if evCounts (sel.getD i 0) code ctx then m.set i (m.getD i 0 + BitVec.ofNat 64 n) 0 else m) ctrs

def State.countCore (s : State) (ck code ctx n : Nat) : State :=
  s.modCore ck (fun c => { c with ctrs := countIn c.evsel c.ctrs 8 code (some ctx) n })

/-- Events of a group's core. -/
def State.countGroup (s : State) (gk code : Nat) : State :=
  let g := s.group gk
  s.countCore (coreKey g.die g.core) code g.ctx 1

/-- Events of a die, attributed to a context or to none. -/
def State.countDie (s : State) (d code : Nat) (ctx : Option Nat) (n : Nat) : State :=
  s.modDie d (fun x => { x with ctrs := countIn x.devsel x.ctrs 16 code ctx n })

/-! Repairs (17_cold R391). -/

/-- A repair appended to the configuration image, or TERR.CODE 4 when the area is full (R391). -/
def State.appendRepair (s : State) (r : Repair) : State :=
  if s.repairs.length < 4096 then { s with repairs := s.repairs ++ [{ r with at_ := s.time }] }
  else { s with therm := { s.therm with terrCode := 4, terrDie := r.die } }

/-! Routes between dies (01_machine R7, R8; 12_atomics_barriers R277). -/

/-- The ID of the Commons die (01_machine R5). -/
def commons : Nat := 8

/-- The compute dies in ring order, and a die's ring position (R7, R8). -/
def ringOrder : List Nat := [0, 1, 2, 3, 7, 6, 5, 4]
def ringPos (d : Nat) : Nat := (ringOrder.findIdx? (· = d)).getD 0

/-- How traffic goes from one die to another (R8): within the die, over the partner bridge, round the
ring, up for increasing ring positions, or over a spoke. -/
inductive Route where
  | here
  | bridge
  | ring (up : Bool) (hops : Nat)
  | spoke
deriving DecidableEq, Repr

def route (a b : Nat) : Route :=
  if a = b then .here
  else if a = commons || b = commons then .spoke
  else if a % 4 = b % 4 then .bridge
  else
    let n := (ringPos b + 8 - ringPos a) % 8
    if n ≤ 4 then .ring true n else .ring false (8 - n)

/-- The dies that send a message on round the ring, in order. -/
def ringSenders (a : Nat) (up : Bool) (hops : Nat) : List Nat :=
  (List.range hops).map (fun i => ringOrder.getD ((ringPos a + (if up then i else 8 - i)) % 8) 0)

/-- The beats a message takes on a bridge or a hop: the manual does not say how many. -/
def State.beats (s : State) (d : Nat) : Nat := (Config.freeWord s.freeCtr (2 ^ 42 + d)).toNat

/-- The beats of a message counted on the dies that send them (R8; 15_system R356). -/
def State.countRoute (s : State) (a b : Nat) : State :=
  match route a b with
  | .bridge => s.countDie a 0x41 none (s.beats a)
  | .ring up hops => (ringSenders a up hops).foldl (fun s d => s.countDie d 0x42 none (s.beats d)) s
  | _ => s

/-- A message from one die to another takes its route and carries the sender's time (R277). -/
def State.timeMsg (s : State) (src dst : Nat) : State :=
  if src = dst then s
  else
    let s := s.countRoute src dst
    if (s.die src).skew ≤ (s.die dst).skew then s
    else s.modDie dst (fun d => { d with skew := (s.die src).skew })

/-! The issuing slot. -/

def Group.slot (g : Group) (b : Bool) : PcSlot := if b then g.slotB else g.slotA
def Group.setSlot (g : Group) (b : Bool) (x : PcSlot) : Group :=
  if b then { g with slotB := x } else { g with slotA := x }

/-- The issuing slot S. -/
def State.slot (s : State) : PcSlot := s.grp.slot s.curB
/-- The other slot O. -/
def State.other (s : State) : PcSlot := s.grp.slot (!s.curB)
def State.setSlot (s : State) (x : PcSlot) : State := s.modGrp (fun g => g.setSlot s.curB x)

/-- The lanes the slot's instruction may act on: its mask, less the lanes that a replay leaves
alone (09_memory R178). -/
def PcSlot.mask (x : PcSlot) : Word := match x.only with | none => x.act | some m => x.act &&& m

/-- Continue(S) of 04_control R68: the next instruction of the clause, or NEXT. -/
def PcSlot.advance (x : PcSlot) (l : Latch) : PcSlot :=
  if l.last then { x with pc := l.next, ins := 0, only := none, again := none }
  else { x with ins := l.ins + 1, only := none, again := none }

/-- Goto(S, t) of R68. -/
def PcSlot.goto_ (x : PcSlot) (t : BitVec 24) : PcSlot := { x with pc := t, ins := 0, only := none, again := none }

/-- The issuing slot goes on. -/
def State.cont (s : State) : State := s.setSlot (s.slot.advance s.lat)

/-- The instruction is not performed and has not counted as issued (10_allocation R204). -/
def State.uncount (s : State) : State := s.modGrp (fun g => { g with issued := g.issued - 1 })

/-- The issuing slot is not ready after all: its instruction is tried again. -/
def State.holdIssue (s : State) : State := { s.uncount with held := true }

/-- An acquire of the group has not completed. -/
def State.acquireOut (s : State) (gk : Nat) : Bool := (s.group gk).pend.any (fun o => o.acq.isSome)

/-- What must not be performed before an earlier acquire completes (11_visibility R238,
12_atomics_barriers R278). -/
def State.afterAcquire (s : State) (k : State) : State :=
  if s.acquireOut s.cur then s.holdIssue else k

/-! Register files of a group. -/

def Group.vget (g : Group) (n L : Nat) : Word := g.v.getD (n * 32 + L) 0
def Group.vput (g : Group) (n L : Nat) (x : Word) : Group := { g with v := g.v.set (n * 32 + L) x 0 }
def Group.gget (g : Group) (n : Nat) : Word := g.g.getD n 0
def Group.gput (g : Group) (n : Nat) (x : Word) : Group := { g with g := g.g.set n x 0 }
def Group.gget64 (g : Group) (n : Nat) : DWord := pair (g.gget n) (g.gget (n + 1))
def Group.gput64 (g : Group) (n : Nat) (x : DWord) : Group :=
  (g.gput n (lo32 x)).gput (n + 1) (hi32 x)
/-- gp3 reads as true (03_groupwide R49). -/
def Group.gpget (g : Group) (n : Nat) : Bool := if n = 3 then true else g.gp.getD n false
/-- A write to gp3 is discarded (R49). -/
def Group.gpput (g : Group) (n : Nat) (b : Bool) : Group :=
  if n = 3 then g else { g with gp := g.gp.set n b false }
def Group.pget (g : Group) (n : Nat) : Word := g.p.getD n 0
def Group.pput (g : Group) (n : Nat) (m : Word) : Group := { g with p := g.p.set n m 0 }
def Group.fmget (g : Group) (n : Nat) : DWord := g.fm.getD n 0
/-- A format register takes a record with its reserved bits zero (08_formats R141). -/
def Group.fmput (g : Group) (n : Nat) (x : DWord) : Group :=
  { g with fm := g.fm.set n (x &&& 0x3FFF07FFFF) 0 }
def Group.flag (g : Group) (n : Nat) : Nat := g.flags.getD n 0
def Group.setFlag (g : Group) (n k : Nat) : Group := { g with flags := g.flags.set n k 0 }

/-- The word an outstanding instruction will write to key `k` of the file `f`, if any. -/
def pendFind (ops : List PendOp) (f : PendOp → List PendWord) (k : Nat) : Option PendWord :=
  ops.findSome? (fun o => (f o).find? (fun w => w.key = k))

/-- A group-wide register as an instruction of the issuing group reads it: the destination of an
outstanding instruction gives the old or the new value (02_encoding R30). -/
def State.rdG (s : State) (n : Nat) : Word :=
  match pendFind s.grp.pend (·.g) n with
  | none => s.grp.gget n
  | some w => if Config.pendingNew s.freeCtr (2 ^ 16 + n) then w.val else s.grp.gget n

def State.rdG64 (s : State) (n : Nat) : DWord := pair (s.rdG n) (s.rdG (n + 1))

/-- A group-wide predicate as an instruction reads it (R30). -/
def State.rdGP (s : State) (n : Nat) : Bool :=
  match s.grp.pend.findSome? (fun o => o.gp.bind (fun p => if p.1 = n then some p.2 else none)) with
  | none => s.grp.gpget n
  | some b => if n ≠ 3 && Config.pendingNew s.freeCtr (2 ^ 17 + n) then b else s.grp.gpget n

/-- The group-wide predicate `n` is the destination of an outstanding instruction. -/
def Group.gpPending (g : Group) (n : Nat) : Bool :=
  n ≠ 3 && g.pend.any (fun o => match o.gp with | some (k, _) => k = n | none => false)

/-- A lane register word as an instruction reads it (R30). -/
def State.rdV (s : State) (n L : Nat) : Word :=
  match pendFind s.grp.pend (·.v) (n * 32 + L) with
  | none => s.grp.vget n L
  | some w => if Config.pendingNew s.freeCtr (n * 32 + L) then w.val else s.grp.vget n L

/-! Guards (02_encoding R36). -/

/-- The lanes whose guard holds. -/
def State.guardMask (s : State) (g : BitVec 4) (n : Bool) : Word :=
  let m : Word :=
    if g.toNat < 12 then s.grp.pget g.toNat
    else if s.rdGP (g.toNat - 12) then BitVec.allOnes 32 else 0
  if n then ~~~m else m

/-- Active: the issuing slot's mask ANDed with the evaluated guard (00_scope); of an instruction that
parked on a translation fault and is issued again, what it was before (09_memory R176). -/
def State.active (s : State) (g : BitVec 4) (n : Bool) : Word :=
  s.slot.mask &&& (match s.slot.again with | none => s.guardMask g n | some m => m)

/-- A group guard's answer (R36); one that has parked was true. -/
def State.guardG (s : State) (g : BitVec 4) (n : Bool) : Bool :=
  s.slot.again.isSome || s.rdGP (g.toNat - 12) != n

def State.activeW (s : State) (w : W0) : Word := s.active w.g w.n
def State.guardW (s : State) (w : W0) : Bool := s.guardG w.g w.n

/-- The issuing slot keeps its instruction's Active for when the instruction is issued again (09_memory
R176). -/
def State.keepActive (s : State) : State :=
  s.setSlot { s.slot with again := some (s.active s.lat.gd s.lat.gn) }

/-! Flags and outstanding operations (02_encoding R28, R29). -/

/-- The flag an instruction counts on, if its F bit selects a valid one. -/
def State.flagOf (s : State) (f : Bool) : Option Nat := if f then s.lat.flb else s.lat.fla

/-- An outstanding operation is recorded and counted on its flag. -/
def State.pushPend (s : State) (o : PendOp) : State :=
  s.modGrp (fun g =>
    let g := { g with pend := g.pend ++ [o] }
    match o.flag with
    | none => g
    | some f => g.setFlag f (g.flag f + 1))

/-- A counted instruction of the issuing group goes on its way: `o` says what it writes when it
completes, `f` is its F bit (R28). -/
def State.issueOp (s : State) (f : Bool) (o : PendOp) : State :=
  let (id, s) := s.fresh
  s.pushPend { o with id := id, flag := s.flagOf f, lc := s.lat.lc }

/-- The lease clock of a group (10_allocation R204, R205) read now. -/
def State.clockOf (s : State) (g : Group) : Nat :=
  if g.count then g.issued else s.dieTime g.die / 64

/-! Divergence records (04_control R71). -/

/-- The code of a record's kind. -/
def RecKind.code : RecKind → Nat
  | .path => 0
  | .join => 1
  | .call => 2

/-- The four words of a record (R71). -/
def DivRec.words (r : DivRec) : List Word :=
  [BitVec.ofNat 32 (r.pc.toNat + r.ins % 16 * 2 ^ 24 + r.kind.code * 2 ^ 29
      + (if r.arr then 2 ^ 31 else 0)),
   BitVec.ofNat 32 (r.ja.toNat + (if r.nj then 2 ^ 31 else 0)), r.mask, r.exm]

/-- A record from its four words, unless it is malformed (R71). -/
def DivRec.ofWords (w0 w1 mask exm : Word) : Option DivRec :=
  let body (k : RecKind) : DivRec :=
    { kind := k, arr := w0.getLsbD 31, ins := (w0.extractLsb' 24 4).toNat, pc := w0.extractLsb' 0 24
      nj := w1.getLsbD 31, ja := w1.extractLsb' 0 24, mask, exm }
  if w0.getLsbD 28 || w1.extractLsb' 24 7 ≠ 0 then none
  else match (w0.extractLsb' 29 2).toNat with
    | 0 => some (body .path)
    | 1 => some (body .join)
    | 2 => some (body .call)
    | _ => none

end Sys2Proof.Machine
end

