-- ==== Sys2Proof/Machine/Home.lean ====
section
/-!
DEFINITION. Physical memory, a home's view of it, and what a die's L2 holds: home lines, guest copies,
pending-home data and release records (09_memory R161 to R164, R167, R182, R193, R198; 11_visibility
R228, R239 to R250; 17_cold R389). A sector is named by its physical key over 16, a line by its key
over 128.
-/

namespace Sys2Proof.Machine

/-- Bits [63:56] of an address agree (R166). -/
def canonical (a : DWord) : Bool := a.extractLsb' 56 8 = 0 || a.extractLsb' 56 8 = 255

/-- The virtual address of a canonical address: bits [55:0] (R166). -/
def vaOf (a : DWord) : Nat := (a.extractLsb' 0 56).toNat

/-- Bytes of DRAM on a die (R167). -/
def dramSize (die : Nat) : Nat := if die < 4 then 36 * 2 ^ 30 else 256 * 2 ^ 30

/-- A device physical address names DRAM (R167). -/
def isDram (pa : Nat) : Bool := pa / 2 ^ 48 < 8 && pa % 2 ^ 48 < dramSize (pa / 2 ^ 48)

/-- A lasting error is armed at a DRAM word (15_system R358). -/
def State.armedDram (s : State) (pk : Nat) : Bool :=
  pk < 2 ^ 64 && (s.die (pk / 2 ^ 48)).armed.any (fun e => e.site = 2 && e.kind = 2 && e.at_ / 4 = pk / 4)

/-- A 32-bit check word of memory is poisoned, or a read of it meets a lasting error. -/
def State.memPois (s : State) (pk : Nat) : Bool := s.mpois.getD (pk / 4) false || s.armedDram pk

/-- The byte memory holds at a physical key. -/
def State.memByte (s : State) (pk : Nat) : Byte := s.mem.getD pk (memBlank pk)

/-- The byte at a physical key replaced. -/
def State.setMemByte (s : State) (pk : Nat) (b : Byte) : State :=
  { s with mem := s.mem.set pk b (memBlank pk) }

/-- `n` bytes of memory from a physical key, little-endian. -/
def State.memNat (s : State) (pk n : Nat) : Nat :=
  natLE ((List.range n).map (fun i => s.memByte (pk + i)))

/-- Bytes stored at a physical key and after it. -/
def State.setMemBytes (s : State) (pk : Nat) : List Byte → State
  | [] => s
  | b :: t => (s.setMemByte pk b).setMemBytes (pk + 1) t

/-- Memory has its canonical form: addresses rising, no entry equal to what an unlisted address reads
as (`memBlank`). -/
def Memory.wf (m : SMap Byte) : Bool := m.wf memBlank

/-- The bytes of a line that a die holds as pending-home data (11_visibility R242). -/
def State.pline (s : State) (die line : Nat) : PLine := (s.die die).pendH.getD line {}

/-- A byte as a reader sees it: its value and whether it is poisoned. -/
structure VByte where
  val : Byte := 0
  pois : Bool := false
deriving DecidableEq, Repr

/-- A buffered byte laid over what lies below it, bit by bit (R225). -/
def VByte.over (b : VByte) (c : BCell) : VByte :=
  if c.mask = 0 then b
  else { val := (b.val &&& ~~~c.mask) ||| (c.val &&& c.mask)
         pois := c.pois || (b.pois && c.mask ≠ 0xFF) }

/-- A newer buffered byte merged into an older one (R225, R226). -/
def BCell.merge (old new : BCell) : BCell :=
  if new.mask = 0 then old
  else { val := (old.val &&& ~~~new.mask) ||| (new.val &&& new.mask)
         mask := old.mask ||| new.mask
         pois := new.pois || (old.pois && new.mask ≠ 0xFF)
         by_ := new.by_, seq := new.seq, wr := new.wr }

/-- The cell at a byte of a sector's entry. -/
def cellAt (cells : SMap BCell) (i : Nat) : BCell := cells.getD i {}

/-- A sector's bytes with a buffer's cells laid over them. -/
def overCells (bs : List VByte) (cells : SMap BCell) : List VByte :=
  mapI bs (fun i b => b.over (cellAt cells i))

/-- The cells of an entry merged under newer ones. -/
def mergeCells (old new : SMap BCell) : SMap BCell :=
  new.foldl (fun m e => m.set e.1 ((cellAt m e.1).merge e.2) {}) old

/-- The entry of a sector in a buffer, if any. -/
def findSec (l : List SecEntry) (sec : Nat) : Option SecEntry := l.find? (fun e => e.sec = sec)

/-- The cells a buffer holds for a sector. -/
def secCells (l : List SecEntry) (sec : Nat) : SMap BCell :=
  match findSec l sec with | none => [] | some e => e.cells

/-- Cells merged into the sector's entry of a buffer that has one. -/
def mergeSec (l : List SecEntry) (e : SecEntry) : List SecEntry :=
  l.map (fun x => if x.sec = e.sec then { x with cells := mergeCells x.cells e.cells } else x)

/-! Home copies. -/

/-- Granary pages are 4 KiB (R193). -/
def flashPage (pk : Nat) : Nat := pk / 4096

/-- A register of BAR0 by its offset (17_cold R387). -/
def State.barWord (s : State) (off : Nat) : Word := s.bar.getD (off / 4) 0

/-- A peer's route mask has a port that is up (17_cold R388, R389). -/
def State.peerUp (s : State) (p : Nat) : Bool :=
  let m := bitsOf (s.barWord (0x30100 + p)).toNat (8 * (p % 4)) 8
  (List.range 8).any (fun n => m.testBit n && (s.barWord (0x30200 + 4 * n)).getLsbD 0)

/-- The byte is in memory this package can reach: a TIER 3 byte needs a way to its peer
(17_cold R389). -/
def State.reachable (s : State) (pk : Nat) : Bool :=
  pk < 3 * 2 ^ 64 || s.peerUp (pk % 2 ^ 52 / 2 ^ 44)

/-- Kinds of an access that a peer's export table admits or not (R389). -/
inductive PeerAcc where
  | read | write | atomic
deriving DecidableEq, Repr

/-- An access of a kind to a byte is served: a byte of a peer needs a way there, and the peer's export
table, which is not this package's, to admit the access: a free choice for each of its entries
(R389). -/
def State.served (s : State) (k : PeerAcc) (pk : Nat) : Bool :=
  pk < 3 * 2 ^ 64 || (s.reachable pk && !Config.freeBool s.freeCtr (2 ^ 70 + 4 * (pk / 2 ^ 26)
    + (match k with | .read => 0 | .write => 1 | .atomic => 2)))

/-- A byte of a TIER 2 or 3 line as its home would fetch it: from the host or the peer, unless the
home's L2 holds a clean copy of its sector. -/
def State.farByte (s : State) (home pk : Nat) : VByte :=
  let c := (s.die home).clean.getD (pk / 16) {}
  if c.have_ then { val := c.bytes.getD (pk % 16) 0, pois := c.pois.getD (pk % 16) false }
  else { val := s.memByte pk, pois := s.memPois pk || !s.served .read pk }

/-- A byte of a line as its home's L2 has it. -/
def State.homeByte (s : State) (home pk : Nat) : VByte :=
  let b : VByte := { val := s.memByte pk, pois := s.memPois pk }
  if pk < 2 ^ 64 then b
  else if pk < 2 * 2 ^ 64 then b.over ((s.die home).flashOld.getD pk {})
  else (s.farByte home pk).over ((s.die home).dirty.getD pk {})

/-- The check word of a byte is poisoned as its home has it: of a TIER 2 or 3 line, in the home's clean copy
or else in memory, under the bytes accepted since (R175; 17_cold R389). -/
def State.wordPois (s : State) (home pk : Nat) : Bool :=
  if pk < 2 * 2 ^ 64 then s.memPois pk
  else
    let c := (s.die home).clean.getD (pk / 16) {}
    (List.range 4).any (fun i =>
      let k := pk / 4 * 4 + i
      let b : VByte := { pois := if c.have_ then c.pois.getD (k % 16) false else s.memPois k }
      (b.over ((s.die home).dirty.getD k {})).pois)

/-- Some word of the line that holds a byte is poisoned. -/
def State.linePois (s : State) (home pk : Nat) : Bool :=
  (List.range 32).any (fun i => s.wordPois home (pk / 128 * 128 + 4 * i))

/-- A word of memory poisoned by a lasting error; of a TIER 2 or 3 line that the home's L2 holds, in what the
L2 holds of it (15_system R358). -/
def State.poisonWord (s : State) (home at_ : Nat) (l2 : Bool) : State :=
  let d := s.die home
  let c := d.clean.getD (at_ / 16) {}
  let mine (k : Nat) : Bool := k / 4 = at_ / 4
  if l2 && 2 * 2 ^ 64 ≤ at_ && (c.have_ || d.dirty.any (fun e => mine e.1)) then
    s.setDie home { d with
      dirty := d.dirty.map (fun e => (e.1, if mine e.1 then { e.2 with pois := true } else e.2))
      clean := if c.have_ then
          d.clean.set (at_ / 16) { c with pois := mapI c.pois (fun i b => b || i / 4 = at_ / 4 % 4) } {}
        else d.clean }
  else { s with mpois := s.mpois.set (at_ / 4) true false }

/-- Errors armed at a sector of a home, or at its L2's copy of the line, are met by a read: a lasting
one poisons its word (15_system R358). -/
def State.meetHome (s : State) (home sec : Nat) : State :=
  let hit (e : ArmedErr) : Bool :=
    (e.site = 2 && e.at_ / 16 = sec) || (e.site = 1 && e.at_ / 128 = sec / 8)
  let es := (s.die home).armed.filter hit
  if es.isEmpty then s
  else
    let s := es.foldl (fun s e => if e.kind = 2 then s.poisonWord home e.at_ (e.site = 1) else s) s
    s.modDie home (fun d => { d with armed := d.armed.filter (fun e => !hit e) })

/-- Memory as the homes' L2s have it. -/
def State.homeImage (s : State) : SMap Byte :=
  s.dies.foldl (fun m d =>
    let m := d.2.clean.foldl (fun m c => (List.range 16).foldl (fun m i =>
      m.set (16 * c.1 + i) (c.2.bytes.getD i 0) (memBlank (16 * c.1 + i))) m) m
    d.2.dirty.foldl (fun m c =>
      let old := m.getD c.1 (memBlank c.1)
      m.set c.1 ((old &&& ~~~c.2.mask) ||| (c.2.val &&& c.2.mask)) (memBlank c.1)) m) s.mem

/-- A sector as its home's L2 has it. -/
def State.homeSec (s : State) (home sec : Nat) : List VByte :=
  (List.range 16).map (fun i => s.homeByte home (sec * 16 + i))

/-- The lines a die's L2 holds in a state that a program can observe, of which it has room for 2^21
(01_machine R13). -/
def Die.lines (d : Die) : List Nat :=
  dedup (d.guest.map (·.1 / 8) ++ d.clean.map (·.1 / 8) ++ d.dirty.map (·.1 / 128) ++ d.flash
    ++ d.pendH.map (·.1))

/-- One byte accepted at the home (R228): into DRAM for TIER 0, into the home's dirty bytes for
TIER 2 and 3; a TIER 1 line takes no write (09_memory R193). -/
def State.acceptByte (s : State) (home pk : Nat) (c : BCell) : State :=
  if c.mask = 0 then s
  else if pk < 2 ^ 64 then
    s.setMemByte pk ((s.memByte pk &&& ~~~c.mask) ||| (c.val &&& c.mask))
  else if pk < 2 * 2 ^ 64 then s
  else s.modDie home (fun d =>
    { d with dirty := d.dirty.set pk (((d.dirty).getD pk {}).merge c) {} })

/-- Poison marks of a word of memory after a merge: poison comes with poisoned bytes, and goes
when the bytes cover the whole check word (09_memory R175, R222). -/
def State.mergePois (s : State) (pk : Nat) (cs : List BCell) : State :=
  if cs.any (fun c => c.mask ≠ 0 && c.pois) then { s with mpois := s.mpois.set (pk / 4) true false }
  else if cs.all (fun c => c.mask = 0xFF) then { s with mpois := s.mpois.set (pk / 4) false false }
  else s

/-- The cells of word `w` of a sector. -/
def wordCells (cells : SMap BCell) (w : Nat) : List BCell :=
  (List.range 4).map (fun i => cellAt cells (4 * w + i))

/-- Errors armed at the words of a sector that cells cover wholly are gone (15_system R358). -/
def State.disarm (s : State) (die sec : Nat) (cells : SMap BCell) : State :=
  if (s.die die).armed.isEmpty then s
  else s.modDie die (fun d => { d with armed := d.armed.filter (fun e =>
    !(e.site ≠ 0 && e.at_ / 16 = sec && (wordCells cells (e.at_ / 4 % 4)).all (fun c => c.mask = 0xFF))) })

/-- A cached sector as bytes. -/
def CSec.view (c : CSec) : List VByte :=
  (List.range 16).map (fun i => { val := c.bytes.getD i 0, pois := c.pois.getD i false })

/-- A sector's bytes as a cached copy. -/
def cacheOf (bs : List VByte) (stamp : Nat) (ro swc : Bool) (clus : Nat := 0) : CSec :=
  { have_ := true, stamp, ro, swc, clus, bytes := bs.map (·.val), pois := bs.map (·.pois) }

/-- A byte of a cached sector overlaid. -/
def CSec.put (c : CSec) (i : Nat) (b : BCell) : CSec :=
  if c.have_ then cacheOf (mapI c.view (fun j v => if j = i then v.over b else v)) c.stamp c.ro c.swc c.clus
  else c

/-- A byte of TIER 2 or 3 accepted by the host or the peer; the home's clean copy of its sector takes it
too. -/
def State.farWrite (s : State) (home pk : Nat) (c : BCell) : State :=
  (s.setMemByte pk ((s.memByte pk &&& ~~~c.mask) ||| (c.val &&& c.mask))).modDie home (fun d =>
    { d with clean := d.clean.set (pk / 16) ((d.clean.getD (pk / 16) {}).put (pk % 16) c) {} })

/-- Dirty TIER 2 and 3 bytes of a die that satisfy a test written on to the host or the peer (R250): what
the peer refuses, or what has no way to it, is dropped (17_cold R389); a check word written whole loses its
poison (R175). -/
def State.writeOn (s : State) (die : Nat) (p : Nat → Bool := fun _ => true) : State :=
  let l : SMap BCell := ((s.die die).dirty).filter (fun e => p e.1 && s.served .write e.1)
  let s := l.foldl (fun s e => s.farWrite die e.1 e.2) s
  let s := (dedup (l.map (·.1 / 4))).foldl (fun s w =>
    s.mergePois (4 * w) ((List.range 4).map (fun i => cellAt l (4 * w + i)))) s
  s.modDie die (fun d => { d with dirty := d.dirty.filter (fun e => !p e.1) })

/-- A line that a home's L2 does not hold finds the L2 full (01_machine R13; 17_cold R391). -/
def Die.fullFor (d : Die) (line : Nat) : Bool := !d.lines.contains line && 2 ^ 21 ≤ d.lines.length + d.withdrawn

/-- What a home accepts of a TIER 2 or 3 sector goes on at once: of a CP 2 page, whose lines stay only while
an access is in progress (09_memory R172), and of a line that a full L2 has no room for, which is the
model's choice (log entry 12). -/
def State.goesOn (s : State) (attr : PAttr) (sec : Nat) : Bool :=
  2 * 2 ^ 64 ≤ sec * 16 && (attr.cp = 2 || (s.die attr.home).fullFor (sec / 8))

/-- A peer refuses such a sector, whose bytes are lost (17_cold R389). -/
def State.lostNow (s : State) (e : SecEntry) : Bool := s.goesOn e.attr e.sec && !s.served .write (e.sec * 16)

/-- Cells of a sector accepted at its home. -/
def State.acceptHome (s : State) (attr : PAttr) (sec : Nat) (cells : SMap BCell) : State :=
  let home := attr.home
  let on := s.goesOn attr sec
  let s := (cells.foldl (fun s e => s.acceptByte home (sec * 16 + e.1) e.2) s).disarm home sec cells
  if sec * 16 < 2 ^ 64 then
    (List.range 4).foldl (fun s w => s.mergePois (sec * 16 + 4 * w) (wordCells cells w)) s
  else if on then s.writeOn home (fun pk => pk / 16 = sec)
  else s

/-! Pending-home data (R242, R243). -/

/-- The cells of sector `i` of a line. -/
def lineSec (cells : SMap BCell) (i : Nat) : SMap BCell :=
  (cells.filter (fun e => e.1 / 16 = i)).map (fun e => (e.1 - 16 * i, e.2))

/-- Bytes that leave a die for a home elsewhere stay in the guest copy of their sector, if the die
has one, as clean bytes: a die sees its own committed writes, whichever copy serves a load (R240). -/
def State.guestMerge (s : State) (die sec : Nat) (cells : SMap BCell) : State :=
  s.modDie die (fun d =>
    let c := d.guest.getD sec {}
    if c.have_ then
      { d with guest := d.guest.set sec (cacheOf (overCells c.view cells) c.stamp c.ro c.swc) {} }
    else d)

/-- A die's pending bytes of one line, sent to its home. -/
def State.sendLine (s : State) (die line : Nat) : State :=
  let l := s.pline die line
  if !l.have_ then s
  else
    let s := s.modDie die (fun d => { d with pendH := d.pendH.set line {} {} })
    let s := s.timeMsg die l.attr.home
    (List.range 8).foldl (fun s i =>
      (s.acceptHome l.attr (line * 8 + i) (lineSec l.cells i)).guestMerge die (line * 8 + i)
        (lineSec l.cells i)) s

/-- The lines a die holds pending that satisfy a test, lowest release interval first. -/
def State.pendLines (s : State) (die : Nat) (p : Nat → PLine → Bool) : List Nat :=
  let ls := (s.die die).pendH.filter (fun e => e.2.have_ && p e.1 e.2)
  (ls.foldl (fun acc e => (acc.takeWhile (fun x => x.2 ≤ e.2.rel)) ++ [(e.1, e.2.rel)]
    ++ acc.dropWhile (fun x => x.2 ≤ e.2.rel)) []).map (·.1)

/-- Every pending line of a die that satisfies a test is sent. -/
def State.sendWhere (s : State) (die : Nat) (p : Nat → PLine → Bool) : State :=
  (s.pendLines die p).foldl (fun s l => s.sendLine die l) s

/-- A line is sent after every line of an earlier release interval (R243); an SWC line goes alone
(R244). -/
def State.sendOrdered (s : State) (die line : Nat) : State :=
  let l := s.pline die line
  if !l.have_ then s
  else if l.attr.swc then s.sendLine die line
  else (s.sendWhere die (fun _ x => !x.attr.swc && x.rel < l.rel)).sendLine die line

/-- All non-SWC pending-home data of a die is sent (R248, R250). -/
def State.sendAll (s : State) (die : Nat) (swcToo : Bool := false) : State :=
  s.sendWhere die (fun _ x => swcToo || !x.attr.swc)

/-- Cells of a sector held as pending-home data of a die: a line's bytes never span a release
(R243). -/
def State.pendSec (s : State) (die sec : Nat) (attr : PAttr) (cells : SMap BCell) : State :=
  let line := sec / 8
  let old := s.pline die line
  let s := if old.have_ && !attr.swc && old.rel < (s.die die).relSeq then s.sendOrdered die line
    else s
  let s := s.disarm die sec cells
  let l := s.pline die line
  let cs := cells.map (fun e => (e.1 + 16 * (sec % 8), e.2))
  let l' : PLine := { have_ := true, attr, rel := (s.die die).relSeq, cells := mergeCells l.cells cs }
  s.modDie die (fun d => { d with pendH := d.pendH.set line l' {} })

/-- Bytes of an entry just accepted at DEV, pushed on to the home by a push to SYS: with all that the
die sends before them, or, of an SWC line, these bytes alone (R243, R244, R250). -/
def State.sendSys (s : State) (die : Nat) (e : SecEntry) : State :=
  let line := e.sec / 8
  let l := s.pline die line
  if !l.have_ then s
  else if !e.attr.swc then s.sendOrdered die line
  else
    let mine (i : Nat) : Bool := i / 16 = e.sec % 8 && (cellAt e.cells (i % 16)).mask ≠ 0
    let rest := l.cells.filter (fun c => !mine c.1)
    let out := lineSec (l.cells.filter (fun c => mine c.1)) (e.sec % 8)
    let l' : PLine := if rest.isEmpty then {} else { l with cells := rest }
    let s := (s.modDie die (fun d => { d with pendH := d.pendH.set line l' {} })).timeMsg die e.attr.home
    (s.acceptHome e.attr e.sec out).guestMerge die e.sec out

/-- The SYS drain for the issuing die (R250): its pending-home data goes home, and every die
writes on its dirty TIER 2 and 3 lines, asked by a message and answering with one (R277). -/
def State.sysDrain (s : State) (die : Nat) : State :=
  (List.range 8).foldl (fun s d => ((s.timeMsg die d).writeOn d).timeMsg d die) (s.sendAll die)

/-- Some byte that a SYS push would write on is lost on its way to a peer (17_cold R389). -/
def State.peerLost (s : State) : Bool :=
  (List.range 8).any (fun d => (s.die d).dirty.any (fun e => !s.served .write e.1))

/-! Release records (R243). -/

/-- A release by a die: its sequence number rises. -/
def State.bumpRelease (s : State) (die : Nat) : State :=
  s.modDie die (fun d => { d with relSeq := d.relSeq + 1 })

/-- The record a home keeps of a die's releases on a line: its own, or the summary's. -/
def State.releaseOf (s : State) (home line die : Nat) : Nat :=
  let r := (s.die home).relRec.getD (line * 16 + die) 0
  if r = 0 then (s.die home).relSum.getD die 0 else r

/-- A home records a release of a die on a line. -/
def State.recordRelease (s : State) (home line die n : Nat) : State :=
  s.modDie home (fun d =>
    { d with relRec := d.relRec.set (line * 16 + die) (max n (d.relRec.getD (line * 16 + die) 0)) 0 })

/-- The pending lines of a die that a home pulls up to a release: it asks the die for them, and the die event
of 15_system R356 counts them at the home. -/
def State.pull (s : State) (home die n : Nat) : State :=
  if n = 0 then s
  else
    let p : Nat → PLine → Bool := fun _ x => !x.attr.swc && x.rel < n
    let k := (s.pendLines die p).length
    let s := (s.timeMsg home die).sendWhere die p
    if k = 0 then s else s.countDie home 0x48 none k

/-- Before an acquiring load is answered the home pulls what the line's record names (R243). -/
def State.applyRecord (s : State) (home line : Nat) : State :=
  (List.range 8).foldl (fun s d => s.pull home d (s.releaseOf home line d)) s

/-! Room in an L2 (01_machine R13). -/

/-- A home line's release records folded into the die's summary (R243). -/
def State.foldRecords (s : State) (die line : Nat) : State :=
  s.modDie die (fun d => { d with
    relSum := (List.range 8).foldl (fun m x =>
      m.set x (max (m.getD x 0) (d.relRec.getD (line * 16 + x) 0)) 0) d.relSum
    relRec := d.relRec.filter (fun e => e.1 / 16 ≠ line) })

/-- The clean guest sectors of a line dropped on a die. -/
def State.dropGuest (s : State) (die line : Nat) : State :=
  s.modDie die (fun d => { d with guest := d.guest.filter (fun e => e.1 / 8 ≠ line) })

/-- A Granary line dropped from the L2 of a die (09_memory R198). -/
def State.dropFlash (s : State) (die line : Nat) : State :=
  s.modDie die (fun d => { d with
    flash := d.flash.filter (· ≠ line)
    flashOld := d.flashOld.filter (fun e => e.1 / 128 ≠ line) })

/-- A line leaves a die's L2 (R242, R243): a guest line's pending bytes go home, a home line's record
joins the summary, its dirty TIER 2 and 3 bytes are written on, and clean copies go. -/
def State.evictLine (s : State) (die line : Nat) : State :=
  let s := ((s.sendOrdered die line).dropGuest die line).foldRecords die line
  let s := (s.writeOn die (fun pk => pk / 128 = line)).dropFlash die line
  s.modDie die (fun d => { d with clean := d.clean.filter (fun e => e.1 / 8 ≠ line) })

/-- Room made in a die's L2 for a line it does not hold: the first of those listed leaves when the
L2 holds 2^21 lines, less those withdrawn (17_cold R391). Which line leaves is the model's choice (log entry 12). -/
def State.l2Room (s : State) (die line : Nat) : State :=
  if (s.die die).fullFor line then s.evictLine die ((s.die die).lines.headD 0) else s

/-- A Granary page fills into its home's L2, as 32 lines, when a load misses one of them (R193). -/
def State.fillFlash (s : State) (home sec : Nat) : State :=
  let pg := flashPage (sec * 16)
  if sec * 16 / 2 ^ 64 = 1 && !(s.die home).flash.contains (sec / 8) then
    let s := s.modDie home (fun d => { d with
      flash := d.flash.filter (fun l => l / 32 ≠ pg)
      flashOld := d.flashOld.filter (fun e => flashPage e.1 ≠ pg) })
    (List.range 32).foldl (fun s i => (s.l2Room home (pg * 32 + i)).modDie home (fun d =>
      { d with flash := d.flash ++ [pg * 32 + i] })) s
  else s

/-- A sector's bytes accepted at DEV from a die (R228, R242; 09_memory R172 for CP 2). -/
def State.acceptDev (s : State) (die : Nat) (e : SecEntry) : State :=
  if e.attr.home = die then s.acceptHome e.attr e.sec e.cells
  else if e.attr.cp = 2 then (s.timeMsg die e.attr.home).acceptHome e.attr e.sec e.cells
  else (s.l2Room die (e.sec / 8)).pendSec die e.sec e.attr e.cells

/-! Loads (09_memory R182, 11_visibility R240). -/

/-- The pending-home cells a die holds for a sector. -/
def State.pendCells (s : State) (die sec : Nat) : SMap BCell :=
  lineSec (s.pline die (sec / 8)).cells (sec % 8)

/-- Clean TIER 2 and 3 sectors that a home read brings into the home's L2 stay there (R239); a CP 2
line does not (09_memory R172), and a poisoned sector does not. -/
def State.fillClean (s : State) (sec : Nat) (attr : PAttr) (ro : Bool) : State :=
  let home := attr.home
  let bs := (List.range 16).map (fun i => s.farByte home (sec * 16 + i))
  if sec * 16 < 2 * 2 ^ 64 || attr.cp = 2 || bs.any (·.pois) || ((s.die home).clean.getD sec {}).have_ then s
  else (s.l2Room home (sec / 8)).modDie home (fun d =>
    { d with clean := d.clean.set sec (cacheOf bs 0 ro attr.swc) {} })

/-- A request and its answer between a die and a home (R277). -/
def State.roundTrip (s : State) (die home : Nat) : State := (s.timeMsg die home).timeMsg home die

/-- A sector as its home gives it: a Granary page filled and clean copies kept, but for a CP 2 page (09_memory
R172), and armed errors met. -/
def State.serve (s : State) (die sec : Nat) (attr : PAttr) (ro : Bool) : State × List VByte :=
  let s := s.roundTrip die attr.home
  let s := if attr.cp = 2 then s else s.fillFlash attr.home sec
  let s := (s.meetHome attr.home sec).fillClean sec attr ro
  (s, s.homeSec attr.home sec)

/-- A sector read at the home by a die (R240): the die's own pending bytes go first, except for an
SWC line. -/
def State.readHome (s : State) (die sec : Nat) (attr : PAttr) (acq : Bool) (ro : Bool := false) :
    State × List VByte :=
  let s := if attr.swc || attr.home = die then s else s.sendOrdered die (sec / 8)
  let s := if acq then s.applyRecord attr.home (sec / 8) else s
  s.serve die sec attr ro

/-- A sector kept as a guest copy, unless it is poisoned. -/
def State.fillGuest (s : State) (die sec : Nat) (attr : PAttr) (ro : Bool) (bs : List VByte) : State :=
  if bs.any (·.pois) then s
  else (s.l2Room die (sec / 8)).modDie die (fun d =>
    { d with guest := d.guest.set sec (cacheOf bs d.gfill ro attr.swc) {} })

/-- An error armed at a die's guest copy of a line is met by a read (15_system R358). -/
def State.meetGuest (s : State) (die sec : Nat) : State :=
  let hit (e : ArmedErr) : Bool := e.site = 1 && e.at_ / 128 = sec / 8
  let es := (s.die die).armed.filter hit
  if es.isEmpty then s
  else s.modDie die (fun d =>
    { d with
      armed := d.armed.filter (fun e => !hit e)
      guest := (es.filter (fun e => e.kind = 2)).foldl (fun m e =>
        let c := m.getD (e.at_ / 16) {}
        if c.have_ then
          m.set (e.at_ / 16) { c with pois := mapI c.pois (fun i b => b || i / 4 = e.at_ / 4 % 4) } {}
        else m) d.guest })

/-- A sector as the die's L2 gives it to a load at DEV or below (R182): home, or a valid guest
copy, or a fetch that fills one unless the Sieve serves it (R188); the die's pending bytes lie over
a guest copy. -/
def State.readDev (s : State) (die sec : Nat) (attr : PAttr) (ro : Bool) (sieve : Bool := false) :
    State × List VByte :=
  if attr.home = die || attr.cp = 2 then s.readHome die sec attr false ro
  else
    let s := s.meetGuest die sec
    let d := s.die die
    let c := d.guest.getD sec {}
    if c.have_ && (c.ro || c.swc || d.gthr ≤ c.stamp) then
      (s, overCells c.view (s.pendCells die sec))
    else
      let (s, bs) := s.serve die sec attr ro
      let s := if sieve && attr.tier = 0 then s else s.fillGuest die sec attr ro bs
      (s, overCells bs (s.pendCells die sec))

end Sys2Proof.Machine
end

