-- ==== Sys2Proof/Machine/Translate.lean ====
section
/-!
DEFINITION. Addresses, page tables and translation (09_memory R166 to R175).
-/

namespace Sys2Proof.Machine

/-- Cause codes of traps and parks (15_system R343). -/
def cILL : Nat := 1
def cPRIVT : Nat := 2
def cBADT : Nat := 3
def cDIVX : Nat := 4
def cDIVR : Nat := 5
def cSWT : Nat := 6
def cFPX : Nat := 7
def cFMTX : Nat := 8
def cBADA : Nat := 9
def cALGN : Nat := 10
def cRLK : Nat := 11
def cPOIS : Nat := 12
def cERX : Nat := 13
def cCPYX : Nat := 14
def cACC : Nat := 15
def cMCX : Nat := 16
def cATYP : Nat := 17
def cUOPF : Nat := 18
def cTNP : Nat := 32
def cGROW : Nat := 33
def cTPROT : Nat := 34
def cTMAL : Nat := 35
def cDIVF : Nat := 36
def cCNR : Nat := 37
def cBRK : Nat := 38
def cDBL : Nat := 39
def cNOHND : Nat := 40
def cWDOG : Nat := 48
def cRESET : Nat := 49
def cCPLF : Nat := 50

/-- Fields of a page-table entry (R168, R169). -/
def pteV (e : DWord) : Bool := e.getLsbD 0
def pteHWM (e : DWord) : Bool := e.getLsbD 62
def pteTier (e : DWord) : Nat := (e.extractLsb' 7 2).toNat
def pteHome (e : DWord) : Nat := (e.extractLsb' 9 3).toNat
def pteIlv (e : DWord) : Nat := (e.extractLsb' 12 3).toNat
def pteSwc (e : DWord) : Bool := e.getLsbD 15
/-- PFN * 2^16: the bits [51:16] in place. -/
def pteFrame (e : DWord) : Nat := (e.extractLsb' 16 36).toNat * 2 ^ 16
def pteFmt (e : DWord) : Nat := (e.extractLsb' 52 8).toNat
def pteCp (e : DWord) : Nat := (e.extractLsb' 60 2).toNat

/-- The dies and the stripe of an interleave code; none for ILV 0 and the malformed 7 (R170). -/
def ilvOf : Nat → Option (List Nat × Nat)
  | 1 => some ([0, 1, 2, 3], 2 ^ 16)
  | 2 => some ([4, 5, 6, 7], 2 ^ 16)
  | 3 => some ([0, 1, 2, 3, 4, 5, 6, 7], 2 ^ 16)
  | 4 => some ([0, 1, 2, 3], 2 ^ 12)
  | 5 => some ([4, 5, 6, 7], 2 ^ 12)
  | 6 => some ([0, 1, 2, 3, 4, 5, 6, 7], 2 ^ 12)
  | _ => none

/-- The size of the page a leaf maps. -/
def pageSize (big : Bool) : Nat := if big then 2 ^ 26 else 2 ^ 16

/-- The dies that hold bytes of the page at a virtual address, and how many bytes each holds from the
frame on (R170): a page of a single stripe lies wholly on one die. -/
def pageDies (e : DWord) (big : Bool) (va : Nat) : List Nat × Nat :=
  match ilvOf (pteIlv e) with
  | none => ([pteHome e], pageSize big)
  | some (l, st) =>
    if st * l.length ≤ pageSize big then (l, pageSize big / l.length)
    else ([l.getD (va / st % l.length) 0], pageSize big)

/-- Bytes of a B die's Granary (R171; 01_machine R5, R13). -/
def granSize : Nat := 2 * 2 ^ 41

/-- The leaf of the page at a virtual address breaks a rule of R171. -/
def leafMalformed (e : DWord) (big : Bool) (va : Nat) : Bool :=
  let ilv := pteIlv e
  let f := pteFrame e
  let pfnLow := (e.extractLsb' 16 10).toNat
  let held := pageDies e big va
  ilv = 7
  || (big && (match ilvOf ilv with
      | none => pfnLow ≠ 0
      | some (l, _) => pfnLow % (1024 / l.length) ≠ 0))
  || (match pteTier e with
      | 0 => f / 2 ^ 48 ≠ 0 || held.1.any (fun d => dramSize d < f + held.2)
      | 1 => ilv ≠ 0 || pteHome e < 4 || granSize ≤ f
      | _ => false)

/-- Where a byte lies: its physical key, what its page says, the page's format index and captured
record (08_formats R152), its leaf and its size. -/
structure Xl where
  pk : Nat := 0
  attr : PAttr := {}
  fmt : Nat := 0
  rec_ : DWord := 0
  leaf : DWord := 0
  big : Bool := false
deriving DecidableEq, Repr

/-- The byte at a virtual address under a leaf (R170, R171): interleaving chooses the home die of every
tier, and the address within the die of TIER 0 and 1. -/
def leafXl (e : DWord) (big : Bool) (va : Nat) : Xl :=
  let o := va % pageSize big
  let f := pteFrame e
  let (home, off) := match ilvOf (pteIlv e) with
    | none => (pteHome e, f + o)
    | some (l, st) => (l.getD (va / st % l.length) 0, f + o / (st * l.length) * st + o % st)
  let pk := match pteTier e with
    | 0 => home * 2 ^ 48 + off
    | 1 => 2 ^ 64 + home * 2 ^ 48 + off
    | 2 => 2 * 2 ^ 64 + f + o
    | _ => 3 * 2 ^ 64 + f + o
  { pk, attr := { tier := pteTier e, home, cp := pteCp e, swc := pteSwc e }, fmt := pteFmt e
    leaf := e, big }

/-- What an access needs of a leaf. -/
inductive Acc where
  | r | w | x | rw
deriving DecidableEq, Repr

def Acc.writes : Acc → Bool
  | .w | .rw => true
  | _ => false

/-- The leaf lacks a permission (R175, TPROT). -/
def leafDenies (e : DWord) (acc : Acc) (priv : Bool) : Bool :=
  (match acc with
    | .r => !e.getLsbD 1
    | .w => !e.getLsbD 2
    | .x => !e.getLsbD 3
    | .rw => !e.getLsbD 1 || !e.getLsbD 2)
  || (e.getLsbD 4 && !priv)
  || (acc.writes && pteTier e = 1)

/-- The outcome of a walk: a cause, or the leaf with its place and its size. -/
inductive Walk where
  | fault (cause : Nat)
  | leaf (at_ : Nat) (e : DWord) (big : Bool)
deriving DecidableEq, Repr

/-- The entry of a table at a virtual address, at a level (R168). -/
def entryAt (table va level : Nat) : Nat := table + 8 * (va / 2 ^ (46 - 10 * level) % 1024)

/-- The table an entry points to (R168). -/
def pteTable (e : DWord) : Nat := (e.extractLsb' 13 39).toNat * 2 ^ 13

/-- A byte of a table as a walker of a die reads it: a SYS-scope load, which sees the die's own
committed bytes (R174, 11_visibility R240). -/
def State.tableByte (s : State) (die pk : Nat) : Byte :=
  let l := s.pline die (pk / 128)
  let c := l.cells.getD (pk % 128) {}
  if l.attr.swc then s.memByte pk else (s.memByte pk &&& ~~~c.mask) ||| (c.val &&& c.mask)

/-- A table entry as a walker reads it. -/
def State.tableEntry (s : State) (die pk : Nat) : DWord :=
  BitVec.ofNat 64 (natLE ((List.range 8).map (fun i => s.tableByte die (pk + i))))

/-- The walk from the table at a level, levels ascending to 3 (R168, R175). -/
def State.walkFrom (s : State) (die va : Nat) : Nat → Nat → Nat → Walk
  | 0, _, _ => .fault cTMAL
  | fuel + 1, level, table =>
    if !isDram table then .fault cTMAL
    else
      let at_ := entryAt table va level
      let e := s.tableEntry die at_
      let leaf := level = 3 || (level = 2 && (e.extractLsb' 1 3 ≠ 0))
      if pteHWM e && ((!pteV e && 2 ≤ level) || (pteV e && leaf)) then .fault cGROW
      else if !pteV e then .fault cTNP
      else if s.linePois (at_ / 2 ^ 48) at_ then .fault cTMAL
      else if leaf then
        if leafMalformed e (level = 2) va then .fault cTMAL else .leaf at_ e (level = 2)
      else s.walkFrom die va fuel (level + 1) (pteTable e)

/-- The table a context's walks begin at: PTBASE (R168). -/
def State.ptBase (s : State) (ctx : Nat) : Nat := s.cr64 ctx 2 / 2 ^ 13 * 2 ^ 13 % 2 ^ 52

/-- The walk of a context's tables (R168). -/
def State.walk (s : State) (ctx die va : Nat) : Walk := s.walkFrom die va 4 0 (s.ptBase ctx)

/-- The table entries that the walk from a table at a level reads, levels ascending to 3 (R168). -/
def State.walkReads (s : State) (die va : Nat) : Nat → Nat → Nat → List Nat
  | 0, _, _ => []
  | fuel + 1, level, table =>
    if !isDram table then []
    else
      let at_ := entryAt table va level
      let e := s.tableEntry die at_
      if level = 3 || !pteV e || (level = 2 && (e.extractLsb' 1 3 ≠ 0)) then [at_]
      else at_ :: s.walkReads die va fuel (level + 1) (pteTable e)

/-- A die's pending bytes of a line sent home before a SYS-scope read of it, but for an SWC line
(11_visibility R240). -/
def State.sendFor (s : State) (die pk : Nat) : State :=
  if (s.pline die (pk / 128)).attr.swc then s else s.sendOrdered die (pk / 128)

/-- The reads of a walk, which are SYS-scope loads (R174): each goes to its home and back. -/
def State.walkSends (s : State) (ctx die va : Nat) : State :=
  (s.walkReads die va 4 0 (s.ptBase ctx)).foldl (fun s at_ =>
    (s.sendFor die at_).roundTrip die (at_ / 2 ^ 48)) s

/-- A leaf with A set, and D for a store (R173). -/
def touched (e : DWord) (wr : Bool) : DWord := e ||| 0x20 ||| (if wr then 0x40 else 0)

/-- A walker's update of A and D: an atomic OR on the leaf at its home (R173). -/
def State.touchLeaf (s : State) (at_ : Nat) (e : DWord) (wr : Bool) : State :=
  if touched e wr = e then s
  else s.setMemBytes at_ (bytesLE 8 ((BitVec.ofNat 64 (s.memNat at_ 8)) ||| touched e wr).toNat)

/-- The bits a format record keeps (08_formats R141). -/
def fmKeep (x : DWord) : DWord := x &&& 0x3FFF07FFFF

/-- The address of entry `i` of a context's format table (08_formats R152). -/
def State.fmtEntry (s : State) (ctx i : Nat) : Nat :=
  vaOf (BitVec.ofNat 64 (s.cr64 ctx 0xC / 2048 * 2048 + 8 * i))

/-- The record that a fill of a page's translation reads from the format table, with the walk's
updates: a cause when the read faults, TMAL on a poisoned line (08_formats R152). -/
def State.fmtFill (s : State) (ctx die i : Nat) : State × Except Nat DWord :=
  let va := s.fmtEntry ctx i
  let w := s.walk ctx die va
  let s := s.walkSends ctx die va
  match w with
  | .fault c => (s, .error c)
  | .leaf at_ e big =>
    let x := leafXl e big va
    let pk := x.pk
    if leafDenies e .r (s.privileged ctx) then (s, .error cTPROT)
    else
      let s := (s.touchLeaf at_ e false).sendFor die pk
      if s.linePois x.attr.home pk then (s, .error cTMAL)
      else (s, .ok (fmKeep (s.tableEntry die pk)))

/-! Cached translations (R174). -/

/-- The entry translates an address of a context. -/
def TlbEnt.covers (e : TlbEnt) (ctx va : Nat) : Bool := e.ctx = ctx && va / pageSize e.big = e.page

/-- Two cached translations say the same, but for A and D. -/
def TlbEnt.same (e f : TlbEnt) : Bool :=
  e.ctx = f.ctx && e.page = f.page && e.big = f.big && e.leaf ||| 0x60 = f.leaf ||| 0x60 && e.rec_ = f.rec_

/-- A TLB of `n` entries with an entry added: in the place of one that says the same, otherwise as the
youngest, the oldest leaving a full TLB. Which entry leaves is the model's choice (log entry 59). -/
def tlbPut (n : Nat) (l : List TlbEnt) (e : TlbEnt) : List TlbEnt :=
  if l.any (·.same e) then
    l.map (fun x => if x.same e then { x with leaf := x.leaf ||| e.leaf } else x)
  else (if n ≤ l.length then l.drop 1 else l) ++ [e]

/-- The translations of an address that a core, if the access is a core's, and its die hold. -/
def State.heldFor (s : State) (ctx die : Nat) (core : Option Nat) (va : Nat) : List TlbEnt :=
  ((match core with | none => [] | some c => (s.coreAt (coreKey die c)).tlb) ++ (s.die die).tlb).filter
    (·.covers ctx va)

/-- A translation kept by the core and the die that used it: 256 and 16,384 entries. -/
def State.keep (s : State) (die : Nat) (core : Option Nat) (e : TlbEnt) : State :=
  let s := match core with
    | none => s
    | some c => s.modCore (coreKey die c) (fun x => { x with tlb := tlbPut 256 x.tlb e })
  s.modDie die (fun d => { d with tlb := tlbPut 16384 d.tlb e })

/-- What a walk gives an access: the leaf as the walker leaves it, and its record, or a cause, with the
walk's updates (R173, R175; 08_formats R152). The walk's reads go home and back whatever its outcome (R174). -/
def State.walkFill (s : State) (ctx die va : Nat) (acc : Acc) : State × Except Nat TlbEnt :=
  let w := s.walk ctx die va
  let s := s.walkSends ctx die va
  match w with
  | .fault c => (s, .error c)
  | .leaf at_ e big =>
    if leafDenies e acc (s.privileged ctx) then (s, .error cTPROT)
    else
      let s := s.touchLeaf at_ e acc.writes
      let f : TlbEnt := { ctx, page := va / pageSize big, leaf := touched e acc.writes, big }
      if pteFmt e = 0 then (s, .ok f)
      else match s.fmtFill ctx die (pteFmt e) with
        | (s, .error c) => (s, .error c)
        | (s, .ok r) => (s, .ok { f with rec_ := r })

/-- The first translation of a list that the free choices take. -/
def State.chooseHeld (s : State) : List TlbEnt → State × Option TlbEnt
  | [] => (s, none)
  | e :: t => match s.draw with
    | (true, s) => (s, some e)
    | (false, s) => s.chooseHeld t

/-- What a core's TLB misses, and the walk when the die's misses too, counted (15_system R356). -/
def State.countMiss (s : State) (ctx die : Nat) (core : Option Nat) (va : Nat)
    (fresh : Except Nat TlbEnt) : State :=
  let has (l : List TlbEnt) : Bool :=
    match fresh with | .error _ => false | .ok f => l.any (fun e => e.covers ctx va && e.same f)
  let s := match core with
    | none => s
    | some c => if has (s.coreAt (coreKey die c)).tlb then s else s.countCore (coreKey die c) 0x05 ctx 1
  if has (s.die die).tlb then s else s.countDie die 0x46 (some ctx) 1

/-- The place that a translation gives an address. -/
def TlbEnt.xl (e : TlbEnt) (va : Nat) : Xl := { leafXl e.leaf e.big va with rec_ := e.rec_ }

/-- Translation of a virtual address for an access of a context from a die, and from a core of it if one
is named: the state after the walker's updates, and the byte's place or the cause of the fault (R166
to R175). A translation held since before the tables or the format table changed is used or not as a
free choice of this access says, until TLBINV drops it (R174; 08_formats R153). -/
def State.translate (s : State) (ctx die va : Nat) (acc : Acc) (core : Option Nat := none) :
    State × Except Nat Xl :=
  let (t, fresh) := s.walkFill ctx die va acc
  let old := (s.heldFor ctx die core va).filter (fun e =>
    !(acc.writes && !e.leaf.getLsbD 6)
      && (match fresh with | .error _ => true | .ok f => !e.same f))
  match s.chooseHeld old with
  | (u, some e) =>
    if leafDenies e.leaf acc (s.privileged ctx) then (u, .error cTPROT)
    else (u.keep die core e, .ok (e.xl va))
  | (u, none) =>
    let t := { t with draws := u.draws }.countMiss ctx die core va fresh
    match fresh with
    | .error c => (t, .error c)
    | .ok f => (t.keep die core f, .ok (f.xl va))

/-- The first byte of `[va, va + n)` in each 64 KiB page it meets. -/
def pageStarts (va n : Nat) : List Nat :=
  if n = 0 then []
  else (List.range ((va + n - 1) / 2 ^ 16 - va / 2 ^ 16 + 1)).map
    (fun i => if i = 0 then va else (va / 2 ^ 16 + i) * 2 ^ 16)

/-- The walks of an access to `[va, va + n)` that is made without a translation held, with their updates
(R173). -/
def State.touchRange (s : State) (ctx die va n : Nat) (acc : Acc) : State :=
  (pageStarts va n).foldl (fun s a => (s.walkFill ctx die a acc).1) s

/-- Translation at each address, in order: the first fault with the address it was met at. -/
def State.translateAll (s : State) (ctx die : Nat) (acc : Acc) (core : Option Nat := none) :
    List Nat → State × Option (Nat × Nat)
  | [] => (s, none)
  | va :: t =>
    match s.translate ctx die va acc core with
    | (s, .error c) => (s, some (c, va))
    | (s, .ok _) => s.translateAll ctx die acc core t

end Sys2Proof.Machine
end

