-- ==== Sys2Proof/Machine/Ladder.lean ====
section
/-!
DEFINITION. The visibility ladder: where written bytes sit, how they rise, and what a load reads
(09_memory R161 to R164, R172, R182 to R184, R193, R198; 11_visibility R224 to R250). A sector is
named by its physical key over 16, a line by its key over 128.
-/

namespace Sys2Proof.Machine

/-- Lines of an L1, which has room for 12,288 (01_machine R12, R13): the sector's key and context over
the sectors of a line. -/
def l1Line (key : Nat) : Nat := key / 512 * 64 + key % 64

/-- Room made in an L1 for a sector: where the L1 is full of other lines, the one of the lowest key
leaves. Which line leaves is the model's choice (log entry 12). -/
def Core.l1Room (c : Core) (key : Nat) : Core :=
  let ls := dedup (c.l1.map (fun e => l1Line e.1))
  if ls.contains (l1Line key) || ls.length < 12288 then c
  else { c with l1 := c.l1.filter (fun e => l1Line e.1 ≠ ls.headD 0) }

/-- An L1 line serves a load of a team (R182, R239): filled since the team came, with no acquire since
unless it is an .RO or SWC line, and with no byte of another cluster's merge area. -/
def CSec.servesL1 (l : CSec) (t : Team) : Bool :=
  l.have_ && t.arrThr ≤ l.stamp && (l.ro || l.swc || t.l1thr ≤ l.stamp)
    && (l.clus = 0 || l.clus = t.cluster)

/-- A sector kept in the L1 of a core, unless it is poisoned. -/
def State.fillL1 (s : State) (ck key : Nat) (ro swc : Bool) (clus : Nat) (bs : List VByte) : State :=
  if bs.any (·.pois) then s
  else s.modCore ck (fun c =>
    let c := c.l1Room key
    { c with l1 := c.l1.set key (cacheOf bs c.fillCtr ro swc clus) {} })

/-- A hit or a miss of an L1, counted or not as a free choice of the sector says: the manual does not say
whether a hit is of a sector, of a line or of an instruction (15_system R356). -/
def State.countL1 (s : State) (ck ctx sec code : Nat) : State :=
  s.countCore ck code ctx (if Config.freeBool s.freeCtr (2 ^ 72 + sec) then 1 else 0)

/-- A sector as a load of a group finds it below its store and write buffers, at a scope, with the
copies the load fills (R182, R240, 09_memory R172): every level above the one that served it, but for
what CP, .NA and the Sieve leave out. The L1 takes the bytes as the cluster sees them. -/
def State.readBelow (s : State) (gk sec : Nat) (attr : PAttr) (scope : Nat) (acq ro na : Bool)
    (sieve : Bool := false) : State × List VByte :=
  let g := s.group gk
  let t := s.team g.team
  let ck := coreKey g.die g.core
  let key := sec * 64 + g.ctx
  let l1ok := attr.cp = 0 || attr.cp = 3
  let m := secCells (s.cluster t.cluster).merge sec
  let fill (s : State) (bs : List VByte) : State :=
    if l1ok && !na && !(sieve && attr.tier = 0) then
      s.fillL1 ck key ro attr.swc (if m.isEmpty then 0 else t.cluster) (overCells bs m)
    else s
  if 4 ≤ scope then
    let (s, bs) := if scope = 5 || acq then
        let (s, bs) := s.readHome g.die sec attr acq ro
        (if attr.home = g.die || attr.cp = 2 || (sieve && attr.tier = 0) then s
         else s.fillGuest g.die sec attr ro bs, bs)
      else s.readDev g.die sec attr ro sieve
    (fill s bs, bs)
  else
    let l := (s.coreAt ck).l1.getD key {}
    if scope ≤ 2 && l1ok && l.servesL1 t then (s.countL1 ck g.ctx sec 0x03, l.view)
    else
      let s := if scope ≤ 2 && l1ok then s.countL1 ck g.ctx sec 0x04 else s
      let (s, bs) := s.readDev g.die sec attr ro
      (fill s bs, overCells bs m)

/-- A sector as a load of a group sees it: store buffer over write buffer over the copy of the
scope (R182). -/
def State.readSec (s : State) (gk sec : Nat) (attr : PAttr) (scope : Nat) (acq ro na : Bool)
    (sieve : Bool := false) : State × List VByte :=
  let (s, bs) := s.readBelow gk sec attr scope acq ro na sieve
  let g := s.group gk
  (s, overCells (overCells bs (secCells (s.team g.team).twb sec)) (secCells g.gsb sec))

/-! Bytes only partly written (08_formats R150). -/

/-- A buffered byte completed with the bits a group sees. -/
def BCell.complete (c : BCell) (v : VByte) : BCell :=
  if c.mask = 0 || c.mask = 0xFF then c else { c with val := v.val, mask := 0xFF, pois := v.pois }

/-- Entries of a group's store buffer as a commit carries them above GRP: each byte only partly
written is completed with its other bits as the group sees them (R150). -/
def State.completeGsb (s : State) (gk : Nat) (p : SecEntry → Bool) : State :=
  (s.group gk).gsb.foldl (fun s e =>
    if p e && e.cells.any (fun c => c.2.mask ≠ 0xFF) then
      let (s, bs) := s.readSec gk e.sec e.attr 1 false false true
      let cells := e.cells.map (fun c => (c.1, c.2.complete (bs.getD c.1 {})))
      s.modGroup gk (fun g => { g with
        gsb := g.gsb.map (fun x => if x.sec = e.sec then { x with cells := cells } else x) })
    else s) s

/-! Buffers below DEV (R225 to R227, R237). -/

/-- A bit of CSW set in every group that satisfies a test. -/
def State.cswWhere (s : State) (p : Group → Bool) (bit : Word) : State :=
  { s with groups := s.groups.mapV {} (fun _ g => if g.live && p g then { g with csw := g.csw ||| bit } else g) }

def cswCHKF : Word := 0x01
def cswPAB : Word := 0x02
def cswSPG : Word := 0x10
def cswSPT : Word := 0x20
def cswSPC : Word := 0x40
def cswPOIS : Word := 0x80

/-- A poisoned byte travels with the entry. -/
def SecEntry.poisoned (e : SecEntry) : Bool := e.cells.any (fun c => c.2.pois)

/-- The cells carried by a push, marked with who pushed them and when. -/
def stampCells (cells : SMap BCell) (by_ seq : Nat) : SMap BCell :=
  cells.map (fun e => (e.1, { e.2 with by_ := by_, seq := seq }))

/-- The merge area's sectors on a die (R227). -/
def State.poolUsed (s : State) (die : Nat) : Nat :=
  (s.clusters.map (fun e => if e.2.die = die then e.2.merge.length else 0)).sum

/-- The cluster of a die that holds the pool's oldest entry. -/
def State.poolOldest (s : State) (die : Nat) : Option Nat :=
  (s.clusters.foldl (fun (acc : Option (Nat × Nat)) e =>
    match (if e.2.die = die then e.2.merge.head? else none), acc with
    | none, a => a
    | some x, none => some (e.1, x.age)
    | some x, some (k, a) => if x.age < a then some (e.1, x.age) else some (k, a)) none).map (·.1)

/-- A cluster's oldest merge-area entry spills to DEV (R237). -/
def State.spillMerge (s : State) (ck : Nat) : State :=
  let c := s.cluster ck
  match c.merge with
  | [] => s
  | e :: t =>
    let s := s.setCluster ck { c with merge := t, horizon := true }
    let s := s.cswWhere (fun g => (s.team g.team).cluster = ck) cswSPC
    s.acceptDev c.die e

/-- A sector reaches CLUS (R227, R228): merged into its entry, or a new one, which may spill the
oldest. -/
def State.mergeAdd (s : State) (ck : Nat) (e : SecEntry) : State :=
  let c := s.cluster ck
  if (findSec c.merge e.sec).isSome then s.setCluster ck { c with merge := mergeSec c.merge e }
  else
    let s := if 512 * (c.w * c.h) ≤ c.merge.length then s.spillMerge ck
      else if 65536 ≤ s.poolUsed c.die then
        (match s.poolOldest c.die with | none => s | some k => s.spillMerge k)
      else s
    let c := s.cluster ck
    { s with seq := s.seq + 1 }.setCluster ck { c with merge := c.merge ++ [{ e with age := s.seq }] }

/-- A team's oldest TWB entry spills to CLUS (R237). -/
def State.spillTwb (s : State) (tk : Nat) : State :=
  let t := s.team tk
  match t.twb with
  | [] => s
  | e :: l =>
    let s := s.setTeam tk { t with twb := l, horizon := true }
    let s := s.cswWhere (fun g => g.team = tk) cswSPT
    let s := { s with seq := s.seq + 1 }
    s.mergeAdd t.cluster { e with cells := stampCells e.cells tk s.seq }

/-- A sector reaches TEAM (R226, R228). -/
def State.twbAdd (s : State) (tk : Nat) (e : SecEntry) : State :=
  let t := s.team tk
  if (findSec t.twb e.sec).isSome then s.setTeam tk { t with twb := mergeSec t.twb e }
  else
    let s := if t.quota ≤ t.twb.length then s.spillTwb tk else s
    let t := s.team tk
    { s with seq := s.seq + 1 }.setTeam tk { t with twb := t.twb ++ [{ e with age := s.seq }] }

/-- A group's oldest GSB entry spills to TEAM (R237). -/
def State.spillGsb (s : State) (gk : Nat) : State :=
  let first := ((s.group gk).gsb.headD {}).sec
  let s := s.completeGsb gk (fun e => e.sec = first)
  let g := s.group gk
  match g.gsb with
  | [] => s
  | e :: l =>
    let s := s.setGroup gk { g with
      gsb := l, horizon := true
      csw := g.csw ||| cswSPG ||| (if e.poisoned then cswPOIS else 0) }
    let s := s.countGroup gk 7
    let s := { s with seq := s.seq + 1 }
    s.twbAdd g.team { e with cells := stampCells e.cells gk s.seq }

/-- A sector of a store enters the group's store buffer (R225). -/
def State.gsbAdd (s : State) (gk : Nat) (e : SecEntry) : State :=
  let g := s.group gk
  if (findSec g.gsb e.sec).isSome then s.setGroup gk { g with gsb := mergeSec g.gsb e }
  else
    let s := if g.gsbCap ≤ g.gsb.length then s.spillGsb gk else s
    s.modGroup gk (fun g => { g with gsb := g.gsb ++ [e] })

/-- A group's GSB entries satisfying a test are pushed to TEAM (R232). -/
def State.pushTeam (s : State) (gk : Nat) (p : SecEntry → Bool := fun _ => true) : State :=
  let s := s.completeGsb gk p
  let g := s.group gk
  let out := g.gsb.filter p
  let pois := out.any SecEntry.poisoned
  let s := s.setGroup gk { g with
    gsb := g.gsb.filter (fun e => !p e), csw := if pois then g.csw ||| cswPOIS else g.csw }
  let s := { s with seq := s.seq + 1 }
  out.foldl (fun s e => s.twbAdd g.team { e with cells := stampCells e.cells gk s.seq }) s

/-- A team's TWB entries satisfying a test are pushed to CLUS (R232). -/
def State.pushClus (s : State) (tk : Nat) (p : SecEntry → Bool := fun _ => true) : State :=
  let t := s.team tk
  let s := s.setTeam tk { t with twb := t.twb.filter (fun e => !p e) }
  let s := { s with seq := s.seq + 1 }
  (t.twb.filter p).foldl (fun s e =>
    s.mergeAdd t.cluster { e with cells := stampCells e.cells tk s.seq }) s

/-- A cluster's merge-area entries satisfying a test are pushed to DEV (R232). -/
def State.pushDev (s : State) (ck : Nat) (p : SecEntry → Bool := fun _ => true) : State :=
  let c := s.cluster ck
  let s := s.setCluster ck { c with merge := c.merge.filter (fun e => !p e) }
  (c.merge.filter p).foldl (fun s e => s.acceptDev c.die e) s

/-- Poisoned entries below a level mark the committing group (R223, R232). -/
def State.commitPois (s : State) (gk lvl : Nat) : State :=
  let g := s.group gk
  let t := s.team g.team
  let c := s.cluster t.cluster
  let bad := g.gsb.any SecEntry.poisoned || (3 ≤ lvl && t.twb.any SecEntry.poisoned)
    || (4 ≤ lvl && c.merge.any SecEntry.poisoned)
  if bad then s.modGroup gk (fun g => { g with csw := g.csw ||| cswPOIS }) else s

/-- COMMIT to a level of all its group's, team's and cluster's entries (R232). The SWC entries it pushes
to SYS, wherever they stood and even if one spilled on the way, go on to their homes (R244). -/
def State.commitPush (s : State) (gk lvl : Nat) : State :=
  let g := s.group gk
  let ck := (s.team g.team).cluster
  let all := (s.cluster ck).merge ++ (s.team g.team).twb ++ g.gsb
  let own := all.filter (fun e => e.attr.swc && e.attr.home ≠ g.die)
  let lost := 4 ≤ lvl && all.any s.lostNow
  let s := if lost then s.modGroup gk (fun g => { g with csw := g.csw ||| cswPOIS }) else s
  let s := s.commitPois gk lvl
  let s := s.pushTeam gk
  let s := if 3 ≤ lvl then s.pushClus g.team else s
  let s := if 4 ≤ lvl then s.pushDev ck else s
  if lvl = 5 then
    let s := own.foldl (fun s e => s.sendSys g.die e) s
    let s := if s.peerLost then s.modGroup gk (fun g => { g with csw := g.csw ||| cswPOIS }) else s
    s.sysDrain g.die
  else s

/-- A completed commit closes windows and clears horizons (R234, R236). -/
def State.commitDone (s : State) (gk lvl : Nat) : State :=
  let g := s.group gk
  let ck := (s.team g.team).cluster
  let s := { s with seq := s.seq + 1 }
  let s := s.modGroup gk (fun g => { g with
    horizon := false
    winTeam := s.seq
    winClus := if 3 ≤ lvl then s.seq else g.winClus })
  let s := if 3 ≤ lvl then s.modTeam g.team (fun t => { t with horizon := false }) else s
  if 4 ≤ lvl then s.modCluster ck (fun c => { c with horizon := false }) else s

/-- COMMIT.lvl (R232). -/
def State.commit (s : State) (gk lvl : Nat) : State := (s.commitPush gk lvl).commitDone gk lvl

/-- The commit part of a release at a scope (R241), and its sequence number at DEV and SYS
(R243). -/
def State.releaseAt (s : State) (gk lvl : Nat) : State :=
  let s := if 2 ≤ lvl then s.commit gk lvl else s
  if 4 ≤ lvl then s.bumpRelease (s.group gk).die else s

/-! Acquires (R239). -/

/-- Clean TIER 2 and 3 copies dropped from the home L2 of every die, but for .RO and SWC ones (R239): the
acquire's die asks each for it (12_atomics_barriers R277). -/
def State.dropClean (s : State) (die : Nat) : State :=
  let s := (List.range 8).foldl (fun s d => s.roundTrip die d) s
  { s with dies := s.dies.mapV {} (fun _ d => { d with clean := d.clean.filter (fun e => e.2.ro || e.2.swc) }) }

/-- The self-invalidation of an acquire at a scope. -/
def State.acquireAt (s : State) (gk lvl : Nat) : State :=
  let g := s.group gk
  let s := if 3 ≤ lvl then
      let ck := coreKey g.die g.core
      let n := (s.coreAt ck).fillCtr + 1
      (s.modCore ck (fun c => { c with fillCtr := n })).modTeam g.team (fun t => { t with l1thr := n })
    else s
  let s := if 4 ≤ lvl then s.modDie g.die (fun d => { d with gfill := d.gfill + 1, gthr := d.gfill + 1 })
    else s
  if lvl = 5 then s.dropClean g.die else s

/-- The lines of an L1 dropped on a core, or every core of a die (R246, R252). -/
def State.dropL1 (s : State) (p : Nat → Bool) (line : Nat) : State :=
  { s with cores := s.cores.mapV {} (fun k c =>
      if p k then { c with l1 := c.l1.filter (fun e => e.1 / 64 / 8 ≠ line) } else c) }

/-! Stores (09_memory R183, 11_visibility R225). -/

/-- One stored byte of an instruction: where it goes, its page, its bits. -/
structure SByte where
  pk : Nat := 0
  attr : PAttr := {}
  val : Byte := 0
  mask : Byte := 0xFF
deriving DecidableEq, Repr

/-- The sectors of stored bytes, in ascending order of their physical addresses, which is the model's choice,
R225 not saying which addresses it means (log entry 73), the later of two stores to a byte over the
earlier (R184, R225). -/
def sectorsOf (bs : List SByte) (by_ : Nat) : List SecEntry :=
  let secs := bs.foldl (fun acc b =>
    if acc.contains (b.pk / 16) then acc
    else acc.takeWhile (fun x => x < b.pk / 16) ++ [b.pk / 16]
      ++ acc.dropWhile (fun x => x < b.pk / 16)) ([] : List Nat)
  secs.map (fun sec =>
    let mine := bs.filter (fun b => b.pk / 16 = sec)
    { sec, attr := (mine.headD {}).attr
      cells := mine.foldl (fun m b =>
        mergeCells m [(b.pk % 16, { val := b.val, mask := b.mask, by_, wr := by_ })]) [] })

/-- A sector of a store accepted at DEV (R228). The own write of a release to a line homed
elsewhere goes home at once, after the die's older bytes of that line and in release order, and the
home records the release (R243); SWC lines take no part in that (R244). -/
def State.acceptStore (s : State) (die : Nat) (rel : Bool) (e : SecEntry) : State :=
  if !rel || e.attr.swc then (if e.cells.isEmpty then s else s.acceptDev die e)
  else
    let s := if e.attr.home = die then s else (s.sendOrdered die (e.sec / 8)).timeMsg die e.attr.home
    ((s.acceptHome e.attr e.sec e.cells).guestMerge die e.sec e.cells).recordRelease
      e.attr.home (e.sec / 8) die (s.die die).relSeq

/-- What a group stored and a buffer holds of a sector, and the buffer without it. -/
def takeOwn (gk : Nat) (l : List SecEntry) (sec : Nat) : SMap BCell × List SecEntry :=
  ((secCells l sec).filter (fun c => c.2.wr = gk),
   (l.map (fun e => if e.sec = sec then { e with cells := e.cells.filter (fun c => c.2.wr ≠ gk) } else e)).filter
     (fun e => e.sec ≠ sec || !e.cells.isEmpty))

/-- A group's bytes of a sector taken out of every buffer below a level, older ones under newer: the
merge area when the level is above CLUS, the TWB, the GSB (09_memory R183, R184); of the GSB alone for
an atomic (12_atomics_barriers R261). -/
def State.gather (s : State) (gk lvl : Nat) (atom : Bool) (e : SecEntry) : State × SecEntry :=
  let g := s.group gk
  let t := s.team g.team
  let c := s.cluster t.cluster
  let (mc, ml) := if 4 ≤ lvl && !atom then takeOwn gk c.merge e.sec else ([], c.merge)
  let (tc, tl) := if atom then ([], t.twb) else takeOwn gk t.twb e.sec
  let (gc, gl) := takeOwn gk g.gsb e.sec
  let s := ((s.setCluster t.cluster { c with merge := ml }).setTeam g.team { t with twb := tl }).setGroup gk
    { g with gsb := gl }
  (s, { e with cells := mergeCells (mergeCells mc tc) gc })

/-- The group's bytes of each of some sectors taken, in order. -/
def State.gatherAll (s : State) (gk lvl : Nat) (atom : Bool) : List SecEntry → State × List SecEntry
  | [] => (s, [])
  | e :: t =>
    let (s, x) := s.gather gk lvl atom e
    let (s, xs) := s.gatherAll gk lvl atom t
    (s, x :: xs)

/-- A store's sectors carried up to its level with what the group has buffered of them before, and no
others (R183): at the level, the group's later byte is the later (R184). -/
def State.carry (s : State) (gk lvl : Nat) (rel : Bool) (es : List SecEntry) (atom : Bool := false) :
    State :=
  let g := s.group gk
  let ck := (s.team g.team).cluster
  let p : SecEntry → Bool := fun e => es.any (fun x => x.sec = e.sec)
  if lvl ≤ 1 then s
  else if lvl = 2 then s.pushTeam gk p
  else
    let (s, out) := (s.completeGsb gk p).gatherAll gk lvl atom es
    let s := if out.any SecEntry.poisoned then s.modGroup gk (fun g => { g with csw := g.csw ||| cswPOIS })
      else s
    let s := { s with seq := s.seq + 1 }
    if lvl = 3 then
      (out.filter (fun e => !e.cells.isEmpty)).foldl (fun s e =>
        s.mergeAdd ck { e with cells := stampCells e.cells g.team s.seq }) s
    else
      let s := if out.any s.lostNow then s.modGroup gk (fun g => { g with csw := g.csw ||| cswPOIS }) else s
      let s := out.foldl (fun s e => s.acceptStore g.die rel e) s
      if lvl = 4 then s
      else
        let s := out.foldl (fun s e => s.sendSys g.die e) s
        let s := if out.any (fun e => !s.served .write (e.sec * 16)) then
            s.modGroup gk (fun g => { g with csw := g.csw ||| cswPOIS }) else s
        out.foldl (fun s e => if 2 ≤ e.attr.tier then s.writeOn e.attr.home else s) s

/-- The stored bytes of an instruction placed in the group store buffer and carried to the
store's scope; `rel` makes it a release (R183, R241, R243). -/
def State.storeBytes (s : State) (gk : Nat) (bs : List SByte) (scope : Nat) (rel : Bool) : State :=
  let s := if rel then s.releaseAt gk scope else s
  let es := sectorsOf bs gk
  let s := es.foldl (fun s e => s.gsbAdd gk e) s
  s.carry gk scope rel es

/-! Private windows and their spill areas (15_system R338, R339; 04_control R72). -/

/-- The size of a private window of a context (R327, R339). -/
def State.winSize (s : State) (ctx : Nat) : Nat := 2 ^ ((s.crAcc ctx 0x10 0).toNat % 32)

/-- The start of a group's private window (R339). -/
def State.winBase (s : State) (g : Group) : Nat := s.crAcc64 g.ctx 0x0E 0 + g.window * s.winSize g.ctx

/-- The 4 KiB pieces of memory that hold the spill area of a group, as its context's tables place it
(04_control R72). -/
def State.spillPieces (s : State) (g : Group) : List Nat :=
  let a := vaOf (BitVec.ofNat 64 (s.winBase g))
  if !g.live || bitsOf (s.cr g.ctx 0x10).toNat 16 16 ≤ g.window then []
  else match s.walk g.ctx g.die a with
    | .fault _ => []
    | .leaf _ e big => (List.range 16).map (fun i => (leafXl e big (a + 4096 * i)).pk / 4096)

/-- The pieces of memory that hold some group's spill area. -/
def State.spillAll (s : State) : List Nat := s.groups.flatMap (fun e => s.spillPieces e.2)

/-- What a load sees of bytes it read at some places: those of a spill area have no value the manual
states, whoever loads them and by whatever address (04_control R72). `who` tells the loads of one step
apart. -/
def State.seen (s : State) (who : Nat) (pks : List Nat) (bs : List VByte) : List VByte :=
  let areas := s.spillAll
  if areas.isEmpty then bs
  else mapI bs (fun i b =>
    let pk := pks.getD i 0
    if areas.contains (pk / 4096) then { b with val := Config.freeByte s.freeCtr (who * 2 ^ 80 + pk) } else b)

/-! Engine accesses (R252). -/

/-- Bytes written by an engine of a core, accepted at DEV from its die. -/
def State.engineWrite (s : State) (die core : Nat) (bs : List SByte) : State :=
  (sectorsOf bs 0).foldl (fun s e =>
    let s := s.acceptDev die e
    let s := if 2 ≤ e.attr.tier then (s.sendOrdered die (e.sec / 8)).writeOn e.attr.home else s
    s.dropL1 (fun k => k = coreKey die core) (e.sec / 8)) s

/-- A sector read by an engine of a die: at DEV, and at SYS for TIER 2 and 3 pages. -/
def State.engineSec (s : State) (die sec : Nat) (attr : PAttr) (sieve : Bool := false) :
    State × List VByte :=
  if 2 ≤ attr.tier then s.readHome die sec attr false else s.readDev die sec attr false sieve

/-- `[va, va + n)` cut at 16-byte boundaries: the first byte and the length of each piece. -/
def pieces (va n : Nat) : List (Nat × Nat) :=
  if n = 0 then []
  else (List.range ((va + n - 1) / 16 - va / 16 + 1)).map (fun i =>
    let lo := max va ((va / 16 + i) * 16)
    (lo, min (va + n) ((va / 16 + i + 1) * 16) - lo))

/-- Bytes `[va, va + n)` of a context read through `rd`, which reads the sector of a place, after
every page translates: a cause with its address, or the bytes. -/
def State.readVia (s : State) (ctx die va n : Nat) (rd : State → Xl → State × List VByte)
    (core : Option Nat := none) : State × Except (Nat × Nat) (List VByte) :=
  match s.translateAll ctx die .r core (pageStarts va n) with
  | (s, some f) => (s, .error f)
  | (s, none) =>
    let (s, bs) := (pieces va n).foldl (fun (acc : State × List VByte) p =>
      match acc.1.translate ctx die p.1 .r core with
      | (s, .error _) => (s, acc.2 ++ List.replicate p.2 {})
      | (s, .ok x) =>
        let (s, b) := rd s x
        (s, acc.2 ++ s.seen 0 ((List.range p.2).map (x.pk + ·)) ((b.drop (x.pk % 16)).take p.2))) (s, [])
    (s, .ok bs)

/-- Bytes read at DEV from a die, by an engine of a core. -/
def State.engineRead (s : State) (ctx die va n : Nat) (core : Option Nat := none)
    (sieve : Bool := false) : State × Except (Nat × Nat) (List VByte) :=
  s.readVia ctx die va n (fun s x => s.engineSec die (x.pk / 16) x.attr sieve) core

/-- Bytes read by a group at a scope: a hardware table or frame read on the group's behalf. -/
def State.groupRead (s : State) (gk va n scope : Nat) (acq : Bool) :
    State × Except (Nat × Nat) (List VByte) :=
  let g := s.group gk
  s.readVia g.ctx g.die va n (fun s x => s.readSec gk (x.pk / 16) x.attr scope acq false false) (some g.core)

/-- The number bytes spell, least significant first. -/
def vbytesNat (bs : List VByte) : Nat := natLE (bs.map (·.val))

/-- Some byte is poisoned. -/
def anyPois (bs : List VByte) : Bool := bs.any (·.pois)

/-- An aligned 64-bit entry of a table in a context's memory, read at its home: TMAL for a poisoned
line. Of the format table this is the newest record, though until TLBINV a capture may give an older one
(08_formats R153): the model's choice but for translations that are held (log entry 59). -/
def State.tableRead (s : State) (ctx die va : Nat) : State × Except Nat DWord :=
  match s.translate ctx die va .r with
  | (s, .error c) => (s, .error c)
  | (s, .ok x) =>
    if s.linePois x.attr.home x.pk then (s, .error cTMAL)
    else
      let (s, b) := s.readHome die (x.pk / 16) x.attr false
      (s, .ok (BitVec.ofNat 64 (vbytesNat ((b.drop (x.pk % 16)).take 8))))

/-- The bytes of a piece as stored bytes. -/
def pieceBytes (x : Xl) (bs : List Byte) : List SByte :=
  mapI bs (fun i b => { pk := x.pk + i, attr := x.attr, val := b })

/-- Bytes written at DEV from a die at `[va, ...)` of a context: nothing is written unless every
page translates. -/
def State.engineStore (s : State) (ctx die core va : Nat) (bs : List Byte) :
    State × Option (Nat × Nat) :=
  match s.translateAll ctx die .w (some core) (pageStarts va bs.length) with
  | (s, some f) => (s, some f)
  | (s, none) =>
    let (s, out) := (pieces va bs.length).foldl (fun (acc : State × List SByte) p =>
      match acc.1.translate ctx die p.1 .w (some core) with
      | (s, .error _) => (s, acc.2)
      | (s, .ok x) => (s, acc.2 ++ pieceBytes x ((bs.drop (p.1 - va)).take p.2))) (s, [])
    (s.engineWrite die core out, none)

end Sys2Proof.Machine
end

