-- ==== Sys2Proof/Machine/Trap.lean ====
section
/-!
DEFINITION. Taking an exception: traps, parks, the fault buffer and the fault queue, as one shared
operation, and the return from a trap (15_system R338 to R349; 02_encoding R40; 09_memory R176 to
R178; 10_allocation R208).
-/

namespace Sys2Proof.Machine

/-! Private windows and code addresses. -/

/-- PRIVBASE (R339). -/
def State.privBase (s : State) (g : Group) : Nat := s.winBase g + 0x11000

/-- CODEBASE as an access of the step reads it (04_control R62; 15_system R327). -/
def State.codeBase (s : State) (ctx : Nat) (who : Nat := 0) : Nat := s.crAcc64 ctx 4 who

/-- The byte address of a word index of the code window (R62). -/
def State.codeAddr (s : State) (ctx : Nat) (w : BitVec 24) (who : Nat := 0) : Nat :=
  s.codeBase ctx who + 4 * w.toNat

/-- The word index of a code address, unless it breaks R62. -/
def State.codeIndex (s : State) (ctx : Nat) (a : DWord) : Option (BitVec 24) :=
  let b := s.codeBase ctx
  if b ≤ a.toNat && a.toNat < b + 2 ^ 26 && a.toNat % 4 = 0 then
    some (BitVec.ofNat 24 ((a.toNat - b) / 4))
  else none

/-! The fault queue and the fault buffer. -/

/-- The target word of a group (R349). -/
def targetWord (die core slot : Nat) : Word := BitVec.ofNat 32 (die * 2 ^ 18 + core * 2 ^ 11 + slot)

/-- The group slot number within its core, 0 to 2,047 (01_machine R9, R10). -/
def Group.slotNo (g : Group) : Nat := g.port * 512 + g.gslot

/-- A fault-queue entry (R348). -/
def faultEntry (cause : Nat) (eng nrep : Bool) (ctx : Nat) (target w2 w3 : Word) (addr : DWord)
    (time : Nat) : List Word :=
  [BitVec.ofNat 32 (cause + (if eng then 64 else 0) + (if nrep then 128 else 0) + ctx * 256),
   target, w2, w3, lo32 addr, hi32 addr, BitVec.ofNat 32 time, BitVec.ofNat 32 (time / 2 ^ 32)]

/-- Causes of a park that are written into the fault queue (R348). -/
def reported (cause : Nat) : Bool := (32 ≤ cause && cause ≤ 36) || (38 ≤ cause && cause ≤ 40)

/-- Parks that reset a reset-class context (R350). -/
def resetting (cause : Nat) : Bool :=
  cause = cTNP || cause = cTPROT || cause = cTMAL || cause = cDIVF || cause = cDBL || cause = cNOHND

/-- A context reset begins (R350). -/
def State.startReset (s : State) (ctx : Nat) : State := s.setCr ctx 0 (s.cr ctx 0 ||| 0x20)

/-- A group parks (R348): its state is kept, the park is reported, and a reset-class context
begins its reset. -/
def State.parkWith (s : State) (gk : Nat) (p : Park) : State :=
  let g := s.group gk
  let s := s.setGroup gk { g with park := some p }
  let s := if reported p.cause then
      State.timeMsg { s with faultQ := s.faultQ ++ [faultEntry p.cause false p.nrep g.ctx
          (targetWord g.die g.core g.slotNo) p.lanes (p.word.setWidth 32) p.addr
          (s.dieTime g.die)] } g.die commons
    else s
  if (s.cr g.ctx 0).getLsbD 2 && resetting p.cause then s.startReset g.ctx else s

/-- The issuing group parks. -/
def State.park (s : State) (cause : Nat) (lanes : Word) (addr : DWord) (nrep : Bool := false) : State :=
  s.parkWith s.cur { cause, slotB := s.curB, lanes, addr, nrep, word := s.lat.word }

/-- A free entry of a core's fault buffer, of 64 (09_memory R177). -/
def Core.freeEntry (c : Core) : Option Nat :=
  (List.range 64).find? (fun i => !(c.faults.getD i {}).used)

/-- The entry reserved for a waiting instruction (R177). -/
def Core.reservedFor (c : Core) (gk : Nat) (b : Bool) : Option Nat :=
  c.faults.findIdx? (fun _ e => e.used && e.reserved && !e.engine && e.grp = gk
    && e.cmd = (if b then 1 else 0))

/-- Whether a slot waits for a fault-buffer entry (R177). -/
def Core.waits (c : Core) (gk : Nat) (b : Bool) : Bool :=
  c.waiters.any (fun w => !w.engine && w.grp = gk && w.slotB = b)

/-- The issuing group parks on a translation fault: with a fault-buffer entry, its Active kept for when the
instruction is issued again, or, when none is free, the instruction is not performed and its slot waits for
one (R176, R177). -/
def State.parkFault (s : State) (cause : Nat) (lanes : Word) (addr : DWord) : State :=
  let g := s.grp
  let ck := coreKey g.die g.core
  let c := s.coreAt ck
  let slot := match c.reservedFor s.cur s.curB with
    | some i => some i
    | none => if c.waiters.isEmpty then c.freeEntry else none
  match slot with
  | none =>
    let c := if c.waits s.cur s.curB then c
      else { c with waiters := c.waiters ++ [{ grp := s.cur, slotB := s.curB }] }
    (s.setCore ck c).uncount
  | some i =>
    let e : FaultEnt := { used := true, grp := s.cur, cause, addr, lanes, word := s.lat.word.toNat }
    let s := s.keepActive.setCore ck { c with faults := c.faults.set i e {} }
    s.parkWith s.cur { cause, slotB := s.curB, lanes, addr, entry := some i, word := s.lat.word }

/-- Each fault-buffer entry that frees is reserved for the oldest waiter (R177). -/
def Core.reserve (c : Core) : Core :=
  match c.freeEntry, c.waiters with
  | some i, w :: t =>
    let e : FaultEnt := { used := true, reserved := true, engine := w.engine, matrix := w.matrix,
                          grp := w.grp, cmd := if w.engine then w.cmd else (if w.slotB then 1 else 0),
                          chunk := w.chunk }
    { c with faults := c.faults.set i e {}, waiters := t }
  | _, _ => c

/-- A fault-buffer entry freed. -/
def Core.freeFault (c : Core) (i : Nat) : Core := { c with faults := c.faults.set i {} {} }

/-- A reservation that its instruction did not need is released (R177). -/
def State.releaseReserved (s : State) (gk : Nat) (b : Bool) : State :=
  let g := s.group gk
  let ck := coreKey g.die g.core
  match (s.coreAt ck).reservedFor gk b with
  | none => s
  | some i => s.modCore ck (fun c => (c.freeFault i).reserve)

/-- A slot's path leaves it: the slot no longer waits for a fault-buffer entry, nor is one reserved for it
(04_control R65). -/
def State.dropWait (s : State) (gk : Nat) (b : Bool) : State :=
  let g := s.group gk
  let ck := coreKey g.die g.core
  let s := if (s.coreAt ck).waits gk b then
      s.modCore ck (fun c => { c with
        waiters := c.waiters.filter (fun w => !(!w.engine && w.grp = gk && w.slotB = b)) })
    else s
  s.releaseReserved gk b

/-! The trap frame (R345). -/

/-- Word 0 of a slot in the frame. -/
def PcSlot.frame0 (x : PcSlot) : Word :=
  BitVec.ofBool x.slp ++ BitVec.ofBool x.arr ++ BitVec.ofBool x.nj ++ BitVec.ofBool x.v
    ++ BitVec.ofNat 4 x.ins ++ x.pc

/-- The four words of a slot in the frame. -/
def PcSlot.frame (x : PcSlot) : List Word := [x.frame0, x.own, x.act, x.ja.setWidth 32]

/-- A slot from its four words. -/
def PcSlot.ofFrame (w0 own act ja : Word) : PcSlot :=
  { v := w0.getLsbD 28, pc := w0.extractLsb' 0 24, ins := (w0.extractLsb' 24 4).toNat, own, act
    ja := ja.extractLsb' 0 24, nj := w0.getLsbD 29, arr := w0.getLsbD 30, slp := w0.getLsbD 31 }

/-- The predicates gp2 to gp0 as a word. -/
def Group.gpBits (g : Group) : Word :=
  (if g.gpget 0 then 1 else 0) ||| (if g.gpget 1 then 2 else 0) ||| (if g.gpget 2 then 4 else 0)

/-- The lanes that trap. -/
def trapLanes (l : List LaneTrap) : Word := maskOf (fun L => l.any (fun t => t.lane = L))

/-- The lowest-numbered trapping lane's entry. -/
def firstTrap (l : List LaneTrap) : LaneTrap :=
  match (List.range 32).findSome? (fun L => l.find? (fun t => t.lane = L)) with
  | some t => t
  | none => {}

/-- The cause a trap is recorded with: its lowest-numbered lane's (R345). -/
def PendTrap.code_ (p : PendTrap) : Nat := if p.lanes.isEmpty then p.cause else (firstTrap p.lanes).cause

/-- Frame word 0. -/
def frameWord0 (p : PendTrap) (nest : Bool) : Word :=
  BitVec.ofNat 32 (p.code_ + (if p.slotB then 256 else 0) + (if nest then 512 else 0)
    + p.code % 256 * 2 ^ 16)

/-- A 64-bit value as two words. -/
def words64 (x : DWord) : List Word := [lo32 x, hi32 x]

/-- The interrupted slot as the frame records it, at the resume point. -/
def trapSlot (g : Group) (p : PendTrap) (b : Bool) : PcSlot :=
  if b = p.slotB then { g.slot b with pc := p.pc, ins := p.ins } else g.slot b

/-- The 96 words of a trap frame (R345). -/
def frameWords (g : Group) (p : PendTrap) (nest : Bool) (records : Nat) : List Word :=
  [frameWord0 p nest, trapLanes p.lanes, 0, 0]
  ++ (trapSlot g p false).frame ++ (trapSlot g p true).frame
  ++ [BitVec.ofNat 32 records, g.xs, BitVec.ofNat 32 g.calldepth,
      (match g.rp with | none => 0 | some r => 0x80000000 ||| r.setWidth 32)]
  ++ [g.fpstat, g.memst, g.csw, g.cpyst, g.mstst, 0] ++ words64 (firstTrap p.lanes).addr
  ++ (List.range 12).map g.pget
  ++ [g.gpBits, 0] ++ words64 (g.tlatch.setWidth 64)
  ++ (List.range 8).flatMap (fun i => words64 (g.fmget i))
  ++ (List.range 8).map (fun i => g.gget (56 + i))
  ++ (List.range 32).map (fun L =>
      match p.lanes.find? (fun t => t.lane = L) with
      | none => 0
      | some t => BitVec.ofNat 32 (t.cause % 64 + t.lexc * 64))

/-- The bytes of a list of words. -/
def wordBytes (l : List Word) : List Byte := l.flatMap (fun w => bytesLE 4 w.toNat)

/-- The address of a group's trap frame, first or nested (R339). -/
def State.frameAddr (s : State) (g : Group) (nest : Bool) : Nat :=
  s.winBase g + s.winSize g.ctx - (if nest then 0x400 else 0x200)

/-- TRAPVEC's word index, if a handler is installed (R327). -/
def State.trapVec (s : State) (ctx : Nat) : Option (BitVec 24) :=
  if (s.cr ctx 1).getLsbD 24 then some ((s.cr ctx 1).extractLsb' 0 24) else none

/-- Lanes that leave while handlers run join XK of each handler's frame (R345); those whose frame
does not translate now are kept beside it. -/
def State.keepXk (s : State) (gk : Nat) (e : Word) : State :=
  let n := (s.group gk).traps.length
  (List.range n).foldl (fun s i =>
    let g := s.group gk
    let fa := vaOf (BitVec.ofNat 64 (s.frameAddr g (i + 1 < n))) + 8
    let keep (s : State) (m : Word) : State := s.modGroup gk (fun g => { g with
      traps := mapI g.traps (fun j t => if j = i then { t with xk := m } else t) })
    let xk := (g.traps.getD i {}).xk ||| e
    match s.groupRead gk fa 4 4 false with
    | (s, .error _) => keep s xk
    | (s, .ok bs) =>
      match s.engineStore g.ctx g.die g.core fa (wordBytes [BitVec.ofNat 32 (vbytesNat bs) ||| xk]) with
      | (s, some _) => keep s xk
      | (s, none) => keep s 0) s

/-- The records a group's own level of the stack holds: all of them, less those below a handler
(R344). -/
def Group.records (g : Group) : Nat := g.recs.length + g.spilled
def Group.ownRecords (g : Group) : Nat :=
  g.records - (match g.traps with | [] => 0 | t :: _ => t.base)

/-- The handler's state on entry (R344). -/
def enterHandler (g : Group) (p : PendTrap) (vec : BitVec 24) (frame : DWord) (nest : Bool) : Group :=
  let lanes := trapLanes p.lanes
  let ctx : TrapCtx := { slotB := p.slotB, pc := p.pc, ins := p.ins, replay := p.replay,
                         tlanes := lanes, base := g.records, keepA := g.slotA, keepB := g.slotB }
  let slotA : PcSlot := { v := true, pc := vec, own := lanes, act := lanes, nj := true }
  let g : Group := { g with
    slotA := slotA, slotB := {}, calldepth := 0, rp := none, trapPend := none
    traps := ctx :: g.traps.map (fun t => { t with nested := true }) }
  (((g.gput64 56 frame).gput 58 (frameWord0 p nest)).gput 59 lanes).gput64 62 0

/-- A park in place of a pending trap's handler. -/
def PendTrap.park (p : PendTrap) (cause : Nat) (addr : DWord) : Park :=
  { cause, slotB := p.slotB, lanes := trapLanes p.lanes, addr, word := p.word }

/-- A trap whose handler is entered counted, and one that a lane raised with ERX (R356). -/
def State.countTrap (s : State) (gk : Nat) (p : PendTrap) : State :=
  let s := s.countGroup gk 0x09
  if p.lanes.any (fun t => t.cause = cERX) then s.countGroup gk 0x0A else s

/-- A pending trap of a group is taken (R344, R346): the frame is written, and the handler
entered; without a handler the group parks with NOHND, its slot at the resume point, from where
every lane goes on (R349); a trap a handler may not take parks it with DBL at the instruction that
raised it (R343); a frame page that does not translate parks it with that cause, and the trap is
taken after RESUME. Where lanes trap with different causes, a handler's trap is an ERX when its
lowest-numbered lane's is, as the cause recorded has it: the model's choice, R346 not saying (log
entry 70). -/
def State.takeTrap (s : State) (gk : Nat) : State :=
  let g := s.group gk
  match g.trapPend with
  | none => s
  | some p =>
    let depth := g.traps.length
    let erx := p.code_ = cERX
    let fresh := match g.traps with | t :: _ => !t.nested | [] => true
    if 2 ≤ depth || (depth = 1 && !(erx && fresh)) then
      let g' : Group := g.setSlot p.slotB { g.slot p.slotB with pc := p.ipc, ins := p.iins }
      (s.setGroup gk { g' with trapPend := none }).parkWith gk (p.park cDBL (firstTrap p.lanes).addr)
    else
      let nest := depth = 1
      let fa := s.frameAddr g nest
      match s.engineStore g.ctx g.die g.core (vaOf (BitVec.ofNat 64 fa))
          (wordBytes (frameWords g p nest g.ownRecords)) with
      | (s, some (cause, va)) =>
        s.parkWith gk (p.park cause (BitVec.ofNat 64 va))
      | (s, none) =>
        match s.trapVec g.ctx with
        | none =>
          let g' : Group := g.setSlot p.slotB { trapSlot g p p.slotB with only := none, again := none }
          (s.setGroup gk { g' with trapPend := none }).parkWith gk
            (p.park cNOHND (firstTrap p.lanes).addr)
        | some vec =>
          (((s.countTrap gk p).dropWait gk false).dropWait gk true).setGroup gk
            (enterHandler g p vec (BitVec.ofNat 64 fa) nest)

/-- A trap of the issuing instruction, the slot's present place its resume point. -/
def State.trapHere (s : State) (cause : Nat) (lanes : List LaneTrap) (replay : Bool) (code : Nat) :
    PendTrap :=
  { slotB := s.curB, cause, lanes, code, replay, pc := s.slot.pc, ins := s.slot.ins
    ipc := s.lat.clause, iins := s.lat.ins, word := s.lat.word }

/-- The issuing slot traps at its present place (R344). `replay`: the resume point is the
instruction itself. An empty list of lanes raises nothing. -/
def State.raise (s : State) (lanes : List LaneTrap) (replay : Bool) (code : Nat := 0) : State :=
  if lanes.isEmpty then s
  else
    (s.modGrp (fun g => { g with trapPend := some (s.trapHere 0 lanes replay code) })).takeTrap s.cur

/-- A trap of every lane of a mask, the instruction as the resume point. -/
def State.raiseAll (s : State) (cause : Nat) (m : Word) (addr : DWord := 0) : State :=
  s.raise ((lanesOf m).map (fun L => { lane := L, cause, addr })) true

/-- A trap of exactly the lanes of a mask, taken even when the mask is empty, the instruction as
the resume point. -/
def State.raiseMask (s : State) (cause : Nat) (m : Word) (addr : DWord := 0) : State :=
  let lanes : List LaneTrap := (lanesOf m).map (fun L => { lane := L, cause, addr })
  (s.modGrp (fun g => { g with trapPend := some (s.trapHere cause lanes true 0) })).takeTrap s.cur

/-- A trap of every lane of the issuing slot's mask, whatever the guard. An illegal instruction
records the address of its word (02_encoding R40). -/
def State.raiseSlot (s : State) (cause : Nat) (addr : DWord := 0) : State :=
  s.raiseMask cause s.slot.act
    (if cause = cILL then BitVec.ofNat 64 (s.codeAddr s.grp.ctx s.lat.word) else addr)

/-- The end of an instruction some of whose lanes trapped: none, and the slot goes on; otherwise
the trap, with the instruction as the resume point (09_memory R178). -/
def State.finish (s : State) (lanes : List LaneTrap) : State :=
  if lanes.isEmpty then s.cont else s.raise lanes true

end Sys2Proof.Machine
end

