-- ==== Sys2Proof/Machine/Code.lean ====
section
/-!
DEFINITION. Code addresses as transfers use them: branch targets, the code-object directory, the
translations of level-1 streams and the jobs that calls wait on (02_encoding R33; 04_control R62;
16_loading R362 to R371).
-/

namespace Sys2Proof.Machine

/-- The word index of a branch-format target, if it lies in the code window (02_encoding R33,
04_control R62). -/
def brTarget (clause : BitVec 24) (off : BitVec 16) : Option (BitVec 24) :=
  let t : Int := (clause.toNat : Int) + off.toInt
  if 0 ≤ t && t < 2 ^ 24 then some (BitVec.ofNat 24 t.toNat) else none

/-! The code-object directory (16_loading R362, R363). -/

/-- The place of a byte offset of a context's code window, if its page translates. -/
def State.windowXl (s : State) (ctx die off : Nat) : Option Xl :=
  let va := vaOf (BitVec.ofNat 64 (s.codeBase ctx + off))
  match s.walk ctx die va with
  | .leaf _ e big => some (leafXl e big va)
  | .fault _ => none

/-- `n` bytes at a virtual address, as their home holds them; 0 where a page is missing. -/
def State.peekNat (s : State) (ctx die va n : Nat) : Nat :=
  natLE ((List.range n).map (fun i =>
    match s.walk ctx die (vaOf (BitVec.ofNat 64 (va + i))) with
    | .fault _ => 0
    | .leaf _ e big =>
      let x := leafXl e big (vaOf (BitVec.ofNat 64 (va + i)))
      (s.homeByte x.attr.home x.pk).val))

/-- `n` bytes at an offset of the code window. -/
def State.windowNat (s : State) (ctx die off n : Nat) : Nat := s.peekNat ctx die (s.codeBase ctx + off) n

/-- A word of the code window. -/
def State.windowWord (s : State) (ctx die w : Nat) : Word := BitVec.ofNat 32 (s.windowNat ctx die (4 * w) 4)

/-- The arena's word indices (R362). -/
def arenaLo : Nat := 0x2000000 / 4
def arenaHi : Nat := 0x3FF0000 / 4

/-- A directory entry (R363). -/
structure DirEnt where
  valid : Bool := false
  l1 : Bool := false
  cls : Nat := 0
  nfunc : Nat := 0
  base : Nat := 0
  len : Nat := 0
  funcs : Nat := 0
  tlink : Nat := 0
  migs : Nat := 0
deriving DecidableEq, Repr

/-- The offset of the directory in the code window (R362). -/
def dirOff : Nat := 0x3FF0000

/-- Entry `h` of the directory, handles 1 to 1,023: a handle past them has none. -/
def State.dirEntry (s : State) (ctx die h : Nat) : DirEnt :=
  let f (off n : Nat) : Nat := s.windowNat ctx die (dirOff + 64 * h + off) n
  let w0 := f 0 4
  if 1023 < h then {}
  else { valid := w0.testBit 0, l1 := w0.testBit 1, cls := bitsOf w0 8 8, nfunc := f 4 4, base := f 8 8
         len := f 0x10 8, funcs := f 0x18 8, tlink := f 0x20 4, migs := f 0x28 8 }

/-- The handles whose entries have VALID and L1 set, found among the bytes that memory and the home's L2
list. -/
def State.l1Handles (s : State) (ctx die : Nat) : List Nat :=
  (List.range 16).flatMap (fun b =>
    match s.windowXl ctx die (dirOff + 4096 * b) with
    | none => []
    | some x =>
      let d := s.die x.attr.home
      let ks := s.mem.map (·.1) ++ d.dirty.map (·.1) ++ d.clean.map (fun e => 16 * e.1)
      (dedup (ks.filter (fun k => x.pk ≤ k && k < x.pk + 4096 && (k - x.pk) % 64 = 0))).filterMap (fun k =>
        let h := b * 64 + (k - x.pk) / 64
        let v := (s.homeByte x.attr.home k).val
        if v.getLsbD 0 && v.getLsbD 1 && h ≠ 0 then some h else none))

/-- The registered level-1 object whose stream holds a word of the window (R370). -/
def State.l1Object (s : State) (ctx die : Nat) (w : BitVec 24) : Option Nat :=
  (s.l1Handles ctx die).find? (fun h =>
    let d := s.dirEntry ctx die h
    d.base ≤ 4 * w.toNat && 4 * w.toNat < d.base + d.len)

/-! Translations (R366 to R371). -/

/-- The translation whose arena range holds a clause, if any, under its key. -/
def State.transEntry (s : State) (ctx : Nat) (pc : BitVec 24) : Option (Nat × Translation) :=
  s.trans.find? (fun e => e.2.live && e.2.ctx = ctx
    && e.2.ranges.any (fun r => r.1 ≤ pc.toNat && pc.toNat < r.2))

/-- The translation whose arena range holds a clause, if any. -/
def State.transAt (s : State) (ctx : Nat) (pc : BitVec 24) : Option Translation :=
  (s.transEntry ctx pc).map (·.2)

/-- The newest complete translation of an object, among those that satisfy a test (R364, R370). -/
def State.newest (s : State) (ctx obj : Nat) (p : Translation → Bool := fun _ => true) :
    Option Translation :=
  s.trans.foldl (fun acc e =>
    if e.2.live && e.2.complete && e.2.ctx = ctx && e.2.obj = obj && p e.2
        && (match acc with | none => true | some t => decide (t.epoch < e.2.epoch))
    then some e.2 else acc) none

/-- TRANSEPOCH of a slot (03_groupwide R59). -/
def State.transEpoch (s : State) (ctx : Nat) (pc : BitVec 24) : Nat :=
  match s.transAt ctx pc with | none => 0 | some t => t.epoch

/-- CODELEVEL: of the code the slot issues from, as R59 and 08_formats R148 have it. R61 has it the same for
both slots of a group, which it is unless one of them runs translated code and the other native code
(log entry 63). -/
def State.codeLevel (s : State) (ctx : Nat) (pc : BitVec 24) : Nat :=
  if (s.transAt ctx pc).isSome then 1 else 2

/-- Where an indirect transfer goes: a clause, nowhere (R62), or to code still to be translated
(R370). -/
inductive Dest where
  | at_ (t : BitVec 24)
  | bad
  | cnr (obj epoch word : Nat)
deriving DecidableEq, Repr

/-- The destination a code address names for the issuing slot (04_control R62, 16_loading
R370). -/
def State.codeDest (s : State) (a : DWord) : Dest :=
  let g := s.grp
  match s.codeIndex g.ctx a with
  | none => .bad
  | some t =>
    match s.l1Object g.ctx g.die t with
    | none => .at_ t
    | some obj =>
      let own := (s.transAt g.ctx s.lat.clause).filter (fun x => x.obj = obj)
      match (match own with | some x => some x | none => s.newest g.ctx obj) with
      | none => .cnr obj 0 t.toNat
      | some x =>
        if x.map.getD t.toNat 0 = 0 then .cnr obj x.epoch t.toNat
        else .at_ (BitVec.ofNat 24 (x.map.getD t.toNat 0))

/-- The issuing group parks on untranslated code; the Thresher keeps one job for the object and the
word (R370). -/
def State.parkCnr (s : State) (obj epoch word : Nat) : State :=
  let ctx := s.grp.ctx
  let s := match s.jobs.findIdx? (fun _ j => j.live && j.ctx = ctx && j.obj = obj && j.word = word) with
    | some k =>
      let j := s.jobs.getD k {}
      let j : Job := { j with groups := dedup (j.groups ++ [s.cur]) }
      { s with jobs := s.jobs.set k j {} }
    | none =>
      let k := s.nextId
      let j : Job := { live := true, ctx, obj, epoch, word, groups := [s.cur] }
      { s with nextId := k + 1, jobs := s.jobs.set k j {} }
  s.park cCNR s.slot.act 0

/-! Kernel tables (R360). -/

/-- The words of an object's directory entry. -/
def State.dirWords (s : State) (ctx obj : Nat) : List Nat :=
  (List.range 16).map (fun i => s.windowNat ctx commons (dirOff + 64 * obj + 4 * i) 4)

/-- The key of an object's file among those that the Thresher has. -/
def fileKey (ctx obj : Nat) : Nat := ctx * 1024 + obj

/-- An object's file: as the Thresher has it, or, of an object registered since, with the kernel table that
comes with an event. -/
def State.objFile (s : State) (ctx obj : Nat) (kers : List (List Word)) : ObjFile :=
  let f := s.files.getD (fileKey ctx obj) {}
  let dir := s.dirWords ctx obj
  if f.dir = dir then f else { dir, kers }

/-- The word of the stream at which a kernel of the table is entered (R360, R363). -/
def kerEntry (d : DirEnt) (k : List Word) : Nat := (d.base + (k.getD 1 0).toNat) / 4

/-- The number of a kernel's list among its object's migration lists: word 15 of its KERTAB entry. -/
def State.kernelList (s : State) (ctx obj entry : Nat) (d : DirEnt) : Option Nat :=
  ((s.files.getD (fileKey ctx obj) {}).kers.find? (fun k => kerEntry d k = entry)).map
    (fun k => (k.getD 15 0).toNat)

/-! Migration (R369). -/

/-- The address of list `n` of the migration lists that begin at an address, each a 4-byte count and its
4-byte offsets (16_loading R360). -/
def State.migList (s : State) (ctx die : Nat) : Nat → Nat → Nat
  | 0, va => va
  | n + 1, va => s.migList ctx die n (va + 4 + 4 * s.peekNat ctx die va 4)

/-- A byte offset stands among the `n` offsets at an address. -/
def State.inList (s : State) (ctx die off : Nat) : Nat → Nat → Bool
  | 0, _ => false
  | n + 1, va => s.peekNat ctx die va 4 = off || s.inList ctx die off n (va + 4)

/-- The instructions of the clause at a word, as far as the `n`-th: their first words' indices. -/
def State.clauseWords (s : State) (ctx die : Nat) : Nat → Nat → List Nat
  | 0, _ => []
  | n + 1, w => w :: s.clauseWords ctx die n (w + if (s.windowWord ctx die w).getLsbD 23 then 2 else 1)

/-- The instructions of a clause of the window: their words' indices. -/
def State.clauseAt (s : State) (ctx die c : Nat) : List Nat :=
  s.clauseWords ctx die ((s.windowWord ctx die c).toNat % 16) (c + 1)

/-- The clause of a translation that holds what a stream word became, and its number there: a stream's
instructions stand one for one in its clauses (R366). -/
def State.placeOf (s : State) (t : Translation) (die word : Nat) : Option (Nat × Nat) :=
  t.src.findSome? (fun e =>
    let off := word - (e.2 - 1)
    if word < e.2 - 1 || 30 < off then none
    else ((s.clauseAt t.ctx die e.1).findIdx? (fun w => w = e.1 + 1 + off)).map (fun k => (e.1, k)))

/-- The stream word of the issuing REFILL: a clause renders the stream's words one for one. -/
def State.refillWord (s : State) (old : Translation) : Option Nat :=
  match old.src.getD s.lat.clause.toNat 0 with
  | 0 => none
  | n + 1 => some (n + (s.lat.word.toNat - s.lat.clause.toNat - 1))

/-- The address of the migration list of the issuing group's kernel (R360, R369). -/
def State.migAt (s : State) (obj : Nat) : Option Nat :=
  let g := s.grp
  let d := s.dirEntry g.ctx g.die obj
  (s.kernelList g.ctx obj (((s.launch g.launch).rec_.getD 0 0).toNat % 2 ^ 24) d).map
    (fun n => s.migList g.ctx g.die n d.migs)

/-- The REFILL of the newest complete epoch that holds the launch's kernel, when it is newer than the
issuing one, its clause and its number there: if the group's kernel is one of the object whose translation
the slot runs, and the kernel's migration list names the REFILL (R369). -/
def State.migrateTo (s : State) : Option (Nat × Nat) :=
  let g := s.grp
  let l := s.launch g.launch
  let entry := (l.rec_.getD 0 0).toNat % 2 ^ 24
  match s.transAt g.ctx s.lat.clause with
  | none => none
  | some old =>
    match s.refillWord old, s.migAt old.obj,
        s.newest g.ctx old.obj (fun t => t.map.getD entry 0 ≠ 0 && decide (old.epoch < t.epoch)) with
    | some word, some at_, some new =>
      let d := s.dirEntry g.ctx g.die old.obj
      if bitsOf (l.rec_.getD 1 0).toNat 0 16 = old.obj
          && s.inList g.ctx g.die (4 * word - d.base) (s.peekNat g.ctx g.die at_ 4) (at_ + 4)
      then s.placeOf new g.die word else none
    | _, _, _ => none

/-- The walks of reading the directory entry and the migration list (09_memory R173). -/
def State.touchMig (s : State) : State :=
  let g := s.grp
  match s.transAt g.ctx s.lat.clause with
  | none => s
  | some old =>
    let s := s.touchRange g.ctx g.die (vaOf (BitVec.ofNat 64 (s.codeBase g.ctx + dirOff + 64 * old.obj))) 64 .r
    match s.migAt old.obj with
    | none => s
    | some a => s.touchRange g.ctx g.die (vaOf (BitVec.ofNat 64 a)) (4 + 4 * s.peekNat g.ctx g.die a 4) .r

end Sys2Proof.Machine
end

