-- ==== Sys2Proof/WellFormed.lean ====
section
/-!
DEFINITION. Which field values an instruction admits (02_encoding R34 to R36, R39 and the
field tables of the chapters). An encoding that fails these checks raises ILL whatever the
state. The checks that need the state (the launch's register count, the clause's flag slots,
the engine class) are in Sys2Proof/Machine/Issue.lean.
-/

namespace Sys2Proof

/-- What a register field names (R34). -/
inductive Field where
  | zero      -- unused: must be zero
  | v         -- lane register
  | v2        -- even lane register, a pair
  | v4        -- lane quad, a multiple of 4
  | v8        -- lane range of the matrix class, a multiple of 8
  | g         -- group-wide register 0-63
  | g2        -- even group-wide register
  | g4        -- group-wide quad
  | g8        -- command block, a multiple of 8 below 64
  | p         -- lane predicate 0-11
  | pred      -- any predicate 0-15 (R127)
  | gp        -- group predicate 0-3
  | fm        -- format register 0-7
  | handle    -- scratchpad handle 0-15
  | acc       -- logical tile 0-7
  | desig     -- designator 0-19 (R202)
  | imm       -- any 8-bit value
  | below (n : Nat) -- an index below n
deriving DecidableEq, Repr

/-- The values a field admits (R34). -/
def Field.ok : Field → BitVec 8 → Bool
  | .zero, x => x = 0
  | .v, _ => true
  | .v2, x => x.toNat % 2 = 0
  | .v4, x => x.toNat % 4 = 0
  | .v8, x => x.toNat % 8 = 0
  | .g, x => x.toNat < 64
  | .g2, x => x.toNat < 64 && x.toNat % 2 = 0
  | .g4, x => x.toNat < 64 && x.toNat % 4 = 0
  | .g8, x => x.toNat < 64 && x.toNat % 8 = 0
  | .p, x => x.toNat < 12
  | .pred, x => x.toNat < 16
  | .gp, x => x.toNat < 4
  | .fm, x => x.toNat < 8
  | .handle, x => x.toNat < 16
  | .acc, x => x.toNat < 8
  | .desig, x => x.toNat < 20
  | .imm, _ => true
  | .below n, x => x.toNat < n

/-- Guard kinds (R36). -/
inductive GuardKind where
  | any | group | lane | always
deriving DecidableEq, Repr

/-- The G and N values a guard kind admits (R36). -/
def GuardKind.ok : GuardKind → BitVec 4 → Bool → Bool
  | .any, _, _ => true
  | .group, g, _ => 12 ≤ g.toNat
  | .lane, g, _ => g.toNat < 12
  | .always, g, n => g = 15 && !n

/-- Word 0: guard kind, D and A fields, and whether H may be set (R36, R37). -/
def W0.ok (w : W0) (k : GuardKind) (d a : Field) (h : Bool := false) : Bool :=
  k.ok w.g w.n && d.ok w.d && a.ok w.a && (h || !w.h)

/-- The source modifiers an entry accepts (R35). -/
structure Mods where
  na : Bool := false
  aa : Bool := false
  nb : Bool := false
  ab : Bool := false
  nc : Bool := false
deriving DecidableEq, Repr

def Alu.modsOk (r : Alu) (m : Mods) : Bool :=
  (m.na || !r.na) && (m.aa || !r.aa) && (m.nb || !r.nb) && (m.ab || !r.ab) && (m.nc || !r.nc)

/-- TY is one of the listed codes. -/
def Alu.tyIn (r : Alu) (tys : List Nat) : Bool := tys.contains r.ty.toNat

/-- OPX[0], the usual place of the immediate form. -/
def Alu.imm (r : Alu) : Bool := r.opx.getLsbD 0

/-- B names `kb` and C `kc`. -/
def Alu.bc (r : Alu) (kb kc : Field) : Bool := kb.ok r.b && kc.ok r.c

/-- "imm": OPX[0] replaces B by C, and B must then be zero; otherwise C must be zero (R53, R93). -/
def Alu.bOrImm (r : Alu) (kb : Field) (imm : Bool) : Bool :=
  if imm then r.b = 0 else kb.ok r.b && r.c = 0

/-- An ALU-layout word with no rounding mode. -/
def Alu.plain (r : Alu) (tys : List Nat) (m : Mods := {}) : Bool :=
  r.tyIn tys && r.rnd = 0 && r.modsOk m

/-- OPX below 2: only the immediate bit may be set. -/
def Alu.opxImm (r : Alu) : Bool := r.opx.toNat < 2

def Alu.opx0 (r : Alu) : Bool := r.opx = 0

/-- The source modifiers NA, AA, NB and AB. -/
def mods4 : Mods := { na := true, aa := true, nb := true, ab := true }

/-- Two-source group-wide ALU form (R53). -/
def wfGAlu (w : W0) (r : Alu) (tys : List Nat) (k : Field := .g) : Bool :=
  w.ok .group k k && r.plain tys && r.opxImm && r.bOrImm k r.imm

/-- Two-source lane integer form (R93). -/
def wfIAlu (w : W0) (r : Alu) (tys : List Nat) (m : Mods := {}) (k : Field := .v) : Bool :=
  w.ok .any k k true && r.plain tys m && r.opxImm && r.bOrImm k r.imm

/-- Shift forms: the count is one 32-bit register or the immediate (R93). -/
def wfShift (w : W0) (r : Alu) (tys : List Nat) (wide : Nat) : Bool :=
  let k : Field := if r.ty.toNat = wide then .v2 else .v
  w.ok .any k k true && r.plain tys && r.opxImm && r.bOrImm .v r.imm

/-- Field-extract forms: OPX[0] makes both B and C immediates (R94). -/
def wfField (w : W0) (r : Alu) (tys : List Nat) : Bool :=
  w.ok .any .v .v true && r.plain tys && r.opxImm

/-- Floating-point form: rounding mode free when `rnd` (R115). -/
def wfF (w : W0) (r : Alu) (kd ka kb kc : Field) (tys : List Nat) (rnd : Bool) (m : Mods)
    (opx : Bool) : Bool :=
  w.ok .any kd ka true && r.bc kb kc && r.tyIn tys && (rnd || r.rnd = 0) && r.modsOk m && opx

/-- The floating types of scalar arithmetic: default, .F16, .BF16, .F32 (R115). -/
def fTys : List Nat := [0, 14, 15, 16]

/-- Unary function on .F32 (R115). -/
def wfFun (w : W0) (r : Alu) : Bool :=
  wfF w r .v .v .zero .zero [0, 16] true { na := true, aa := true } r.opx0

/-- Registers a data operand of the memory layout names, by type (R180). -/
def dataField (ty : Nat) : Field :=
  if [4, 9, 13, 17].contains ty then .v2 else if ty = 5 then .v4 else .v

/-- The same for group-wide data registers (R57). -/
def gDataField (ty : Nat) : Field :=
  if [4, 9, 13, 17].contains ty then .g2 else if ty = 5 then .g4 else .g

/-- NOB = 1 requires B = 0; otherwise B names `kb` (R35). -/
def MemF.bOk (m : MemF) (kb : Field) : Bool := if m.nob then m.b = 0 else kb.ok m.b

def MemF.scoIn (m : MemF) (l : List Nat) : Bool := l.contains m.sco.toNat
def MemF.ordIn (m : MemF) (l : List Nat) : Bool := l.contains m.ord.toNat
def MemF.hntIn (m : MemF) (l : List Nat) : Bool := l.contains m.hnt.toNat
def MemF.tyIn (m : MemF) (l : List Nat) : Bool := l.contains m.ty.toNat

/-- With E = 1 the type is 0 or 16 (R179). -/
def MemF.eOk (m : MemF) (may : Bool) : Bool := !m.e || (may && m.tyIn [0, 16])

/-- Every accepted type code of LD and its kin (R179). -/
def ldTys : List Nat := List.range 20

/-- LD, ST and PREF: OPX[0] = LA, which requires NOB and alone permits H (R179). -/
def wfLdSt (w : W0) (m : MemF) (d : Field) (sco ord hnt : List Nat) (tys : List Nat)
    (e : Bool) : Bool :=
  let la := m.opx.getLsbD 0
  w.ok .any d (if la then .v2 else .g2) la && m.tyIn tys && m.scoIn sco && m.ordIn ord
    && m.hntIn hnt && m.eOk e && m.opx.toNat < 2 && (!la || m.nob) && m.bOk .v

/-- LDW, STW, LDG, STG (R179). -/
def wfBlock (w : W0) (m : MemF) (kb : Field) (tys sco ord hnt : List Nat) (e : Bool) : Bool :=
  w.ok .any (dataField m.ty.toNat) .g2 && m.tyIn tys && m.scoIn sco && m.ordIn ord
    && m.hntIn hnt && m.eOk e && m.opx = 0 && m.bOk kb

/-- LDS and STS (R179). -/
def wfSpad (w : W0) (m : MemF) : Bool :=
  w.ok .any (dataField m.ty.toNat) .handle && m.tyIn ldTys && m.sco = 0 && m.ord = 0
    && m.hnt = 0 && m.eOk true && m.opx = 0 && m.bOk .v

/-- OP of the atomics: HNT holds OP[3:2] and OPX holds OP[1:0] (R258). -/
def MemF.op (m : MemF) : Nat := 4 * m.hnt.toNat + m.opx.toNat

/-- Types accepted by each atomic operation (R259); 9 is CAS, 10 a user operation. -/
def atomTys : Nat → List Nat
  | 0 | 1 | 2 => [0, 8, 9, 12, 13, 16, 19]
  | 3 | 4 | 5 => [0, 8, 9, 12, 13]
  | 6 => [0, 3, 4, 8, 9, 12, 13, 16, 19]
  | 7 | 8 => [0, 12, 13]
  | _ => [0, 3, 4]

/-- D of CAS and UATOM: a pair for 32-bit types, a quad for 64-bit ones (R258). -/
def casField (ty : Nat) : Field := if ty = 4 then .v4 else .v2

/-- ATOM, CAS, RED and UATOM (R258, R259). -/
def wfAtom (w : W0) (m : MemF) (d : Field) (ops : List Nat) (row : Nat) (sco ord : List Nat) :
    Bool :=
  w.ok .any d .g2 && ops.contains m.op && m.tyIn (atomTys row) && m.scoIn sco && m.ordIn ord
    && !m.e && m.bOk .v

/-- An R word whose B, C and M16 are restricted to the bits of `mask`. -/
def RRaw.ok (r : RRaw) (kb kc : Field) (mask : Half) : Bool :=
  kb.ok r.b && kc.ok r.c && (r.m16 &&& ~~~mask) = 0

/-- LVL, M16 [10:8] (R230). -/
def RRaw.lvl (r : RRaw) : Nat := (r.m16.extractLsb' 8 3).toNat

/-- Word 1 of SRD and SWR: bits [31:28] are zero (R327). -/
def sysWordOk (imm : Word) : Bool := imm.extractLsb' 28 4 = 0

/-- PEER, M16 [13:10] of BARV (R270). -/
def RRaw.peer (r : RRaw) : Nat := (r.m16.extractLsb' 10 4).toNat

/-- The A word of the matrix class: TY, FA and ASC (R305, R306). -/
def wfMma (w : W0) (r : RRaw) (sparse : Bool) : Bool :=
  let ty := (r.m16.extractLsb' 11 5).toNat
  let fa := (r.m16.extractLsb' 4 3).toNat
  let asc := r.m16.getLsbD 3
  w.ok .group .acc .v8 true && Field.ok .g r.b && [0, 14, 15].contains ty
    && r.m16.extractLsb' 0 3 = 0
    && (ty = 0 || (fa = 0 && !asc)) && (asc || r.c = 0) && (!sparse || !asc)

/-- MDRAIN (R305, R306). -/
def wfMdrain (w : W0) (r : RRaw) : Bool :=
  let ty := (r.m16.extractLsb' 11 5).toNat
  let amx := r.m16.getLsbD 9
  w.ok .group .acc .g4 && [0, 14, 15, 16].contains ty && r.m16.extractLsb' 0 9 = 0
    && (if amx then Field.ok .g2 r.b else r.b = 0) && (if ty = 0 then Field.ok .fm r.c else r.c = 0)

/-- The well-formed instructions: the field tables of the chapters, one arm per constructor.
An event row has no encoding and nothing to check. -/
def Instr.wf : Instr → Bool
  | .nop w => w.ok .any .zero .zero
  | .bra b => GuardKind.ok .group b.g b.n
  | .brd b j => GuardKind.ok .lane b.g b.n && j.extractLsb' 16 16 = 0
  | .join b => GuardKind.ok .always b.g b.n
  | .brx w => w.ok .group .zero .g2
  | .call b => GuardKind.ok .group b.g b.n
  | .callg w => w.ok .group .zero .g2
  | .ret w => w.ok .group .zero .zero
  | .exit w => w.ok .any .zero .zero
  | .refill w => w.ok .always .v .zero
  | .yield w => w.ok .group .zero .zero
  | .sleep w _ => w.ok .group .zero .zero
  | .dstat w => w.ok .group .g .zero
  | .maskr w => w.ok .group .g .zero
  | .maskw w => w.ok .group .zero .g
  | .trap w => w.ok .any .imm .zero
  | .tret w => w.ok .always .zero .zero
  | .brk w => w.ok .any .imm .zero
  | .callx w _ => w.ok .group .zero .zero
  | .tramp w _ => w.ok .group .zero .zero
  | .gmov w => w.ok .group .g .g
  | .gmovi w _ => w.ok .group .g .zero
  | .gadd w r => wfGAlu w r [0, 3, 8, 12]
  | .gsub w r => wfGAlu w r [0, 3, 8, 12]
  | .gmul w r => wfGAlu w r [0, 3, 8, 12]
  | .gmad w r => w.ok .group .g .g && r.plain [0, 3, 8, 12] && r.opx0 && r.bc .g .g
  | .gand w r => wfGAlu w r [0, 3]
  | .gor w r => wfGAlu w r [0, 3]
  | .gxor w r => wfGAlu w r [0, 3]
  | .gshl w r => wfGAlu w r [0, 3]
  | .gshr w r => wfGAlu w r [0, 3]
  | .gsar w r => wfGAlu w r [0, 3]
  | .gadd64 w r => wfGAlu w r [0, 4] .g2
  | .gcmp w r =>
      let k : Field := if [9, 13].contains r.ty.toNat then .g2 else .g
      w.ok .group .gp k && r.plain [0, 8, 12, 9, 13] && r.opx.toNat < 12 && r.bOrImm k r.imm
  | .gsel w r => w.ok .group .g .g && r.plain [0, 3] && r.opx0 && r.bc .g .gp
  | .gmin w r => wfGAlu w r [0, 8, 12]
  | .gmax w r => wfGAlu w r [0, 8, 12]
  | .gpopc w => w.ok .group .g .g
  | .gffs w => w.ok .group .g .g
  | .glea w r => w.ok .group .g2 .g2 && r.plain [0, 8, 12] && r.opx.toNat < 8 && r.bc .g .imm
  | .gld w m => w.ok .group (gDataField m.ty.toNat) .g2 && m.tyIn [0, 1, 2, 3, 4, 5, 6, 7, 8, 10, 11, 12]
      && m.scoIn [0, 1, 2, 3, 4, 5] && m.ordIn [0, 1] && !m.e && m.opx = 0 && m.bOk .g
  | .gst w m => w.ok .group (gDataField m.ty.toNat) .g2 && m.tyIn [0, 1, 2, 3, 4, 5]
      && m.scoIn [0, 1, 2, 3, 4, 5] && m.ordIn [0, 2] && m.hntIn [0, 2, 3] && !m.e && m.opx = 0 && m.bOk .g
  | .gsread w => w.ok .group (if w.a = 17 then .g2 else .g) (.below 20)
  | .gplop w r => w.ok .group .gp .gp && r.plain [0] && r.opx.toNat < 4 && r.bc .gp .imm
  | .mov w => w.ok .any .v .v true
  | .movi w _ => w.ok .any .v .zero
  | .iadd w r => wfIAlu w r [0, 3, 8, 12] { na := true, nb := true }
  | .isub w r => wfIAlu w r [0, 3, 8, 12] { na := true, nb := true }
  | .imul w r => wfIAlu w r [0, 3, 8, 12] { na := true, nb := true }
  | .imulh w r => wfIAlu w r [0, 8, 12]
  | .imad w r => w.ok .any .v .v true && r.plain [0, 3, 8, 12] { na := true, nb := true, nc := true }
      && r.opx0
  | .imadw w r => w.ok .any .v2 .v true && r.plain [0, 8, 12] { nc := true } && r.opx0 && r.bc .v .v2
  | .iadd64 w r => wfIAlu w r [0, 4] {} .v2
  | .isub64 w r => wfIAlu w r [0, 4] {} .v2
  | .iand w r => wfIAlu w r [0, 3]
  | .ior w r => wfIAlu w r [0, 3]
  | .ixor w r => wfIAlu w r [0, 3]
  | .inot w => w.ok .any .v .v true
  | .ishl w r => wfShift w r [0, 3, 4] 4
  | .ishr w r => wfShift w r [0, 3, 4] 4
  | .isar w r => wfShift w r [0, 8, 9] 9
  | .bfe w r => wfField w r [0, 8, 12]
  | .bfi w r => wfField w r [0, 3]
  | .popc w => w.ok .any .v .v true
  | .clz w => w.ok .any .v .v true
  | .brev w => w.ok .any .v .v true
  | .imin w r => wfIAlu w r [0, 8, 12] mods4
  | .imax w r => wfIAlu w r [0, 8, 12] mods4
  | .iabs w => w.ok .any .v .v true
  | .icmp w r =>
      let wide := [9, 13].contains r.ty.toNat
      let k : Field := if wide then .v2 else .v
      w.ok .any .p k true && r.plain [0, 8, 12, 9, 13] (if wide then {} else mods4)
        && r.opx.toNat < 12 && r.bOrImm k r.imm
  | .sel w r =>
      let k : Field := if r.ty.toNat = 4 then .v2 else .v
      w.ok .any k k true && r.plain [0, 3, 4] && r.opx0 && r.bc k .p
  | .lea w r => w.ok .any .v2 .g2 && r.plain [0, 8, 12] && r.opx.toNat < 8 && r.bc .v .imm
  | .icvt w r =>
      let wideD := [9, 13].contains r.ty.toNat
      let wideS := [3, 7].contains r.opx.toNat
      w.ok .any (if wideD then .v2 else .v) (if wideS then .v2 else .v) true
        && r.plain [6, 7, 8, 9, 10, 11, 12, 13] && r.opx.toNat < 8 && r.bc .zero .zero
  | .iadds w r => w.ok .any .v .v true && r.plain [0, 8, 12] && r.opx.toNat < 4 && r.bOrImm .v r.imm
  | .idot4 w r => w.ok .any .v .v true && r.plain [0, 8] && r.opx.toNat < 4
  | .fadd w r => wfF w r .v .v .v .zero fTys true mods4 r.opx0
  | .fsub w r => wfF w r .v .v .v .zero fTys true mods4 r.opx0
  | .fmul w r => wfF w r .v .v .v .zero fTys true mods4 r.opx0
  | .ffma w r => wfF w r .v .v .v .v fTys true { mods4 with nc := true } r.opx0
  | .fmin w r => wfF w r .v .v .v .zero fTys false mods4 r.opx0
  | .fmax w r => wfF w r .v .v .v .zero fTys false mods4 r.opx0
  | .fcmp w r => wfF w r .p .v .v .zero fTys false mods4 (!r.opx.getLsbD 0)
  | .fclass w r => wfF w r .v (if r.ty.toNat = 17 then .v2 else .v) .zero .zero (17 :: fTys) false {} r.opx0
  | .frnd w r => wfF w r .v .v .zero .zero fTys true { na := true, aa := true }
      (r.opx.toNat < 2 && (!r.imm || r.rnd = 0))
  | .frcp w r => wfFun w r
  | .frsq w r => wfFun w r
  | .fsqrt w r => wfFun w r
  | .fexp2 w r => wfFun w r
  | .flog2 w r => wfFun w r
  | .fsin w r => wfFun w r
  | .fcos w r => wfFun w r
  | .ftanh w r => wfFun w r
  | .fscale w r => wfF w r .v .v .v .zero [0, 16] true { na := true, aa := true } r.opx0
  | .dadd w r => wfF w r .v2 .v2 .v2 .zero [0, 17] true mods4 r.opx0
  | .dmul w r => wfF w r .v2 .v2 .v2 .zero [0, 17] true mods4 r.opx0
  | .dfma w r => wfF w r .v2 .v2 .v2 .v2 [0, 17] true { mods4 with nc := true } r.opx0
  | .dcmp w r => wfF w r .p .v2 .v2 .zero [0, 17] false mods4 (!r.opx.getLsbD 0)
  | .hadd2 w r => wfF w r .v .v .v .zero [0, 18, 19] true mods4 r.opx0
  | .hmul2 w r => wfF w r .v .v .v .zero [0, 18, 19] true mods4 r.opx0
  | .hfma2 w r => wfF w r .v .v .v .v [0, 18, 19] true { mods4 with nc := true } r.opx0
  | .fdot2 w r => wfF w r .v .v .v .v [0, 18, 19] true { na := true, nb := true, nc := true } r.opx0
  | .plop w r => w.ok .any .p .pred && r.plain [0] && r.bc .pred .imm
  | .pmov w r => r.plain [0] && r.b = 0 &&
      (match r.opx.toNat with
       | 0 => w.ok .any .v .zero && r.c = 0
       | 1 => w.ok .any .zero .v true && r.c = 0
       | 2 => w.ok .any .v .zero && Field.ok .pred r.c
       | 3 => w.ok .any .zero .v true && Field.ok .p r.c
       | _ => false)
  | .vote w r => w.ok .any .gp .p && r.plain [0] && r.opx.toNat < 3 && r.bc .zero .zero
  | .ballot w r => w.ok .any .g .p && r.plain [0] && r.opx0 && r.bc .zero .zero
  | .shfl w r =>
      let k : Field := if r.ty.toNat = 4 then .v2 else .v
      w.ok .any k k true && r.plain [0, 3, 4] && r.opx.toNat < 8 && r.bOrImm .v (r.opx.getLsbD 2)
  | .rdlane w r =>
      let wide := r.ty.toNat = 4
      w.ok .any (if wide then .g2 else .g) (if wide then .v2 else .v) true && r.plain [0, 3, 4]
        && r.opxImm && r.bOrImm .g r.imm
  | .wrlane w r =>
      let wide := r.ty.toNat = 4
      w.ok .any (if wide then .v2 else .v) (if wide then .g2 else .g) && r.plain [0, 3, 4]
        && r.opxImm && r.bOrImm .g r.imm
  | .matchv w r => w.ok .any .v (if r.ty.toNat = 4 then .v2 else .v) true && r.plain [0, 3, 4] && r.opx0
      && r.bc .zero .zero
  | .prank w r => w.ok .any .v .p && r.plain [0] && r.opxImm && r.bc .zero .zero
  | .lred w r =>
      let op := r.opx.toNat
      w.ok .any .v .v true && r.tyIn (if op < 3 then [0, 3, 8, 12, 16] else [0, 3, 12]) && op < 6
        && ((op = 0 && r.ty = 16) || r.rnd = 0) && r.modsOk {} && r.bc .zero .zero
  | .lsread w => w.ok .any .v (.below 8)
  | .fcvt w r =>
      let td := r.ty.toNat
      let ts := r.opx.toNat
      w.ok .any (if [9, 13, 17].contains td then .v2 else .v) (if [1, 3, 7].contains ts then .v2 else .v) true
        && r.tyIn [0, 8, 9, 12, 13, 14, 15, 16, 17] && ts < 8
        && ([0, 14, 15, 16, 17].contains td || 4 ≤ ts)
        && r.modsOk (if 4 ≤ ts then { na := true, aa := true } else {}) && r.bc .zero .zero
  | .fpack w r => w.ok .any .v .v true && r.plain [0] && (r.opx = 0 || r.opx = 8) && r.bc .v .fm
  | .funpack w r => w.ok .any .v .v true && r.plain [0] && r.opx0 && r.bc .v .fm
  | .fmld w r => r.plain [0] &&
      (match r.opx.toNat with
       | 0 => w.ok .group .fm .g2 && r.bc .zero .zero
       | 1 => w.ok .group .fm .zero && r.bc .g .zero
       | 2 => w.ok .group .fm .zero && r.bc .zero .imm
       | _ => false)
  | .fmst w r => w.ok .group .g2 .fm && r.plain [0] && r.opx0 && r.bc .zero .zero
  | .fscl w r => w.ok .any .v .v true && r.plain [0] && r.opx0 && r.bc .zero .fm
  | .ld w m => wfLdSt w m (dataField m.ty.toNat) [0, 1, 2, 3, 4, 5] [0, 1] [0, 1, 2, 3] ldTys true
  | .st w m => wfLdSt w m (dataField m.ty.toNat) [0, 1, 2, 3, 4, 5] [0, 2] [0, 2, 3] ldTys true
  | .ldw w m => wfBlock w m .g [0, 3, 4, 5] [0, 1, 2, 3, 4, 5] [0, 1] [0, 1, 2, 3] true
  | .stw w m => wfBlock w m .g [0, 3, 4, 5] [0, 1, 2, 3, 4, 5] [0, 2] [0, 2, 3] false
  | .ldg w m => wfBlock w m .v ldTys [0, 4, 5] [0, 1] [0, 2, 3] true
  | .stg w m => wfBlock w m .v ldTys [0, 4, 5] [0, 2] [0, 2, 3] true
  | .lds w m => wfSpad w m
  | .sts w m => wfSpad w m
  | .pref w m => wfLdSt w m .zero [0, 2, 4] [0] [0, 2] [0] false
  | .commit w r => w.ok .group .zero .zero && r.ok .zero .zero 0x0700 && 2 ≤ r.lvl && r.lvl ≤ 5
  | .commitChk w r => w.ok .group .zero .zero && r.ok .zero .zero 0x0701 && r.m16.getLsbD 0
      && (r.lvl = 2 || r.lvl = 3)
  | .abort w r => w.ok .group .zero .zero && r.ok .zero .zero 0x0700 && 1 ≤ r.lvl && r.lvl ≤ 3
  | .fence w r => w.ok .group .zero .zero && r.ok .zero .zero 0x07E0 && 2 ≤ r.lvl && r.lvl ≤ 5
      && r.m16.extractLsb' 6 2 ≠ 0 && (!r.m16.getLsbD 5 || r.m16.extractLsb' 6 2 = 3)
  | .wbr w r => w.ok .group .zero .g2 && r.ok .g .zero 0x0700 && (r.lvl = 4 || r.lvl = 5)
  | .invr w r => w.ok .group .zero .g2 && r.ok .g .zero 0
  | .append w r => w.ok .group .g2 .g2 && r.ok .g .imm 0
  | .apsync w r => w.ok .group .zero .zero && r.ok .zero .imm 0
  | .cstat w => w.ok .group .g (.below 2)
  | .atom w m => wfAtom w m (dataField m.ty.toNat) (List.range 9) m.op [0, 2, 3, 4, 5] [0, 1, 2, 3]
  | .cas w m => wfAtom w m (casField m.ty.toNat) [0] 9 [0, 2, 3, 4, 5] [0, 1, 2, 3]
  | .red w m => wfAtom w m (dataField m.ty.toNat) [0, 1, 2, 3, 4, 5, 7, 8] m.op [0, 2, 3, 4, 5] [0, 2]
  | .atoms w m => w.ok .any (if m.op = 9 then casField m.ty.toNat else dataField m.ty.toNat) .handle
      && m.op < 10 && m.tyIn (atomTys m.op) && m.sco = 0 && m.ord = 0 && !m.e && m.bOk .v
  | .uatom w m => wfAtom w m (casField m.ty.toNat) (List.range 16) 10 [0, 3, 4, 5] [0, 1, 2, 3]
  | .binit w r => w.ok .group .zero .handle && r.ok .g .imm 0x0001
  | .barv w r =>
      let rmt := r.m16.getLsbD 15
      let pgr := r.m16.getLsbD 14
      let kim := r.m16.getLsbD 9
      w.ok .any (if kim then .zero else .g) .handle && r.ok (if pgr then .g else .zero) .imm 0xFEFF
        && (kim || r.m16.extractLsb' 0 8 = 0) && (!pgr || (rmt && r.peer = 0))
        && (rmt || r.peer = 0) && r.peer < 12
  | .bwait w r =>
      let pim := r.m16.getLsbD 15
      w.ok .group .zero .handle && r.ok (if pim then .zero else .g) .imm 0xFFFF
        && (pim || r.m16.extractLsb' 0 15 = 0)
  | .btest w r =>
      let pim := r.m16.getLsbD 15
      w.ok .group .gp .handle && r.ok (if pim then .zero else .g) .imm 0xFFFF
        && (pim || r.m16.extractLsb' 0 15 = 0)
  | .bexp w r => w.ok .group .zero .handle && r.ok .g .imm 0
  | .chkt w r => w.ok .group .gp .handle && r.ok .g .imm 0x0001
  | .time w => w.ok .group .g2 .zero
  | .cpy w => w.ok .group .zero .g8
  | .cpy2d w => w.ok .group .zero .g8
  | .cpym w => w.ok .group .zero .g8
  | .cpyg w => w.ok .group .zero .g8
  | .cpyq w => w.ok .group .g .g
  | .cpyc w => w.ok .group .g .g
  | .mma w r => wfMma w r false
  | .mmas w r => wfMma w r true
  | .mzero w => w.ok .group .acc .zero
  | .mldc w r => w.ok .group .acc .handle && r.ok .g .zero 0
  | .mdrain w r => wfMdrain w r
  | .mfence w r => w.ok .group .g .handle && r.ok .zero .imm 0
  | .myokeReport w => w.ok .group .g .zero
  | .myokeUnbind w => w.ok .group .g (.below 2) && w.a = 1
  | .myokeBind w => w.ok .group .g (.below 3) && w.a = 2
  | .mstat w => w.ok .group .g (.below 16) && (w.a.toNat < 2 || 8 ≤ w.a.toNat)
  | .alloc w r => w.ok .group .handle .g && r.ok .g .imm 0xFC03
  | .free w => w.ok .group .zero .handle
  | .renew w => w.ok .group .desig .g
  | .aqry w => w.ok .group .g2 .desig
  | .reclass w r => w.ok .group .desig .g && r.ok .zero .imm 0x0007
      && (w.d.toNat < 16 || (!r.m16.getLsbD 2 && r.c = 0))
  | .srd w imm => w.ok .group .g .zero && sysWordOk imm
  | .swr w imm => w.ok .group .zero .g && sysWordOk imm
  | .launch w => w.ok .group .g .g2
  | .ipush w => w.ok .any .zero .v true
  | .ipushClose w => w.ok .any (.below 2) .zero && w.d = 1
  | .resume w => w.ok .group .g .g
  | .killg w => w.ok .group .g .g
  | .tlbinv w r => r.ok .imm .imm 0x0003 &&
      (match (r.m16.extractLsb' 0 2).toNat with
       | 0 => w.ok .group .zero .g2 && Field.ok .g r.b && (r.c.toNat < 64 || r.c = 0xFF)
       | 1 => w.ok .group .zero .zero && r.b = 0 && (r.c.toNat < 64 || r.c = 0xFF)
       | 2 => w.ok .group .zero .zero && r.b = 0 && r.c = 0
       | _ => false)
  | .evcnt w => w.ok .group .g2 (.below 24)
  | .haltc w r => w.ok .group .g .g && r.ok .zero .zero 0x0001
  | .goc w => w.ok .group .g .g
  | .ecci w r => r.ok .imm .zero 0x000F && r.m16.extractLsb' 2 2 ≠ 3 &&
      (match (r.m16.extractLsb' 0 2).toNat with
       | 0 => w.ok .group .zero .zero && Field.ok .g r.b
       | 1 => w.ok .group .zero .g2 && r.b = 0
       | 2 => w.ok .group .zero .g2 && r.b = 0
       | _ => false)
  | .pick _ _ _ _ => true
  | .completion _ _ => true
  | .groupRetire _ => true
  | .sleepWake _ _ => true
  | .trapEntry _ => true
  | .faultBufferEntryFree _ => true
  | .faultQueueEntry => true
  | .backgroundDrain _ _ => true
  | .guestEviction _ _ => true
  | .l1LineDrop _ _ => true
  | .millerAtomic _ _ => true
  | .amax _ _ => true
  | .barw _ => true
  | .userOperation _ _ => true
  | .remoteArrival _ => true
  | .copyCommandStart _ _ => true
  | .guardResolve _ _ => true
  | .chunkLand _ _ _ => true
  | .matrixCommandStart _ _ => true
  | .batchArrival _ _ => true
  | .columnRemap _ => true
  | .refresh _ _ => true
  | .rowRemap _ => true
  | .hostNop _ => true
  | .hostLaunch _ => true
  | .signal _ => true
  | .wait _ => true
  | .bufset _ => true
  | .buffree _ => true
  | .ctxset _ => true
  | .qset _ => true
  | .logbind _ => true
  | .logbindRebind _ _ => true
  | .uopset _ => true
  | .preempt _ => true
  | .ctxreset _ => true
  | .contextReset _ => true
  | .watchdogExpiry _ => true
  | .launchDispatch _ => true
  | .clusterPlace _ => true
  | .launchComplete _ => true
  | .itemBatch _ _ => true
  | .placementTimeout _ => true
  | .swapOut _ => true
  | .swapIn _ _ => true
  | .translationJobComplete _ _ _ _ => true
  | .firstPass _ _ _ _ _ => true
  | .secondPass _ _ _ _ _ => true
  | .appendDurable _ => true
  | .doorbell _ _ => true
  | .admen => true
  | .hostRead _ _ => true
  | .hostWrite _ _ => true
  | .hostAtomicop _ _ _ _ _ => true
  | .attestationReport => true
  | .identityCertificate => true
  | .peerAccess _ _ _ _ _ _ => true
  | .linkRetrain _ _ => true
  | .drainStart _ => true
  | .drainComplete => true
  | .evselClr _ _ => true
  | .tempmaxClr => true
  | .thresholdWrite _ _ => true
  | .thcmdCool => true
  | .thcmdGo => true
  | .thcmdResume => true
  | .thcmdSafe => true
  | .thcmdAscend => true
  | .registerWrite _ _ _ _ => true
  | .sensorSample _ _ => true
  | .bandChange => true
  | .bandReturnHold => true
  | .powerOn _ _ => true
  | .powerOff => true
  | .dewPointHold => true
  | .purgeTimeout => true
  | .rateMeasure _ => true
  | .soakHold => true
  | .coldtrainComplete _ _ _ => true
  | .flitReplay _ => true

end Sys2Proof
end

