-- ==== Sys2Proof/Machine/Operands.lean ====
section
/-!
DEFINITION. Operand forms of lane and group-wide instructions: how a lane register word is read
under its lease and poison (10_allocation R206 to R208, R222), source modifiers (02_encoding R35),
immediates (03_groupwide R53, 05_integer R93), and how results are written (R207).
-/

namespace Sys2Proof.Machine

/-! Leases of register rows. -/

/-- The class range that holds register `n` (10_allocation R201). -/
def Group.rangeOf (g : Group) (n : Nat) : Option ClassRange :=
  (g.crs.find? (fun e => e.2.valid && e.2.first ≤ n && n ≤ e.2.last)).map (·.2)

/-- A row is expired at clock `lc` when `lc` is past stamp and lease (R206). -/
def expiredAt (lc stamp lease : Nat) : Bool := stamp + lease < lc

/-- The retention class of a register (R203). -/
def Group.clsOf (g : Group) (n : Nat) : Nat := match g.rangeOf n with | none => 0 | some c => c.cls

/-- Lane `L`'s word of register `n` is not readable at clock `lc` (R206). -/
def Group.unreadable (g : Group) (lc n L : Nat) : Bool :=
  match g.rangeOf n with
  | none => false
  | some c => c.cls ≠ 0 && (expiredAt lc (g.vst.getD n 0) c.lease || inMask (g.vx.getD n 0) L)

/-- Lane `L`'s word of register `n` is poisoned (R222). -/
def Group.vPoisoned (g : Group) (n L : Nat) : Bool := inMask (g.vpois.getD n 0) L

/-- Reading register `n` of lane `L` raises ERX (R208). -/
def Group.rdErx (g : Group) (lc n L : Nat) : Bool := g.clsOf n = 2 && g.unreadable lc n L

/-- Reading register `n` of lane `L` raises POIS (R222): expired words are not read. -/
def Group.rdPois (g : Group) (lc n L : Nat) : Bool := g.vPoisoned n L && !g.unreadable lc n L

/-- Reading register `n` of lane `L` finds a lapsed word (R208). -/
def Group.rdLapse (g : Group) (lc n L : Nat) : Bool := g.clsOf n = 1 && g.unreadable lc n L

/-- The words of a row put at the lanes of a list. -/
def Group.putLanes (g : Group) (n : Nat) (f : Nat → Word) : List Nat → Group
  | [] => g
  | L :: t => (g.vput n L (f L)).putLanes n f t

/-- A write of some lanes' words of a register renews its row (R207) and clears their poison
(R222); a write of no word does nothing. -/
def Group.renewRow (g : Group) (lc n : Nat) (m : Word) : Group :=
  if m = 0 then g else
  let g := { g with vpois := g.vpois.set n (g.vpois.getD n 0 &&& ~~~m) 0 }
  match g.rangeOf n with
  | none => g
  | some c =>
    if c.cls = 0 then g
    else
      let st := g.vst.getD n 0
      let x := g.vx.getD n 0
      { g with
        vx := g.vx.set n (if expiredAt lc st c.lease then ~~~m else x &&& ~~~m) 0
        vst := g.vst.set n (max st lc) 0 }

/-- The lanes of `m` of register `n` written with `f` at clock `lc`. -/
def Group.writeRow (g : Group) (lc n : Nat) (m : Word) (f : Nat → Word) : Group :=
  (g.renewRow lc n m).putLanes n f (lanesOf m)

/-- The same for a register pair. -/
def Group.writeRow64 (g : Group) (lc n : Nat) (m : Word) (f : Nat → DWord) : Group :=
  (g.writeRow lc n m (fun L => lo32 (f L))).writeRow lc (n + 1) m (fun L => hi32 (f L))

/-! Reading lane registers. -/

/-- A lane register word under its lease: a lapsed word reads as zero (R208). The destination of an
outstanding load is met under its old word's lease and poison: R30 speaks of the value alone, and that
the new value brings no renewal before it is written is the model's choice (log entry 10). -/
def State.rd (s : State) (n L : Nat) : Word :=
  if s.grp.unreadable s.lat.lc n L then 0 else s.rdV n L

/-- A lane register pair. -/
def State.rd64 (s : State) (n L : Nat) : DWord := pair (s.rd n L) (s.rd (n + 1) L)

/-- The lanes of `m` that trap by reading one of the registers each reads. That a lane that meets both
takes ERX and not POIS is the model's choice: R175, R208 and R222 do not order the two (log
entry 16). -/
def State.erxLanes (s : State) (m : Word) (regs : Nat → List Nat) : Word :=
  m &&& maskOf (fun L => (regs L).any (fun n => s.grp.rdErx s.lat.lc n L))
def State.poisLanes (s : State) (m : Word) (regs : Nat → List Nat) : Word :=
  m &&& maskOf (fun L => (regs L).any (fun n => s.grp.rdPois s.lat.lc n L))

/-- Some lane of `m` finds a lapsed word in one of the registers. -/
def State.lapses (s : State) (m : Word) (regs : Nat → List Nat) : Bool :=
  (lanesOf m).any (fun L => (regs L).any (fun n => s.grp.rdLapse s.lat.lc n L))

/-- The traps of reading registers in the lanes of `m`. -/
def State.readTraps (s : State) (m : Word) (regs : Nat → List Nat) : List LaneTrap :=
  let e := s.erxLanes m regs
  let p := s.poisLanes m regs &&& ~~~e
  ((lanesOf m).filter (fun L => inMask e L || inMask p L)).map
    (fun L => { lane := L, cause := if inMask e L then cERX else cPOIS })

/-- The lanes that none of the traps strikes. -/
def without (m : Word) (ts : List LaneTrap) : Word := m &&& ~~~(trapLanes ts)

/-- A memory status bit set (09_memory R192). -/
def State.setMemst (s : State) (bits : Word) : State :=
  s.modGrp (fun g => { g with memst := g.memst ||| bits })

def memstLAPSE : Word := 8
def memstSPMIS : Word := 4
def memstSPGAP : Word := 2
def memstSPNH : Word := 1

/-- The source registers of an instruction read in its Active lanes (R208): the lapse recorded,
the traps, and the lanes that go on. -/
def State.readSources (s : State) (m : Word) (regs : Nat → List Nat) : State × List LaneTrap × Word :=
  let ts := s.readTraps m regs
  let s' := if s.lapses (without m ts) regs then s.setMemst memstLAPSE else s
  (s', ts, without m ts)

/-- A lane instruction whose results depend on each lane's own words alone: sources read, `eff`
applied to the lanes that do not trap, and the rest left to the trap (R208, 09_memory R178). -/
def State.laneExecL (s : State) (m : Word) (regs : Nat → List Nat) (eff : State → Word → State) :
    State :=
  let (s, ts, ok) := s.readSources m regs
  (eff s ok).finish ts

/-- The same where every lane reads the same registers. -/
def State.laneExec (s : State) (m : Word) (regs : List Nat) (eff : State → Word → State) : State :=
  s.laneExecL m (fun _ => regs) eff

/-- A register word of a group as the number an armed error names it by (15_system R358). -/
def armKey (gk reg lane : Nat) : Nat := (gk * 256 + reg) * 32 + lane

/-- Errors armed at the words of a register that a write covers are gone (15_system R358). -/
def State.disarmReg (s : State) (gk n : Nat) (m : Word) : State :=
  let g := s.group gk
  let k := coreKey g.die g.core
  if (s.coreAt k).armed.isEmpty then s
  else s.modCore k (fun c => { c with
    armed := c.armed.filter (fun e => !(e.site = 0 && e.at_ / 32 = gk * 256 + n && inMask m (e.at_ % 32))) })

/-- A lane register written in the lanes of `m`. -/
def State.wr (s : State) (n : Nat) (m : Word) (f : Nat → Word) : State :=
  (s.disarmReg s.cur n m).modGrp (fun g => g.writeRow s.lat.lc n m f)

/-- A lane register pair written in the lanes of `m`. -/
def State.wr64 (s : State) (n : Nat) (m : Word) (f : Nat → DWord) : State :=
  ((s.disarmReg s.cur n m).disarmReg s.cur (n + 1) m).modGrp (fun g => g.writeRow64 s.lat.lc n m f)

/-- A lane predicate written in the lanes of `m`, the other lanes kept (07_lanes R127). -/
def State.wrP (s : State) (n : Nat) (m : Word) (f : Nat → Bool) : State :=
  s.modGrp (fun g => g.pput n ((g.pget n &&& ~~~m) ||| (m &&& maskOf f)))

/-! Source modifiers on integers (02_encoding R35). -/

/-- Absolute value, then negation, both wrapping. -/
def intMod {w : Nat} (ab ng : Bool) (x : BitVec w) : BitVec w :=
  let x := if ab && x.msb then -x else x
  if ng then -x else x

/-- The register of operand B, which C replaces as an immediate when OPX[0] is set. -/
def regsB (r : Alu) : List Nat := if r.imm then [] else [r.b.toNat]

/-- C zero-extended. -/
def immW (r : Alu) : Word := r.c.setWidth 32

/-- Operand A of lane `L` with its modifiers. -/
def State.srcA (s : State) (w : W0) (r : Alu) (L : Nat) : Word := intMod r.aa r.na (s.rd w.a.toNat L)
/-- Operand B of lane `L`: register with modifiers, or immediate. -/
def State.srcB (s : State) (r : Alu) (L : Nat) : Word :=
  intMod r.ab r.nb (if r.imm then immW r else s.rd r.b.toNat L)
/-- Operand C of lane `L` with NC. -/
def State.srcC (s : State) (r : Alu) (L : Nat) : Word := intMod false r.nc (s.rd r.c.toNat L)

/-- Two-source lane form: D := f a b per Active lane. -/
def State.lane2 (s : State) (w : W0) (r : Alu) (f : Word → Word → Word) : State :=
  s.laneExec (s.activeW w) (w.a.toNat :: regsB r)
    (fun s' ok => s'.wr w.d.toNat ok (fun L => f (s.srcA w r L) (s.srcB r L)))

/-- One-source lane form. -/
def State.lane1 (s : State) (w : W0) (f : Word → Word) : State :=
  s.laneExec (s.activeW w) [w.a.toNat]
    (fun s' ok => s'.wr w.d.toNat ok (fun L => f (s.rd w.a.toNat L)))

/-! Group-wide operands (03_groupwide R53). -/

/-- Operand s: C when OPX[0] is set, else G[B]. -/
def State.gsrc (s : State) (r : Alu) : Word := if r.imm then immW r else s.rdG r.b.toNat

/-- A group-wide instruction that acts when its guard holds, and then goes on (R51, R52). -/
def State.groupExec (s : State) (w : W0) (eff : State → State) : State :=
  if s.guardW w then (eff s).cont else s.cont

/-- A group-wide register written. -/
def State.wrG (s : State) (n : Nat) (x : Word) : State := s.modGrp (fun g => g.gput n x)
def State.wrG64 (s : State) (n : Nat) (x : DWord) : State := s.modGrp (fun g => g.gput64 n x)
def State.wrGP (s : State) (n : Nat) (b : Bool) : State := s.modGrp (fun g => g.gpput n b)

/-- Two-source group-wide form: G[D] := f G[A] s (R54). -/
def State.group2 (s : State) (w : W0) (r : Alu) (f : Word → Word → Word) : State :=
  s.groupExec w (fun s => s.wrG w.d.toNat (f (s.rdG w.a.toNat) (s.gsrc r)))

/-- One-source group-wide form. -/
def State.group1 (s : State) (w : W0) (f : Word → Word) : State :=
  s.groupExec w (fun s => s.wrG w.d.toNat (f (s.rdG w.a.toNat)))

end Sys2Proof.Machine
end

