-- ==== Sys2Proof/Machine/Flags.lean ====
section
/-!
DEFINITION. Conditions and sticky status: the comparison codes (03_groupwide R53, 05_integer R93),
and the bits that instructions set in FPSTAT, CPYST and MSTST (06_float R112, 13_copy R292,
14_matrix R320).
-/

namespace Sys2Proof.Machine

/-- The six condition codes over an order and an equality: 0 EQ, 1 NE, 2 LT, 3 LE, 4 GT, 5 GE. -/
def condCode (cc : Nat) (lt eq : Bool) : Bool :=
  match cc with
  | 0 => eq
  | 1 => !eq
  | 2 => lt
  | 3 => lt || eq
  | 4 => !lt && !eq
  | _ => !lt

/-- The comparison of two `w`-bit values, signed or unsigned. -/
def cmpInt {w : Nat} (signed : Bool) (cc : Nat) (x y : BitVec w) : Bool :=
  condCode cc (if signed then x.slt y else x.ult y) (x = y)

/-- A lesser-of choice; on equality the first. -/
def minInt {w : Nat} (signed : Bool) (x y : BitVec w) : BitVec w :=
  if (if signed then y.slt x else y.ult x) then y else x

/-- A greater-of choice; on equality the first. -/
def maxInt {w : Nat} (signed : Bool) (x y : BitVec w) : BitVec w :=
  if (if signed then x.slt y else x.ult y) then y else x

/-- The bits of FPSTAT (06_float R112). -/
def fpNV : Nat := 1
def fpDZ : Nat := 2
def fpOF : Nat := 4
def fpUF : Nat := 8
def fpNX : Nat := 16

/-- Exceptions recorded in FPSTAT, which is sticky. -/
def State.orFpstat (s : State) (bits : Nat) : State :=
  s.modGrp (fun g => { g with fpstat := g.fpstat ||| BitVec.ofNat 32 bits })

/-- Error codes of the engine status words: 1 TPROT, 2 TMAL, 3 BADA, 4 POIS, 5 ALGN (13_copy R292,
14_matrix R320). -/
def engineCode (cause : Nat) : Nat :=
  if cause = cTPROT then 1 else if cause = cTMAL then 2 else if cause = cBADA then 3
  else if cause = cPOIS then 4 else 5

/-- ERR and ECAUSE of an engine status word. -/
def engineErr (cause : Nat) : Word := BitVec.ofNat 32 (2 ^ 31 + engineCode cause * 2 ^ 28)

/-- A group's copy status records an error. -/
def State.copyErr (s : State) (gk cause : Nat) : State :=
  s.modGroup gk (fun g => if g.live then { g with cpyst := engineErr cause } else g)

/-- A group's matrix engine status records an error. -/
def State.matErr (s : State) (gk cause : Nat) : State :=
  s.modGroup gk (fun g => if g.live then { g with mstst := engineErr cause } else g)

end Sys2Proof.Machine
end

