-- ==== Sys2Proof/Machine/Float.lean ====
section
/-!
DEFINITION. Floating-point values and their rounding (06_float R109 to R111): a value is a NaN, a
signed infinity or a signed exact real; an instruction computes the exact result and rounds it
once.
-/

namespace Sys2Proof.Machine

/-- A non-negative real `(m + d) * 2^e`, with d = 0, or 0 < d < 1 when `st` is set. -/
structure Mag where
  m : Nat := 0
  e : Int := 0
  st : Bool := false
deriving DecidableEq, Repr

/-- A floating-point operand or exact result. `sig`: the NaN is signalling (R111). -/
inductive FNum where
  | nan (sig : Bool)
  | inf (neg : Bool)
  | fin (neg : Bool) (x : Mag)
deriving DecidableEq, Repr

/-- A binary interchange format: exponent bits and precision, the hidden bit included (R109). -/
structure FFmt where
  eb : Nat
  p : Nat
deriving DecidableEq, Repr

def f16 : FFmt := ⟨5, 11⟩
def bf16 : FFmt := ⟨8, 8⟩
def f32 : FFmt := ⟨8, 24⟩
def f64 : FFmt := ⟨11, 53⟩

def FFmt.bias (f : FFmt) : Int := 2 ^ (f.eb - 1) - 1
/-- The exponent of the smallest normal value. -/
def FFmt.emin (f : FFmt) : Int := 1 - f.bias
/-- The exponent of the largest finite values. -/
def FFmt.emax (f : FFmt) : Int := f.bias
/-- The exponent of the smallest subnormal value. -/
def FFmt.etiny (f : FFmt) : Int := f.emin - (f.p - 1 : Nat)
/-- The bits of +infinity. -/
def FFmt.infBits (f : FFmt) : Nat := (2 ^ f.eb - 1) * 2 ^ (f.p - 1)
/-- The sign bit's weight. -/
def FFmt.signBit (f : FFmt) : Nat := 2 ^ (f.eb + f.p - 1)
/-- The canonical NaN (R111). -/
def FFmt.nanBits (f : FFmt) : Nat := f.infBits + 2 ^ (f.p - 2)

/-- The value of a bit pattern. -/
def FFmt.decode (f : FFmt) (x : Nat) : FNum :=
  let neg := x.testBit (f.eb + f.p - 1)
  let e := x / 2 ^ (f.p - 1) % 2 ^ f.eb
  let fr := x % 2 ^ (f.p - 1)
  if e = 2 ^ f.eb - 1 then
    if fr = 0 then .inf neg else .nan (!x.testBit (f.p - 2))
  else if e = 0 then .fin neg { m := fr, e := f.etiny }
  else .fin neg { m := 2 ^ (f.p - 1) + fr, e := f.etiny + (e - 1 : Nat) }

/-- A magnitude as a multiple of 2^g, rounded: 0 to nearest even, 1 towards zero, 2 up, 3 down,
4 to nearest with ties away; and whether it is inexact. -/
def Mag.roundAt (rnd : Nat) (neg : Bool) (x : Mag) (g : Int) : Nat × Bool :=
  if g ≤ x.e then (x.m * 2 ^ (x.e - g).toNat, x.st)
  else
    let sh := min (g - x.e).toNat (x.m.log2 + 2)
    let q := x.m / 2 ^ sh
    let r := x.m % 2 ^ sh
    let half := 2 ^ (sh - 1)
    let inexact := r ≠ 0 || x.st
    let up := match rnd with
      | 0 => half < r || (r = half && (x.st || q % 2 = 1))
      | 1 => false
      | 2 => !neg && inexact
      | 3 => neg && inexact
      | _ => half ≤ r
    (if up then q + 1 else q, inexact)

/-- The exponent of the leading bit of a positive magnitude. -/
def Mag.msb (x : Mag) : Int := x.e + x.m.log2

/-- A result in a format and the FPSTAT bits it raises (R110). -/
abbrev FRes := Nat × Nat

/-- An overflowed result (R110). -/
def FFmt.overflow (f : FFmt) (rnd : Nat) (neg : Bool) : FRes :=
  let toInf := rnd = 0 || rnd = 4 || (rnd = 2 && !neg) || (rnd = 3 && neg)
  ((if toInf then f.infBits else f.infBits - 1) + (if neg then f.signBit else 0), fpOF + fpNX)

/-- A signed magnitude rounded to a format (R110). -/
def FFmt.round (f : FFmt) (rnd : Nat) (neg : Bool) (x : Mag) : FRes :=
  let sb := if neg then f.signBit else 0
  if x.m = 0 then (sb, 0)
  else
    let g1 := x.msb - (f.p - 1 : Nat)
    let g := max g1 f.etiny
    let (n, inexact) := x.roundAt rnd neg g
    if n ≠ 0 && f.emax < g + n.log2 then f.overflow rnd neg
    else
      let n1 := (x.roundAt rnd neg g1).1
      let tiny := g1 + n1.log2 < f.emin
      (sb + (g - f.etiny).toNat * 2 ^ (f.p - 1) + n,
        (if inexact then fpNX else 0) + (if inexact && tiny then fpUF else 0))

/-- A result delivered: NaNs canonical (R111), infinities exact, reals rounded. -/
def FFmt.deliver (f : FFmt) (rnd : Nat) (r : FNum × Nat) : FRes :=
  match r.1 with
  | .nan _ => (f.nanBits, r.2)
  | .inf neg => (f.infBits + (if neg then f.signBit else 0), r.2)
  | .fin neg x => let y := f.round rnd neg x; (y.1, y.2 ||| r.2)

/-- NV for a signalling operand (R111). -/
def FNum.sigNV : FNum → Nat
  | .nan true => fpNV
  | _ => 0

def FNum.isNan : FNum → Bool
  | .nan _ => true
  | _ => false

def FNum.isZero : FNum → Bool
  | .fin _ x => x.m = 0
  | _ => false

def FNum.neg : FNum → Bool
  | .nan _ => false
  | .inf n => n
  | .fin n _ => n

/-- An exact product, with NV for zero times infinity (R118). -/
def FNum.mul (a b : FNum) : FNum × Nat :=
  let s := a.neg != b.neg
  match a, b with
  | .nan _, _ => (.nan false, a.sigNV ||| b.sigNV)
  | _, .nan _ => (.nan false, a.sigNV ||| b.sigNV)
  | .inf _, _ => if b.isZero then (.nan false, fpNV) else (.inf s, 0)
  | _, .inf _ => if a.isZero then (.nan false, fpNV) else (.inf s, 0)
  | .fin _ x, .fin _ y => (.fin s { m := x.m * y.m, e := x.e + y.e, st := x.st || y.st }, 0)

/-- A finite value as an integer multiple of 2^e0, for e0 at most its exponent. -/
def scaledInt (e0 : Int) : FNum → Int
  | .fin neg x => (if neg then -1 else 1) * (x.m * 2 ^ (x.e - e0).toNat : Nat)
  | _ => 0

/-- The least exponent among finite addends. -/
def minExp (l : List FNum) : Int :=
  l.foldl (fun acc x => match x with | .fin _ y => if y.m = 0 then acc else min acc y.e | _ => acc) 0

/-- The sign of an exact zero sum: that of its addends when they are zeros of one sign, otherwise
minus when rounding down (R110). -/
def zeroSign (rnd : Nat) (l : List FNum) : Bool :=
  if l.all (fun x => x.isZero && x.neg) then true
  else if l.all (fun x => x.isZero && !x.neg) then false
  else rnd = 3

/-- The exact sum of addends, with NV for infinities of opposite sign and for signalling NaNs
(R118, R126). -/
def sumNum (rnd : Nat) (l : List FNum) : FNum × Nat :=
  let sig := l.foldl (fun acc x => acc ||| x.sigNV) 0
  let pos := l.any (fun x => x = .inf false)
  let neg := l.any (fun x => x = .inf true)
  let nv := sig ||| (if pos && neg then fpNV else 0)
  if l.any FNum.isNan || (pos && neg) then (.nan false, nv)
  else if pos then (.inf false, 0)
  else if neg then (.inf true, 0)
  else
    let e0 := minExp l
    let z := l.foldl (fun acc x => acc + scaledInt e0 x) 0
    if z = 0 then (.fin (zeroSign rnd l) {}, 0) else (.fin (z < 0) { m := z.natAbs, e := e0 }, 0)

/-- A sum of exact products and addends: the flags of the products are kept. -/
def sumProducts (rnd : Nat) (ps : List (FNum × Nat)) (c : List FNum) : FNum × Nat :=
  let r := sumNum rnd (ps.map (·.1) ++ c)
  (r.1, ps.foldl (fun acc p => acc ||| p.2) r.2)

/-- Order of two numbers that are not NaN: a < b, and a = b, with -0 equal to +0. -/
def numLt (a b : FNum) : Bool :=
  match a, b with
  | .inf true, .inf true => false
  | .inf true, _ => true
  | _, .inf true => false
  | .inf false, _ => false
  | _, .inf false => true
  | _, _ => let e0 := minExp [a, b]; scaledInt e0 a < scaledInt e0 b

def numEq (a b : FNum) : Bool := !numLt a b && !numLt b a

/-- The comparison of FCMP and DCMP, with the flags it raises (R120). -/
def numCmp (cc : Nat) (a b : FNum) : Bool × Nat :=
  let u := a.isNan || b.isNan
  let r := match cc with
    | 6 => u
    | 7 => !u
    | 1 => u || !numEq a b
    | _ => !u && condCode cc (numLt a b) (numEq a b)
  (r, if 2 ≤ cc && cc ≤ 5 && u then fpNV else a.sigNV ||| b.sigNV)

/-- The lesser or greater of two bit patterns of a format (R119). -/
def FFmt.minMax (f : FFmt) (isMax : Bool) (x y : Nat) : FRes :=
  let a := f.decode x
  let b := f.decode y
  let fl := a.sigNV ||| b.sigNV
  if a.isNan && b.isNan then (f.nanBits, fl)
  else if a.isNan then (y, fl)
  else if b.isNan then (x, fl)
  else
    let lt (p q : FNum) : Bool := numLt p q || (p.isZero && q.isZero && p.neg && !q.neg)
    if (if isMax then lt a b else lt b a) then (y, fl) else (x, fl)

/-- The class mask of FCLASS (R121). -/
def FFmt.classBits (f : FFmt) (x : Nat) : Nat :=
  match f.decode x with
  | .nan sig => if sig then 2 ^ 8 else 2 ^ 9
  | .inf neg => if neg then 1 else 2 ^ 7
  | .fin neg y =>
    let k := if y.m = 0 then 3 else if y.m < 2 ^ (f.p - 1) then 2 else 1
    if neg then 2 ^ k else 2 ^ (7 - k)

/-- A magnitude rounded to an integral one (R122). -/
def Mag.integral (x : Mag) (rnd : Nat) (neg : Bool) : Mag :=
  if 0 ≤ x.e then x else { m := (x.roundAt rnd neg 0).1, e := 0 }

/-- FRND: rounding to an integral value of the same format, without NX, UF or OF (R122). -/
def FFmt.integral (f : FFmt) (rnd : Nat) (x : Nat) : FRes :=
  match f.decode x with
  | .nan sig => (f.nanBits, if sig then fpNV else 0)
  | .inf _ => (x, 0)
  | .fin neg y => ((f.round 0 neg (y.integral rnd neg)).1, 0)

/-- A quotient m1 * 2^e1 / (m2 * 2^e2) of positive magnitudes, cut at 160 bits. -/
def quotMag (m1 : Nat) (e1 : Int) (m2 : Nat) (e2 : Int) : Mag :=
  let k := 160 + m2.log2
  { m := m1 * 2 ^ k / m2, e := e1 - e2 - k, st := m1 * 2 ^ k % m2 ≠ 0 }

end Sys2Proof.Machine
end

