-- ==== Sys2Proof/Machine/FloatFun.lean ====
section
/-!
DEFINITION. The functions of 06_float R123, computed with integers. A value that is not exact is
given as a lower bound below which no binary32 rounding boundary lies: fixed point with 448
fraction bits, less 2^40 units for the error of the series.
-/

namespace Sys2Proof.Machine

/-- The integer square root, one bit at a time from bit `n - 1` down. -/
def isqrt (x : Nat) : Nat → Nat → Nat
  | 0, r => r
  | n + 1, r => isqrt x n (if (r + 2 ^ n) * (r + 2 ^ n) ≤ x then r + 2 ^ n else r)

/-- Fraction bits of the fixed-point values, and the unit. -/
def fxBits : Nat := 448
def fxOne : Nat := 2 ^ fxBits

/-- A product of fixed-point values. -/
def fxMul (x y : Nat) : Nat := x * y / fxOne

/-- 1 - x^2/(2*3) + ... : the sum of alternating terms `t * y^k / ((c+1)(c+2)...)`, for sine and
cosine. `y` is the square. -/
def altSeries (y : Nat) : Nat → Nat → Nat → Int
  | 0, _, _ => 0
  | n + 1, t, c => (t : Int) - altSeries y n (fxMul t y / ((c + 1) * (c + 2))) (c + 2)

/-- The sum of `t * x^k / k!`. -/
def expSeries (x : Nat) : Nat → Nat → Nat → Nat
  | 0, _, _ => 0
  | n + 1, t, k => t + expSeries x n (fxMul t x / (k + 1)) (k + 1)

/-- The sum of `t * q^k / (2k + 1)`, alternating when `alt`. -/
def oddSeries (q : Nat) (alt : Bool) : Nat → Nat → Nat → Int
  | 0, _, _ => 0
  | n + 1, t, k =>
    (t / (2 * k + 1) : Nat) + (if alt then -1 else 1) * oddSeries q alt n (fxMul t q) (k + 1)

/-- The inverse hyperbolic tangent of a fixed-point value up to 1/3. -/
def fxAtanh (z : Nat) : Nat := (oddSeries (fxMul z z) false 150 z 0).toNat

/-- The inverse tangent of 1/n. -/
def fxAtanInv (n : Nat) : Int := oddSeries (fxOne / (n * n)) true 110 (fxOne / n) 0

/-- The logarithm of 2: 2 atanh(1/3). -/
def fxLn2 : Nat := 2 * fxAtanh (fxOne / 3)

/-- Pi, by Machin's formula. -/
def fxPi : Nat := (16 * fxAtanInv 5 - 4 * fxAtanInv 239).toNat

/-- The error allowed for. -/
def fxErr : Nat := 2 ^ 40

/-- A fixed-point approximation of an irrational value as a lower bound. -/
def fxMag (a : Nat) (e : Int := 0) : Mag := { m := a - fxErr, e := e - fxBits, st := true }

/-- A dyadic magnitude of a binary32 value as fixed point, exact for magnitudes below 2^128. -/
def fxOf (x : Mag) : Nat :=
  if 0 ≤ x.e + fxBits then x.m * 2 ^ (x.e + fxBits).toNat else x.m / 2 ^ (-(x.e + fxBits)).toNat

/-- 1/a (R123). -/
def frcpNum : FNum → FNum × Nat
  | .nan sig => (.nan false, if sig then fpNV else 0)
  | .inf neg => (.fin neg {}, 0)
  | .fin neg x => if x.m = 0 then (.inf neg, fpDZ) else (.fin neg (quotMag 1 0 x.m x.e), 0)

/-- A magnitude with an even exponent and at least 128 spare bits. -/
def evenMag (x : Mag) : Nat × Int :=
  if x.e % 2 = 0 then (x.m * 2 ^ 128, x.e - 128) else (x.m * 2 ^ 129, x.e - 129)

/-- The square root of a magnitude. -/
def sqrtMag (x : Mag) : Mag :=
  let (m, e) := evenMag x
  let r := isqrt m (m.log2 / 2 + 1) 0
  { m := r, e := e / 2, st := r * r ≠ m }

/-- The reciprocal square root of a magnitude. -/
def rsqrtMag (x : Mag) : Mag :=
  let (m, e) := evenMag x
  let k := m.log2 + 160
  let q := 2 ^ (2 * k) / m
  let r := isqrt q (q.log2 / 2 + 1) 0
  { m := r, e := -(e / 2) - k, st := r * r * m ≠ 2 ^ (2 * k) }

/-- √a (R123). -/
def fsqrtNum : FNum → FNum × Nat
  | .nan sig => (.nan false, if sig then fpNV else 0)
  | .inf neg => if neg then (.nan false, fpNV) else (.inf false, 0)
  | .fin neg x =>
    if x.m = 0 then (.fin neg {}, 0) else if neg then (.nan false, fpNV)
    else (.fin false (sqrtMag x), 0)

/-- 1/√a (R123). -/
def frsqNum : FNum → FNum × Nat
  | .nan sig => (.nan false, if sig then fpNV else 0)
  | .inf neg => if neg then (.nan false, fpNV) else (.fin false {}, 0)
  | .fin neg x =>
    if x.m = 0 then (.inf neg, fpDZ) else if neg then (.nan false, fpNV)
    else (.fin false (rsqrtMag x), 0)

/-- A power of two as a magnitude. -/
def pow2Mag (e : Int) : Mag := { m := 1, e }

/-- 2^a of a finite operand (R123). -/
def exp2Mag (neg : Bool) (x : Mag) : Mag :=
  if 512 * 2 ^ fxBits ≤ fxOf x || 512 ≤ x.msb then
    (if neg then { m := 1, e := -1024, st := true } else pow2Mag 1024)
  else
    let v : Int := if neg then -(fxOf x : Int) else fxOf x
    let n := v / fxOne
    let f := (v % fxOne).toNat
    if f = 0 then pow2Mag n else fxMag (expSeries (fxMul f fxLn2) 120 fxOne 0) n

/-- 2^a (R123). -/
def fexp2Num : FNum → FNum × Nat
  | .nan sig => (.nan false, if sig then fpNV else 0)
  | .inf neg => if neg then (.fin false {}, 0) else (.inf false, 0)
  | .fin neg x => (.fin false (exp2Mag neg x), 0)

/-- log2 of a positive magnitude (R123). -/
def log2Num (x : Mag) : FNum :=
  let k := x.m.log2
  let e := x.e + k
  if x.m = 2 ^ k then .fin (e < 0) { m := e.natAbs, e := 0 }
  else
    let z := (x.m - 2 ^ k) * fxOne / (x.m + 2 ^ k)
    let l := 2 * fxAtanh z * fxOne / fxLn2
    let v : Int := e * fxOne + l
    .fin (v < 0) (fxMag v.natAbs)

/-- log2 a (R123). -/
def flog2Num : FNum → FNum × Nat
  | .nan sig => (.nan false, if sig then fpNV else 0)
  | .inf neg => if neg then (.nan false, fpNV) else (.inf false, 0)
  | .fin neg x =>
    if x.m = 0 then (.inf true, fpDZ) else if neg then (.nan false, fpNV) else (log2Num x, 0)

/-- sin(pi r) of a fixed-point r between 0 and 1/2. -/
def sinPi (r : Nat) : Nat :=
  if 4 * r ≤ fxOne then
    let y := fxMul r fxPi
    (altSeries (fxMul y y) 50 y 1).toNat
  else
    let y := fxMul (fxOne / 2 - r) fxPi
    (altSeries (fxMul y y) 50 fxOne 0).toNat

/-- sin(pi v) of an exact fixed-point v (R123): multiples of 1/2 are exact, the sign of a zero is
`neg0`. -/
def sinPiNum (v : Int) (neg0 : Bool) : FNum :=
  let t := (v % (2 * fxOne)).toNat
  let neg := fxOne ≤ t
  let u := t % fxOne
  if u = 0 then .fin neg0 {}
  else if 2 * u = fxOne then .fin neg (pow2Mag 0)
  else .fin neg (fxMag (sinPi (if 2 * u < fxOne then u else fxOne - u)))

/-- sin(pi a) (R123). -/
def fsinNum : FNum → FNum × Nat
  | .nan sig => (.nan false, if sig then fpNV else 0)
  | .inf _ => (.nan false, fpNV)
  | .fin neg x =>
    if 0 ≤ x.e then (.fin neg {}, 0)
    else (sinPiNum (if neg then -(fxOf x : Int) else fxOf x) neg, 0)

/-- cos(pi a) (R123). -/
def fcosNum : FNum → FNum × Nat
  | .nan sig => (.nan false, if sig then fpNV else 0)
  | .inf _ => (.nan false, fpNV)
  | .fin _ x =>
    let v : Nat := if 0 < x.e then 0 else fxOf x
    (sinPiNum (v + fxOne / 2 : Nat) false, 0)

/-- exp(-y) of a fixed-point y below 256, through exp(-y/256). -/
def expNeg (y : Nat) : Nat :=
  let t := fxOne * fxOne / expSeries (y / 256) 120 fxOne 0
  (List.range 8).foldl (fun t _ => fxMul t t) t

/-- tanh of a positive magnitude. -/
def tanhMag (x : Mag) : Mag :=
  if 64 * fxOne ≤ fxOf x || 64 ≤ x.msb then { m := 2 ^ 160 - 1, e := -160, st := true }
  else
    let t := expNeg (2 * fxOf x)
    fxMag ((fxOne - t) * fxOne / (fxOne + t))

/-- tanh a (R123). -/
def ftanhNum : FNum → FNum × Nat
  | .nan sig => (.nan false, if sig then fpNV else 0)
  | .inf neg => (.fin neg (pow2Mag 0), 0)
  | .fin neg x => if x.m = 0 then (.fin neg {}, 0) else (.fin neg (tanhMag x), 0)

end Sys2Proof.Machine
end

