-- ==== Sys2Proof/Machine/FloatOps.lean ====
section
/-!
DEFINITION. Floating-point instructions, 0x60 to 0x79 (06_float R109 to R126), and the way an
instruction that may raise floating-point exceptions ends (R112, R113).
-/

namespace Sys2Proof.Machine

/-- What one lane computes: a result and the FPSTAT bits it raises. -/
structure LaneRes where
  val : DWord := 0
  fl : Nat := 0
deriving DecidableEq, Repr

/-- The end of an instruction that may raise FPX (R113): the flags of every lane that computed are
recorded, the lanes without an enabled exception written, and the trap delivered to the rest, at
NEXT unless a lane must replay the instruction. `ts` are the lanes that could not read. -/
def State.floatEnd (s : State) (ts : List LaneTrap) (ok : Word) (f : Nat → LaneRes)
    (put : State → Word → (Nat → DWord) → State) : State :=
  let rs := (lanesOf ok).map (fun L => (L, f L))
  let fpte := s.grp.fpte
  let bad := rs.filter (fun r => r.2.fl &&& fpte ≠ 0)
  let s := s.orFpstat (rs.foldl (fun acc r => acc ||| r.2.fl) 0)
  let fx : List LaneTrap := bad.map (fun r => { lane := r.1, cause := cFPX, lexc := r.2.fl })
  let s := put s (without ok fx) (fun L => (SMap.getD rs L {}).val)
  if fx.isEmpty then s.finish ts
  else if ts.isEmpty then s.cont.raise fx false
  else s.raise (ts ++ fx) true

/-- A lane instruction of the floating-point kind: sources read, results computed and delivered. -/
def State.floatExec (s : State) (m : Word) (regs : List Nat) (f : State → Nat → LaneRes)
    (put : State → Word → (Nat → DWord) → State) : State :=
  let (s1, ts, ok) := s.readSources m (fun _ => regs)
  s1.floatEnd ts ok (f s) put

/-- Results to a register, a pair, a predicate. -/
def putReg (d : BitVec 8) (s : State) (m : Word) (v : Nat → DWord) : State :=
  s.wr d.toNat m (fun L => lo32 (v L))
def putPair (d : BitVec 8) (s : State) (m : Word) (v : Nat → DWord) : State := s.wr64 d.toNat m v
def putPred (d : BitVec 8) (s : State) (m : Word) (v : Nat → DWord) : State :=
  s.wrP d.toNat m (fun L => v L ≠ 0)

/-- The scalar format a type code names (R115). -/
def scalarFmt (ty : Nat) : FFmt :=
  match ty with | 14 => f16 | 15 => bf16 | 17 => f64 | _ => f32

/-- The width of a format. -/
def FFmt.width (f : FFmt) : Nat := f.eb + f.p

/-- Source modifiers on the sign bit (R117). -/
def FFmt.modify (f : FFmt) (ab ng : Bool) (x : Nat) : Nat :=
  let x := x % 2 ^ f.width
  let x := if ab then x % f.signBit else x
  if ng then (if x.testBit (f.width - 1) then x - f.signBit else x + f.signBit) else x

/-- A result of a format as a lane result. -/
def laneRes (r : FRes) : LaneRes := { val := BitVec.ofNat 64 r.1, fl := r.2 }

/-- A predicate result. -/
def laneBool (r : Bool × Nat) : LaneRes := { val := if r.1 then 1 else 0, fl := r.2 }

/-- The bits of a lane operand. -/
def State.bits32 (s : State) (n : BitVec 8) (L : Nat) : Nat := (s.rd n.toNat L).toNat
def State.bits64 (s : State) (n : BitVec 8) (L : Nat) : Nat := (s.rd64 n.toNat L).toNat

/-- The RND field. -/
def rndOf (r : Alu) : Nat := r.rnd.toNat

/-- A scalar two-source form: `f` takes the format and the modified operand bits. -/
def State.scalar2 (s : State) (w : W0) (r : Alu) (f : FFmt → Nat → Nat → LaneRes)
    (put : State → Word → (Nat → DWord) → State) : State :=
  let t := scalarFmt r.ty.toNat
  s.floatExec (s.activeW w) [w.a.toNat, r.b.toNat] (fun s L =>
    f t (t.modify r.aa r.na (s.bits32 w.a L)) (t.modify r.ab r.nb (s.bits32 r.b L))) put

/-- FADD (R118). -/
def execFadd (w : W0) (r : Alu) (s : State) : Out :=
  .next (s.scalar2 w r (fun t a b =>
    laneRes (t.deliver (rndOf r) (sumNum (rndOf r) [t.decode a, t.decode b]))) (putReg w.d))

/-- The negation of a format's bits. -/
def FFmt.negBits (f : FFmt) (x : Nat) : Nat := f.modify false true x

/-- FSUB (R118): the sum with the second operand's sign inverted. -/
def execFsub (w : W0) (r : Alu) (s : State) : Out :=
  .next (s.scalar2 w r (fun t a b =>
    laneRes (t.deliver (rndOf r) (sumNum (rndOf r) [t.decode a, t.decode (t.negBits b)])))
    (putReg w.d))

/-- FMUL (R118). -/
def execFmul (w : W0) (r : Alu) (s : State) : Out :=
  .next (s.scalar2 w r (fun t a b =>
    laneRes (t.deliver (rndOf r) ((t.decode a).mul (t.decode b)))) (putReg w.d))

/-- A fused multiply-add of bit patterns of a format (R118). -/
def FFmt.fma (f : FFmt) (rnd a b c : Nat) : FRes :=
  f.deliver rnd (sumProducts rnd [(f.decode a).mul (f.decode b)] [f.decode c])

/-- FFMA (R118). -/
def execFfma (w : W0) (r : Alu) (s : State) : Out :=
  let t := scalarFmt r.ty.toNat
  .next (s.floatExec (s.activeW w) [w.a.toNat, r.b.toNat, r.c.toNat] (fun s L =>
    laneRes (t.fma (rndOf r) (t.modify r.aa r.na (s.bits32 w.a L))
      (t.modify r.ab r.nb (s.bits32 r.b L)) (t.modify false r.nc (s.bits32 r.c L)))) (putReg w.d))

/-- FMIN (R119). -/
def execFmin (w : W0) (r : Alu) (s : State) : Out :=
  .next (s.scalar2 w r (fun t a b => laneRes (t.minMax false a b)) (putReg w.d))

/-- FMAX (R119). -/
def execFmax (w : W0) (r : Alu) (s : State) : Out :=
  .next (s.scalar2 w r (fun t a b => laneRes (t.minMax true a b)) (putReg w.d))

/-- FCMP (R120). -/
def execFcmp (w : W0) (r : Alu) (s : State) : Out :=
  .next (s.scalar2 w r (fun t a b =>
    laneBool (numCmp (r.opx.toNat / 2) (t.decode a) (t.decode b))) (putPred w.d))

/-- FCLASS (R121), which raises no flag. -/
def execFclass (w : W0) (r : Alu) (s : State) : Out :=
  let t := scalarFmt r.ty.toNat
  let wide := r.ty.toNat = 17
  .next (s.floatExec (s.activeW w) (if wide then [w.a.toNat, w.a.toNat + 1] else [w.a.toNat])
    (fun s L => laneRes
      (t.classBits ((if wide then s.bits64 w.a L else s.bits32 w.a L) % 2 ^ t.width), 0))
    (putReg w.d))

/-- A scalar one-source form. -/
def State.scalar1 (s : State) (w : W0) (r : Alu) (f : FFmt → Nat → FRes) : State :=
  let t := scalarFmt r.ty.toNat
  s.floatExec (s.activeW w) [w.a.toNat] (fun s L =>
    laneRes (f t (t.modify r.aa r.na (s.bits32 w.a L)))) (putReg w.d)

/-- FRND (R122). -/
def execFrnd (w : W0) (r : Alu) (s : State) : Out :=
  .next (s.scalar1 w r (fun t a => t.integral (if r.opx.getLsbD 0 then 4 else rndOf r) a))

/-- A function of one binary32 operand, rounded once (R123). -/
def State.funct (s : State) (w : W0) (r : Alu) (f : FNum → FNum × Nat) : State :=
  s.scalar1 w r (fun t a => t.deliver (rndOf r) (f (t.decode a)))

/-- FRCP (R123). -/
def execFrcp (w : W0) (r : Alu) (s : State) : Out := .next (s.funct w r frcpNum)
/-- FRSQ (R123). -/
def execFrsq (w : W0) (r : Alu) (s : State) : Out := .next (s.funct w r frsqNum)
/-- FSQRT (R123). -/
def execFsqrt (w : W0) (r : Alu) (s : State) : Out := .next (s.funct w r fsqrtNum)
/-- FEXP2 (R123). -/
def execFexp2 (w : W0) (r : Alu) (s : State) : Out := .next (s.funct w r fexp2Num)
/-- FLOG2 (R123). -/
def execFlog2 (w : W0) (r : Alu) (s : State) : Out := .next (s.funct w r flog2Num)
/-- FSIN (R123). -/
def execFsin (w : W0) (r : Alu) (s : State) : Out := .next (s.funct w r fsinNum)
/-- FCOS (R123). -/
def execFcos (w : W0) (r : Alu) (s : State) : Out := .next (s.funct w r fcosNum)
/-- FTANH (R123). -/
def execFtanh (w : W0) (r : Alu) (s : State) : Out := .next (s.funct w r ftanhNum)

/-- A number times a power of two; powers beyond any binary32 range act as 2^1000. -/
def FNum.scale (a : FNum) (n : Int) : FNum × Nat :=
  match a with
  | .nan sig => (.nan false, if sig then fpNV else 0)
  | .inf neg => (.inf neg, 0)
  | .fin neg x => (.fin neg { x with e := x.e + max (-1000) (min 1000 n) }, 0)

/-- FSCALE (R124). -/
def execFscale (w : W0) (r : Alu) (s : State) : Out :=
  .next (s.floatExec (s.activeW w) [w.a.toNat, r.b.toNat] (fun s L =>
    laneRes (f32.deliver (rndOf r)
      ((f32.decode (f32.modify r.aa r.na (s.bits32 w.a L))).scale (s.rd r.b.toNat L).toInt)))
    (putReg w.d))

/-- The registers of FP64 operands. -/
def pairRegs (l : List (BitVec 8)) : List Nat := l.flatMap (fun n => [n.toNat, n.toNat + 1])

/-- An FP64 two-source form. -/
def State.double2 (s : State) (w : W0) (r : Alu) (f : Nat → Nat → LaneRes)
    (put : State → Word → (Nat → DWord) → State) : State :=
  s.floatExec (s.activeW w) (pairRegs [w.a, r.b]) (fun s L =>
    f (f64.modify r.aa r.na (s.bits64 w.a L)) (f64.modify r.ab r.nb (s.bits64 r.b L))) put

/-- DADD (R118). -/
def execDadd (w : W0) (r : Alu) (s : State) : Out :=
  .next (s.double2 w r (fun a b =>
    laneRes (f64.deliver (rndOf r) (sumNum (rndOf r) [f64.decode a, f64.decode b]))) (putPair w.d))

/-- DMUL (R118). -/
def execDmul (w : W0) (r : Alu) (s : State) : Out :=
  .next (s.double2 w r (fun a b =>
    laneRes (f64.deliver (rndOf r) ((f64.decode a).mul (f64.decode b)))) (putPair w.d))

/-- DFMA (R118). -/
def execDfma (w : W0) (r : Alu) (s : State) : Out :=
  .next (s.floatExec (s.activeW w) (pairRegs [w.a, r.b, r.c]) (fun s L =>
    laneRes (f64.fma (rndOf r) (f64.modify r.aa r.na (s.bits64 w.a L))
      (f64.modify r.ab r.nb (s.bits64 r.b L)) (f64.modify false r.nc (s.bits64 r.c L))))
    (putPair w.d))

/-- DCMP (R120). -/
def execDcmp (w : W0) (r : Alu) (s : State) : Out :=
  .next (s.double2 w r (fun a b =>
    laneBool (numCmp (r.opx.toNat / 2) (f64.decode a) (f64.decode b))) (putPred w.d))

/-- The element format of a packed type (R115). -/
def packedFmt (ty : Nat) : FFmt := if ty = 19 then bf16 else f16

/-- Both elements of packed operands through one function, the flags joined (R125). -/
def packed (f : Nat → FRes) : LaneRes :=
  let lo := f 0
  let hi := f 1
  { val := BitVec.ofNat 64 (lo.1 + 2 ^ 16 * hi.1), fl := lo.2 ||| hi.2 }

/-- Element `i` of a packed operand with its modifiers. -/
def FFmt.elem (f : FFmt) (ab ng : Bool) (x i : Nat) : Nat := f.modify ab ng (x / 2 ^ (16 * i))

/-- HADD2 (R125). -/
def execHadd2 (w : W0) (r : Alu) (s : State) : Out :=
  let t := packedFmt r.ty.toNat
  .next (s.floatExec (s.activeW w) [w.a.toNat, r.b.toNat] (fun s L =>
    packed (fun i => t.deliver (rndOf r) (sumNum (rndOf r)
      [t.decode (t.elem r.aa r.na (s.bits32 w.a L) i), t.decode (t.elem r.ab r.nb (s.bits32 r.b L) i)])))
    (putReg w.d))

/-- HMUL2 (R125). -/
def execHmul2 (w : W0) (r : Alu) (s : State) : Out :=
  let t := packedFmt r.ty.toNat
  .next (s.floatExec (s.activeW w) [w.a.toNat, r.b.toNat] (fun s L =>
    packed (fun i => t.deliver (rndOf r)
      ((t.decode (t.elem r.aa r.na (s.bits32 w.a L) i)).mul
        (t.decode (t.elem r.ab r.nb (s.bits32 r.b L) i)))))
    (putReg w.d))

/-- HFMA2 (R125). -/
def execHfma2 (w : W0) (r : Alu) (s : State) : Out :=
  let t := packedFmt r.ty.toNat
  .next (s.floatExec (s.activeW w) [w.a.toNat, r.b.toNat, r.c.toNat] (fun s L =>
    packed (fun i => t.fma (rndOf r) (t.elem r.aa r.na (s.bits32 w.a L) i)
      (t.elem r.ab r.nb (s.bits32 r.b L) i) (t.elem false r.nc (s.bits32 r.c L) i)))
    (putReg w.d))

/-- FDOT2 (R126): its accumulator is binary32. -/
def execFdot2 (w : W0) (r : Alu) (s : State) : Out :=
  let t := packedFmt r.ty.toNat
  .next (s.floatExec (s.activeW w) [w.a.toNat, r.b.toNat, r.c.toNat] (fun s L =>
    let p (i : Nat) : FNum × Nat := (t.decode (t.elem r.aa r.na (s.bits32 w.a L) i)).mul
      (t.decode (t.elem r.ab r.nb (s.bits32 r.b L) i))
    laneRes (f32.deliver (rndOf r) (sumProducts (rndOf r) [p 0, p 1]
      [f32.decode (f32.modify false r.nc (s.bits32 r.c L))])))
    (putReg w.d))

end Sys2Proof.Machine
end

