-- ==== Sys2Proof/Machine/Formats.lean ====
section
/-!
DEFINITION. Format records, decoding and narrowing, block layout and the format table (08_formats
R141 to R153).
-/

namespace Sys2Proof.Machine

/-! Fields of a record (R141). -/

def fmW (r : DWord) : Nat := (r.extractLsb' 0 4).toNat
def fmS (r : DWord) : Nat := (r.extractLsb' 4 1).toNat
def fmE (r : DWord) : Nat := (r.extractLsb' 5 3).toNat
def fmBias (r : DWord) : Int := (r.extractLsb' 8 8).toInt
def fmSpec (r : DWord) : Nat := (r.extractLsb' 16 2).toNat
def fmSubn (r : DWord) : Bool := r.getLsbD 18
def fmClamp (r : DWord) : Nat := (r.extractLsb' 24 8).toNat
def fmBlk (r : DWord) : Nat := (r.extractLsb' 32 4).toNat
def fmSck (r : DWord) : Nat := (r.extractLsb' 36 2).toNat
/-- The mantissa bits, where they are not negative. -/
def fmM (r : DWord) : Nat := fmW r - fmS r - fmE r
/-- The bits of a magnitude code. -/
def fmMagBits (r : DWord) : Nat := fmW r - fmS r

/-- The largest finite magnitude code (R144). -/
def fmTop (r : DWord) : Nat :=
  match fmSpec r with
  | 0 => 2 ^ fmMagBits r - 1
  | 1 => 2 ^ fmMagBits r - 2
  | 2 => 2 ^ fmMagBits r - 2 ^ fmM r - 1
  | _ => if fmS r = 1 then 2 ^ (fmW r - 1) - 1 else 2 ^ fmW r - 1

/-- The record is neither off nor ill-formed (R142). -/
def fmOk (r : DWord) : Bool :=
  let sp := fmSpec r
  1 ≤ fmW r && fmW r ≤ 8 && fmS r < fmW r && fmS r + fmE r ≤ fmW r
  && !(sp ≤ 2 && fmE r = 0 && !fmSubn r) && !(sp = 2 && fmE r = 0)
  && !((sp = 1 || sp = 2) && fmMagBits r < 2) && !(sp = 3 && (fmE r ≠ 0 || fmSubn r))
  && fmClamp r ≤ fmTop r && (fmBlk r = 0 || (4 ≤ fmBlk r && fmBlk r ≤ 8))
  && fmSck r ≠ 3 && ((fmSck r = 0) == (fmBlk r = 0))

/-- Decode (R143). -/
def fmDecode (r : DWord) (code : Nat) : FNum :=
  let c := code % 2 ^ fmW r
  let b := fmBias r
  if fmSpec r = 3 then
    let n : Int := if fmS r = 1 then sext (fmW r) c else c
    .fin (n < 0) { m := n.natAbs, e := -b }
  else
    let neg := fmS r = 1 && c.testBit (fmW r - 1)
    let mag := c % 2 ^ fmMagBits r
    let e := mag / 2 ^ fmM r
    let m := mag % 2 ^ fmM r
    if fmSpec r = 1 && mag = 2 ^ fmMagBits r - 1 then .nan false
    else if fmSpec r = 2 && e = 2 ^ fmE r - 1 then (if m = 0 then .inf neg else .nan false)
    else if e = 0 && fmSubn r then .fin neg { m, e := 1 - b - fmM r }
    else if e = 0 && m = 0 then .fin neg {}
    else .fin neg { m := 2 ^ fmM r + m, e := e - b - fmM r }

/-- The value of a magnitude code (R144). -/
def fmValue (r : DWord) (k : Nat) : Mag :=
  match fmDecode r k with | .fin _ x => x | _ => {}

/-! Block scales (R145) and layout (R146). -/

/-- The factor of a scale byte; `none` is a zero block. -/
def fmFactor (r : DWord) (byte : Nat) : Option Mag :=
  match fmSck r with
  | 1 => some { m := 1, e := sext 8 byte }
  | 2 => if byte % 256 = 0x80 then none
         else some { m := 4 + byte % 4, e := sext 6 (byte / 4) - 2 }
  | _ => some { m := 1, e := 0 }

/-- An element decoded to binary32, with the flags of its rounding (R145). -/
def fmElem (r : DWord) (factor : Option Mag) (code : Nat) : FRes :=
  match factor with
  | none => (0, 0)
  | some f => f32.deliver 0 ((fmDecode r code).mul (.fin false f))

/-- Elements in a block. -/
def fmBlkLen (r : DWord) : Nat := 2 ^ fmBlk r

/-- Bytes of a block record. -/
def fmBlkBytes (r : DWord) : Nat := 4 * ((8 + fmBlkLen r * fmW r + 31) / 32)

/-- Where element `i` lies: the bit of its region at which its code begins, and the byte of its
scale, if it has one. -/
def fmPlace (r : DWord) (i : Nat) : Nat × Option Nat :=
  if fmBlk r = 0 then (fmW r * i, none)
  else
    let b := i / fmBlkLen r * fmBlkBytes r
    (8 * b + 8 + fmW r * (i % fmBlkLen r), some b)

/-! Narrowing (R147, R148). -/

/-- Order of two magnitudes, the second exact: below, equal, above. -/
def Mag.cmp (x y : Mag) : Ordering :=
  let c := min x.e y.e
  let a := x.m * 2 ^ (x.e - c).toNat
  let b := y.m * 2 ^ (y.e - c).toNat
  if a < b then .lt else if b < a then .gt else if x.st then .gt else .eq

def Mag.lt (x y : Mag) : Bool := x.cmp y = .lt

/-- The difference of two exact magnitudes, the first the greater. -/
def subMag (x y : Mag) : Mag :=
  let c := min x.e y.e
  { m := x.m * 2 ^ (x.e - c).toNat - y.m * 2 ^ (y.e - c).toNat, e := c }

/-- Addition of exact magnitudes. -/
def addMag (x y : Mag) : Mag :=
  let c := min x.e y.e
  { m := x.m * 2 ^ (x.e - c).toNat + y.m * 2 ^ (y.e - c).toNat, e := c }

/-- The magnitude code below top nearest to a magnitude below top's value, ties to the even code,
and whether it is inexact (R147, step 3). -/
def fmNearest (r : DWord) (q : Mag) : Nat × Bool :=
  let low := fmValue r 1
  if q.m = 0 then (0, false)
  else if !fmSubn r && q.lt low then
    (if (q.cmp { low with e := low.e - 1 }) = .gt then 1 else 0, true)
  else
    let g0 : Int := if fmSubn r then 1 - fmBias r - fmM r else -fmBias r - fmM r
    let g := max (q.msb - fmM r) g0
    let n := (q.roundAt 1 false g).1
    let k := (g - g0).toNat * 2 ^ fmM r + n - (if fmSubn r then 0 else 2 ^ fmM r)
    let half : Mag := { m := 2 * n + 1, e := g - 1 }
    let inexact := q.cmp { m := n, e := g } ≠ .eq
    let up := match q.cmp half with | .gt => true | .lt => false | .eq => k % 2 = 1
    (if up then k + 1 else k, inexact)

/-- The code nearest to a magnitude among the finite ones and the extension past top, which counts
as even: `none` is the extension. -/
def fmRound (r : DWord) (q : Mag) : Option Nat × Bool :=
  let top := fmTop r
  let v := fmValue r top
  if q.lt v then let x := fmNearest r q; (some x.1, x.2)
  else
    let u := subMag v (fmValue r (top - 1))
    if q.lt (addMag v { u with e := u.e - 1 }) then (some top, q.cmp v ≠ .eq) else (none, true)

/-- The code with a sign. -/
def fmSigned (r : DWord) (neg : Bool) (k : Nat) : Nat :=
  k + (if neg && fmS r = 1 then 2 ^ (fmW r - 1) else 0)

/-- The largest magnitude code the overflow rule allows (R148). -/
def fmBound (r : DWord) (level1 : Bool) : Nat :=
  if level1 || fmClamp r = 0 then fmTop r else fmClamp r

/-- The range of the integer mode (R148). -/
def fmIntRange (r : DWord) (level1 : Bool) : Int × Int :=
  if fmS r = 0 then (0, fmBound r level1)
  else if level1 || fmClamp r = 0 then (-(2 ^ (fmW r - 1)), 2 ^ (fmW r - 1) - 1)
  else (-(fmClamp r), fmClamp r)

/-- The code of an integer (R144). -/
def fmIntCode (r : DWord) (n : Int) : Nat := truncZ (fmW r) n

/-- A finite value narrowed in the integer mode. -/
def fmEncodeInt (r : DWord) (level1 neg : Bool) (q : Mag) : FRes :=
  let (m, inexact) := ({ q with e := q.e + fmBias r } : Mag).roundAt 0 neg 0
  let n : Int := if neg then -(m : Int) else m
  let (lo, hi) := fmIntRange r level1
  if n < lo then (fmIntCode r lo, fpOF + fpNX)
  else if hi < n then (fmIntCode r hi, fpOF + fpNX)
  else (fmIntCode r n, if inexact then fpNX else 0)

/-- A finite value narrowed in a float mode. UF compares with the smallest normal value; for a record with
E = 0 and subnormals, or with SPEC 2 and E = 1, which has none, with 2^(1 − B): the model's choice, R148
speaking only of records that have one (log entry 25). -/
def fmEncodeFloat (r : DWord) (level1 neg : Bool) (q : Mag) : FRes :=
  let b := fmBound r level1
  let (k, inexact) := fmRound r q
  let least : Mag := if fmSubn r then { m := 1, e := 1 - fmBias r } else fmValue r 1
  let past := match k with | none => true | some k => b < k
  let uf := if q.m ≠ 0 && q.lt least && (inexact || past) then fpUF else 0
  (fmSigned r neg (if past then b else k.getD 0),
    (if past then fpOF + fpNX else if inexact then fpNX else 0) ||| uf)

/-- An infinity narrowed. -/
def fmEncodeInf (r : DWord) (level1 neg : Bool) : FRes :=
  if fmS r = 0 && neg then (0, fpNV)
  else if fmSpec r = 3 then
    (fmIntCode r (if neg then (fmIntRange r level1).1 else (fmIntRange r level1).2), fpNV)
  else if !level1 && fmSpec r = 2 && fmClamp r = 0 then
    (fmSigned r neg ((2 ^ fmE r - 1) * 2 ^ fmM r), 0)
  else (fmSigned r neg (fmBound r level1), fpNV)

/-- The canonical NaN code, where there is one. -/
def fmNan (r : DWord) : Option Nat :=
  match fmSpec r with
  | 1 => some (2 ^ fmMagBits r - 1)
  | 2 => if fmM r = 0 then none else some ((2 ^ fmE r - 1) * 2 ^ fmM r + 2 ^ (fmM r - 1))
  | _ => none

/-- A negative finite value under a record without a sign: code 0 (R147, step 5). The integer mode
rounds it first, and R148 finds it outside the range; a float mode's nearest member is 0. -/
def fmEncodeNeg (r : DWord) (level1 : Bool) (q : Mag) : FRes :=
  if fmSpec r = 3 then
    let n := (({ q with e := q.e + fmBias r } : Mag).roundAt 0 true 0).1
    (0, fpNX + (if n ≠ 0 && (level1 || fmBound r level1 < n) then fpOF else 0))
  else
    let least : Mag := if fmSubn r then { m := 1, e := 1 - fmBias r } else fmValue r 1
    (0, fpNX + (if q.lt least then fpUF else 0))

/-- A number narrowed to a code under a block factor (R147, R148). -/
def fmEncode (r : DWord) (level1 : Bool) (factor : Option Mag) (x : FNum) : FRes :=
  match factor, x with
  | none, _ => (0, if x.isZero then 0 else fpNX)
  | some _, .nan sig =>
    let nv := if sig then fpNV else 0
    match fmNan r with
    | some c => (c, nv)
    | none => (0, fpNV)
  | some _, .inf neg => fmEncodeInf r level1 neg
  | some f, .fin neg v =>
    let q : Mag := if v.m = 0 then {} else if f.m = 1 then { v with e := v.e - f.e }
      else quotMag v.m v.e f.m f.e
    if fmS r = 0 && neg && q.m ≠ 0 then fmEncodeNeg r level1 q
    else if fmSpec r = 3 then fmEncodeInt r level1 neg q
    else fmEncodeFloat r level1 neg q

/-! The format table (R152). -/

/-- The record of a format index: 0 for index 0, otherwise the table's entry. -/
def State.fmtRecord (s : State) (ctx die i : Nat) : State × Except Nat DWord :=
  if i = 0 then (s, .ok 0)
  else match s.tableRead ctx die (s.fmtEntry ctx i) with
    | (s, .error c) => (s, .error c)
    | (s, .ok x) => (s, .ok (fmKeep x))

end Sys2Proof.Machine
end

