-- ==== Sys2Proof/Machine/Convert.lean ====
section
/-!
DEFINITION. The format-conversion class, 0x90 to 0x95 (08_formats R154 to R160).
-/

namespace Sys2Proof.Machine

/-! FCVT (R157). -/

/-- A conversion's type: an integer of a width and sign, or a floating format. -/
inductive CvtTy where
  | int (w : Nat) (signed : Bool)
  | flt (f : FFmt)
deriving DecidableEq, Repr

/-- The destination type of TY. -/
def cvtDst (ty : Nat) : CvtTy :=
  match ty with
  | 8 => .int 32 true
  | 9 => .int 64 true
  | 12 => .int 32 false
  | 13 => .int 64 false
  | _ => .flt (scalarFmt ty)

/-- The source type of OPX. -/
def cvtSrc (ts : Nat) : CvtTy :=
  match ts with
  | 0 => .int 32 true
  | 1 => .int 64 true
  | 2 => .int 32 false
  | 3 => .int 64 false
  | 4 => .flt f16
  | 5 => .flt bf16
  | 6 => .flt f32
  | _ => .flt f64

def CvtTy.width : CvtTy → Nat
  | .int w _ => w
  | .flt f => f.width

/-- A source read in its type. -/
def CvtTy.read (t : CvtTy) (r : Alu) (x : Nat) : FNum :=
  match t with
  | .flt f => f.decode (f.modify r.aa r.na x)
  | .int w signed =>
    let n : Int := if signed then sext w x else (x % 2 ^ w : Nat)
    .fin (n < 0) { m := n.natAbs, e := 0 }

/-- The limits of an integer type. -/
def intLimits (w : Nat) (signed : Bool) : Int × Int :=
  if signed then (-(2 ^ (w - 1)), 2 ^ (w - 1) - 1) else (0, 2 ^ w - 1)

/-- A number rounded to an integer type, out-of-range values at the limit of their sign. -/
def toIntTy (w : Nat) (signed : Bool) (rnd : Nat) : FNum → FRes
  | .nan _ => (0, fpNV)
  | .inf neg =>
    (truncZ w (if neg then (intLimits w signed).1 else (intLimits w signed).2), fpNV)
  | .fin neg x =>
    if 64 < x.msb then
      (truncZ w (if neg then (intLimits w signed).1 else (intLimits w signed).2), fpNV)
    else
      let (m, inexact) := x.roundAt rnd neg 0
      let n : Int := if neg then -(m : Int) else m
      if n < (intLimits w signed).1 then (truncZ w (intLimits w signed).1, fpNV)
      else if (intLimits w signed).2 < n then (truncZ w (intLimits w signed).2, fpNV)
      else (truncZ w n, if inexact then fpNX else 0)

/-- A conversion (R157). -/
def CvtTy.write (t : CvtTy) (rnd : Nat) (x : FNum) : FRes :=
  match t with
  | .flt f => f.deliver rnd (x, x.sigNV)
  | .int w signed => toIntTy w signed rnd x

/-- FCVT (R157). -/
def execFcvt (w : W0) (r : Alu) (s : State) : Out :=
  let td := cvtDst r.ty.toNat
  let ts := cvtSrc r.opx.toNat
  let wide := ts.width = 64
  .next (s.floatExec (s.activeW w) (if wide then [w.a.toNat, w.a.toNat + 1] else [w.a.toNat])
    (fun s L => laneRes (td.write (rndOf r)
      (ts.read r (if wide then s.bits64 w.a L else s.bits32 w.a L))))
    (if td.width = 64 then putPair w.d else putReg w.d))

/-! FPACK, FUNPACK and FSCL (R158, R159). -/

/-- The slot runs level-1 code (03_groupwide R59). -/
def State.level1 (s : State) : Bool := s.codeLevel s.grp.ctx s.lat.clause = 1

/-- The elements a register holds (R155). -/
def fmPer (r : DWord) : Nat := 32 / fmW r

/-- The registers `n` to `n + k - 1`. -/
def regRun (n : BitVec 8) (k : Nat) : List Nat := (List.range k).map (fun j => n.toNat + j)

/-- A conversion through a record: FMTX in every Active lane for a record that is off or ill-formed
(R151), ILL where a register range leaves the declared count (R155), otherwise `k`. -/
def State.withRecord (s : State) (w : W0) (rec : DWord) (range : Option (BitVec 8))
    (k : State) : State :=
  let m := s.activeW w
  if !fmOk rec then (if m = 0 then s.cont else s.raiseAll cFMTX m)
  else match range with
    | some n => if s.grp.nreg < n.toNat + fmPer rec then s.raiseSlot cILL else k
    | none => k

/-- A lane's block factor. -/
def State.laneFactor (s : State) (rec : DWord) (b : BitVec 8) (L : Nat) : Option Mag :=
  fmFactor rec ((s.rd b.toNat L).toNat % 256)

/-- The scale register, read only for a scaled record. -/
def scaleRegs (rec : DWord) (r : Alu) : List Nat := if fmSck rec = 0 then [] else [r.b.toNat]

/-- Results joined: element `j` at bit `W * j`, flags ORed. -/
def packCodes (wd : Nat) (l : List FRes) : FRes :=
  ((mapI l (fun j x => x.1 * 2 ^ (wd * j))).sum, l.foldl (fun acc x => acc ||| x.2) 0)

/-- FPACK (R158). -/
def execFpack (w : W0) (r : Alu) (s : State) : Out :=
  let rec_ := s.grp.fmget r.c.toNat
  let lvl := s.level1 || r.opx.getLsbD 3
  .next (s.withRecord w rec_ (some w.a) (s.floatExec (s.activeW w)
    (regRun w.a (fmPer rec_) ++ scaleRegs rec_ r)
    (fun s L => laneRes (packCodes (fmW rec_) ((regRun w.a (fmPer rec_)).map (fun n =>
      fmEncode rec_ lvl (s.laneFactor rec_ r.b L) (f32.decode (s.rd n L).toNat)))))
    (putReg w.d)))

/-- The elements a lane decodes (R158). -/
def State.unpackLane (s : State) (rec : DWord) (w : W0) (r : Alu) (L : Nat) : List FRes :=
  (List.range (fmPer rec)).map (fun j =>
    fmElem rec (s.laneFactor rec r.b L) ((s.rd w.a.toNat L).toNat / 2 ^ (fmW rec * j) % 2 ^ fmW rec))

/-- FUNPACK (R158). -/
def execFunpack (w : W0) (r : Alu) (s : State) : Out :=
  let rec_ := s.grp.fmget r.c.toNat
  .next (s.withRecord w rec_ (some w.d) (s.floatExec (s.activeW w)
    (w.a.toNat :: scaleRegs rec_ r)
    (fun s L => { fl := (s.unpackLane rec_ w r L).foldl (fun acc x => acc ||| x.2) 0 })
    (fun s' m _ => (List.range (fmPer rec_)).foldl (fun x j =>
      x.wr (w.d.toNat + j) m (fun L =>
        BitVec.ofNat 32 ((s.unpackLane rec_ w r L).getD j (0, 0)).1)) s')))

/-- The scale codes from the smallest factor to the largest (R145). -/
def scaleCodes (rec : DWord) : List Nat :=
  ((List.range 256).map (fun i => (i + 128) % 256)).filter (fun b => fmSck rec = 1 || b ≠ 0x80)

/-- FSCL's choice for a magnitude (R159). -/
def fsclVal (rec : DWord) (level1 : Bool) (x : FNum) : FRes :=
  if fmSck rec = 0 then (0, 0)
  else match x with
    | .nan _ => (0x7F, fpNV)
    | .inf _ => (0x7F, fpNV)
    | .fin _ a =>
      if a.m = 0 then (if fmSck rec = 2 then 0x80 else 0, 0)
      else
        let v := fmValue rec (fmBound rec level1)
        let fits (b : Nat) : Bool := match fmFactor rec b with
          | none => false
          | some f => a.cmp { m := v.m * f.m, e := v.e + f.e } ≠ .gt
        match (scaleCodes rec).find? fits with
        | some b => (b, 0)
        | none => (0x7F, fpOF)

/-- FSCL (R159). -/
def execFscl (w : W0) (r : Alu) (s : State) : Out :=
  let rec_ := s.grp.fmget r.c.toNat
  .next (s.withRecord w rec_ none (s.floatExec (s.activeW w) [w.a.toNat]
    (fun s L => laneRes (fsclVal rec_ s.level1 (f32.decode (s.bits32 w.a L)))) (putReg w.d)))

/-! FMLD and FMST (R160). -/

/-- A format register loaded from the table: a fault of the read parks the group (R152). -/
def State.fmldTable (s : State) (d i : Nat) : State :=
  match s.fmtRecord s.grp.ctx s.grp.die i with
  | (s, .error c) =>
    s.parkFault c s.slot.act (BitVec.ofNat 64 (s.fmtEntry s.grp.ctx i))
  | (s, .ok x) => (s.modGrp (fun g => g.fmput d x)).cont

/-- FMLD (R160). -/
def execFmld (w : W0) (r : Alu) (s : State) : Out :=
  .next (if !s.guardW w then s.cont
    else match r.opx.toNat with
      | 0 => (s.modGrp (fun g => g.fmput w.d.toNat (s.rdG64 w.a.toNat))).cont
      | 1 => s.fmldTable w.d.toNat ((s.rdG r.b.toNat).toNat % 256)
      | _ => s.fmldTable w.d.toNat r.c.toNat)

/-- FMST (R160). -/
def execFmst (w : W0) (_r : Alu) (s : State) : Out :=
  .next (s.groupExec w (fun s => s.wrG64 w.d.toNat (s.grp.fmget w.a.toNat)))

end Sys2Proof.Machine
end

