-- ==== Sys2Proof/Machine/Tile.lean ====
section
/-!
DEFINITION. Copy commands as tiles of bytes, scratchpad addressing, and the range-lock table
(13_copy R282 to R284, R290, R294, R295; 09_memory R190).
-/

namespace Sys2Proof.Machine

/-! The command's fields (R282). -/

def CopyCmd.w (c : CopyCmd) (k : Nat) : Word := c.words.getD k 0
def CopyCmd.src (c : CopyCmd) : DWord := pair (c.w 0) (c.w 1)
def CopyCmd.dst (c : CopyCmd) : DWord := pair (c.w 2) (c.w 3)
def CopyCmd.bv (c : CopyCmd) : Bool := (c.w 6).getLsbD 31
def CopyCmd.bh (c : CopyCmd) : Nat := bitsOf (c.w 6).toNat 27 4
def CopyCmd.bidx (c : CopyCmd) : Nat := bitsOf (c.w 6).toNat 16 11
def CopyCmd.tag (c : CopyCmd) : Nat := bitsOf (c.w 6).toNat 0 16
def CopyCmd.cv (c : CopyCmd) : Bool := (c.w 7).getLsbD 31
def CopyCmd.ch (c : CopyCmd) : Nat := bitsOf (c.w 7).toNat 27 4
def CopyCmd.cidx (c : CopyCmd) : Nat := bitsOf (c.w 7).toNat 16 11
def CopyCmd.sk (c : CopyCmd) : Nat := bitsOf (c.w 7).toNat 14 2
def CopyCmd.dk (c : CopyCmd) : Nat := bitsOf (c.w 7).toNat 12 2

/-- CPY2D's rows, row bytes and pitches; CPYG's elements and element size (R284). -/
def CopyCmd.rows (c : CopyCmd) : Nat := bitsOf (c.w 4).toNat 16 16
def CopyCmd.rb (c : CopyCmd) : Nat := bitsOf (c.w 4).toNat 0 16
def CopyCmd.spitch (c : CopyCmd) : Nat := 16 * bitsOf (c.w 5).toNat 16 16
def CopyCmd.dpitch (c : CopyCmd) : Nat := 16 * bitsOf (c.w 5).toNat 0 16
def CopyCmd.elems (c : CopyCmd) : Nat := bitsOf (c.w 4).toNat 16 16
def CopyCmd.esz (c : CopyCmd) : Nat := 2 ^ bitsOf (c.w 4).toNat 0 3
def CopyCmd.ih (c : CopyCmd) : Nat := bitsOf (c.w 5).toNat 28 4
def CopyCmd.ioff (c : CopyCmd) : Nat := bitsOf (c.w 5).toNat 0 28

/-- Bytes of the tile (R284). -/
def CopyCmd.len (c : CopyCmd) : Nat :=
  match c.kind with
  | 1 => c.rows * c.rb
  | 3 => c.elems * c.esz
  | _ => (c.w 4).toNat

/-- Offset of tile byte `t` from the destination's start (R284). -/
def CopyCmd.dstOff (c : CopyCmd) (t : Nat) : Nat :=
  if c.kind = 1 then t / c.rb * c.dpitch + t % c.rb else t

/-- Offset of tile byte `t` from the source's start. -/
def CopyCmd.srcOff (c : CopyCmd) (t : Nat) : Nat :=
  match c.kind with
  | 1 => t / c.rb * c.spitch + t % c.rb
  | 3 => c.esz * c.index.getD (t / c.esz) 0 + t % c.esz
  | _ => t

/-- Bytes from the first to the last byte of rows of `rb` bytes a pitch apart. -/
def rowsExtent (rows rb pitch : Nat) : Nat := if rows = 0 || rb = 0 then 0 else pitch * (rows - 1) + rb

/-- The bounding length of the destination and of the source. -/
def CopyCmd.dstExtent (c : CopyCmd) : Nat := if c.kind = 1 then rowsExtent c.rows c.rb c.dpitch else c.len
def CopyCmd.srcExtent (c : CopyCmd) : Nat := if c.kind = 1 then rowsExtent c.rows c.rb c.spitch else c.len

/-- Chunks of 512 bytes (R284). -/
def CopyCmd.chunks (c : CopyCmd) : Nat := (c.len + 511) / 512

/-- The tile byte at an offset from the destination's start, if the tile has one there. -/
def CopyCmd.tileAt (c : CopyCmd) (o : Nat) : Option Nat :=
  if c.kind ≠ 1 then (if o < c.len then some o else none)
  else
    let r := if c.dpitch = 0 then 0 else o / c.dpitch
    let r := if c.rows ≤ 1 then 0 else r
    let col := o - r * c.dpitch
    if r < c.rows && col < c.rb then some (r * c.rb + col) else none

/-! Scratchpad offsets (09_memory R190). -/

/-- An allocation's size rounded up to a power of two. -/
def Alloc.z2 (a : Alloc) : Nat := pow2Up a.size

/-- The allocation of a team's handle. -/
def Team.alloc (t : Team) (h : Nat) : Alloc := t.handles.getD h {}
def Team.setAlloc (t : Team) (h : Nat) (a : Alloc) : Team := { t with handles := t.handles.set h a {} }

/-- The handle is bound. -/
def Alloc.bound (a : Alloc) : Bool := a.size ≠ 0

/-! Grants of tiles (14_matrix R299, R300). -/

/-- The team's tiles have follower halves (R300). -/
def Team.yokedGrant (t : Team) : Bool := t.yokeMode && t.px % 2 = 0 && t.nacc ≠ 0

/-- Rows of a tile of the team. -/
def Team.tileRows (t : Team) : Nat := if t.yokedGrant then 128 else 64

/-! The range-lock table (R294, R295). -/

/-- The virtual address a range starts at; a non-canonical one meets no access. -/
def rangeBase (a : DWord) : Nat := if canonical a then vaOf a else 2 ^ 64 + a.toNat

/-- A memory range of a command. -/
def memRange (owner team : Nat) (a : DWord) (len : Nat) (wr : Bool) : LockRange :=
  { owner, team, mem := true, lo := rangeBase a, hi := rangeBase a + len, wr }

/-- A scratchpad range: one that wraps covers the whole allocation; an unbound handle has none. -/
def State.spadRange (s : State) (owner team h off len : Nat) (wr : Bool) : LockRange :=
  let a := (s.team team).alloc h
  let lo := off % a.z2
  let r : LockRange := { owner, team, handle := h, wr }
  if !a.bound || len = 0 then r
  else if a.z2 < lo + len then { r with lo := 0, hi := a.z2, whole := true }
  else { r with lo := lo, hi := lo + len }

/-- The range a matrix command registers: B or MLDC's source to read, MDRAIN's destination to write
(14_matrix R322). -/
def State.matRange (s : State) (id : Nat) (c : MatCmd) : Option LockRange :=
  match c.kind with
  | 2 => none
  | 4 =>
    if c.dk then some (s.spadRange id c.team c.handle c.off c.span true)
    else some (memRange id c.team (pair (c.a.getD 0 0) (c.a.getD 1 0)) c.span true)
  | _ => some (s.spadRange id c.team c.handle c.off c.span false)

end Sys2Proof.Machine
end

