-- ==== Sys2Proof/Machine/Spad.lean ====
section
/-!
DEFINITION. Scratchpad allocations as the operand store performs accesses to them: the clock of an
access, reads under lease and poison, writes that renew rows (10_allocation R204 to R209, R213,
R222).
-/

namespace Sys2Proof.Machine

/-- The clock an access sees (R205): an owner's instruction its issue clock, anyone else the owner's
clock now; a retired owner's count stands still (R204). An access to a row that is saved sees the clock at
swap-out: only rows expired then count as expired (12_atomics_barriers R267). -/
def State.allocClock (s : State) (tk : Nat) (a : Alloc) (issuer : Option (Nat × Nat)) : Nat :=
  match issuer with
  | some (gk, lc) => if gk = a.owner then lc else other
  | none => other
where
  other : Nat :=
    match a.frozen with
    | some n => n
    | none =>
      if (s.group a.owner).live && (s.group a.owner).count then (s.group a.owner).issued
      else if (s.team tk).away then (s.team tk).awayAt else s.dieTime (s.team tk).die / 64

/-- The clock of the issuing instruction's access to an allocation of its team. -/
def State.issueClock (s : State) (a : Alloc) : Nat :=
  s.allocClock s.grp.team a (some (s.cur, s.lat.lc))

/-- A row is expired (R206). -/
def Alloc.rowExpired (a : Alloc) (lc row : Nat) : Bool :=
  a.cls ≠ 0 && expiredAt lc (a.st.getD row a.st0) a.lease

/-- The 32-bit word that holds a byte is not readable (R206). -/
def Alloc.unreadable (a : Alloc) (lc o : Nat) : Bool :=
  a.cls ≠ 0 && (a.rowExpired lc (o / 128) || inMask (a.x.getD (o / 128) 0) (o / 4 % 32))

/-- The word that holds a byte is poisoned. -/
def Alloc.poisoned (a : Alloc) (o : Nat) : Bool := a.pois.getD (o / 4) false

/-- What reading some bytes gives: an unreadable word reads as zero (R208, R209); poison counts in
readable words (R222). -/
structure SpadRead where
  bytes : List Byte := []
  expired : Bool := false
  pois : Bool := false
deriving DecidableEq, Repr

def Alloc.read (a : Alloc) (lc : Nat) (offs : List Nat) : SpadRead :=
  { bytes := offs.map (fun o => if a.unreadable lc o then 0 else a.data.getD o 0)
    expired := offs.any (a.unreadable lc)
    pois := offs.any (fun o => a.poisoned o && !a.unreadable lc o) }

/-- Bytes as stored: offset, value, the bits written. -/
abbrev SpadByte := Nat × Byte × Byte

/-- A row renewed by a write of some of its words (R207). -/
def Alloc.renewRow (a : Alloc) (lc row : Nat) (wset : Word) : Alloc :=
  if a.cls = 0 then a
  else
    let dead := (lanesOf wset).filter (fun i => a.unreadable lc (128 * row + 4 * i))
    let data := dead.foldl (fun d i =>
      (List.range 4).foldl (fun d b => d.set (128 * row + 4 * i + b) 0 0) d) a.data
    let x := a.x.getD row 0
    { a with
      data := data
      x := a.x.set row (if a.rowExpired lc row then ~~~wset else x &&& ~~~wset) 0
      st := a.st.set row (max (a.st.getD row a.st0) lc) a.st0 }

/-- Bytes written by one access, in order (R207); words written whole lose their poison (R222). -/
def Alloc.write (a : Alloc) (lc : Nat) (bs : List SpadByte) : Alloc :=
  let rows := dedup (bs.map (fun b => b.1 / 128))
  let a := rows.foldl (fun a row =>
    a.renewRow lc row (maskOf (fun i => bs.any (fun b => b.1 / 4 = 32 * row + i)))) a
  let whole := (dedup (bs.map (fun b => b.1 / 4))).filter (fun w =>
    (List.range 4).all (fun i => bs.any (fun b => b.1 = 4 * w + i && b.2.2 = 0xFF)))
  { a with
    pois := whole.foldl (fun p w => p.set w false false) a.pois
    arm := if a.arm.isEmpty then a.arm else a.arm.filter (fun e => !whole.contains e.1)
    data := bs.foldl (fun d b =>
      d.set b.1 ((d.getD b.1 0 &&& ~~~b.2.2) ||| (b.2.1 &&& b.2.2)) 0) a.data }

/-- The allocation of a handle once the scratchpad stores that some operations hold for it have been
performed, in order (09_memory R184, R191). -/
def State.afterSts (s : State) (tk gk h : Nat) (a : Alloc) (ops : List PendOp) : Alloc :=
  (ops.filter (fun o => o.kind = .sts && o.sh = h && !o.sts.isEmpty)).foldl (fun a o =>
    a.write (s.allocClock tk a (some (gk, o.lc))) o.sts) a

/-- Bytes of a run, wholly written. -/
def spadRun (o : Nat) (bs : List Byte) : List SpadByte := mapI bs (fun i b => (o + i, b, 0xFF))

/-- An allocation of a team replaced. -/
def State.setAlloc (s : State) (tk h : Nat) (a : Alloc) : State :=
  s.modTeam tk (fun t => t.setAlloc h a)

/-! Errors of cells that reads meet (10_allocation R222). -/

/-- A row queued for remapping on a core: `unit` is its team's number times 32 and its handle, 16 standing
for the register rows. -/
def State.queueRow (s : State) (core unit_ row : Nat) : State := s.modCore core (fun c =>
  if c.rowRemaps.contains (unit_, row) then c else { c with rowRemaps := c.rowRemaps ++ [(unit_, row)] })

/-- An error of a scratchpad word's cells met: counted, and, when it lasts, the word is poisoned and its row
queued for remapping (R222; 15_system R356). -/
def State.meetCell (s : State) (tk h w k : Nat) : State :=
  let t := s.team tk
  let ck := coreKey t.die t.core
  let a := t.alloc h
  let s := (s.setAlloc tk h { a with arm := a.arm.set w 0 0
                                     pois := if 2 ≤ k then a.pois.set w true false else a.pois }).countCore
    ck (0x0D + min k 2) t.ctx 1
  if 2 ≤ k then s.queueRow ck (tk * 32 + h) (w / 32) else s

/-- A read at clock `lc` of the scratchpad bytes at some offsets meets the errors of their words; an
unreadable word is not read (R223). -/
def State.meetSpad (s : State) (tk h lc : Nat) (offs : List Nat) : State :=
  let a := (s.team tk).alloc h
  if a.arm.isEmpty then s
  else (dedup (offs.map (· / 4))).foldl (fun s w =>
    match a.arm.getD w 0 with
    | 0 => s
    | k + 1 => if a.unreadable lc (4 * w) || a.size ≤ 4 * w then s else s.meetCell tk h w k) s

/-- The same for an engine's read of bytes from an offset on, each wrapped. -/
def State.meetRange (s : State) (tk h off n : Nat) : State :=
  let a := (s.team tk).alloc h
  s.meetSpad tk h (s.allocClock tk a none) ((List.range n).map (fun i => (off + i) % a.z2))

/-- An armed register error that reads of registers at clock `lc` meet (R358; 10_allocation R222): a corrected or
transient one is counted, a lasting one poisons the word, and, unless it was injected, queues its row for
remapping. An expired word is not read (R223). -/
def State.meetRegs (s : State) (gk lc : Nat) (m : Word) (regs : List Nat) : State :=
  let g := s.group gk
  let k := coreKey g.die g.core
  let hit (e : ArmedErr) : Bool := e.site = 0 && e.at_ / 8192 = gk
    && regs.contains (e.at_ / 32 % 256) && inMask m (e.at_ % 32)
    && !g.unreadable lc (e.at_ / 32 % 256) (e.at_ % 32)
  let es := (s.coreAt k).armed.filter hit
  es.foldl (fun s e =>
    let s := s.countCore k (0x0D + e.kind) g.ctx 1
    if e.kind = 2 then
      let n := e.at_ / 32 % 256
      let s := s.modGroup gk (fun g =>
        { g with vpois := g.vpois.set n (g.vpois.getD n 0 ||| maskOf (· = e.at_ % 32)) 0 })
      if e.cell then s.queueRow k (g.team * 32 + 16) n else s
    else s) (if es.isEmpty then s else s.modCore k (fun c => { c with armed := c.armed.filter (fun e => !hit e) }))

/-- What the rows of a team meet when they are saved: an error found is dealt with before the row is written
out, and errors of unread cells stay with the rows that the team leaves (R219, R222). -/
def State.meetTeam (s : State) (tk : Nat) : State :=
  let s := (s.groups.filter (fun e => e.2.live && e.2.team = tk)).foldl (fun s e =>
    s.meetRegs e.1 (s.clockOf e.2) (BitVec.allOnes 32) (List.range e.2.nreg)) s
  let s := (s.team tk).handles.foldl (fun s e => s.meetRange tk e.1 0 e.2.size) s
  s.modTeam tk (fun t => { t with handles := t.handles.map (fun e => (e.1, { e.2 with arm := [] })) })

/-! The save area of a team (15_system R353; 14_matrix R324). -/

/-- The halves of a tile's image: the leader's, and the follower's of a yoked grant. -/
def Team.tileBytes (t : Team) : Nat := if t.yokedGrant then 65536 else 32768

/-- Bytes of a part of the save area, which starts on a 128-byte boundary. -/
def part (n : Nat) : Nat := roundUp n 128

/-- Bytes a group takes in its team's save area (R353). -/
def Group.imageSize (g : Group) : Nat :=
  2048 + part (128 * g.nreg) + part (8 * g.nreg) + 128 + part (32 * g.gsb.length)

/-- Bytes an allocation takes: its rows, then its stamps. -/
def Alloc.imageSize (a : Alloc) : Nat := part a.size + part (8 * (a.size / 128))

/-- The groups of a team. -/
def State.groupsOf (s : State) (tk : Nat) : List Nat :=
  (s.groups.filter (fun e => e.2.live && e.2.team = tk)).map (·.1)

/-- Where the rows of the handles begin in a team's save area, and where those of one handle do. -/
def State.imageSpad (s : State) (tk : Nat) : Nat :=
  4096 + ((s.groupsOf tk).map (fun gk => (s.group gk).imageSize)).sum
def State.imageRows (s : State) (tk h : Nat) : Nat :=
  s.imageSpad tk + (((s.team tk).handles.filter (fun e => e.1 < h)).map (·.2.imageSize)).sum

/-- Where the tile images begin, and the bytes of the whole area. -/
def State.imageTiles (s : State) (tk : Nat) : Nat := s.imageRows tk 16 + part (64 * (s.team tk).twb.length)
def State.imageSize (s : State) (tk : Nat) : Nat :=
  s.imageTiles tk + (s.team tk).nacc * ((s.team tk).tileBytes + part 4)

/-- Bytes stored at DEV, by the mesh, at an offset of the area where a team was saved: nothing is stored
where the translation of the save pool fails (log entry 49). -/
def State.saveStore (s : State) (tk off : Nat) (bs : List Byte) : State :=
  let t := s.team tk
  match s.saved.getD tk 0 with
  | 0 => s
  | a + 1 => (s.engineStore t.ctx t.die t.core (a + off) bs).1

/-- An allocation of a team replaced, after a change of the bytes at some offsets: those of a team that
is away are changed where it was saved (12_atomics_barriers R275; 13_copy R297). -/
def State.putSpad (s : State) (tk h : Nat) (a : Alloc) (offs : List Nat) : State :=
  let s := s.setAlloc tk h a
  if !(s.team tk).away then s
  else offs.foldl (fun s o => s.saveStore tk (s.imageRows tk h + o) [a.data.getD o 0]) s

/-- The place of an offset of the area where a team was saved. -/
def State.savedPlace (s : State) (tk off : Nat) : Option Xl :=
  let t := s.team tk
  match s.saved.getD tk 0 with
  | 0 => none
  | a + 1 =>
    let va := vaOf (BitVec.ofNat 64 (a + off))
    match s.walk t.ctx t.die va with
    | .fault _ => none
    | .leaf _ e big => some (leafXl e big va)

/-- The Miller that serves an offset of a saved allocation runs on a frozen core, which holds what is bound
for it (12_atomics_barriers R275; 15_system R355). -/
def State.savedFrozen (s : State) (tk h o : Nat) : Bool :=
  match s.savedPlace tk (s.imageRows tk h + o) with
  | none => false
  | some x => (s.millerCore x.attr.home (x.pk / 128)).any (s.frozenAt x.attr.home)

/-- An allocation as an operation of a Miller or of the mesh on `n` of its bytes finds it: those of a team
that is away as its save area holds them now (12_atomics_barriers R275; 13_copy R297). -/
def State.allocNow (s : State) (tk h o n : Nat) : State × Alloc :=
  let t := s.team tk
  let a := t.alloc h
  match t.away, s.saved.getD tk 0 with
  | true, b + 1 =>
    (match s.engineRead t.ctx t.die (vaOf (BitVec.ofNat 64 (b + s.imageRows tk h + o))) n with
      | (s, .error _) => (s, a)
      | (s, .ok bs) =>
        let cells := mapI bs (fun i x => (o + i, x.val))
        (s, { a with data := cells.foldl (fun d e => d.set e.1 e.2 0) a.data }))
  | _, _ => (s, a)

/-- An engine's read of scratchpad bytes, each offset wrapped; bytes in the gap or of an unbound
handle read as zero (13_copy R283). The MEMST bits it sets, and whether it met poison. -/
structure EngRead where
  bytes : List Byte := []
  memst : Word := 0
  pois : Bool := false
deriving DecidableEq, Repr

def State.spadEngineRead (s : State) (tk h off n : Nat) : EngRead :=
  let a := (s.team tk).alloc h
  if !a.bound then { bytes := List.replicate n 0, memst := if n = 0 then 0 else memstSPNH }
  else
    let offs := (List.range n).map (fun i => (off + i) % a.z2)
    let live := offs.filter (· < a.size)
    let r := a.read (s.allocClock tk a none) live
    let gap := live.length ≠ offs.length
    { bytes := offs.map (fun o =>
        if o < a.size && !a.unreadable (s.allocClock tk a none) o then a.data.getD o 0 else 0)
      memst := (if gap then memstSPGAP else 0) ||| (if r.expired then memstLAPSE else 0)
      pois := r.pois }

/-- An engine's write of scratchpad bytes, each offset wrapped; bytes in the gap or of an unbound
handle are discarded (R283). The MEMST bits are those of the group `gk`. -/
def State.spadEngineWrite (s : State) (gk tk h off : Nat) (bs : List Byte) : State :=
  let a := (s.team tk).alloc h
  let note (s : State) (bits : Word) : State :=
    s.modGroup gk (fun g => if g.live then { g with memst := g.memst ||| bits } else g)
  if bs.isEmpty then s
  else if !a.bound then note s memstSPNH
  else
    let all := mapI bs (fun i b => ((off + i) % a.z2, b, (0xFF : Byte)))
    let live := all.filter (fun b => b.1 < a.size)
    let s := s.putSpad tk h (a.write (s.allocClock tk a none) live) (live.map (·.1))
    if live.length = all.length then s else note s memstSPGAP

/-! Accesses to locked ranges (13_copy R294, R295). -/

/-- The offsets from a destination's start that an address of the range may have: the address
itself, and for a scratchpad range every turn of its wrap. -/
def State.destOffsets (s : State) (r : LockRange) (c : CopyCmd) (x : Nat) : List Nat :=
  if r.mem then [x - r.lo]
  else
    let z2 := ((s.team r.team).alloc r.handle).z2
    let o := (x + (z2 - (c.w 2).toNat % z2)) % z2
    (List.range ((c.dstExtent + z2 - 1) / z2)).map (fun k => o + k * z2)

/-- A chunk's bit is set in the bitmap of a team (R288). -/
def State.chunkBit (s : State) (c : CopyCmd) (k tk : Nat) : Bool :=
  let a := (s.team tk).alloc c.ch
  let o := (4 * c.cidx + 4 * (k / 32)) % a.z2 + k / 8 % 4
  a.bound && o < a.size && !a.unreadable (s.allocClock tk a none) o && (a.data.getD o 0).getLsbD (k % 8)

/-- The write entry of a copy command covers a byte of its bounding range: the rows of CPY2D only,
and with CV = 1 only bytes whose chunk bit is not set (R294, R295). -/
def State.copyCovers (s : State) (r : LockRange) (c : CopyCmd) (x : Nat) : Bool :=
  if !c.cv && (c.kind ≠ 1 || r.whole) then true
  else (s.destOffsets r c x).any (fun o => match c.tileAt o with
    | none => false
    | some t => !c.cv || !s.chunkBit c (t / 512) r.team)

/-- An entry refuses a lane's access to a byte (R295). -/
def State.refuses (s : State) (r : LockRange) (wr : Bool) (x : Nat) : Bool :=
  r.lo ≤ x && x < r.hi
  && (if !r.wr then wr else
      let c := s.copy r.owner
      !c.live || s.copyCovers r c x)

/-- A group's access to some bytes of memory is refused. -/
def State.memLocked (s : State) (gk : Nat) (wr : Bool) (vas : List Nat) : Bool :=
  let g := s.group gk
  (s.coreAt (coreKey g.die g.core)).locks.any (fun r =>
    r.mem && (s.team r.team).ctx = g.ctx && vas.any (s.refuses r wr))

/-- A group's access to some bytes of a scratchpad allocation of its team is refused. -/
def State.spadLocked (s : State) (gk h : Nat) (wr : Bool) (offs : List Nat) : Bool :=
  let g := s.group gk
  (s.coreAt (coreKey g.die g.core)).locks.any (fun r =>
    !r.mem && r.team = g.team && r.handle = h && offs.any (s.refuses r wr))

end Sys2Proof.Machine
end

