-- ==== Sys2Proof/Machine/Access.lean ====
section
/-!
DEFINITION. Accesses of a group to memory: access sizes, addresses, the checks in their order, and
the loads and stores that the memory and group-wide instructions share (09_memory R175 to R187;
08_formats R149 to R151; 03_groupwide R57, R58).
-/

namespace Sys2Proof.Machine

/-! Types (R180). -/

/-- Access size in bytes. -/
def tySize (ty : Nat) : Nat :=
  if [1, 6, 10].contains ty then 1
  else if [2, 7, 11, 14, 15].contains ty then 2
  else if [4, 9, 13, 17].contains ty then 8
  else if ty = 5 then 16 else 4

/-- Registers that hold a value of a type. -/
def tyRegs (ty : Nat) : Nat := max 1 (tySize ty / 4)

/-- The size that scales C: an element is one index unit (R180). -/
def memUnit (m : MemF) : Nat := if m.e then 1 else tySize m.ty.toNat

/-- The words a load writes, narrow values extended (R180). -/
def loadWords (ty : Nat) (bs : List Byte) : List Word :=
  let n := natLE bs
  if ty = 6 then [BitVec.ofInt 32 (sext 8 n)]
  else if ty = 7 then [BitVec.ofInt 32 (sext 16 n)]
  else (List.range (tyRegs ty)).map (fun i => BitVec.ofNat 32 (n / 2 ^ (32 * i)))

/-- The low bytes of words. -/
def lowBytes (n : Nat) (ws : List Word) : List Byte := (wordBytes ws).take n

/-- The scope an SCO field names (R35). -/
def memScope (m : MemF) (dflt : Nat) : Nat := if m.sco = 0 then dflt else m.sco.toNat

def memAcq (m : MemF) : Bool := m.ord.toNat % 2 = 1
def memRel (m : MemF) : Bool := 2 ≤ m.ord.toNat

/-! Ordering among a group's accesses (11_visibility R238, R241). -/

/-- A command of the group may still read memory. -/
def CopyCmd.readsMem (c : CopyCmd) : Bool := c.live && c.sk = 0

/-- A matrix command of the group may still read memory: an MLDC that has not begun, and a drain whose
largest magnitude is still to be merged (14_matrix R315 to R317). -/
def MatCmd.readsMem (c : MatCmd) : Bool :=
  c.live && ((c.kind = 3 && !c.started) || (c.kind = 4 && c.amx.isSome && !c.amaxDone))

/-- What a release must wait for (R241): the group's loads, atomics and scratchpad stores, and its
copy and matrix commands as far as they read memory. -/
def State.releaseWaits (s : State) (gk : Nat) : Bool :=
  (s.group gk).pend.any (fun o => [.load, .atomic, .sts].contains o.kind)
  || s.mills.any (fun e => e.2.live && e.2.grp = gk)
  || s.copies.any (fun e => e.2.grp = gk && e.2.readsMem)
  || s.mats.any (fun e => e.2.grp = gk && e.2.readsMem)

/-! The places of bytes. -/

/-- One lane's access: the virtual address, its place, and the addresses of the bytes it touches,
the code's first, the scale byte's last. -/
structure LaneAcc where
  lane : Nat := 0
  va : Nat := 0
  x : Xl := {}
  vas : List Nat := []
  /-- Where an element's code begins in its first byte. -/
  bit : Nat := 0
  scaled : Bool := false
deriving DecidableEq, Repr

/-- The place of another byte of the same page. -/
def Xl.at_ (x : Xl) (va : Nat) : Xl := { leafXl x.leaf x.big va with rec_ := x.rec_ }

/-- The page and index of an element address (08_formats R149). -/
def Xl.pageBase (x : Xl) (va : Nat) : Nat := va / pageSize x.big * pageSize x.big

/-- An element access raises FMTX (08_formats R150, R151). -/
def elemBad (x : Xl) (va : Nat) (wr : Bool) : Bool :=
  let r := x.rec_
  let i := va - x.pageBase va
  x.fmt = 0 || !fmOk r || (wr && fmSck r ≠ 0)
    || (fmBlk r ≠ 0 && pageSize x.big < (i / fmBlkLen r + 1) * fmBlkBytes r)

/-- The bytes of a code that begins at a bit, from a base. -/
def codeBytes (r : DWord) (base bit : Nat) : List Nat :=
  (List.range ((bit + fmW r - 1) / 8 - bit / 8 + 1)).map (fun k => base + bit / 8 + k)

/-- A lane's access laid out. -/
def laneAcc (e : Bool) (size wr : Nat) (L : Nat) (va : Nat) (x : Xl) : LaneAcc :=
  if !e then { lane := L, va, x, vas := (List.range size).map (fun i => va + i) }
  else if elemBad x va (wr = 1) then { lane := L, va, x, vas := [va] }
  else
    let p := x.pageBase va
    let (bit, sc) := fmPlace x.rec_ (va - p)
    { lane := L, va, x
      vas := codeBytes x.rec_ p bit ++ (match sc with | none => [] | some b => [p + b])
      bit := bit % 8, scaled := sc.isSome }

/-! The checks (R175). -/

/-- Each lane translated: its place or its cause. -/
def State.translateLanes (s : State) (acc : Acc) (va : Nat → Nat) :
    List Nat → State × List (Nat × Except Nat Xl)
  | [] => (s, [])
  | L :: t =>
    let (s, r) := s.translate s.grp.ctx s.grp.die (va L) acc (some s.grp.core)
    let (s, rs) := s.translateLanes acc va t
    (s, (L, r) :: rs)

/-- The faulting lanes, each with its cause. -/
def faultsOf (rs : List (Nat × Except Nat Xl)) : List (Nat × Nat) :=
  rs.filterMap (fun r => match r.2 with | .error c => some (r.1, c) | .ok _ => none)

/-- The lanes that translated. -/
def placesOf (rs : List (Nat × Except Nat Xl)) : List (Nat × Xl) :=
  rs.filterMap (fun r => match r.2 with | .error _ => none | .ok x => some (r.1, x))

/-- The outcome of the checks up to and including FMTX: a park, or the lanes that may access and
the traps of the others. -/
inductive Checked where
  | parked (s : State)
  | go (s : State) (traps : List LaneTrap) (lanes : List LaneAcc)

/-- The checks of R175 after the register words: canonical form, alignment (`al` tells the address
a lane is misaligned), translation, range lock, format. -/
def State.checkLanes (s : State) (ok : Word) (ts : List LaneTrap) (addr : Nat → DWord)
    (al : Nat → Bool) (acc : Acc) (e : Bool) (size : Nat) : Checked :=
  let lanes := lanesOf ok
  let cause (L : Nat) : Option Nat :=
    if !canonical (addr L) then some cBADA else if al L then some cALGN else none
  let bad := lanes.filterMap (fun L =>
    (cause L).map (fun c => ({ lane := L, cause := c, addr := addr L } : LaneTrap)))
  let good := lanes.filter (fun L => (cause L).isNone)
  let (s, rs) := s.translateLanes acc (fun L => vaOf (addr L)) good
  match faultsOf rs with
  | (L, c) :: t =>
    .parked (s.parkFault c (maskOf (fun k => k = L || t.any (fun f => f.1 = k))) (addr L))
  | [] =>
    let accs := (placesOf rs).map (fun r =>
      laneAcc e size (if acc.writes then 1 else 0) r.1 (vaOf (addr r.1)) r.2)
    let why (a : LaneAcc) : Option Nat :=
      if s.memLocked s.cur acc.writes a.vas then some cRLK
      else if e && elemBad a.x a.va acc.writes then some cFMTX else none
    let bad2 := accs.filterMap (fun a =>
      (why a).map (fun c => ({ lane := a.lane, cause := c, addr := addr a.lane } : LaneTrap)))
    .go s (ts ++ bad ++ bad2) (accs.filter (fun a => (why a).isNone))

/-! Loads. -/

/-- How a load reads: scope, acquire, hints, and whether through the Sieve (R182, R188). -/
structure LoadMode where
  scope : Nat := 1
  acq : Bool := false
  ro : Bool := false
  na : Bool := false
  sieve : Bool := false
deriving DecidableEq, Repr

/-- The mode of a memory-layout instruction (R35, R182). -/
def memMode (m : MemF) (dflt : Nat) (sieve : Bool := false) : LoadMode :=
  { scope := memScope m dflt, acq := memAcq m, ro := m.hnt = 1, na := m.hnt = 3, sieve }

/-- The bytes at some places of a group's context. -/
def State.loadBytes (s : State) (gk : Nat) (md : LoadMode) (ps : List Xl) : State × List VByte :=
  let secs := ps.foldl (fun acc x => if acc.any (fun y => y.pk / 16 = x.pk / 16) then acc else acc ++ [x])
    ([] : List Xl)
  let (s, got) := secs.foldl (fun (acc : State × List (Nat × List VByte)) x =>
    let (s, bs) := acc.1.readSec gk (x.pk / 16) x.attr md.scope md.acq md.ro md.na md.sieve
    (s, acc.2 ++ [(x.pk / 16, bs)])) (s, [])
  (s, ps.map (fun x =>
    match got.find? (fun e => e.1 = x.pk / 16) with
    | none => {}
    | some e => e.2.getD (x.pk % 16) {}))

/-- What a lane's load delivers: its words, the FPSTAT bits of an element's decoding, and whether it
meets poison: in a byte it uses, or in a line it reads (R175). -/
structure LaneLoad where
  lane : Nat := 0
  words : List Word := []
  fl : Nat := 0
  pois : Bool := false
deriving DecidableEq, Repr

/-- The element that code bytes and a scale byte spell (08_formats R145, R149). -/
def elemRead (r : DWord) (bit : Nat) (scaled : Bool) (bs : List Byte) : FRes :=
  let code := (if scaled then bs.dropLast else bs)
  fmElem r (fmFactor r (if scaled then (bs.getLastD 0).toNat else 0))
    (natLE code / 2 ^ bit % 2 ^ fmW r)

/-- Some line that an access meets is poisoned (R175). -/
def State.meetsPois (s : State) (places : List Xl) : Bool :=
  (dedup (places.map (·.pk / 128))).any (fun l =>
    match places.find? (fun x => x.pk / 128 = l) with
    | none => false
    | some x => s.linePois x.attr.home x.pk)

/-- One lane loaded; bytes of a spill area have no stated value (04_control R72). -/
def State.loadLane (s : State) (gk : Nat) (md : LoadMode) (e : Bool) (ty : Nat) (a : LaneAcc) :
    State × LaneLoad :=
  let places := a.vas.map a.x.at_
  let pks := places.map (·.pk)
  let (s, bs) := s.loadBytes gk md places
  let bs := s.seen (a.lane + 1) pks bs
  let raw := bs.map (·.val)
  let el := elemRead a.x.rec_ a.bit a.scaled raw
  (s, { lane := a.lane, pois := anyPois bs || s.meetsPois places
        words := if e then [BitVec.ofNat 32 el.1] else loadWords ty raw
        fl := if e then el.2 else 0 })

/-- Lanes loaded in ascending order. -/
def State.loadLanes (s : State) (gk : Nat) (md : LoadMode) (e : Bool) (ty : Nat) :
    List LaneAcc → State × List LaneLoad
  | [] => (s, [])
  | a :: t =>
    let (s, r) := s.loadLane gk md e ty a
    let (s, rs) := s.loadLanes gk md e ty t
    (s, r :: rs)

/-- What a load writes when it completes: words of consecutive registers from `d`. -/
def loadPend (d : Nat) (rs : List LaneLoad) : List PendWord :=
  rs.flatMap (fun r => mapI r.words (fun i x => { key := (d + i) * 32 + r.lane, val := x }))

/-- A counted lane instruction issued for the lanes that do not trap, and the traps of the others
(R178, 02_encoding R28): when every Active lane traps, nothing is left to complete. -/
def State.finishCounted (s : State) (f : Bool) (ts : List LaneTrap) (some_ : Bool) (o : PendOp) : State :=
  (if some_ || ts.isEmpty then s.issueOp f o else s).finish ts

/-- The acquire of a load, which its completion performs (R238, R239). -/
def LoadMode.acqOp (md : LoadMode) : Option Nat := if md.acq then some md.scope else none

/-- A lane load after its checks: bytes read, a lane that meets poison trapped, and the destinations
and the acquire left to the completion. -/
def State.performLoad (s : State) (w : W0) (m : MemF) (md : LoadMode) (addr : Nat → DWord)
    (ts : List LaneTrap) (accs : List LaneAcc) : State :=
  let (s, rs) := s.loadLanes s.cur md m.e m.ty.toNat accs
  let pois := rs.filter (·.pois)
  let good := rs.filter (fun r => !r.pois)
  let ts := ts ++ pois.map (fun r => { lane := r.lane, cause := cPOIS, addr := addr r.lane })
  let s := s.orFpstat (good.foldl (fun acc r => acc ||| r.fl) 0)
  s.finishCounted w.f ts (!good.isEmpty) { kind := .load, acq := md.acqOp, v := loadPend w.d.toNat good }

/-- The first address of a range that breaks canonical form, or the address past a wrap
(11_visibility R245). -/
def rangeBad (a : DWord) (n : Nat) : Option DWord :=
  if !canonical a then some a
  else if a.toNat < 2 ^ 56 then (if 2 ^ 56 < a.toNat + n then some (BitVec.ofNat 64 (2 ^ 56)) else none)
  else if 2 ^ 64 < a.toNat + n then some 0 else none

/-! Stores. -/

/-- The bytes of a lane's store: whole bytes, or an element's bits (08_formats R148, R150). -/
def laneStore (e : Bool) (size : Nat) (level1 : Bool) (a : LaneAcc) (ws : List Word) :
    List SByte × Nat :=
  if !e then (pieceBytes a.x (lowBytes size ws), 0)
  else
    let r := a.x.rec_
    let (code, fl) := fmEncode r level1 (fmFactor r 0) (f32.decode (ws.headD 0).toNat)
    let bits := code * 2 ^ a.bit
    let mask := (2 ^ fmW r - 1) * 2 ^ a.bit
    (mapI a.vas (fun k va =>
      let p := a.x.at_ va
      { pk := p.pk, attr := p.attr, val := BitVec.ofNat 8 (bits / 256 ^ k)
        mask := BitVec.ofNat 8 (mask / 256 ^ k) }), fl)

/-- A lane store after its checks (R183, R184). -/
def State.performStore (s : State) (w : W0) (m : MemF) (dflt : Nat) (data : Nat → List Word)
    (ts : List LaneTrap) (accs : List LaneAcc) : State :=
  let out := accs.map (fun a => laneStore m.e (tySize m.ty.toNat) s.level1 a (data a.lane))
  let s := s.orFpstat (out.foldl (fun acc r => acc ||| r.2) 0)
  let s := if ts.isEmpty || !accs.isEmpty then
      s.storeBytes s.cur (out.flatMap (·.1)) (memScope m dflt) (memRel m)
    else s
  s.finishCounted w.f ts (!accs.isEmpty) {}

/-! Addresses (R181). -/

/-- The lane registers that hold an address: the base pair under LA, the offset. -/
def addrRegs (w : W0) (m : MemF) (la : Bool) : List Nat :=
  (if la then [w.a.toNat, w.a.toNat + 1] else []) ++ (if m.nob then [] else [m.b.toNat])

/-- A lane's address. -/
def State.laneAddr (s : State) (w : W0) (m : MemF) (la : Bool) (unit_ : Nat) (L : Nat) : DWord :=
  (if la then s.rd64 w.a.toNat L else s.rdG64 w.a.toNat)
    + (if m.nob then 0 else (s.rd m.b.toNat L).setWidth 64) + BitVec.ofNat 64 (m.c.toNat * unit_)

/-- The group-wide address of LDW, STW, GLD and GST (R181, 03_groupwide R57). -/
def State.groupAddr (s : State) (w : W0) (m : MemF) (unit_ : Nat) : DWord :=
  s.rdG64 w.a.toNat + (if m.nob then 0 else (s.rdG m.b.toNat).setWidth 64)
    + BitVec.ofNat 64 (m.c.toNat * unit_)

/-- An address is not a multiple of a size. -/
def misaligned (a : DWord) (size : Nat) : Bool := a.toNat % size ≠ 0

/-- The data registers of a store. -/
def dataRegs (w : W0) (ty : Nat) : List Nat := (List.range (tyRegs ty)).map (fun i => w.d.toNat + i)

/-- A lane load or store, from its sources on: `k` performs it for the lanes that pass. -/
def State.laneAccess (s : State) (act : Word) (m : MemF) (acc : Acc) (regs : List Nat)
    (addr : Nat → DWord) (al : Nat → Bool) (k : State → List LaneTrap → List LaneAcc → State) :
    State :=
  let (s1, ts, ok) := s.readSources act (fun _ => regs)
  match s1.checkLanes ok ts addr al acc m.e (tySize m.ty.toNat) with
  | .parked s => s
  | .go s ts accs => k s ts accs

/-- An access that must wait for an earlier acquire or, if it releases, for what a release
awaits: its slot does not issue. -/
def State.ordered (s : State) (rel : Bool) (k : State) : State :=
  if s.acquireOut s.cur || (rel && s.releaseWaits s.cur) then s.holdIssue else k

end Sys2Proof.Machine
end

