-- ==== Sys2Proof/Machine/Memory.lean ====
section
/-!
DEFINITION. Loads, stores, gathers, prefetch, scratchpad access and Granary appends, 0xA0 to 0xA8,
0xAE, 0xAF, 0x34 and 0x35 (09_memory R161 to R198; 03_groupwide R57, R58).
-/

namespace Sys2Proof.Machine

/-! LD, ST, LDW, STW, LDG, STG (R181 to R188). -/

/-- A lane load at addresses of the issuing slot. -/
def State.laneLoad (s : State) (w : W0) (m : MemF) (regs : List Nat) (addr : Nat → DWord)
    (al : Nat → Bool) (md : LoadMode) : State :=
  s.ordered false (s.laneAccess (s.activeW w) m .r regs addr al
    (fun s' ts accs => s'.performLoad w m md addr ts accs))

/-- A lane store at addresses of the issuing slot. -/
def State.laneStoreAt (s : State) (w : W0) (m : MemF) (regs : List Nat) (addr : Nat → DWord)
    (al : Nat → Bool) (dflt : Nat) : State :=
  let ds := dataRegs w m.ty.toNat
  s.ordered (memRel m) (s.laneAccess (s.activeW w) m .w (regs ++ ds) addr al
    (fun s' ts accs =>
      s'.performStore w m dflt (fun L => ds.map (fun n => s.rd n L)) ts accs))

/-- Alignment of a lane's own address; elements have no rule (R185). -/
def laneAlign (m : MemF) (addr : Nat → DWord) (L : Nat) : Bool :=
  !m.e && misaligned (addr L) (tySize m.ty.toNat)

/-- LD (R186). -/
def execLd (w : W0) (m : MemF) (s : State) : Out :=
  let la := m.opx.getLsbD 0
  let addr := s.laneAddr w m la (memUnit m)
  .next (s.laneLoad w m (addrRegs w m la) addr (laneAlign m addr) (memMode m 1))

/-- ST (R186). -/
def execSt (w : W0) (m : MemF) (s : State) : Out :=
  let la := m.opx.getLsbD 0
  let addr := s.laneAddr w m la (memUnit m)
  .next (s.laneStoreAt w m (addrRegs w m la) addr (laneAlign m addr) 1)

/-- The address of a lane's share of a block (R187). -/
def State.blockAddr (s : State) (w : W0) (m : MemF) (L : Nat) : DWord :=
  s.groupAddr w m (32 * memUnit m) + BitVec.ofNat 64 (L * memUnit m)

/-- A misaligned block concerns every lane (R185). -/
def State.blockAlign (s : State) (w : W0) (m : MemF) (_L : Nat) : Bool :=
  !m.e && misaligned (s.groupAddr w m (32 * memUnit m)) (32 * memUnit m)

/-- LDW (R187). -/
def execLdw (w : W0) (m : MemF) (s : State) : Out :=
  .next (s.laneLoad w m [] (s.blockAddr w m) (s.blockAlign w m) (memMode m 1))

/-- STW (R187). -/
def execStw (w : W0) (m : MemF) (s : State) : Out :=
  .next (s.laneStoreAt w m [] (s.blockAddr w m) (s.blockAlign w m) 1)

/-- LDG (R188). -/
def execLdg (w : W0) (m : MemF) (s : State) : Out :=
  let addr := s.laneAddr w m false (memUnit m)
  .next (s.laneLoad w m (addrRegs w m false) addr (laneAlign m addr) (memMode m 4 true))

/-- STG (R188). -/
def execStg (w : W0) (m : MemF) (s : State) : Out :=
  let addr := s.laneAddr w m false (memUnit m)
  .next (s.laneStoreAt w m (addrRegs w m false) addr (laneAlign m addr) 4)

/-! PREF (R189). -/

/-- The sectors of a line requested, at .DEV into the L2 alone. -/
def State.prefLine (s : State) (scope : Nat) (a : LaneAcc) : State :=
  if a.x.attr.cp = 2 then s
  else (List.range 8).foldl (fun s i =>
    (s.readBelow s.cur (a.x.pk / 128 * 8 + i) a.x.attr scope false false (4 ≤ scope)).1) s

/-- The lanes whose addresses pass every check. -/
def State.prefLanes (s : State) (addr : Nat → DWord) : List Nat → State × List LaneAcc
  | [] => (s, [])
  | L :: t =>
    match (if !canonical (addr L) || misaligned (addr L) 4 then (s, Except.error 0)
           else s.translate s.grp.ctx s.grp.die (vaOf (addr L)) .r (some s.grp.core)) with
    | (s, .error _) => s.prefLanes addr t
    | (s, .ok x) =>
      let a := laneAcc false 4 0 L (vaOf (addr L)) x
      let (s, rs) := s.prefLanes addr t
      (s, if s.memLocked s.cur false a.vas then rs else a :: rs)

/-- PREF (R189). -/
def execPref (w : W0) (m : MemF) (s : State) : Out :=
  let la := m.opx.getLsbD 0
  let (s1, _, ok) := s.readSources (s.activeW w) (fun _ => addrRegs w m la)
  let (s2, accs) := s1.prefLanes (s.laneAddr w m la 4) (lanesOf ok)
  .next (s.ordered false
    (((accs.foldl (fun s a => s.prefLine (memScope m 2) a) s2).issueOp w.f {}).cont))

/-! GLD and GST (03_groupwide R57, R58). -/

/-- A group-wide access that has passed its checks, or the trap or park that ends it. -/
def State.groupAccess (s : State) (a : DWord) (size : Nat) (acc : Acc) (k : State → LaneAcc → State) :
    State :=
  if !canonical a then s.raiseSlot cBADA a
  else if misaligned a size then s.raiseSlot cALGN a
  else match s.translate s.grp.ctx s.grp.die (vaOf a) acc (some s.grp.core) with
    | (s, .error c) => s.parkFault c s.slot.act a
    | (s, .ok x) =>
      let la := laneAcc false size (if acc.writes then 1 else 0) 0 (vaOf a) x
      if s.memLocked s.cur acc.writes la.vas then s.raiseSlot cRLK a else k s la

/-- GLD (R57). -/
def execGld (w : W0) (m : MemF) (s : State) : Out :=
  let a := s.groupAddr w m (tySize m.ty.toNat)
  let md := memMode m 1
  .next (s.ordered false (
    if !s.guardW w then (s.issueOp w.f { acq := md.acqOp }).cont
    else s.groupAccess a (tySize m.ty.toNat) .r (fun s la =>
      let (s, r) := s.loadLane s.cur md false m.ty.toNat la
      if r.pois then s.raiseSlot cPOIS a
      else (s.issueOp w.f { kind := .load, acq := md.acqOp
                            g := mapI r.words (fun i x => { key := w.d.toNat + i, val := x }) }).cont)))

/-- GST (R57). -/
def execGst (w : W0) (m : MemF) (s : State) : Out :=
  let size := tySize m.ty.toNat
  let a := s.groupAddr w m size
  let ws := (List.range (tyRegs m.ty.toNat)).map (fun i => s.rdG (w.d.toNat + i))
  .next (s.ordered (memRel m) (
    if !s.guardW w then ((s.storeBytes s.cur [] (memScope m 1) (memRel m)).issueOp w.f {}).cont
    else s.groupAccess a size .w (fun s la =>
      ((s.storeBytes s.cur (pieceBytes la.x (lowBytes size ws)) (memScope m 1) (memRel m)).issueOp
        w.f {}).cont)))

/-! LDS and STS (R190, R191). -/

/-- One lane's scratchpad access: the offsets of its bytes (none where the access is in the gap),
the MEMST bits it sets, the place of an element in them, and whether the manual states no value for the
element: one of plain bytes, or stored through a scaled record (log entry 27). -/
structure LaneSpad where
  lane : Nat := 0
  offs : List Nat := []
  gap : Bool := false
  memst : Word := 0
  bit : Nat := 0
  scaled : Bool := false
  open_ : Bool := false
deriving DecidableEq, Repr

/-- An element's bits lie where the allocation's record says (08_formats R146, R149). -/
def Alloc.hasRecord (a : Alloc) : Bool := a.fmtIdx ≠ 0 && fmOk a.record

/-- The access of a bound handle (R190; 08_formats R149). -/
def Alloc.laneAt (a : Alloc) (e : Bool) (size : Nat) (wr : Bool) (L o : Nat) : LaneSpad :=
  if e then
    let r := a.record
    if a.size < o + 1 then { lane := L, gap := true, memst := memstSPGAP }
    else if !a.hasRecord then { lane := L, offs := [o], open_ := true }
    else
      let (bit, sc) := fmPlace r o
      let offs := (codeBytes r 0 bit ++ (match sc with | none => [] | some b => if wr then [] else [b])).map
        (fun x => x % a.z2)
      { lane := L, offs, bit := bit % 8, scaled := sc.isSome, open_ := wr && sc.isSome
        memst := if offs.any (fun x => a.size ≤ x) then memstSPGAP else 0 }
  else
    let mis : Word := if o % size ≠ 0 then memstSPMIS else 0
    let o := o - o % size
    if a.size < o + size then { lane := L, gap := true, memst := mis ||| memstSPGAP }
    else { lane := L, offs := (List.range size).map (fun i => o + i), memst := mis }

/-- The wrapped offset of a lane (R190). -/
def State.spadOff (s : State) (m : MemF) (a : Alloc) (L : Nat) : Nat :=
  ((if m.nob then 0 else (s.rd m.b.toNat L).toNat) + m.c.toNat * memUnit m) % a.z2

/-- The offset register of a scratchpad access. -/
def spadRegs (m : MemF) : List Nat := if m.nob then [] else [m.b.toNat]

/-- Why a lane's scratchpad access traps (R190): RLK, then ERX and POIS of what it reads; no element
access raises FMTX (R190; 08_formats R152). -/
def State.spadTrap (s : State) (h : Nat) (a : Alloc) (wr : Bool) (x : LaneSpad) : Option Nat :=
  let r := a.read (s.issueClock a) (x.offs.filter (· < a.size))
  if s.spadLocked s.cur h wr x.offs then some cRLK
  else if wr then none
  else if a.cls = 2 && r.expired then some cERX
  else if r.pois then some cPOIS else none

/-- The words a lane loads from scratchpad, and FPSTAT bits. -/
def State.spadLoad (s : State) (a : Alloc) (e : Bool) (ty : Nat) (x : LaneSpad) : List Word × Nat :=
  let lc := s.issueClock a
  let bs := x.offs.map (fun o => if o < a.size && !a.unreadable lc o then a.data.getD o 0 else 0)
  if x.gap then (List.replicate (tyRegs ty) 0, 0)
  else if x.open_ then ([Config.freeWord s.freeCtr (2 ^ 44 + x.lane)], 0)
  else if e then
    let el := elemRead a.record x.bit x.scaled bs
    ([BitVec.ofNat 32 el.1], el.2)
  else (loadWords ty bs, 0)

/-- The traps of the lanes of a scratchpad access, and the lanes that go on. -/
def State.spadSplit (s : State) (h : Nat) (a : Alloc) (wr : Bool) (l : List LaneSpad) :
    List LaneTrap × List LaneSpad :=
  (l.filterMap (fun x => (s.spadTrap h a wr x).map (fun c => { lane := x.lane, cause := c })),
   l.filter (fun x => (s.spadTrap h a wr x).isNone))

/-- An allocation of its team as a group's load finds it: with the group's own earlier stores, which
their completion has still to perform (R184, R191). -/
def State.ownAlloc (s : State) (h : Nat) : Alloc :=
  s.afterSts s.grp.team s.cur h ((s.team s.grp.team).alloc h) s.grp.pend

/-- LDS (R190). -/
def execLds (w : W0) (m : MemF) (s : State) : Out :=
  let h := w.a.toNat
  let a := s.ownAlloc h
  let ty := m.ty.toNat
  let (s1, ts, ok) := s.readSources (s.activeW w) (fun _ => spadRegs m)
  .next (s.ordered false (
    if !a.bound then
      let s1 := if ok = 0 then s1 else s1.setMemst memstSPNH
      s1.finishCounted w.f ts (ok ≠ 0) { kind := .load, v := loadPend w.d.toNat ((lanesOf ok).map (fun L =>
        { lane := L, words := List.replicate (tyRegs ty) 0 })) }
    else
      let (bad, good) := s1.spadSplit h a false ((lanesOf ok).map (fun L =>
        a.laneAt m.e (tySize ty) false L (s.spadOff m a L)))
      let lapse : Word := if good.any (fun x => (a.read (s.issueClock a)
        (x.offs.filter (· < a.size))).expired) then memstLAPSE else 0
      let res := good.map (fun x => (x.lane, s1.spadLoad a m.e ty x))
      let s1 := s1.setMemst (good.foldl (fun acc x => acc ||| x.memst) lapse)
      let s1 := s1.orFpstat (res.foldl (fun acc r => acc ||| r.2.2) 0)
      s1.finishCounted w.f (ts ++ bad) (!good.isEmpty)
        { kind := .load, v := loadPend w.d.toNat (res.map (fun r => { lane := r.1, words := r.2.1 })) }))

/-- The bits of byte `k` of an element's code. -/
def Alloc.codeMask (a : Alloc) (bit k : Nat) : Byte :=
  if a.hasRecord then BitVec.ofNat 8 ((2 ^ fmW a.record - 1) * 2 ^ bit / 256 ^ k) else 0xFF

/-- The bytes a lane stores to scratchpad, and FPSTAT bits; `fresh` numbers the step's free values. -/
def spadStore (fresh : Nat) (a : Alloc) (e : Bool) (size : Nat) (level1 : Bool) (ws : List Word)
    (x : LaneSpad) : List SpadByte × Nat :=
  if x.gap then ([], 0)
  else if x.open_ then
    (mapI x.offs (fun k o => (o, Config.freeByte fresh (2 ^ 95 + 16 * x.lane + k), a.codeMask x.bit k)), 0)
  else if e then
    let r := a.record
    let (code, fl) := fmEncode r level1 (fmFactor r 0) (f32.decode (ws.headD 0).toNat)
    (mapI x.offs (fun k o => (o, BitVec.ofNat 8 (code * 2 ^ x.bit / 256 ^ k), a.codeMask x.bit k)), fl)
  else (mapI (lowBytes size ws) (fun i b => (x.offs.getD i 0, b, 0xFF)), 0)

/-- STS (R190): its bytes are written when it completes (R191). -/
def execSts (w : W0) (m : MemF) (s : State) : Out :=
  let h := w.a.toNat
  let a := (s.team s.grp.team).alloc h
  let ty := m.ty.toNat
  let (s1, ts, ok) := s.readSources (s.activeW w) (fun _ => spadRegs m ++ dataRegs w ty)
  .next (s.ordered false (
    if !a.bound then
      (if ok = 0 then s1 else s1.setMemst memstSPNH).finishCounted w.f ts (ok ≠ 0) { kind := .sts }
    else
      let (bad, good) := s1.spadSplit h a true ((lanesOf ok).map (fun L =>
        a.laneAt m.e (tySize ty) true L (s.spadOff m a L)))
      let out := good.map (fun x => spadStore s.freeCtr a m.e (tySize ty) s.level1
        ((dataRegs w ty).map (fun n => s.rd n x.lane)) x)
      let s1 := s1.setMemst (good.foldl (fun acc x => acc ||| x.memst) 0)
      let s1 := s1.orFpstat (out.foldl (fun acc r => acc ||| r.2) 0)
      s1.finishCounted w.f (ts ++ bad) (!good.isEmpty)
        { kind := .sts, sh := h, sts := (out.flatMap (·.1)).filter (fun b => b.1 < a.size) }))

/-! APPEND and APSYNC (R194 to R198). -/

/-- The key of a context's log. -/
def logKey (ctx n : Nat) : Nat := ctx * 256 + n

/-- The Granary key of a byte address of a die. -/
def granKey (die a : Nat) : Nat := 2 ^ 64 + die * 2 ^ 48 + a

/-- APPEND's result and its place in the log, for `n` bytes. What a binding places beyond the die's Granary
is stored nowhere (log entry 54). -/
def State.appendBytes (s : State) (lk n : Nat) (bs : List Byte) : State × DWord × Option (Nat × Nat) :=
  let l := s.log lk
  let r := roundUp n 16
  if !l.bound || l.cap < l.next + r then (s, BitVec.allOnes 64, none)
  else
    let s := s.setLog lk { l with next := l.next + r, order := l.order + 1 }
    let (id, s) := s.fresh
    let s := s.setAppend id
      { live := true, grp := s.cur, log := lk, order := l.order, at_ := granKey l.die (l.base + l.next)
        bytes := (bs ++ List.replicate (r - n) 0).take (granSize - (l.base + l.next)) }
    (s, BitVec.ofNat 64 l.next, some (lk, l.order))

/-- The bytes a source read gives; a poisoned one has no value the manual states. -/
def State.openBytes (s : State) (va : Nat) (bs : List VByte) : List Byte :=
  mapI bs (fun i b => if b.pois then Config.freeByte s.freeCtr (va + i) else b.val)

/-- APPEND (R195). Its source is an engine read, and no lane traps: of a source that is not canonical
the manual states no byte, and the bytes appended are free values (log entry 28). -/
def execAppend (w : W0) (r : RRaw) (s : State) : Out :=
  let g := s.grp
  let n := (s.rdG r.b.toNat).toNat
  let a := s.rdG64 w.a.toNat
  let lk := logKey g.ctx r.c.toNat
  let done (s : State) (x : DWord) (p : Option (Nat × Nat)) : State :=
    (s.issueOp w.f { kind := .append, log := some (p.getD (lk, (s.log lk).order))
                     g := [{ key := w.d.toNat, val := lo32 x }, { key := w.d.toNat + 1, val := hi32 x }] }).cont
  .next (s.ordered false (
    if !s.guardW w then (s.issueOp w.f {}).cont
    else if n = 0 || 2 ^ 24 < n then done s (BitVec.allOnes 64) none
    else if (rangeBad a n).isSome then
      let (s, x, p) := s.appendBytes lk n ((List.range n).map (fun i => Config.freeByte s.freeCtr (2 ^ 100 + i)))
      done s x p
    else match s.engineRead g.ctx g.die (vaOf a) n (some g.core) with
      | (s, .error (c, va)) => s.parkFault c s.slot.act (BitVec.ofNat 64 va)
      | (s, .ok bs) =>
        let (s, x, p) := s.appendBytes lk n (s.openBytes (vaOf a) bs)
        done s x p))

/-- APSYNC (R197): it waits on the appends the group has made to the log. -/
def execApsync (w : W0) (r : RRaw) (s : State) : Out :=
  let lk := logKey s.grp.ctx r.c.toNat
  .next (s.ordered false (
    (s.issueOp w.f { kind := .apsync, log := if s.guardW w then some (lk, (s.log lk).order) else none }).cont))

/-- The group's appends to a log with a lower order number are durable (R197). -/
def State.appendsDone (s : State) (gk lk order : Nat) : Bool :=
  s.appends.all (fun e => !(e.2.live && e.2.grp = gk && e.2.log = lk && e.2.order < order))

/-- A byte of flash replaced: a line already held in an L2 keeps its contents (R198). -/
def State.flashByte (s : State) (pk : Nat) (b : Byte) : State :=
  let die := (pk - 2 ^ 64) / 2 ^ 48
  let d := s.die die
  let s := if d.flash.contains (pk / 128) && (d.flashOld.getD pk {}).mask = 0 then
      s.modDie die (fun d =>
        { d with flashOld := d.flashOld.set pk { val := s.memByte pk, mask := 0xFF } {} })
    else s
  s.setMemByte pk b

/-- APPEND DURABLE (R195, R197): an append's bytes reach the flash. -/
def execAppendDurable (req : Nat) (s : State) : Out :=
  let a := s.appends.getD req {}
  .next (if !a.live then s
    else
      let s := (mapI a.bytes (fun i b => (a.at_ + i, b))).foldl (fun s e => s.flashByte e.1 e.2) s
      s.setAppend req {})

end Sys2Proof.Machine
end

