-- ==== Sys2Proof/Machine/Commit.lean ====
section
/-!
DEFINITION. COMMIT, ABORT, FENCE, WBR, INVR and CSTAT, 0xA9 to 0xAD and 0xB0, and the movements of
the ladder that no instruction asks for: background drains, evictions, dropped lines (11_visibility
R224 to R254; 09_memory R162).
-/

namespace Sys2Proof.Machine

/-- The LVL field (R230). -/
def lvlOf (r : RRaw) : Nat := bitsOf r.m16.toNat 8 3

/-- A counted group-wide instruction of the ladder: its effect when its guard holds (R231). -/
def State.ladderExec (s : State) (w : W0) (eff : State → State)
    (o : State → PendOp := fun _ => { kind := .ladder }) : State :=
  if s.guardW w then (((eff s).issueOp w.f (o s))).cont else (s.issueOp w.f {}).cont

/-! COMMIT (R232 to R234). -/

/-- COMMIT (R232). -/
def execCommit (w : W0) (r : RRaw) (s : State) : Out :=
  .next (s.ladderExec w (fun s => s.commit s.cur (lvlOf r)))

/-- A sector holds, in a buffer, a byte that a sibling's commit or spill placed within the window
(R234). -/
def conflictIn (buf : List SecEntry) (me win : Nat) (sec : Nat) : Bool :=
  (secCells buf sec).any (fun e => e.2.mask ≠ 0 && e.2.by_ ≠ me && win < e.2.seq)

/-- The check of COMMIT.CHK fails (R234). -/
def State.chkConflict (s : State) (lvl : Nat) : Bool :=
  let g := s.grp
  let t := s.team g.team
  if lvl = 2 then g.gsb.any (fun e => conflictIn t.twb s.cur g.winTeam e.sec)
  else (g.gsb ++ t.twb).any (fun e =>
    conflictIn (s.cluster t.cluster).merge g.team g.winClus e.sec)

/-- COMMIT.CHK (R234): gp0 is written when the instruction completes. -/
def execCommitChk (w : W0) (r : RRaw) (s : State) : Out :=
  let bad := s.chkConflict (lvlOf r)
  .next (s.ladderExec w
    (fun s => if bad then (s.countGroup s.cur 8).modGrp (fun g => { g with csw := g.csw ||| cswCHKF })
      else s.commit s.cur (lvlOf r))
    (fun _ => { kind := .ladder, gp := some (0, !bad) }))

/-! ABORT (R235, R236). -/

/-- The aborted unit's horizon flag. -/
def State.abortHorizon (s : State) (lvl : Nat) : Bool :=
  let g := s.grp
  match lvl with
  | 1 => g.horizon
  | 2 => (s.team g.team).horizon
  | _ => (s.cluster (s.team g.team).cluster).horizon

/-- A team's write buffer discarded. -/
def State.dropTwb (s : State) (tk : Nat) : State := s.modTeam tk (fun t => { t with twb := [] })

/-- ABORTGEN advances in the teams that satisfy a test. -/
def State.bumpAbortGen (s : State) (p : Nat → Team → Bool) : State :=
  { s with teams := s.teams.mapV {} (fun k t =>
      if t.live && p k t then { t with abortGen := t.abortGen + 1 } else t) }

/-- The L1 copies on a die that took bytes from a cluster's merge area go when those bytes are
discarded: no later load returns them (R235). -/
def State.dropMerged (s : State) (die ck : Nat) : State :=
  { s with cores := s.cores.mapV {} (fun k c =>
      if k / 256 = die then { c with l1 := c.l1.filter (fun e => e.2.clus ≠ ck) } else c) }

/-- ABORT.lvl (R235, R236). -/
def State.abort (s : State) (lvl : Nat) : State :=
  let g := s.grp
  let ck := (s.team g.team).cluster
  let s := if s.abortHorizon lvl then
      s.modGrp (fun g => { g with csw := (g.csw &&& 0xF3) ||| cswPAB ||| BitVec.ofNat 32 (4 * lvl) })
    else s
  let s := { s with seq := s.seq + 1 }
  let n := s.seq
  let s := s.modGrp (fun g => { g with
    gsb := []
    horizon := if lvl = 1 then false else g.horizon
    winTeam := if 2 ≤ lvl then n else g.winTeam
    winClus := if lvl = 3 then n else g.winClus })
  match lvl with
  | 1 => s
  | 2 => ((s.dropTwb g.team).modTeam g.team (fun t => { t with horizon := false })).bumpAbortGen
      (fun k _ => k = g.team)
  | _ => (((s.dropTwb g.team).modCluster ck (fun c => { c with merge := [], horizon := false })).dropMerged
      g.die ck).bumpAbortGen (fun _ t => t.cluster = ck)

/-- ABORT (R235). -/
def execAbort (w : W0) (r : RRaw) (s : State) : Out :=
  .next (s.ladderExec w (fun s => s.abort (lvlOf r)) (fun _ => { kind := .abort }))

/-! FENCE (R247, R248). -/

/-- The parts of FENCE that it performs as it issues: release and the SC drain. -/
def State.fence (s : State) (ord lvl : Nat) (sc : Bool) : State :=
  let s := if 2 ≤ ord then s.releaseAt s.cur lvl else s
  if sc && 4 ≤ lvl then s.sendAll s.grp.die else s

/-- FENCE (R247): its release awaits what R241 names; its acquire is performed when it completes,
after the group's earlier loads. -/
def execFence (w : W0) (r : RRaw) (s : State) : Out :=
  let ord := bitsOf r.m16.toNat 6 2
  .next (if s.guardW w && (s.acquireOut s.cur || (2 ≤ ord && s.releaseWaits s.cur)) then s.holdIssue
    else s.ladderExec w (fun s => s.fence ord (lvlOf r) (r.m16.getLsbD 5))
      (fun _ => { kind := .fence, acq := if ord % 2 = 1 then some (lvlOf r) else none }))

/-! WBR and INVR (R245, R246). -/

/-- The lines of a range: the first address of each. -/
def rangeLines (va n : Nat) : List Nat :=
  (List.range ((va + n - 1) / 128 - va / 128 + 1)).map (fun i => (va / 128 + i) * 128)

/-- A line of a range sent to its home; at SYS its home writes it on (R245), and what a peer refuses sets
CSW.POIS (17_cold R389). -/
def State.wbrLine (s : State) (lvl : Nat) (x : Xl) : State :=
  let mine (pk : Nat) : Bool := pk / 128 = x.pk / 128
  let s := s.sendOrdered s.grp.die (x.pk / 128)
  if lvl = 5 && 2 ≤ x.attr.tier then
    let lost := (s.die x.attr.home).dirty.any (fun e => mine e.1 && !s.served .write e.1)
    let s := if lost then s.modGrp (fun g => { g with csw := g.csw ||| cswPOIS }) else s
    s.writeOn x.attr.home mine
  else s

/-- A line's copies dropped on a die (R246), and a Granary line's in its home's L2 (09_memory R198): the home's
from whatever die the INVR comes, the guest and L1 copies on the issuing die alone. R198 has every load give
the appended data, R246 leaves other dies' copies alone; that the home's line goes and those stay is the
model's reading of the two (log entry 67). -/
def State.invLine (s : State) (die : Nat) (x : Xl) : State :=
  let line := x.pk / 128
  let s := (s.sendOrdered die line).dropGuest die line
  let s := s.dropL1 (fun k => k / 256 = die) line
  if x.attr.tier = 1 then s.dropFlash x.attr.home line else s

/-- The first byte of a range in each of its lines. -/
def rangeAddrs (va n : Nat) : List Nat := (rangeLines va n).map (max va)

/-- `eff` on the line of each address, translated in turn as the issuing group's: the first fault
with its address; lines done before it stay done (R245). -/
def State.rangeGo (s : State) (ctx die : Nat) (eff : State → Xl → State) :
    List Nat → State × Option (Nat × Nat)
  | [] => (s, none)
  | va :: t =>
    match s.translate ctx die va .r (some s.grp.core) with
    | (s, .error c) => (s, some (c, va))
    | (s, .ok x) => (eff s x).rangeGo ctx die eff t

/-- A range instruction: the check of canonical form, then `eff` on each line (R245). -/
def State.rangeExec (s : State) (w : W0) (r : RRaw) (eff : State → Xl → State) : State :=
  let a := s.rdG64 w.a.toNat
  let n := (s.rdG r.b.toNat).toNat
  let g := s.grp
  if !s.guardW w || n = 0 then (s.issueOp w.f {}).cont
  else match rangeBad a n with
    | some bad => s.raiseSlot cBADA bad
    | none =>
      match s.rangeGo g.ctx g.die eff (rangeAddrs (vaOf a) n) with
      | (s, some (c, va)) => s.parkFault c s.slot.act (BitVec.ofNat 64 va)
      | (s, none) => (s.issueOp w.f { kind := .ladder }).cont

/-- WBR (R245). -/
def execWbr (w : W0) (r : RRaw) (s : State) : Out :=
  .next (s.rangeExec w r (fun s x => s.wbrLine (lvlOf r) x))

/-- INVR (R246). -/
def execInvr (w : W0) (r : RRaw) (s : State) : Out :=
  .next (s.rangeExec w r (fun s x => s.invLine s.grp.die x))

/-- CSTAT (R253): the word read and cleared, delivered when the instruction completes. -/
def execCstat (w : W0) (s : State) : Out :=
  let g := s.grp
  let val := if w.a = 0 then g.csw else g.memst
  .next (s.ladderExec w
    (fun s => s.modGrp (fun g => if w.a = 0 then { g with csw := 0 } else { g with memst := 0 }))
    (fun _ => { kind := .cstat, g := [{ key := w.d.toNat, val }] }))

/-! Movements of the ladder that no instruction asks for. -/

/-- BACKGROUND DRAIN (R242): a die sends some of its pending-home lines, in release order. -/
def execBackgroundDrain (die lines : Nat) (s : State) : Out :=
  .next (((s.pendLines die (fun _ x => !x.attr.swc)).take lines).foldl (fun s l => s.sendLine die l) s)

/-- GUEST EVICTION (R242, R243): a line leaves a die's L2. Where the cells that held it have failed for
good, a free choice, that place of the L2 is withdrawn, and the repair appended (17_cold R391): the manual
says neither when such a line is found nor how its record names it (log entry 68). -/
def execGuestEviction (die line : Nat) (s : State) : Out :=
  let s := s.evictLine die line
  .next (if !Config.freeBool s.freeCtr (2 ^ 73) || 2 ^ 21 ≤ (s.die die).withdrawn then s
    else
      let n := (s.die die).withdrawn
      (s.modDie die (fun d => { d with withdrawn := n + 1 })).appendRepair { type_ := 5, die, unit_ := n })

/-- L1 LINE DROP (09_memory R162). -/
def execL1LineDrop (core line : Nat) (s : State) : Out := .next (s.dropL1 (fun k => k = core) line)

end Sys2Proof.Machine
end

