-- ==== Sys2Proof/Machine/Complete.lean ====
section
/-!
DEFINITION. How outstanding operations complete: their order, what each performs and writes
(02_encoding R28 to R30; 09_memory R184, R191, R197; 11_visibility R239, R247, R253).
-/

namespace Sys2Proof.Machine

/-! Operations that complete (02_encoding R28 to R30). -/

/-- The bits of an outstanding word's destination. -/
def Group.landV (g : Group) (lc : Nat) (ws : List PendWord) : Group :=
  ws.foldl (fun g w =>
    let n := w.key / 32
    let m := maskOf (· = w.key % 32)
    let g := g.writeRow lc n m (fun _ => w.val)
    if w.pois then { g with vpois := g.vpois.set n (g.vpois.getD n 0 ||| m) 0 } else g) g

/-- What an operation writes when it completes, and its flag. -/
def Group.land (g : Group) (o : PendOp) : Group :=
  let g := g.landV o.lc o.v
  let g := o.g.foldl (fun g w => g.gput w.key w.val) g
  let g := match o.gp with | none => g | some (n, b) => g.gpput n b
  let g := { g with pend := g.pend.filter (fun p => p.id ≠ o.id) }
  match o.flag with | none => g | some f => g.setFlag f (g.flag f - 1)

/-- Errors armed at the words an operation writes are gone (15_system R358). -/
def State.disarmOp (s : State) (gk : Nat) (o : PendOp) : State :=
  o.v.foldl (fun s w => s.disarmReg gk (w.key / 32) (maskOf (· = w.key % 32))) s

/-- The predicate a completed operation has written reaches the commands guarded by it
(13_copy R287). -/
def State.settleGuards (s : State) (gk : Nat) (o : PendOp) : State :=
  match o.gp with
  | none => s
  | some (n, b) =>
    let val (guard : Option (Nat × Bool)) (old : Option Bool) : Option Bool :=
      match old, guard with
      | some x, _ => some x
      | none, some (k, neg) => if k = n then some (b != neg) else none
      | none, none => none
    { s with
      copies := s.copies.mapV {} (fun _ c =>
        if c.live && c.grp = gk then { c with gval := val c.guard c.gval } else c)
      mats := s.mats.mapV {} (fun _ c =>
        if c.live && c.grp = gk then { c with gval := val c.guard c.gval } else c) }

/-- An operation completes only after an earlier one of its group: a CSTAT after the instructions of
the ladder, an acquire fence after loads, scratchpad stores in order, an APSYNC after the appends to
its log (11_visibility R247, R253; 09_memory R184, R191, R197). -/
def PendOp.follows (o e : PendOp) : Bool :=
  match o.kind with
  | .cstat => e.kind = .ladder || e.kind = .abort
  | .fence => o.acq.isSome && (e.kind = .load || e.kind = .atomic)
  | .sts => e.kind = .sts
  | .apsync => e.kind = .append && o.log.isSome && e.log.map (·.1) = o.log.map (·.1)
  | _ => false

/-- Nothing that an outstanding operation must follow is outstanding before it, and what an APSYNC waits
for is durable (09_memory R197). -/
def State.mayComplete (s : State) (gk : Nat) (o : PendOp) : Bool :=
  o.ready && (((s.group gk).pend.takeWhile (fun e => e.id ≠ o.id)).all (fun e => !o.follows e))
    && (match o.kind, o.log with | .apsync, some (l, n) => s.appendsDone gk l n | _, _ => true)

/-- What an operation performs when it completes: a scratchpad store, an acquire (09_memory R191;
11_visibility R239). -/
def State.complete1 (s : State) (gk : Nat) (o : PendOp) : State :=
  let tk := (s.group gk).team
  let s := if o.kind = .sts && !o.sts.isEmpty && ((s.team tk).alloc o.sh).bound then
      s.setAlloc tk o.sh (s.afterSts tk gk o.sh ((s.team tk).alloc o.sh) [o])
    else s
  match o.acq with | none => s | some lvl => s.acquireAt gk lvl

/-- An outstanding operation completes: its effect, its results, its flag. -/
def State.landOp (s : State) (gk : Nat) (o : PendOp) : State :=
  let s := (s.complete1 gk o).disarmOp gk o
  (s.modGroup gk (fun g => g.land o)).settleGuards gk o

/-- The scratchpad stores of the issuing group to a handle completed, in order: what follows acts on
their bytes (09_memory R184). -/
def State.landSts (s : State) (h : Nat) : State :=
  (s.grp.pend.filter (fun o => o.kind = .sts && o.sh = h)).foldl (fun s o => s.landOp s.cur o) s

/-- The scratchpad stores of a team to a handle completed, its groups in turn: a store of a sibling that has
not completed is performed before an instruction that takes the allocation away or lays its elements out
anew. Of the orders that R213 allows the model takes that one (log entry 66). -/
def State.landTeamSts (s : State) (tk h : Nat) : State :=
  (s.groupsOf tk).foldl (fun s gk =>
    ((s.group gk).pend.filter (fun o => o.kind = .sts && o.sh = h)).foldl (fun s o => s.landOp gk o) s) s

/-- COMPLETION (02_encoding R28). A frozen core takes no reply (15_system R355). -/
def execCompletion (grp op : Nat) (s : State) : Out :=
  let g := s.group grp
  .next (match g.pend.find? (fun o => o.id = op) with
    | none => s
    | some o =>
      if !g.live || g.away || s.frozenAt g.die g.core || !s.mayComplete grp o then s
      else s.landOp grp o)

end Sys2Proof.Machine
end

