-- ==== Sys2Proof/Machine/Atomics.lean ====
section
/-!
DEFINITION. Atomics and the Millers: ATOM, CAS, RED, ATOMS and UATOM, 0xC0 to 0xC4, and the
performance of a Miller request (12_atomics_barriers R255 to R265).
-/

namespace Sys2Proof.Machine

/-! Operations (R257, R260). -/

/-- The operation works on 8 bytes. -/
def atWide (ty : Nat) : Bool := ty = 4 || ty = 9 || ty = 13
def atSize (ty : Nat) : Nat := if atWide ty then 8 else 4

/-- An operation on a 32-bit or 64-bit integer. -/
def atInt {w : Nat} (code : Nat) (signed : Bool) (old v v2 : BitVec w) : BitVec w :=
  match code with
  | 0 => old + v
  | 1 => minInt signed old v
  | 2 => maxInt signed old v
  | 3 => old &&& v
  | 4 => old ||| v
  | 5 => old ^^^ v
  | 6 => v
  | 7 => if v.ule old then 0 else old + 1
  | 8 => if old = 0 || v.ult old then v else old - 1
  | _ => if old = v then v2 else old

/-- ADD, MIN or MAX on a floating format (R260); XCHG. -/
def atFlt (f : FFmt) (code old v : Nat) : Nat :=
  match code with
  | 0 => (f.deliver 0 (sumNum 0 [f.decode old, f.decode v])).1
  | 1 => (f.minMax false old v).1
  | 2 => (f.minMax true old v).1
  | _ => v

/-- The new bytes of a lane operation (R260); code 10 is AMAX (R257). -/
def atNew (code ty : Nat) (old v v2 : DWord) : DWord :=
  if code = 10 then BitVec.ofNat 64 (f32.minMax true (lo32 old).toNat (lo32 v).toNat).1
  else if ty = 16 then BitVec.ofNat 64 (atFlt f32 code (lo32 old).toNat (lo32 v).toNat)
  else if ty = 19 then
    BitVec.ofNat 64 (atFlt bf16 code (old.toNat % 2 ^ 16) (v.toNat % 2 ^ 16)
      + 2 ^ 16 * atFlt bf16 code (old.toNat / 2 ^ 16 % 2 ^ 16) (v.toNat / 2 ^ 16 % 2 ^ 16))
  else if atWide ty then atInt code (ty ≠ 13) old v v2
  else (atInt code (ty ≠ 12) (lo32 old) (lo32 v) (lo32 v2)).setWidth 64

/-! Performance at the home L2 (R255, R257, R263). -/

/-- A request at SYS for a TIER 2 or 3 line is performed on the host's or the peer's memory itself, past
the home L2 (R255). -/
def MillReq.past (r : MillReq) : Bool := r.scope = 5 && 2 ≤ r.attr.tier

/-- The old bytes of a lane operation, where the operation is performed; those of a spill area have no
value the manual states (04_control R72). -/
def State.millOld (s : State) (r : MillReq) (l : LaneOp) : DWord :=
  let pks := (List.range (atSize r.ty)).map (l.at_ + ·)
  BitVec.ofNat 64 (vbytesNat (s.seen (l.lane + 1) pks (pks.map (fun pk =>
    if r.past then { val := s.memByte pk } else s.homeByte r.attr.home pk))))

/-- New bytes accepted at the home. -/
def State.homeStore (s : State) (attr : PAttr) (pk n : Nat) (x : DWord) : State :=
  s.acceptHome attr (pk / 16)
    (mapI (bytesLE n x.toNat) (fun i b => (pk % 16 + i, { val := b, mask := 0xFF, by_ := 0, seq := 0 })))

/-- A lane operation's new bytes written where it is performed (R255). -/
def State.millLane (s : State) (r : MillReq) (l : LaneOp) (new : DWord) : State :=
  let n := atSize r.ty
  if r.past then
    (mapI (bytesLE n new.toNat) (fun i b => (l.at_ + i, ({ val := b, mask := 0xFF } : BCell)))).foldl
      (fun s e => s.farWrite r.attr.home e.1 e.2) s
  else s.homeStore r.attr l.at_ n new

/-- What comes before a request is performed: the requesting die's pending bytes of the line go
home, the line's record is applied for an acquire (R263), and the home L2 has the line's bytes; the
event is counted (15_system R356). -/
def State.millBefore (s : State) (r : MillReq) (line : Nat) : State :=
  let s := if r.attr.swc then s else s.sendOrdered r.fromDie line
  let s := if r.acq && 4 ≤ r.scope then s.applyRecord r.attr.home line else s
  let s := (s.timeMsg r.fromDie r.attr.home).countDie r.attr.home 0x47 (some r.ctx) r.lanes.length
  let s := if r.past then s else
    (dedup (r.lanes.map (·.at_ / 16))).foldl (fun s sec => s.fillClean sec r.attr false) s
  match r.rel with
  | none => s
  | some n => if r.attr.swc then s else s.recordRelease r.attr.home line r.fromDie n

/-- What comes after: the reply invalidates the requester's clean copies (R263). -/
def State.millAfter (s : State) (r : MillReq) (line : Nat) : State :=
  ((s.dropGuest r.fromDie line).dropL1 (fun k => k = coreKey r.fromDie r.core) line).timeMsg
    r.attr.home r.fromDie

/-- The words a reply writes. -/
def replyWords (r : MillReq) (lane : Nat) (x : DWord) : List PendWord :=
  if !r.reply then []
  else { key := r.dest * 32 + lane, val := lo32 x } ::
    (if atWide r.ty then [{ key := (r.dest + 1) * 32 + lane, val := hi32 x }] else [])

/-- A reply reaches the group's outstanding operation: words to write, lanes of `gone` left
unwritten; with its last request the operation may complete (R261). -/
def State.millReply (s : State) (req : Nat) (ws : List PendWord) (gone : Word) : State :=
  let r := s.mill req
  let s := s.setMill req {}
  let last := !s.mills.any (fun e => e.2.live && e.2.op = r.op)
  s.modGroup r.grp (fun g => { g with pend := g.pend.map (fun o =>
    if o.id = r.op then { o with
      v := o.v ++ ws
      dst := o.dst.filter (fun k => !ws.any (fun w => w.key = k) && !inMask gone (k % 32))
      ready := last } else o) })

/-- The queue of a die without a request. -/
def State.unqueueMill (s : State) (die req : Nat) : State :=
  s.modDie die (fun d => { d with miller := d.miller.filter (· ≠ req) })

/-- The line of a request. -/
def MillReq.line (r : MillReq) : Nat := (r.lanes.headD {}).at_ / 128

/-- A request may be performed: no earlier entry of its queue names its line (R257). -/
def State.millReady (s : State) (die req : Nat) : Bool :=
  let q := (s.die die).miller
  q.contains req && (s.mill req).live
    && (q.takeWhile (· ≠ req)).all (fun k => (s.mill k).line ≠ (s.mill req).line)
    && !((s.millerCore die (s.mill req).line).any (s.frozenAt die))

/-- MILLER ATOMIC (R257, R263): the lane operations of one entry, in ascending lane order. -/
def execMillerAtomic (die req : Nat) (s : State) : Out :=
  let r := s.mill req
  .next (if !s.millReady die req || r.user then s
    else
      let s := (s.unqueueMill die req).millBefore r r.line
      let (s, ws) := r.lanes.foldl (fun (acc : State × List PendWord) l =>
        let s := acc.1
        let old := s.millOld r l
        (s.millLane r l (atNew r.code r.ty old l.v1 l.v2), acc.2 ++ replyWords r l.lane old)) (s, [])
      (s.millReply req ws 0).millAfter r r.line)

/-! The memory forms (R258 to R264). -/

/-- How a memory atomic works: its operation, its type, where the old value goes, and whether it is a
user operation. -/
structure AtomKind where
  code : Nat := 0
  ty : Nat := 0
  user : Bool := false
  reply : Bool := true
  /-- The second operand's first register is at this distance, or there is none. -/
  second : Option Nat := none
deriving DecidableEq, Repr

/-- PCIe AtomicOps carry the operation (R264). -/
def pcieCarries (k : AtomKind) : Bool :=
  !k.user && (match k.code with
    | 0 => [0, 8, 9, 12, 13].contains k.ty
    | 6 => k.ty ≠ 19
    | 9 => true
    | _ => false)

/-- The data registers an atomic reads. -/
def atomRegs (w : W0) (k : AtomKind) : List Nat :=
  let n := atSize k.ty / 4 * (if k.second.isSome then 2 else 1)
  (List.range n).map (fun i => w.d.toNat + i)

/-- An operand of a lane. -/
def State.atomArg (s : State) (n ty L : Nat) : DWord :=
  if atWide ty then s.rd64 n L else (s.rd n L).setWidth 64

def State.atomV2 (s : State) (w : W0) (k : AtomKind) (L : Nat) : DWord :=
  match k.second with | none => 0 | some d => s.atomArg (w.d.toNat + d) k.ty L

/-- A TEAM-scope atomic of one lane: old bytes from the team's view, new bytes into the team write
buffer (R262). -/
def State.teamLane (s : State) (k : AtomKind) (a : LaneAcc) (v v2 : DWord) : State × DWord :=
  let gk := s.cur
  let places := a.vas.map a.x.at_
  let (s, bs) := s.loadBytes gk { scope := 2 } places
  let old : DWord := BitVec.ofNat 64 (vbytesNat (s.seen (a.lane + 1) (places.map (·.pk)) bs))
  let new := bytesLE (atSize k.ty) (atNew k.code k.ty old v v2).toNat
  let s := { s with seq := s.seq + 1 }
  let cells := mapI new (fun i b => (a.x.pk % 16 + i, ({ val := b, mask := 0xFF, by_ := gk, seq := s.seq, wr := gk } : BCell)))
  (s.twbAdd s.grp.team { sec := a.x.pk / 16, attr := a.x.attr, cells }, old)

/-- The requests of an instruction: one for each line, its lanes in ascending order (R257). -/
def State.sendMills (s : State) (base : MillReq) (ops : List (PAttr × LaneOp)) : State :=
  let lines := dedup (ops.map (fun o => o.2.at_ / 128))
  lines.foldl (fun s line =>
    let mine := ops.filter (fun o => o.2.at_ / 128 = line)
    let attr := (mine.headD ({}, {})).1
    let (id, s) := s.fresh
    let r : MillReq := { base with live := true, attr, lanes := mine.map (·.2) }
    (s.setMill id r).modDie attr.home (fun d => { d with miller := d.miller ++ [id] })) s

/-- The sectors of accesses, as entries that hold no byte yet. -/
def accSecs (accs : List LaneAcc) : List SecEntry :=
  (dedup (accs.map (fun a => a.x.pk / 16))).filterMap (fun n =>
    (accs.find? (fun a => a.x.pk / 16 = n)).map (fun a => { sec := n, attr := a.x.attr }))

/-- An earlier atomic of a group on bytes of some accesses waits in a Miller's queue: two atomics of one
group on the same bytes are performed in issue order (R261). -/
def State.atomBehind (s : State) (gk size : Nat) (accs : List LaneAcc) : Bool :=
  s.mills.any (fun e => e.2.live && e.2.grp = gk && e.2.lanes.any (fun l =>
    accs.any (fun a => l.at_ < a.x.pk + size && a.x.pk < l.at_ + atSize e.2.ty)))

/-- A memory atomic performed or sent for the lanes that pass (R260 to R263). -/
def State.performAtom (s : State) (w : W0) (m : MemF) (k : AtomKind) (src : State)
    (ts : List LaneTrap) (accs : List LaneAcc) : State :=
  let scope := memScope m 4
  let act := ts.isEmpty || !accs.isEmpty
  let acq : Option Nat := if memAcq m then some scope else none
  let s := if memRel m && act then s.releaseAt s.cur scope else s
  let v (L : Nat) : DWord := src.atomArg w.d.toNat k.ty L
  let v2 (L : Nat) : DWord := src.atomV2 w k L
  if scope = 2 && s.atomBehind s.cur (atSize k.ty) accs then src.holdIssue
  else if scope = 2 then
    let s := s.carry s.cur 2 false (accSecs accs)
    let (s, olds) := accs.foldl (fun (acc : State × List (Nat × DWord)) a =>
      let (s, old) := acc.1.teamLane k a (v a.lane) (v2 a.lane)
      (s, acc.2 ++ [(a.lane, old)])) (s, [])
    let r : MillReq := { reply := k.reply, dest := w.d.toNat, ty := k.ty }
    let ws := olds.flatMap (fun o => replyWords r o.1 o.2)
    s.finishCounted w.f ts (!accs.isEmpty) { kind := .atomic, acq, v := ws }
  else if accs.isEmpty then s.finishCounted w.f ts false { kind := .atomic, acq }
  else
    let far := fun (a : LaneAcc) => scope = 5 && 2 ≤ a.x.attr.tier
    let s := s.carry s.cur 4 false (accSecs (accs.filter (fun a => !far a))) true
    let s := s.carry s.cur 5 false (accSecs (accs.filter far)) true
    let g := s.grp
    let base : MillReq := {
      grp := s.cur, op := s.nextId, ctx := g.ctx, fromDie := g.die, core := g.core, code := k.code
      ty := k.ty, user := k.user, reply := k.reply, dest := w.d.toNat, scope, acq := memAcq m
      rel := if memRel m && 4 ≤ scope then some (s.die g.die).relSeq else none
      frag := if k.user then s.uops.getD (g.ctx * 16 + k.code) {} else {}
      slotB := s.curB, pc := s.slot.pc, ins := s.slot.ins, word := s.lat.word }
    let keys := accs.flatMap (fun a => (replyWords base a.lane 0).map (·.key))
    let s := s.issueOp w.f { kind := .atomic, acq, ready := false, dst := keys }
    let s := s.sendMills base (accs.map (fun a =>
      (a.x.attr, { lane := a.lane, at_ := a.x.pk, v1 := v a.lane, v2 := v2 a.lane })))
    s.finish ts

/-- A lane's target is poisoned: a byte of it where the atomic is performed, or its line (09_memory R175;
17_cold R389 for a peer that does not serve the atomic). -/
def State.atomPois (s : State) (scope : Nat) (a : LaneAcc) : Bool :=
  s.linePois a.x.attr.home a.x.pk
  || (if scope = 2 then anyPois (s.loadBytes s.cur { scope := 2 } (a.vas.map a.x.at_)).2
      else if scope = 5 && 2 ≤ a.x.attr.tier then !s.served .atomic a.x.pk
      else a.vas.any (fun va => (s.homeByte a.x.attr.home (a.x.at_ va).pk).pois))

/-- The checks that an atomic adds after the range lock: ATYP, then the poison of its target
(R260, R264; 09_memory R175). -/
def State.atomTraps (s : State) (m : MemF) (k : AtomKind) (accs : List LaneAcc) : List LaneTrap :=
  accs.filterMap (fun a =>
    if memScope m 4 = 5 && a.x.attr.tier = 2 && !pcieCarries k then some { lane := a.lane, cause := cATYP }
    else if s.atomPois (memScope m 4) a then some { lane := a.lane, cause := cPOIS }
    else none)

/-- ATOM, CAS, RED and UATOM (R260). -/
def State.atomic (s : State) (w : W0) (m : MemF) (k : AtomKind) : State :=
  let size := atSize k.ty
  let addr := s.laneAddr w m false size
  let ma : MemF := { m with ty := if size = 8 then 4 else 3 }
  s.ordered (memRel m) (s.laneAccess (s.activeW w) ma .rw (addrRegs w m false ++ atomRegs w k) addr
    (fun L => misaligned (addr L) size)
    (fun s' ts accs =>
      let s' := accs.foldl (fun s a => s.meetHome a.x.attr.home (a.x.pk / 16)) s'
      let bad := (s'.atomTraps m k accs).map (fun t => { t with addr := addr t.lane })
      s'.performAtom w m k s (ts ++ bad)
        (accs.filter (fun a => !bad.any (fun t => t.lane = a.lane)))))

/-- The operation code OP (R258). -/
def atomOp (m : MemF) : Nat := 4 * m.hnt.toNat + m.opx.toNat

/-- ATOM (R260). -/
def execAtom (w : W0) (m : MemF) (s : State) : Out :=
  .next (s.atomic w m { code := atomOp m, ty := m.ty.toNat })

/-- CAS (R260). -/
def execCas (w : W0) (m : MemF) (s : State) : Out :=
  .next (s.atomic w m { code := 9, ty := m.ty.toNat, second := some (atSize m.ty.toNat / 4) })

/-- RED (R260). -/
def execRed (w : W0) (m : MemF) (s : State) : Out :=
  .next (s.atomic w m { code := atomOp m, ty := m.ty.toNat, reply := false })

/-- UATOM (R266). -/
def execUatom (w : W0) (m : MemF) (s : State) : Out :=
  .next (s.atomic w m
    { code := atomOp m, ty := m.ty.toNat, user := true, second := some (atSize m.ty.toNat / 4) })

/-! ATOMS (R260). -/

/-- One lane of ATOMS: the allocation afterwards, the old value, MEMST bits, or its trap. -/
def State.atomsLane (s : State) (h : Nat) (k : AtomKind) (a : Alloc) (o : Nat) (v v2 : DWord) :
    Except Nat (Alloc × DWord × Word) :=
  let size := atSize k.ty
  let x := a.laneAt false size true 0 o
  let lc := s.issueClock a
  let r := a.read lc x.offs
  if x.gap then .ok (a, 0, x.memst)
  else if s.spadLocked s.cur h true x.offs then .error cRLK
  else if a.cls = 2 && r.expired then .error cERX
  else if r.pois then .error cPOIS
  else
    let old : DWord := BitVec.ofNat 64 (natLE r.bytes)
    let new := bytesLE size (atNew k.code k.ty old v v2).toNat
    .ok (a.write lc (spadRun (x.offs.headD 0) new), old,
      x.memst ||| (if r.expired then memstLAPSE else 0))

/-- ATOMS (R260). -/
def execAtoms (w : W0) (m : MemF) (s : State) : Out :=
  let h := w.a.toNat
  let s := s.landSts h
  let op := atomOp m
  let k : AtomKind := { code := op, ty := m.ty.toNat
                        second := if op = 9 then some (atSize m.ty.toNat / 4) else none }
  let a := (s.team s.grp.team).alloc h
  let ma : MemF := { m with ty := if atWide k.ty then 4 else 3 }
  let (s1, ts, ok) := s.readSources (s.activeW w) (fun _ => spadRegs m ++ atomRegs w k)
  let r : MillReq := { dest := w.d.toNat, ty := k.ty }
  .next (s.ordered false (
    if !a.bound then
      (if ok = 0 then s1 else s1.setMemst memstSPNH).finishCounted w.f ts (ok ≠ 0)
        { kind := .atomic, v := (lanesOf ok).flatMap (fun L => replyWords r L 0) }
    else
      let (a', bad, olds, bits) := (lanesOf ok).foldl
        (fun (acc : Alloc × List LaneTrap × List (Nat × DWord) × Word) L =>
          match s1.atomsLane h k acc.1 (s.spadOff ma a L) (s.atomArg w.d.toNat k.ty L)
              (s.atomV2 w k L) with
          | .error c => (acc.1, acc.2.1 ++ [{ lane := L, cause := c }], acc.2.2)
          | .ok (a, old, b) => (a, acc.2.1, acc.2.2.1 ++ [(L, old)], acc.2.2.2 ||| b))
        (a, [], [], 0)
      let s1 := (s1.setAlloc s.grp.team h a').setMemst bits
      s1.finishCounted w.f (ts ++ bad) (!olds.isEmpty)
        { kind := .atomic, v := olds.flatMap (fun o => replyWords r o.1 o.2) }))

end Sys2Proof.Machine
end

