-- ==== Sys2Proof/Machine/LaunchRec.lean ====
section
/-!
DEFINITION. The fields of a launch record (15_system R331), and positions within a cluster
(01_machine R14).
-/

namespace Sys2Proof.Machine

def Launch.w (l : Launch) (n : Nat) : Word := l.rec_.getD n 0
/-- Bits of a word of the record. -/
def Launch.f (l : Launch) (n lo wd : Nat) : Nat := bitsOf (l.w n).toNat lo wd
def Launch.f64 (l : Launch) (n : Nat) : DWord := pair (l.w n) (l.w (n + 1))

def Launch.codeObj (l : Launch) : Nat := l.f 1 0 16
def Launch.gridX (l : Launch) : Nat := (l.w 2).toNat
def Launch.gridY (l : Launch) : Nat := l.f 3 16 16
def Launch.gridZ (l : Launch) : Nat := l.f 3 0 16
/-- Teams in the grid. -/
def Launch.teams (l : Launch) : Nat := l.gridX * l.gridY * l.gridZ
def Launch.fpte (l : Launch) : Nat := l.f 4 21 5
def Launch.rcl (l : Launch) : Bool := (l.w 4).getLsbD 20
def Launch.count (l : Launch) : Bool := (l.w 4).getLsbD 19
/-- The launch has an item queue. -/
def Launch.items (l : Launch) : Bool := (l.w 4).getLsbD 18
def Launch.nacc (l : Launch) : Nat := l.f 4 14 4
def Launch.yoke (l : Launch) : Bool := (l.w 4).getLsbD 13
def Launch.clh (l : Launch) : Nat := l.f 4 9 4
def Launch.clw (l : Launch) : Nat := l.f 4 5 4
def Launch.area (l : Launch) : Nat := l.clw * l.clh
/-- Groups per team. -/
def Launch.ngrp (l : Launch) : Nat := l.f 4 0 5 + 1
/-- Team write buffer quota in sectors (11_visibility R226). -/
def Launch.quota (l : Launch) : Nat := if l.f 5 8 8 = 0 then 512 else 64 * l.f 5 8 8
/-- GSB depth in sectors. -/
def Launch.gsb (l : Launch) : Nat := 16 * 2 ^ l.f 5 5 2
/-- Lane registers. -/
def Launch.nreg (l : Launch) : Nat := 8 * (l.f 5 0 5 + 1)
def Launch.lanes (l : Launch) : Nat := (l.w 15).toNat
def Launch.dep (l : Launch) : Bool := (l.w 22).getLsbD 26
/-- Clusters of the grid. -/
def Launch.clusters (l : Launch) : Nat := (l.teams + l.area - 1) / l.area

/-- A position of a cluster that holds a team of the grid (R14). -/
def State.clusterHas (s : State) (ck idx : Nat) : Bool :=
  let c := s.cluster ck
  idx < c.w * c.h && c.idx * (c.w * c.h) + idx < (s.launch c.launch).teams

/-- The team at a cluster-relative index, while it lives. -/
def State.clusterTeam (s : State) (ck idx : Nat) : Option Nat :=
  let c := s.cluster ck
  s.teams.findIdx? (fun _ t => t.live && t.cluster = ck && t.py * c.w + t.px = idx)

end Sys2Proof.Machine
end

