-- ==== Sys2Proof/Machine/Barriers.lean ====
section
/-!
DEFINITION. Barrier objects, the barrier instructions, chunk tests and TIME, 0xC5 to 0xCB, and
arrivals on their way to other teams (12_atomics_barriers R267 to R278).
-/

namespace Sys2Proof.Machine

/-- A barrier object (R267). -/
structure BarObj where
  phase : Nat := 0
  atgt : Nat := 0
  bovf : Bool := false
  aovf : Bool := false
  scl : Bool := false
  acnt : Nat := 0
  btgt : Nat := 0
  bcnt : Nat := 0
deriving DecidableEq, Repr

/-- The object 16 bytes spell. -/
def BarObj.ofBytes (bs : List Byte) : BarObj :=
  let n := natLE bs
  { phase := bitsOf n 16 16, atgt := bitsOf n 0 16, bovf := n.testBit 50, aovf := n.testBit 49
    scl := n.testBit 48, acnt := bitsOf n 32 16, btgt := bitsOf n 64 32, bcnt := bitsOf n 96 32 }

/-- The bytes of an object. -/
def BarObj.bytes (b : BarObj) : List Byte :=
  bytesLE 16 (b.atgt + b.phase * 2 ^ 16 + b.acnt * 2 ^ 32 + (if b.scl then 2 ^ 48 else 0)
    + (if b.aovf then 2 ^ 49 else 0) + (if b.bovf then 2 ^ 50 else 0) + b.btgt * 2 ^ 64
    + b.bcnt * 2 ^ 96)

/-- Check (R268). -/
def BarObj.check (b : BarObj) : BarObj :=
  let tgt := max b.atgt 1
  if tgt ≤ b.acnt && b.btgt ≤ b.bcnt then
    { b with aovf := b.aovf || tgt < b.acnt, bovf := b.bovf || b.btgt < b.bcnt
             phase := (b.phase + 1) % 2 ^ 16, acnt := 0, bcnt := 0, btgt := 0 }
  else b

/-- Arrive (R268). -/
def BarObj.arrive (b : BarObj) (na nb : Nat) : BarObj :=
  { b with acnt := min (b.acnt + na) 0xFFFF, bcnt := min (b.bcnt + nb) 0xFFFFFFFF }.check

/-- BEXP's step (R271). -/
def BarObj.expect (b : BarObj) (n : Nat) : BarObj :=
  { b with btgt := min (b.btgt + n) 0xFFFFFFFF }.check

/-- Phase `n` has passed (R269). -/
def BarObj.passed (b : BarObj) (n : Nat) : Bool :=
  let d := (b.phase + 2 ^ 16 - n % 2 ^ 16) % 2 ^ 16
  1 ≤ d && d ≤ 2 ^ 15

/-! Objects in scratchpad. -/

/-- The MEMST bit of an object that is not there (R270). -/
def Alloc.missing (a : Alloc) (o n : Nat) : Word :=
  if !a.bound then memstSPNH else if a.size < o + n then memstSPGAP else 0

/-- The place of an object or of a bitmap word: its index times a unit, wrapped (R270). -/
def Alloc.objAt (a : Alloc) (unit_ c : Nat) : Nat := unit_ * c % a.z2

/-- The object at an offset, expired words as zero. -/
def Alloc.barrier (a : Alloc) (lc o : Nat) : BarObj :=
  BarObj.ofBytes (a.read lc ((List.range 16).map (fun i => o + i))).bytes

/-- An object updated: `words` are those the update writes, all four when a phase completes
(R267). -/
def Alloc.barUpdate (a : Alloc) (lc o : Nat) (words : List Nat) (f : BarObj → BarObj) : Alloc :=
  let old := a.barrier lc o
  let new := f old
  let ws := if new.phase ≠ old.phase then [0, 1, 2, 3] else words
  a.write lc (ws.flatMap (fun k => spadRun (o + 4 * k) ((new.bytes.drop (4 * k)).take 4)))

/-- Some word of an object is expired. -/
def Alloc.barExpired (a : Alloc) (lc o : Nat) : Bool :=
  (a.read lc ((List.range 16).map (fun i => o + i))).expired

/-- A live group's MEMST bits set. -/
def State.noteMemst (s : State) (gk : Nat) (bits : Word) : State :=
  if (s.group gk).live && bits ≠ 0 then s.modGroup gk (fun g => { g with memst := g.memst ||| bits })
  else s

/-- An arrival or a byte count performed on a team's object, for the group `gk` (R268, R275). -/
def State.arriveAt (s : State) (gk tk h o na nb : Nat) (issuer : Option (Nat × Nat)) : State :=
  if ((s.team tk).alloc h).missing o 16 ≠ 0 then s
  else
    let lc := s.allocClock tk ((s.team tk).alloc h) issuer
    let (s, a) := (s.meetSpad tk h lc ((List.range 16).map (o + ·))).allocNow tk h o 16
    let s := if a.barExpired lc o then s.noteMemst gk memstLAPSE else s
    s.putSpad tk h (a.barUpdate lc o [1, 3] (fun b => b.arrive na nb)) ((List.range 16).map (o + ·))

/-! Instructions. -/

/-- A barrier instruction on an object that exists, or the MEMST bit of one that does not. -/
def State.withObj (s : State) (w : W0) (r : RRaw) (unit_ n : Nat) (k : Alloc → Nat → State)
    (miss : State) : State :=
  let a := (s.team s.grp.team).alloc w.a.toNat
  let o := a.objAt unit_ r.c.toNat
  if a.missing o n ≠ 0 then miss.setMemst (a.missing o n) else k a o

/-- BINIT (R271). -/
def execBinit (w : W0) (r : RRaw) (s : State) : Out :=
  let s := s.landSts w.a.toNat
  let atgt := (s.rdG r.b.toNat).toNat % 2 ^ 16
  let scl := r.m16.getLsbD 0
  .next (if !s.guardW w then s.cont
    else s.ordered false (s.withObj w r 16 16 (fun a o =>
      s.setAlloc s.grp.team w.a.toNat (a.barUpdate (s.issueClock a) o [0, 1, 2, 3]
        (fun _ => { atgt := atgt, scl := scl }))) s).cont)

/-- The count of BARV (R272). -/
def State.barvCount (s : State) (w : W0) (r : RRaw) : Nat :=
  if r.m16.getLsbD 9 then bitsOf r.m16.toNat 0 8 else (s.rdG w.d.toNat).toNat % 2 ^ 16

/-- A remote arrival sent to the team at a cluster position (R272). -/
def State.sendArrival (s : State) (w : W0) (r : RRaw) (peer na : Nat) : State :=
  let g := s.grp
  let ck := (s.team g.team).cluster
  match (if s.clusterHas ck peer then s.clusterTeam ck peer else none) with
  | none =>
    let s := if s.clusterHas ck peer then s else s.setMemst memstSPNH
    (s.issueOp w.f { kind := .barrier }).cont
  | some tk =>
    let op := s.nextId
    let s := s.issueOp w.f { kind := .barrier, ready := false }
    let (id, s) := s.fresh
    let x : Arrival := { live := true, team := tk, handle := w.a.toNat, off := 16 * r.c.toNat
                         lc := s.lat.lc, na, grp := s.cur, op }
    (s.setArrival id x).cont

/-- BARV (R272). -/
def execBarv (w : W0) (r : RRaw) (s : State) : Out :=
  let s := s.landSts w.a.toNat
  let m := s.activeW w
  let rmt := r.m16.getLsbD 15
  let na := (lanesOf m).length * s.barvCount w r
  let peer := if r.m16.getLsbD 14 then (s.rdG r.b.toNat).toNat % 16 else bitsOf r.m16.toNat 10 4
  let s1 := s.releaseAt s.cur (if rmt then 3 else 2)
  .next (s.ordered true (
    if na = 0 then (s1.issueOp w.f { kind := .barrier }).cont
    else if rmt then s1.sendArrival w r peer na
    else
      ((s1.withObj w r 16 16 (fun _ o =>
        s1.arriveAt s.cur s.grp.team w.a.toNat o na 0 (some (s.cur, s.lat.lc))) s1).issueOp w.f
          { kind := .barrier }).cont))

/-- The phase operand of BWAIT and BTEST. -/
def State.phaseArg (s : State) (r : RRaw) : Nat :=
  if r.m16.getLsbD 15 then bitsOf r.m16.toNat 0 15 else (s.rdG r.b.toNat).toNat % 2 ^ 16

/-- The object BWAIT and BTEST read: zeros where there is none (R270). -/
def State.barRead (s : State) (w : W0) (r : RRaw) : State × BarObj :=
  let a := (s.team s.grp.team).alloc w.a.toNat
  let o := a.objAt 16 r.c.toNat
  if a.missing o 16 ≠ 0 then (s.setMemst (a.missing o 16), {}) else (s, a.barrier (s.issueClock a) o)

/-- BWAIT (R273): while it waits, what its reads of the object set stays set. -/
def execBwait (w : W0) (r : RRaw) (s : State) : Out :=
  let s := s.landSts w.a.toNat
  let (s1, b) := s.barRead w r
  .next (if !s.guardW w then s.cont
    else if b.passed (s.phaseArg r) then
      s.ordered false (s1.acquireAt s.cur (if b.scl then 3 else 2)).cont
    else s1.holdIssue)

/-- BTEST (R273). -/
def execBtest (w : W0) (r : RRaw) (s : State) : Out :=
  let s := s.landSts w.a.toNat
  let (s1, b) := s.barRead w r
  .next (if !s.guardW w then s.cont
    else s.ordered false
      ((s1.acquireAt s.cur (if b.scl then 3 else 2)).wrGP w.d.toNat (b.passed (s.phaseArg r))).cont)

/-- BEXP (R271). -/
def execBexp (w : W0) (r : RRaw) (s : State) : Out :=
  let s := s.landSts w.a.toNat
  let n := (s.rdG r.b.toNat).toNat
  .next (if !s.guardW w then s.cont
    else s.ordered false (s.withObj w r 16 16 (fun a o =>
      let lc := s.issueClock a
      let s := if a.barExpired lc o then s.setMemst memstLAPSE else s
      s.setAlloc s.grp.team w.a.toNat (a.barUpdate lc o [2] (fun b => b.expect n))) s).cont)

/-- CHKT (R274). -/
def execChkt (w : W0) (r : RRaw) (s : State) : Out :=
  let s := s.landSts w.a.toNat
  let a := (s.team s.grp.team).alloc w.a.toNat
  let o := a.objAt 4 r.c.toNat
  let miss := a.missing o 4
  let x := a.read (s.issueClock a) ((List.range 4).map (fun i => o + i))
  let v : Word := if miss ≠ 0 then 0 else BitVec.ofNat 32 (natLE x.bytes)
  let mask := s.rdG r.b.toNat
  let bits : Word := if miss ≠ 0 then miss else if x.expired then memstLAPSE else 0
  .next (if !s.guardW w then s.cont
    else s.ordered false (((s.setMemst bits).wrGP w.d.toNat
      (if r.m16.getLsbD 0 then decide (v &&& mask ≠ 0) else decide (v &&& mask = mask))).cont))

/-- TIME (R276). -/
def execTime (w : W0) (s : State) : Out :=
  .next (s.ordered false (s.groupExec w (fun s =>
    s.wrG64 w.d.toNat (BitVec.ofNat 64 (s.dieTime s.grp.die)))))

/-! Arrivals on their way (R272, R275). -/

/-- The object of an arrival, as an offset of its allocation. -/
def State.arrivalAt (s : State) (x : Arrival) : Nat := x.off % ((s.team x.team).alloc x.handle).z2

/-- An arrival performed, and its BARV complete; a count of bytes has no issuer's clock. -/
def State.performArrival (s : State) (req : Nat) : State :=
  let x := s.arrival req
  let s := s.setArrival req {}
  let t := s.team x.team
  let a := t.alloc x.handle
  let o := s.arrivalAt x
  let s := if t.live then (s.noteMemst x.grp (a.missing o 16)).arriveAt x.grp x.team x.handle o x.na x.nb
      (if x.barw then none else some (x.grp, x.lc))
    else s
  s.modGroup x.grp (fun g => { g with pend := g.pend.map (fun o =>
    if o.id = x.op then { o with ready := true } else o) })

/-- REMOTE ARRIVAL (R272): at a team on its core. -/
def execRemoteArrival (req : Nat) (s : State) : Out :=
  let x := s.arrival req
  let t := s.team x.team
  .next (if x.live && !t.away && !s.frozenAt t.die t.core then s.performArrival req else s)

/-- BARW (R275): at the saved object of a team that is swapped out, unless the Miller's core is frozen. -/
def execBarw (req : Nat) (s : State) : Out :=
  let x := s.arrival req
  .next (if x.live && (s.team x.team).away && !s.savedFrozen x.team x.handle (s.arrivalAt x) then s.performArrival req else s)

end Sys2Proof.Machine
end

