-- ==== Sys2Proof/Machine/Engine.lean ====
section
/-!
DEFINITION. What the block-transfer engine and the matrix drain share: engine faults and the
fault-buffer entries they take, guards resolved after issue, commands that complete (13_copy R286,
R287, R291; 09_memory R177; 15_system R348).
-/

namespace Sys2Proof.Machine

/-- A fault of an engine command: whose it is, which chunk, and what the fault queue says of it. -/
structure EngFault where
  core : Nat := 0
  matrix : Bool := false
  grp : Nat := 0
  ctx : Nat := 0
  cmd : Nat := 0
  chunk : Nat := 0
  cause : Nat := 0
  addr : DWord := 0
  /-- Engine kind and tag, or tile (R348). -/
  w2 : Word := 0
  word : Nat := 0
deriving DecidableEq, Repr

/-- The entry reserved for a chunk (R177). -/
def Core.reservedChunk (c : Core) (matrix : Bool) (cmd chunk : Nat) : Option Nat :=
  c.faults.findIdx? (fun _ e => e.used && e.reserved && e.engine && e.matrix = matrix
    && e.cmd = cmd && e.chunk = chunk)

/-- The target word of a fault-buffer entry: scope 3 of R349. -/
def entryTarget (core i : Nat) : Word :=
  BitVec.ofNat 32 (3 * 2 ^ 30 + core / 256 * 2 ^ 18 + core % 256 * 2 ^ 11 + i)

/-- An engine fault takes a fault-buffer entry and is reported, or waits for one (R291). -/
def State.engineFault (s : State) (f : EngFault) : State :=
  let c := s.coreAt f.core
  let slot := match c.reservedChunk f.matrix f.cmd f.chunk with
    | some i => some i
    | none => if c.waiters.isEmpty then c.freeEntry else none
  match slot with
  | none =>
    let w : Waiter := { engine := true, matrix := f.matrix, grp := f.grp, cmd := f.cmd, chunk := f.chunk }
    if c.waiters.contains w then s else s.setCore f.core { c with waiters := c.waiters ++ [w] }
  | some i =>
    let e : FaultEnt := { used := true, engine := true, matrix := f.matrix, grp := f.grp, cmd := f.cmd
                          chunk := f.chunk, cause := f.cause, addr := f.addr, word := f.word }
    let s := s.setCore f.core { c with faults := c.faults.set i e {} }
    State.timeMsg { s with faultQ := s.faultQ ++ [faultEntry f.cause true false f.ctx (entryTarget f.core i)
        f.w2 (BitVec.ofNat 32 f.word) f.addr (s.dieTime (f.core / 256))] } (f.core / 256) commons

/-- A reservation that a chunk did not need is released. -/
def State.releaseChunk (s : State) (core : Nat) (matrix : Bool) (cmd chunk : Nat) : State :=
  match (s.coreAt core).reservedChunk matrix cmd chunk with
  | none => s
  | some i => s.modCore core (fun c => (c.freeFault i).reserve)

/-- A chunk may be performed: it is not waiting, or an entry is reserved for it. -/
def State.chunkFree (s : State) (core : Nat) (matrix : Bool) (cmd chunk : Nat) (paused : List Nat) :
    Bool :=
  !paused.contains chunk || ((s.coreAt core).reservedChunk matrix cmd chunk).isSome

/-- TNP and GROW pause an engine; every other cause is an error (R291). -/
def engPauses (cause : Nat) : Bool := cause = cTNP || cause = cGROW

/-- An outstanding operation of a group has nothing left to wait for. -/
def State.opReady (s : State) (gk op : Nat) : State :=
  s.modGroup gk (fun g => { g with pend := g.pend.map (fun o =>
    if o.id = op then { o with ready := true } else o) })

/-- COMMIT, FENCE, WBR and INVR, and the accesses of a group to scratchpad and by atomics, which a command
may not overtake (R286, 14_matrix R304). -/
def ladderKinds : List OpKind := [.ladder, .fence]
def accessKinds : List OpKind := [.sts, .atomic, .barrier]

/-- The group's outstanding operations of some kinds. -/
def Group.openOps (g : Group) (ks : List OpKind) : List Nat :=
  (g.pend.filter (fun o => ks.contains o.kind)).map (·.id)

/-- An operation of a group is still outstanding. -/
def State.opOpen (s : State) (gk op : Nat) : Bool := (s.group gk).pend.any (fun o => o.id = op)

/-- A queued command's guard: unresolved while its predicate is pending (R287, 02_encoding R30). -/
def State.pendingGuard (s : State) (w : W0) : Option (Nat × Bool) :=
  let n := w.g.toNat - 12
  if s.grp.gpPending n then some (n, w.n) else none

/-- The locks a command holds on its core released. -/
def State.unlock (s : State) (core owner : Nat) (p : LockRange → Bool := fun _ => true) : State :=
  s.modCore core (fun c => { c with locks := c.locks.filter (fun r => !(r.owner = owner && p r)) })

/-- Runs of bytes as an engine of a core reads them from a context's memory at DEV, through the Sieve or
not: a cause with its address, or the bytes (R289, R290). -/
def State.engBytes (s : State) (ctx die core : Nat) (a : DWord) (n : Nat) (sieve : Bool := false) :
    State × Except (Nat × DWord) (List VByte) :=
  match (if n = 0 then none else rangeBad a n) with
  | some bad => (s, .error (cBADA, bad))
  | none =>
    match s.engineRead ctx die (vaOf a) n (some core) sieve with
    | (s, .error (c, va)) => (s, .error (c, BitVec.ofNat 64 va))
    | (s, .ok bs) => if anyPois bs then (s, .error (cPOIS, a)) else (s, .ok bs)

/-- A run's destination can be written: a cause with its address when it cannot. -/
def State.engCanWrite (s : State) (ctx die core : Nat) (a : DWord) (n : Nat) :
    State × Option (Nat × DWord) :=
  match (if n = 0 then none else rangeBad a n) with
  | some bad => (s, some (cBADA, bad))
  | none =>
    match s.translateAll ctx die .w (some core) (pageStarts (vaOf a) n) with
    | (s, some (c, va)) => (s, some (c, BitVec.ofNat 64 va))
    | (s, none) => (s, none)

end Sys2Proof.Machine
end

