-- ==== Sys2Proof/Machine/Copy.lean ====
section
/-!
DEFINITION. The block-transfer engine: CPY, CPY2D, CPYM, CPYG, CPYQ and CPYC, 0xD0 to 0xD5, and the
commands' life in the queue (13_copy R279 to R298).
-/

namespace Sys2Proof.Machine

/-! The check at issue (R285). -/

/-- Bits of a word are zero. -/
def zeroBits (w : Word) (lo wd : Nat) : Bool := bitsOf w.toNat lo wd = 0

/-- The upper address word of a kind breaks R283. -/
def kindBad (kind : Nat) (hi : Word) : Bool :=
  match kind with
  | 0 => false
  | 1 => !zeroBits hi 4 28
  | 2 => !(zeroBits hi 4 4 && zeroBits hi 12 20)
  | _ => true

/-- Reserved bits of SHAPE and AUX are set (R284). -/
def CopyCmd.shapeBad (c : CopyCmd) : Bool :=
  match c.kind with
  | 0 => c.w 5 ≠ 0
  | 1 => false
  | 2 => !(zeroBits (c.w 5) 28 4 && zeroBits (c.w 5) 12 8)
  | _ => !zeroBits (c.w 4) 3 13

/-- The kinds an instruction accepts (R284). -/
def CopyCmd.kindsOk (c : CopyCmd) : Bool :=
  match c.kind with
  | 2 => c.sk ≤ 1 && c.dk = 1
  | 3 => c.sk = 0 && c.dk = 1
  | _ => c.sk ≤ 1 && c.dk ≤ 2

/-- The cluster-relative index of DK 2 (R283). -/
def CopyCmd.peer (c : CopyCmd) : Nat := bitsOf (c.w 3).toNat 8 4

/-- CPYX (R285). -/
def State.copyBad (s : State) (c : CopyCmd) : Bool :=
  !zeroBits (c.w 7) 0 12 || !c.kindsOk || kindBad c.sk (c.w 1) || kindBad c.dk (c.w 3) || c.shapeBad
  || 2 ^ 30 < c.len || (c.cv && 2 ^ 22 < c.len)
  || (c.kind = 1 && 1 < c.rows && c.dpitch < c.rb)
  || (c.kind = 3 && (4 < bitsOf (c.w 4).toNat 0 3 || c.ioff % 4 ≠ 0))
  || (c.dk = 2 && !s.clusterHas (s.team c.team).cluster c.peer)

/-! Destinations and ranges. -/

/-- The team stands at a position CPYM selects (R290). -/
def CopyCmd.selects (c : CopyCmd) (t : Team) : Bool :=
  (c.w 5).getLsbD t.px && (c.w 5).getLsbD (20 + t.py)

/-- The teams a command lands in: the owner of the barrier for a memory destination (R283, R290). -/
def State.copyDests (s : State) (c : CopyCmd) : List Nat :=
  let ck := (s.team c.team).cluster
  if c.kind = 2 then
    (s.teams.filter (fun e => e.2.live && e.2.cluster = ck && c.selects e.2)).map (·.1)
  else if c.dk = 2 then (match s.clusterTeam ck c.peer with | none => [] | some t => [t])
  else [c.team]

/-- Handles named by the address words. -/
def CopyCmd.sh (c : CopyCmd) : Nat := bitsOf (c.w 1).toNat 0 4
def CopyCmd.dh (c : CopyCmd) : Nat := bitsOf (c.w 3).toNat 0 4

/-- The range a command reads, as the lock table registers it: CPYG's index list (R294). -/
def State.copySrc (s : State) (id : Nat) (c : CopyCmd) : LockRange :=
  if c.kind = 3 then s.spadRange id c.team c.ih c.ioff (4 * c.elems) false
  else if c.sk = 0 then memRange id c.team c.src c.srcExtent false
  else s.spadRange id c.team c.sh (c.w 0).toNat c.srcExtent false

/-- The range a command writes in a destination team, or in memory. -/
def State.copyDst (s : State) (id : Nat) (c : CopyCmd) (tk : Nat) : LockRange :=
  if c.dk = 0 then memRange id c.team c.dst c.dstExtent true
  else s.spadRange id tk c.dh (c.w 2).toNat c.dstExtent true

/-- The entries a command registers on its core (R294). -/
def State.copyLocks (s : State) (id : Nat) (c : CopyCmd) : List LockRange :=
  s.copySrc id c :: (if c.dk ≤ 1 && (s.copyDests c).contains c.team then [s.copyDst id c c.team] else [])

/-- The intervals of an entry: the rows of a CPY2D destination that does not wrap, or its one interval
(R294). -/
def State.rangePieces (s : State) (r : LockRange) : List (Nat × Nat) :=
  let c := s.copy r.owner
  if r.wr && c.live && c.kind = 1 && !r.whole && r.lo < r.hi then
    (List.range c.rows).map (fun k => (r.lo + k * c.dpitch, r.lo + k * c.dpitch + c.rb))
  else [(r.lo, r.hi)]

/-- Two entries share a byte: memory ranges of one context, or scratchpad ranges of one allocation
(R280). -/
def State.rangesMeet (s : State) (a b : LockRange) : Bool :=
  a.mem = b.mem
  && (if a.mem then (s.team a.team).ctx = (s.team b.team).ctx
      else a.team = b.team && a.handle = b.handle)
  && (s.rangePieces a).any (fun p => (s.rangePieces b).any (fun q =>
    p.1 < q.2 && q.1 < p.2 && p.1 < p.2 && q.1 < q.2))

/-- The ranges a queued command reads and writes, of either engine, as the table registers them: no
destination on another core (R280, R294). -/
def State.engReads (s : State) (id : Nat) : List LockRange :=
  let c := s.copy id
  if c.live then [s.copySrc id c]
  else ((s.matRange id (s.mat id)).filter (fun r => !r.wr)).toList
def State.engWrites (s : State) (id : Nat) : List LockRange :=
  let c := s.copy id
  if c.live then (s.copyLocks id c).filter (·.wr)
  else ((s.matRange id (s.mat id)).filter (·.wr)).toList

/-- Two commands conflict (R280, 14_matrix R302). -/
def State.engConflict (s : State) (i j : Nat) : Bool :=
  (s.engWrites i).any (fun x => (s.engReads j ++ s.engWrites j).any (s.rangesMeet x))
    || (s.engWrites j).any (fun x => (s.engReads i).any (s.rangesMeet x))

/-- An unfinished earlier command of the core conflicts with a command. -/
def State.engBlocked (s : State) (core id : Nat) : Bool :=
  let c := s.coreAt core
  (c.cpy ++ c.mat).any (fun j => j < id && s.engConflict j id)

/-! Issue (R286). -/

/-- A copy instruction of the issuing group. -/
def State.issueCopy (s : State) (w : W0) (kind : Nat) : State :=
  let g := s.grp
  let ck := coreKey g.die g.core
  let guard := s.pendingGuard w
  let c : CopyCmd := {
    live := true, kind, words := (List.range 8).map (fun i => s.rdG (w.a.toNat + i))
    grp := s.cur, team := g.team, ctx := g.ctx, die := g.die, slotB := s.curB, guard
    word := s.lat.word.toNat, after := g.openOps (ladderKinds ++ accessKinds) }
  if guard.isNone && !s.guardW w then (s.issueOp w.f {}).cont
  else if s.copyBad c then s.raiseSlot cCPYX
  else
    let core := s.coreAt ck
    let locks := s.copyLocks s.nextId c
    if 64 ≤ core.cpy.length || 32 < core.locks.length + locks.length then s.holdIssue
    else
      let (id, s) := s.fresh
      let c : CopyCmd := { c with op := s.nextId, dests := s.copyDests c }
      let s := s.setCore ck { core with cpy := core.cpy ++ [id], locks := core.locks ++ locks }
      ((s.setCopy id c).issueOp w.f { kind := .engine, ready := false }).cont

/-- CPY (R284). -/
def execCpy (w : W0) (s : State) : Out := .next (s.ordered false (s.issueCopy w 0))

/-- CPY2D (R284). -/
def execCpy2d (w : W0) (s : State) : Out := .next (s.ordered false (s.issueCopy w 1))

/-- CPYM (R290). -/
def execCpym (w : W0) (s : State) : Out := .next (s.ordered false (s.issueCopy w 2))

/-- CPYG (R290). -/
def execCpyg (w : W0) (s : State) : Out := .next (s.ordered false (s.issueCopy w 3))

/-! The queue. -/

/-- A command leaves its queue: its locks are released and its operation may complete (R288). -/
def State.copyDone (s : State) (core id : Nat) : State :=
  let c := s.copy id
  let s := s.unlock core id
  let s := s.modCore core (fun k => { k with cpy := k.cpy.filter (· ≠ id) })
  (s.setCopy id {}).opReady c.grp c.op

/-- The first command of a core's queue that has not started. -/
def State.copyHead (s : State) (core : Nat) : Option Nat :=
  (s.coreAt core).cpy.find? (fun i => !(s.copy i).started)

/-- The predicate of an unresolved guard, once it has been written (R287). -/
def State.guardNow (s : State) (gk : Nat) (guard : Option (Nat × Bool)) (gval : Option Bool) :
    Option Bool :=
  match gval, guard with
  | some b, _ => some b
  | none, some (n, neg) =>
    if (s.group gk).gpPending n then none else some ((s.group gk).gpget n != neg)
  | none, none => some true

/-- A guard resolves at the head of the copy queue (R287). -/
def State.resolveCopy (s : State) (core : Nat) : State :=
  match s.copyHead core with
  | none => s
  | some id =>
    let c := s.copy id
    if c.guard.isNone then s
    else match s.guardNow c.grp c.guard c.gval with
      | none => s
      | some true => s.setCopy id { c with guard := none }
      | some false => s.copyDone core id

/-- The engine may start a command (R279, R280, R286, R287). -/
def State.copyReady (s : State) (core id : Nat) : Bool :=
  let c := s.copy id
  let q := (s.coreAt core).cpy
  s.copyHead core = some id && c.guard.isNone
    && (q.filter (fun i => (s.copy i).started)).length < 4
    && !c.after.any (s.opOpen c.grp)
    && !s.engBlocked core id

/-- The index list of CPYG, read as the command starts; a poisoned index is past any word
(R290). -/
def State.readIndex (s : State) (c : CopyCmd) : List Nat × Word :=
  let rs := (List.range c.elems).map (fun i => s.spadEngineRead c.team c.ih (c.ioff + 4 * i) 4)
  (rs.map (fun r => if r.pois then 2 ^ 32 else natLE r.bytes),
    rs.foldl (fun acc r => acc ||| r.memst) 0)

/-- COPY COMMAND START (R280). -/
def execCopyCommandStart (core cmd : Nat) (s : State) : Out :=
  let c := s.copy cmd
  .next (if !s.copyReady core cmd then s
    else
      let s := if c.kind = 3 then s.meetRange c.team c.ih c.ioff (4 * c.elems) else s
      let (index, bits) := if c.kind = 3 then s.readIndex c else ([], 0)
      let c := { c with started := true, index := index }
      let s := (s.setCopy cmd c).noteMemst c.grp bits
      let s := if c.kind = 3 then s.unlock core cmd (fun r => !r.wr) else s
      if c.chunks = 0 then s.copyDone core cmd else s)

/-! Landing (R288, R289, R291). -/

/-- Pieces of at most `n` bytes of the tile bytes `[lo, hi)`: each its first byte and its length. -/
def cutEvery (n lo hi : Nat) : List (Nat × Nat) :=
  if hi ≤ lo || n = 0 then []
  else (List.range ((hi - 1) / n - lo / n + 1)).map (fun i =>
    let a := max lo ((lo / n + i) * n)
    (a, min hi ((lo / n + i + 1) * n) - a))

/-- The runs of a chunk: contiguous in source and destination. -/
def CopyCmd.runs (c : CopyCmd) (k : Nat) : List (Nat × Nat) :=
  let lo := 512 * k
  let hi := min c.len (lo + 512)
  match c.kind with
  | 1 => cutEvery c.rb lo hi
  | 3 => cutEvery c.esz lo hi
  | _ => if lo < hi then [(lo, hi - lo)] else []

/-- A run read (R289, R290), CPYG's through the Sieve: its bytes, or a cause and an address. -/
def State.copyRead (s : State) (core : Nat) (c : CopyCmd) (run : Nat × Nat) :
    State × Except (Nat × DWord) (List Byte) :=
  if c.sk = 0 then
    let a := c.src + BitVec.ofNat 64 (c.srcOff run.1)
    if c.kind = 3 && 2 ^ 32 ≤ c.index.getD (run.1 / c.esz) 0 then (s, .error (cPOIS, a))
    else if c.kind = 3 && misaligned a c.esz then (s, .error (cALGN, a))
    else match s.engBytes c.ctx c.die (core % 256) a run.2 (c.kind = 3) with
      | (s, .error e) => (s, .error e)
      | (s, .ok bs) => (s, .ok (bs.map (·.val)))
  else
    let s := s.meetRange c.team c.sh ((c.w 0).toNat + c.srcOff run.1) run.2
    let r := s.spadEngineRead c.team c.sh ((c.w 0).toNat + c.srcOff run.1) run.2
    let s := s.noteMemst c.grp r.memst
    if r.pois then (s, .error (cPOIS, 0)) else (s, .ok r.bytes)

/-- The runs of a chunk read in turn, and whether none failed. An error of CPYG's writes a zero element
and keeps the chunk's bit from being set; any other ends the chunk (R291). -/
def State.copyReads (s : State) (core : Nat) (c : CopyCmd) :
    List (Nat × Nat) → State × Except (Nat × DWord) (List (Nat × List Byte) × Bool)
  | [] => (s, .ok ([], true))
  | run :: t =>
    match s.copyRead core c run with
    | (s, .error e) =>
      if c.kind = 3 && !engPauses e.1 then
        match (s.copyErr c.grp e.1).copyReads core c t with
        | (s, .error e) => (s, .error e)
        | (s, .ok l) => (s, .ok ((run.1, List.replicate run.2 0) :: l.1, false))
      else (s, .error e)
    | (s, .ok bs) =>
      match s.copyReads core c t with
      | (s, .error e) => (s, .error e)
      | (s, .ok l) => (s, .ok ((run.1, bs) :: l.1, l.2))

/-- The memory destinations of runs checked (R291). -/
def State.copyCanWrite (s : State) (core : Nat) (c : CopyCmd) :
    List (Nat × List Byte) → State × Option (Nat × DWord)
  | [] => (s, none)
  | r :: t =>
    if c.dk ≠ 0 then (s, none)
    else match s.engCanWrite c.ctx c.die (core % 256) (c.dst + BitVec.ofNat 64 (c.dstOff r.1))
        r.2.length with
      | (s, some e) => (s, some e)
      | (s, none) => s.copyCanWrite core c t

/-- Runs of a chunk land in memory (R288). -/
def State.copyStore (s : State) (core : Nat) (c : CopyCmd) (rs : List (Nat × List Byte)) : State :=
  rs.foldl (fun s r => (s.engineStore c.ctx c.die (core % 256)
    (vaOf (c.dst + BitVec.ofNat 64 (c.dstOff r.1))) r.2).1) s

/-- Runs of a chunk land in the scratchpad of a team (R288). -/
def State.copySpad (s : State) (c : CopyCmd) (tk : Nat) (rs : List (Nat × List Byte)) : State :=
  rs.foldl (fun s r => s.spadEngineWrite c.grp tk c.dh ((c.w 2).toNat + c.dstOff r.1) r.2) s

/-- Where a chunk's bit stands in a team's allocation (R288). -/
def State.bitAt (s : State) (c : CopyCmd) (k tk : Nat) : Nat :=
  (4 * c.cidx + 4 * (k / 32)) % ((s.team tk).alloc c.ch).z2

/-- A bit ORed into a bitmap word of a team; an expired word reads as zero (R288, 10_allocation R209). -/
def State.setChunkBit (s : State) (c : CopyCmd) (k tk : Nat) : State :=
  let o := s.bitAt c k tk
  let miss := ((s.team tk).alloc c.ch).missing o 4
  if miss ≠ 0 then s.noteMemst c.grp miss
  else
    let lc := s.allocClock tk ((s.team tk).alloc c.ch) none
    let (s, a) := (s.meetSpad tk c.ch lc ((List.range 4).map (o + ·))).allocNow tk c.ch o 4
    let r := a.read lc ((List.range 4).map (fun i => o + i))
    let v := natLE r.bytes ||| 2 ^ (k % 32)
    (s.noteMemst c.grp (if r.expired then memstLAPSE else 0)).putSpad tk c.ch
      (a.write lc (spadRun o (bytesLE 4 v))) ((List.range 4).map (o + ·))

/-- Bytes counted on the barrier of a destination (R288). -/
def State.countBytes (s : State) (c : CopyCmd) (n tk : Nat) : State :=
  if !c.bv then s
  else
    let a := (s.team tk).alloc c.bh
    let o := a.objAt 16 c.bidx
    (s.noteMemst c.grp (a.missing o 16)).arriveAt c.grp tk c.bh o 0 n none

/-- Bytes of a chunk. -/
def CopyCmd.chunkBytes (c : CopyCmd) (k : Nat) : Nat := min c.len (512 * k + 512) - 512 * k

/-- A chunk has landed or failed at a destination: its bit, then its count (R288, R291). -/
def State.chunkAt (s : State) (c : CopyCmd) (k : Nat) (good : Bool) (tk : Nat) : State :=
  (if good && c.cv then s.setChunkBit c k tk else s).countBytes c (c.chunkBytes k) tk

/-- A command whose chunks have all landed or failed is done (R288); its source is read no more
(R294). -/
def State.copyCheck (s : State) (core id : Nat) : State :=
  let c := s.copy id
  if c.landed.length < c.chunks then s
  else if c.held.isEmpty then s.copyDone core id
  else s.unlock core id (fun r => !r.wr)

/-- A frozen core takes no packets of a chunk: they stay in the mesh (R298). It is the core of the team, or,
of a team that is away, that of a Miller which sets the chunk's bit or counts its bytes (R297). -/
def State.teamFrozen (s : State) (c : CopyCmd) (k tk : Nat) : Bool :=
  let t := s.team tk
  if t.away then
    (c.cv && s.savedFrozen tk c.ch (s.bitAt c k tk))
      || (c.bv && s.savedFrozen tk c.bh ((t.alloc c.bh).objAt 16 c.bidx))
  else s.frozenAt t.die t.core

/-- A chunk that has been read, or has failed, ends: at each destination at once, or, where the core is
frozen, when it takes packets again (R288, R291, R298). -/
def State.chunkEnd (s : State) (core id k : Nat) (good : Bool) (rs : List (Nat × List Byte)) : State :=
  let c := s.copy id
  let (late, now) := c.dests.partition (s.teamFrozen c k)
  let s := now.foldl (fun s t => (if c.dk = 0 then s else s.copySpad c t rs).chunkAt c k good t) s
  let c : CopyCmd := { c with
    landed := k :: c.landed
    held := c.held ++ late.map (fun t => { chunk := k, team := t, runs := rs, good })
    paused := c.paused.filter (· ≠ k) }
  let s := (s.setCopy id c).releaseChunk core false id k
  (s.countCore core 0x0C c.ctx (c.chunkBytes k)).copyCheck core id

/-- The held packets of a chunk whose destinations take packets again (R298). -/
def State.landHeld (s : State) (core id k : Nat) : State :=
  let c := s.copy id
  let (now, later) := c.held.partition (fun h => h.chunk = k && !s.teamFrozen c k h.team)
  let s := now.foldl (fun s h =>
    (if c.dk = 0 then s else s.copySpad c h.team h.runs).chunkAt c k h.good h.team) s
  (s.setCopy id { c with held := later }).copyCheck core id

/-- A chunk meets an error or a fault (R291). -/
def State.chunkFail (s : State) (core id k : Nat) (e : Nat × DWord) : State :=
  let c := s.copy id
  if engPauses e.1 then
    (s.setCopy id { c with paused := k :: c.paused.filter (· ≠ k) }).engineFault
      { core, grp := c.grp, ctx := c.ctx, cmd := id, chunk := k, cause := e.1, addr := e.2
        w2 := BitVec.ofNat 32 c.tag, word := c.word }
  else (s.copyErr c.grp e.1).chunkEnd core id k false []

/-- A copy chunk performed. -/
def State.copyChunk (s : State) (core id k : Nat) : State :=
  let c := s.copy id
  if c.landed.contains k then s.landHeld core id k
  else match s.copyReads core c (c.runs k) with
  | (s, .error e) => s.chunkFail core id k e
  | (s, .ok (rs, good)) =>
    match s.copyCanWrite core c rs with
    | (s, some e) => s.chunkFail core id k e
    | (s, none) => (if c.dk = 0 then s.copyStore core c rs else s).chunkEnd core id k good rs

/-- A chunk of a started command may be performed, or has packets waiting in the mesh. -/
def State.chunkReady (s : State) (core id k : Nat) : Bool :=
  let c := s.copy id
  c.live && c.started && k < c.chunks && (s.coreAt core).cpy.contains id
    && (c.held.any (fun h => h.chunk = k)
      || (!c.landed.contains k && !(s.coreAt core).frozen && s.chunkFree core false id k c.paused))

/-! CPYQ and CPYC (R292, R293). -/

/-- CPYQ (R292). -/
def execCpyq (w : W0) (s : State) : Out :=
  .next (s.groupExec w (fun s =>
    let g := s.grp
    let q := (s.coreAt (coreKey g.die g.core)).cpy
    let mine := q.filter (fun i => (s.copy i).grp = s.cur)
    let tag := (s.rdG w.a.toNat).toNat % 2 ^ 16
    let tagged := mine.filter (fun i => (s.copy i).tag = tag)
    let x : Word := g.cpyst ||| BitVec.ofNat 32
      (tagged.length * 2 ^ 14 + mine.length * 2 ^ 7 + (64 - q.length))
    (s.wrG w.d.toNat x).modGrp (fun g => { g with cpyst := 0 })))

/-- A count of bytes for a team stays in the mesh: its core, or that of the Miller which counts them, is
frozen (R298). -/
def State.countHeld (s : State) (c : CopyCmd) (tk : Nat) : Bool :=
  let t := s.team tk
  c.bv && (if t.away then s.savedFrozen tk c.bh ((t.alloc c.bh).objAt 16 c.bidx) else s.frozenAt t.die t.core)

/-- A count of bytes on its way to a team's barrier (R298; 12_atomics_barriers R275). -/
def State.sendCount (s : State) (c : CopyCmd) (n tk : Nat) : State :=
  let (id, s) := s.fresh
  s.setArrival id { live := true, barw := true, team := tk, handle := c.bh, off := 16 * c.bidx, nb := n
                    grp := c.grp }

/-- A command cancelled: one that has started counts the bytes not landed (R293), on a frozen core when it
takes packets again (R298). -/
def State.cancelCopy (s : State) (core id : Nat) (counts : Bool) : State :=
  let c := s.copy id
  let left := ((List.range c.chunks).filter (fun k => !c.landed.contains k)).foldl
    (fun n k => n + c.chunkBytes k) 0
  let n (tk : Nat) : Nat := left + ((c.held.filter (fun h => h.team = tk)).map (fun h => c.chunkBytes h.chunk)).sum
  let s := if c.started && counts then
      c.dests.foldl (fun s t =>
        if n t = 0 then s else if s.countHeld c t then s.sendCount c (n t) t else s.countBytes c (n t) t) s
    else s
  let s := s.modCore core (fun k => { k with
    faults := k.faults.filter (fun e => !(e.2.engine && !e.2.matrix && e.2.cmd = id))
    waiters := k.waiters.filter (fun x => !(x.engine && !x.matrix && x.cmd = id)) })
  s.copyDone core id

/-- CPYC (R293). -/
def execCpyc (w : W0) (s : State) : Out :=
  .next (s.groupExec w (fun s =>
    let g := s.grp
    let core := coreKey g.die g.core
    let sel := s.rdG w.a.toNat
    let hit := (s.coreAt core).cpy.filter (fun i =>
      (s.copy i).team = g.team && (sel.getLsbD 31 || (s.copy i).tag = sel.toNat % 2 ^ 16))
    let s := hit.foldl (fun s i => s.cancelCopy core i true) s
    s.wrG w.d.toNat (BitVec.ofNat 32 hit.length)))

end Sys2Proof.Machine
end

