-- ==== Sys2Proof/Machine/Matrix.lean ====
section
/-!
DEFINITION. The matrix class: MMA, MMAS, MZERO, MLDC, MDRAIN, MFENCE, MYOKE and MSTAT, 0xD8 to 0xDF,
the commands' life in the queue, batches and the amax merge (14_matrix R299 to R325), and the landing
of an engine chunk.
-/

namespace Sys2Proof.Machine

/-! Yokes and grants (R299 to R301). -/

/-- The other core of a yoke, and the leader of it (01_machine R18). -/
def yokePartner (core : Nat) : Nat := if core % 2 = 0 then core + 1 else core - 1
def yokeLeader (core : Nat) : Nat := core / 2 * 2

/-- The yoke of a core is bound: some team on its leader holds it so (R319). -/
def State.yokeBound (s : State) (die core : Nat) : Bool :=
  s.teams.any (fun e => e.2.live && !e.2.away && e.2.die = die && e.2.core = yokeLeader core
    && e.2.yokeMode && e.2.yokeBound)

/-- The binding of a yoke set in every team of its leader. -/
def State.setYoke (s : State) (die core : Nat) (b : Bool) : State :=
  { s with teams := s.teams.mapV {} (fun _ t =>
      if t.live && !t.away && t.die = die && t.core = yokeLeader core && t.yokeMode
      then { t with yokeBound := b } else t) }

/-- The team runs yoked: its launch sets yoke mode, it stands at an even cluster column, and its yoke is
bound (R299). -/
def State.runsYoked (s : State) (t : Team) : Bool :=
  t.yokeMode && t.px % 2 = 0 && s.yokeBound t.die t.core

/-- A tile of a team. -/
def Team.tile (t : Team) (n : Nat) : Tile := t.tiles.getD n {}
def State.setTile (s : State) (tk n : Nat) (x : Tile) : State :=
  s.modTeam tk (fun t => { t with tiles := t.tiles.set n x {} })

/-- The issuing team stands on the follower core of a bound yoke. -/
def State.followerBound (s : State) : Bool :=
  let g := s.grp
  g.core % 2 = 1 && s.yokeBound g.die g.core

/-- ACC for a command on a tile (R301); `mm` for MMA and MMAS. -/
def State.accBad (s : State) (tile : Nat) (mm : Bool) : Bool :=
  let g := s.grp
  let t := s.team g.team
  t.nacc ≤ tile || s.followerBound || (mm && t.yokeMode && !s.yokeBound g.die g.core)

/-! Operand layout (R307 to R310). -/

/-- The width class of an operation: K, and the width of a slot of A. -/
def mmK (ty : Nat) (rec : DWord) : Nat := if ty ≠ 0 then 16 else if 5 ≤ fmW rec then 32 else 64
def mmSlot (ty : Nat) (rec : DWord) : Nat := if ty ≠ 0 then 16 else if 5 ≤ fmW rec then 8 else 4

/-- Registers of A. -/
def mmRegs (sparse yoked : Bool) : Nat := (if yoked then 32 else 16) * (if sparse then 2 else 1)

/-- Bits of a code. -/
def mmWidth (ty : Nat) (rec : DWord) : Nat := if ty ≠ 0 then 16 else fmW rec

/-- The span of B (R309, R310), by A's width class where B has no record. -/
def mmSpan (ty : Nat) (sparse : Bool) (fa fb : DWord) (bbound : Bool) : Nat :=
  let k := mmK ty fa
  if sparse then 16 + 128 * (32 + k / 4)
  else if ty ≠ 0 then 4096
  else if !bbound then 4096
  else if fmSck fb ≠ 0 then k * 128 / fmBlkLen fb * fmBlkBytes fb
  else (k * 128 * fmW fb + 7) / 8

/-- A value of a type or of a record, with the flags its decoding raises (R311). -/
def mmValue (ty : Nat) (rec : DWord) (factor : Option Mag) (code : Nat) : FNum :=
  match ty with
  | 14 => f16.decode code
  | 15 => bf16.decode code
  | _ => match factor with
    | none => .fin false {}
    | some f => ((fmDecode rec code).mul (.fin false f)).1

/-- FMTX of an operation (R308). -/
def mmFormatBad (ty : Nat) (sparse asc : Bool) (fa fb : DWord) (bbound bplain : Bool) : Bool :=
  ty = 0 && (!fmOk fa || (asc && fmSck fa = 0) || (!asc && fmSck fa ≠ 0)
    || (fmSck fa ≠ 0 && 2 ^ fmBlk fa ≠ mmK ty fa)
    || (bbound && (bplain || mmK ty fa ≠ mmK ty fb || (sparse && fmSck fb ≠ 0))))

/-- A(r, k) of a command (R307). -/
def MatCmd.aElem (c : MatCmd) (r k : Nat) : FNum :=
  let kk := mmK c.ty c.fa
  let n := if c.yoked then 32 else 16
  let per := kk / 8
  let j := r / 4 + (if kk ≤ k then n else 0)
  let k' := k % kk
  let word := (c.a.getD (32 * j + 8 * (r % 4) + k' / per) 0).toNat
  let code := bitsOf word (mmSlot c.ty c.fa * (k' % per)) (mmWidth c.ty c.fa)
  let scale := bitsOf (c.sc.getD (r / 4) 0).toNat (8 * (r % 4)) 8
  mmValue c.ty c.fa (if c.asc then fmFactor c.fa scale else fmFactor c.fa 0) code

/-- B as read when the command starts: its bytes as a number, and which of them are poisoned. -/
structure MatB where
  bits : Nat := 0
  pois : List Bool := []
deriving DecidableEq, Repr

/-- B(k, n) of a dense operation, and whether a byte of it is poisoned (R309). -/
def MatCmd.bDense (c : MatCmd) (b : MatB) (k n : Nat) : FNum × Bool :=
  if c.ty ≠ 0 then
    (mmValue c.ty 0 none (bitsOf b.bits (8 * (256 * k + 2 * n)) 16),
      b.pois.getD (256 * k + 2 * n) false || b.pois.getD (256 * k + 2 * n + 1) false)
  else
    let (bit, sc) := fmPlace c.fc (128 * k + n)
    let w := fmW c.fc
    (mmValue 0 c.fc (fmFactor c.fc (match sc with | none => 0 | some y => bitsOf b.bits (8 * y) 8))
        (bitsOf b.bits bit w),
      b.pois.getD (bit / 8) false || b.pois.getD ((bit + w - 1) / 8) false
        || (match sc with | none => false | some y => b.pois.getD y false))

/-- The live columns of a sparse B before column `n` (R310). -/
def liveBefore (b : MatB) (n : Nat) : Nat := popCount n (b.bits % 2 ^ n)

/-- The values of a live column of a sparse B with their logical depths (R310). -/
def MatCmd.bSparse (c : MatCmd) (b : MatB) (n : Nat) : List (Nat × FNum) × Bool :=
  let kk := mmK c.ty c.fa
  let q := 32 + kk / 4
  let at_ := 16 + liveBefore b n * q
  let w := mmWidth c.ty c.fc
  ((List.range kk).map (fun v =>
      (4 * (v / 2) + bitsOf b.bits (8 * (at_ + 32) + 2 * v) 2,
        mmValue c.ty c.fc (fmFactor c.fc 0) (bitsOf b.bits (8 * at_ + w * v) w))),
    (List.range q).any (fun i => b.pois.getD (at_ + i) false))

/-- One element of D (R311): the sum, its flags, whether it is poisoned; none leaves D as it is. -/
def MatCmd.dElem (c : MatCmd) (b : MatB) (r n : Nat) (old : Word) : Option (FRes × Bool) :=
  let d := match f32.decode old.toNat with
    | .nan _ => .nan false
    | x => x
  let sum (ps : List (FNum × FNum)) : FRes :=
    f32.deliver 0 (sumProducts 0 (ps.map (fun p => p.1.mul p.2)) [d])
  if c.kind = 0 then
    let bs := (List.range (mmK c.ty c.fa)).map (fun k => (k, c.bDense b k n))
    some (sum (bs.map (fun x => (c.aElem r x.1, x.2.1))), bs.any (fun x => x.2.2))
  else if !b.bits.testBit n then none
  else
    let (vs, bad) := c.bSparse b n
    some (sum (vs.map (fun x => (c.aElem r x.1, x.2))), bad)

/-- The tile after an operation (R311, R325). -/
def MatCmd.multiply (c : MatCmd) (b : MatB) (t : Tile) : Tile :=
  let rows := if c.yoked then 128 else 64
  (List.range rows).foldl (fun t r => (List.range 128).foldl (fun (t : Tile) n =>
    let i := 128 * r + n
    match c.dElem b r n (t.elems.getD i 0) with
    | none => t
    | some ((x, fl), bad) =>
      { t with
        elems := t.elems.set i (BitVec.ofNat 32 x) 0
        epois := if bad then t.epois.set i true false else t.epois
        pois := t.pois || bad
        nv := t.nv || fl &&& fpNV ≠ 0
        of_ := t.of_ || fl &&& fpOF ≠ 0 }) t) t

/-! The queue (R302, R303). -/

/-- A command leaves its queue. -/
def State.matDone (s : State) (core id : Nat) : State :=
  let c := s.mat id
  let s := s.unlock core id
  let s := s.modCore core (fun k => { k with mat := k.mat.filter (· ≠ id) })
  (s.setMat id {}).opReady c.grp c.op

/-- A command of the issuing group queued, with its locks: its group remembers it for MFENCE, and a
tracked one counts on its flag. -/
def State.queueMat (s : State) (w : W0) (c : MatCmd) (tracked : Bool) : State :=
  let g := s.grp
  let ck := coreKey g.die g.core
  let core := s.coreAt ck
  let c : MatCmd := { c with
    live := true, grp := s.cur, team := g.team, ctx := g.ctx, die := g.die
    guard := s.pendingGuard w, word := s.lat.word.toNat
    after := g.openOps (match c.kind with | 2 => [] | 4 => ladderKinds | _ => accessKinds) }
  let locks := (s.matRange s.nextId c).toList
  if 16 ≤ core.mat.length || 32 < core.locks.length + locks.length then s.holdIssue
  else
    let (id, s) := s.fresh
    let s := s.setCore ck { core with mat := core.mat ++ [id], locks := core.locks ++ locks }
    let s := s.modGrp (fun g => { g with unbatched := g.unbatched ++ [id] })
    if tracked then ((s.setMat id { c with op := s.nextId }).issueOp w.f { kind := .engine, ready := false }).cont
    else (s.setMat id c).cont

/-- A command whose guard is known false at issue (R303). -/
def State.matSkipped (s : State) (w : W0) : Bool := (s.pendingGuard w).isNone && !s.guardW w

/-- Such a command completes at once. -/
def State.skipMat (s : State) (w : W0) (tracked : Bool) : State :=
  let (id, s) := s.fresh
  let s := s.modGrp (fun g => { g with unbatched := g.unbatched ++ [id] })
  (if tracked then s.issueOp w.f {} else s).cont

/-- The lane words an operation reads, each register with how many of its lanes, and what its reading them
does: ERX and POIS reach every lane of the slot's mask (10_allocation R208, R222). -/
def State.withLaneWords (s : State) (regs : List (Nat × Nat)) (k : State → State) : State :=
  let lc := s.lat.lc
  let all (f : Nat → Nat → Bool) : Bool := regs.any (fun n => (List.range n.2).any (f n.1))
  if all (s.grp.rdErx lc) then s.raiseSlot cERX
  else if all (s.grp.rdPois lc) then s.raiseSlot cPOIS
  else k (if all (s.grp.rdLapse lc) then s.setMemst memstLAPSE else s)

/-- MMA and MMAS at issue (R306, R301, R308, R312). -/
def State.issueMma (s : State) (w : W0) (r : RRaw) (sparse : Bool) : State :=
  let m := r.m16.toNat
  let ty := bitsOf m 11 5
  let asc := r.m16.getLsbD 3
  let g := s.grp
  let t := s.team g.team
  let b := t.alloc (bitsOf m 7 4)
  let fa := if ty = 0 then g.fmget (bitsOf m 4 3) else 0
  let yoked := s.runsYoked t
  let n := mmRegs sparse yoked
  let off := (s.rdG r.b.toNat).toNat
  let regs := (List.range n).map (fun j => w.a.toNat + j)
  let scr := if asc then [r.c.toNat] else []
  let read := regs.map (fun j => (j, 32)) ++ scr.map (fun j => (j, if yoked then 32 else 16))
  if s.matSkipped w then s.skipMat w true
  else if g.nreg < w.a.toNat + n || (asc && g.nreg ≤ r.c.toNat) then s.raiseSlot cILL
  else if s.accBad w.d.toNat true then s.raiseSlot cACC
  else if mmFormatBad ty sparse asc fa b.record b.bound (b.fmtIdx = 0) then s.raiseSlot cFMTX
  else if off % 4 ≠ 0 then s.raiseSlot cMCX
  else s.withLaneWords read (fun s' => s'.queueMat w
    { kind := if sparse then 1 else 0, tile := w.d.toNat, ty, level1 := s.level1
      a := regs.flatMap (fun j => (List.range 32).map (s.rd j))
      sc := scr.flatMap (fun j => (List.range 32).map (s.rd j))
      fa, fc := if b.bound then b.record else fa, asc, yoked
      handle := bitsOf m 7 4, off, span := mmSpan ty sparse fa b.record b.bound } true)

/-- MMA (R312). -/
def execMma (w : W0) (r : RRaw) (s : State) : Out := .next (s.ordered false (s.issueMma w r false))

/-- MMAS (R312). -/
def execMmas (w : W0) (r : RRaw) (s : State) : Out := .next (s.ordered false (s.issueMma w r true))

/-- MZERO (R314). -/
def execMzero (w : W0) (s : State) : Out :=
  .next (s.ordered false (
    if s.matSkipped w then s.skipMat w false
    else if s.accBad w.d.toNat false then s.raiseSlot cACC
    else s.queueMat w { kind := 2, tile := w.d.toNat } false))

/-- MLDC (R315). -/
def execMldc (w : W0) (r : RRaw) (s : State) : Out :=
  let off := (s.rdG r.b.toNat).toNat
  .next (s.ordered false (
    if s.matSkipped w then s.skipMat w true
    else if s.accBad w.d.toNat false then s.raiseSlot cACC
    else if off % 4 ≠ 0 then s.raiseSlot cMCX
    else s.queueMat w
      { kind := 3, tile := w.d.toNat, handle := w.a.toNat, off
        span := 512 * (s.team s.grp.team).tileRows } true))

/-! MDRAIN (R316). -/

/-- Bytes of a stream of `n` elements of a drain type. -/
def drainBytes (ty : Nat) (rec : DWord) (n : Nat) : Nat :=
  match ty with
  | 16 => 4 * n
  | 14 => 2 * n
  | 15 => 2 * n
  | _ => if fmSck rec ≠ 0 then (n + fmBlkLen rec - 1) / fmBlkLen rec * fmBlkBytes rec
         else (n * fmW rec + 7) / 8

/-- The descriptor breaks a rule (R316). -/
def drainBad (dk : Bool) (ty : Nat) (rec : DWord) (d : List Word) : Bool :=
  let pitch := (d.getD 2 0).toNat
  let scaled := ty = 0 && fmSck rec ≠ 0
  let row := if scaled then drainBytes ty rec 128 else roundUp (drainBytes ty rec 128) 4
  (dk && !zeroBits (d.getD 1 0) 4 28) || (d.getD 0 0).toNat % 4 ≠ 0
  || (pitch ≠ 0 && (pitch % 4 ≠ 0 || pitch < row || (scaled && fmBlkLen rec = 256)))

/-- Bytes of a row's run, and all bytes a drain writes. -/
def MatCmd.pitch (c : MatCmd) : Nat := (c.a.getD 2 0).toNat
def MatCmd.rows (c : MatCmd) : Nat := if c.yoked then 128 else 64
def MatCmd.runBytes (c : MatCmd) : Nat := drainBytes c.ty c.fc (if c.pitch = 0 then 128 * c.rows else 128)
def MatCmd.bytes (c : MatCmd) : Nat := c.runBytes * (if c.pitch = 0 then 1 else c.rows)
def MatCmd.chunks (c : MatCmd) : Nat := (c.bytes + 511) / 512
def MatCmd.dstOff (c : MatCmd) (t : Nat) : Nat := t / c.runBytes * c.pitch + t % c.runBytes
def MatCmd.dst (c : MatCmd) : DWord := pair (c.a.getD 0 0) (c.a.getD 1 0)

/-- MDRAIN (R316). -/
def execMdrain (w : W0) (r : RRaw) (s : State) : Out :=
  let ty := bitsOf r.m16.toNat 11 5
  let dk := r.m16.getLsbD 10
  let fc := if ty = 0 then s.grp.fmget r.c.toNat else 0
  let d := (List.range 4).map (fun i => s.rdG (w.a.toNat + i))
  let c : MatCmd := {
    kind := 4, tile := w.d.toNat, ty, level1 := s.level1, a := d, fc, dk
    yoked := (s.team s.grp.team).yokedGrant
    handle := bitsOf (d.getD 1 0).toNat 0 4, off := (d.getD 0 0).toNat
    amx := if r.m16.getLsbD 9 then some (s.rdG64 r.b.toNat) else none }
  let span := if c.pitch = 0 then c.bytes else c.pitch * (c.rows - 1) + c.runBytes
  .next (s.ordered false (
    if s.matSkipped w then s.skipMat w true
    else if s.accBad w.d.toNat false then s.raiseSlot cACC
    else if ty = 0 && !fmOk fc then s.raiseSlot cFMTX
    else if drainBad dk ty fc d then s.raiseSlot cMCX
    else s.queueMat w { c with span := span } true))

/-- What the drain writes for an element: `x` times SCALE, exactly (R316). -/
def MatCmd.scaled (c : MatCmd) (i : Nat) : FNum × Nat :=
  (f32.decode (c.snap.elems.getD i 0).toNat).mul (f32.decode (c.a.getD 3 0).toNat)

/-- The magnitude of a number. -/
def FNum.mag : FNum → FNum
  | .nan q => .nan q
  | .inf _ => .inf false
  | .fin _ x => .fin false x

/-- The greatest magnitude among numbers that are not NaN; a NaN if there is none. -/
def greatest (l : List FNum) : FNum :=
  l.foldl (fun acc x => if x.isNan then acc else if acc.isNan || numLt acc x.mag then x.mag else acc)
    (.nan false)

/-- A code with the flags of everything that made it. -/
def flagged (y : FNum × Nat) (f : FNum → FRes) : FRes :=
  let r := f y.1
  (r.1, r.2 ||| y.2)

/-- Numbers packed as a stream of `w`-bit codes. -/
def packStream (w : Nat) (l : List FRes) : Nat :=
  (l.foldr (fun x acc => x.1 % 2 ^ w + 2 ^ w * acc) 0)

/-- A block of a scaled record: its scale byte and its codes, and the flags (R316). -/
def MatCmd.block (c : MatCmd) (first : Nat) : Nat × Nat :=
  let ys := (List.range (fmBlkLen c.fc)).map (fun i => c.scaled (first + i))
  let (sb, fl) := fsclVal c.fc c.level1 (greatest (ys.map (·.1)))
  let codes := ys.map (fun y => flagged y (fmEncode c.fc c.level1 (fmFactor c.fc sb)))
  (sb + 256 * packStream (fmW c.fc) codes, codes.foldl (fun acc x => acc ||| x.2) fl)

/-- The stream of `n` elements from the first, as a number, and the flags. -/
def MatCmd.stream (c : MatCmd) (first n : Nat) : Nat × Nat :=
  if c.ty = 0 && fmSck c.fc ≠ 0 then
    let q := fmBlkBytes c.fc
    let bs := (List.range (n / fmBlkLen c.fc)).map (fun k => c.block (first + k * fmBlkLen c.fc))
    (packStream (8 * q) bs, bs.foldl (fun acc x => acc ||| x.2) 0)
  else
    let conv (x : FNum) : FRes := match c.ty with
      | 14 => f16.deliver 0 (x, 0)
      | 15 => bf16.deliver 0 (x, 0)
      | 16 => f32.deliver 0 (x, 0)
      | _ => fmEncode c.fc c.level1 (fmFactor c.fc 0) x
    let w := match c.ty with | 14 => 16 | 15 => 16 | 16 => 32 | _ => fmW c.fc
    let cs := (List.range n).map (fun i => flagged (c.scaled (first + i)) conv)
    (packStream w cs, cs.foldl (fun acc x => acc ||| x.2) 0)

/-- All the bytes a drain writes, in order, and the flags (R316). -/
def MatCmd.output (c : MatCmd) : List Byte × Nat :=
  let n := if c.pitch = 0 then 128 * c.rows else 128
  let l := (List.range (if c.pitch = 0 then 1 else c.rows)).map (fun r => c.stream (r * n) n)
  (l.flatMap (fun x => bytesLE c.runBytes x.1), l.foldl (fun acc x => acc ||| x.2) 0)

/-- An element whose code or scale lies in a chunk is poisoned. -/
def MatCmd.chunkPois (c : MatCmd) (k : Nat) : Bool :=
  c.snap.epois.any (fun e =>
    let n := if c.pitch = 0 then 128 * c.rows else 128
    let i := e.1 % n
    let row := e.1 / n * c.runBytes
    let (lo, hi) := if c.ty = 0 && fmSck c.fc ≠ 0 then
        (i / fmBlkLen c.fc * fmBlkBytes c.fc, (i / fmBlkLen c.fc + 1) * fmBlkBytes c.fc)
      else
        let w := drainBytes c.ty c.fc 8
        (i * w / 8, ((i + 1) * w + 7) / 8)
    e.2 && row + lo < 512 * k + 512 && 512 * k < row + hi)

/-! Start (R302, R304, R312, R314, R315). -/

/-- Spare columns of an array (R320). -/
def spareColumns (die : Nat) : Nat := if die < 4 then 4 else 2

/-- A guard resolves at the head of the matrix queue (R303). -/
def State.matHead (s : State) (core : Nat) : Option Nat :=
  (s.coreAt core).mat.find? (fun i => !(s.mat i).started)

def State.resolveMat (s : State) (core : Nat) : State :=
  match s.matHead core with
  | none => s
  | some id =>
    let c := s.mat id
    if c.guard.isNone then s
    else match s.guardNow c.grp c.guard c.gval with
      | none => s
      | some true => s.setMat id { c with guard := none }
      | some false => s.matDone core id

/-- Commands of the array (R302). -/
def MatCmd.onArray (c : MatCmd) : Bool := c.kind ≤ 1

/-- A command may start: no earlier one waits on a guard, uses the array it needs, has work left on
its tile, or conflicts with it; one that reads scratchpad follows its group's earlier accesses (R302,
R303, R304). -/
def State.matReady (s : State) (core id : Nat) : Bool :=
  let c := s.mat id
  let before := (s.coreAt core).mat.takeWhile (· ≠ id)
  c.live && !c.started && c.guard.isNone && (s.coreAt core).mat.contains id
    && before.all (fun j =>
      let d := s.mat j
      d.guard.isNone && !(c.onArray && d.onArray) && (d.started || !(d.team = c.team && d.tile = c.tile)))
    && (c.kind = 4 || !c.after.any (s.opOpen c.grp)) && !s.engBlocked core id

/-- Bytes of B, or of MLDC's source, that are read: of a sparse B the bitmap and the live columns' records
alone (R309, R310). -/
def State.readSpan (s : State) (c : MatCmd) : Nat :=
  if c.kind ≠ 1 then c.span
  else
    let map := natLE (s.spadEngineRead c.team c.handle c.off 16).bytes
    16 + popCount 128 map * (32 + mmK c.ty c.fa / 4)

/-- B read when the operation starts: MEMST and the engine status of its group record what the read
met (R309; 10_allocation R209, R222). -/
def State.readB (s : State) (c : MatCmd) : State × MatB :=
  let n := s.readSpan c
  let s := s.meetRange c.team c.handle c.off n
  let r := s.spadEngineRead c.team c.handle c.off n
  let a := (s.team c.team).alloc c.handle
  let s := s.noteMemst c.grp r.memst
  let s := if r.pois then s.matErr c.grp cPOIS else s
  (s, { bits := natLE r.bytes
        pois := if !r.pois then [] else (List.range n).map (fun i =>
          let o := (c.off + i) % a.z2
          a.bound && o < a.size && a.poisoned o && !a.unreadable (s.allocClock c.team a none) o) })

/-- MLDC's tile (R315). -/
def State.loadTile (s : State) (c : MatCmd) : State × Tile :=
  let (s, b) := s.readB c
  let n := 128 * (c.span / 512)
  let bad := (List.range n).filter (fun i => (List.range 4).any (fun k => b.pois.getD (4 * i + k) false))
  (s, { elems := (List.range n).foldl (fun m i => m.set i (BitVec.ofNat 32 (bitsOf b.bits (32 * i) 32)) 0) []
        epois := bad.foldl (fun m i => m.set i true false) []
        pois := !bad.isEmpty })

/-- Duplicate passes on an array with a marked column: whether they disagree is a free choice (R325). -/
def State.passes (s : State) (core : Nat) : State × Bool :=
  if 0 < (s.coreAt core).marked then (s.draw.2, s.draw.1) else (s, false)

/-- What the residue check of an operation on a core's array finds (R325): a mismatch, replayed and
counted; a second one on the same column, which marks it; and, on an array with a marked column, results on
which duplicate passes cannot agree. Every operation is checked, also on an array with a marked column. The
columns' failures are free choices. -/
def State.residue (s : State) (core ctx : Nat) : State × Bool :=
  match s.draw with
  | (false, s) => s.passes core
  | (true, s) =>
    let s := (s.modCore core (fun c => { c with replay := c.replay + 1 })).countCore core 0x10 ctx 1
    match s.draw with
    | (false, s) => s.passes core
    | (true, s) =>
      let s := s.modCore core (fun c =>
        if 128 ≤ c.marked then c
        else { c with
          marked := c.marked + 1, noSpare := c.noSpare || spareColumns (core / 256) ≤ c.columnsUsed + c.marked })
      s.passes core

/-- The elements of a tile's half that passes of an array cannot agree on are poisoned: which they are is a
free choice of each (R325). The leader's array holds the first 64 rows, the follower's the others (R300). -/
def State.disagree (s : State) (follower : Bool) (x : Tile) : Tile :=
  let at_ := if follower then 8192 else 0
  let bad := ((List.range 8192).map (at_ + ·)).filter (fun i => Config.freeBool s.freeCtr (2 ^ 52 + i))
  if bad.isEmpty then x
  else { x with epois := bad.foldl (fun m i => m.set i true false) x.epois, pois := true }

/-- The checks of an operation on the array of a core: on the follower's too when both run it (01_machine
R18; R325). -/
def State.checkArrays (s : State) (core : Nat) (c : MatCmd) (x : Tile) : State × Tile :=
  let (s, bad) := s.residue core c.ctx
  let x := if bad then s.disagree false x else x
  if !c.yoked then (s, x)
  else
    let (s, bad) := s.residue (coreKey (core / 256) (yokePartner (core % 256))) c.ctx
    (s, if bad then s.disagree true x else x)

/-- The tile after an operation of the array of a core (R311, R325). -/
def State.arrayRun (s : State) (core : Nat) (c : MatCmd) : State × Tile :=
  let (s, b) := s.readB c
  s.checkArrays core c (c.multiply b ((s.team c.team).tile c.tile))

/-- MATRIX COMMAND START (R302). -/
def execMatrixCommandStart (core cmd : Nat) (s : State) : Out :=
  let c := s.mat cmd
  let t := s.team c.team
  .next (if !s.matReady core cmd then s
    else match c.kind with
      | 2 => (s.setTile c.team c.tile {}).matDone core cmd
      | 3 =>
        let (s, x) := s.loadTile c
        (s.setTile c.team c.tile x).matDone core cmd
      | 4 =>
        let fl := ({ c with snap := t.tile c.tile } : MatCmd).output.2
        let old := t.tile c.tile
        let x : Tile := { old with dnv := old.dnv || fl &&& fpNV ≠ 0, dof := old.dof || fl &&& fpOF ≠ 0 }
        (s.setTile c.team c.tile x).setMat cmd { c with started := true, snap := old }
      | _ =>
        let (s, x) := s.arrayRun core c
        (s.setTile c.team c.tile x).matDone core cmd)

/-- GUARD RESOLVE (R303; 13_copy R287). -/
def execGuardResolve (core : Nat) (matrix : Bool) (s : State) : Out :=
  .next (if matrix then s.resolveMat core else s.resolveCopy core)

/-! A drain's chunks and the amax merge (R316, R317). -/

/-- The chunk number of the amax merge. -/
def amaxChunk : Nat := 2 ^ 40

/-- A fault or an error of a drain: paused, or recorded; true when it is an error. -/
def State.matFail (s : State) (core id k : Nat) (e : Nat × DWord) : State × Bool :=
  let c := s.mat id
  if engPauses e.1 then
    ((s.setMat id { c with paused := k :: c.paused.filter (· ≠ k) }).engineFault
      { core, matrix := true, grp := c.grp, ctx := c.ctx, cmd := id, chunk := k, cause := e.1
        addr := e.2, w2 := BitVec.ofNat 32 (2 ^ 16 + c.tile), word := c.word }, false)
  else (s.matErr c.grp e.1, true)

/-- A chunk has been written or has failed. -/
def State.drainEnd (s : State) (core id k : Nat) : State :=
  let c := s.mat id
  let c : MatCmd := { c with landed := k :: c.landed, paused := c.paused.filter (· ≠ k) }
  let s := ((s.setMat id c).releaseChunk core true id k).countCore core 0x0C c.ctx
    (min c.bytes (512 * k + 512) - 512 * k)
  if c.landed.length = c.chunks && c.amx.isNone then s.matDone core id else s

/-- The runs of a drain's chunk. -/
def MatCmd.runs (c : MatCmd) (k : Nat) : List (Nat × Nat) :=
  cutEvery c.runBytes (512 * k) (min c.bytes (512 * k + 512))

/-- The destinations of a chunk's runs checked. -/
def State.drainCanWrite (s : State) (core : Nat) (c : MatCmd) : List (Nat × Nat) → State × Option (Nat × DWord)
  | [] => (s, none)
  | r :: t =>
    if c.dk then (s, none)
    else match s.engCanWrite c.ctx c.die (core % 256) (c.dst + BitVec.ofNat 64 (c.dstOff r.1)) r.2 with
      | (s, some e) => (s, some e)
      | (s, none) => s.drainCanWrite core c t

/-- A chunk of a drain performed. -/
def State.drainChunk (s : State) (core id k : Nat) : State :=
  let c := s.mat id
  let fail (s : State) (e : Nat × DWord) : State :=
    match s.matFail core id k e with
    | (s, true) => s.drainEnd core id k
    | (s, false) => s
  if c.chunkPois k then fail s (cPOIS, 0)
  else match s.drainCanWrite core c (c.runs k) with
    | (s, some e) => fail s e
    | (s, none) =>
      let out := c.output.1
      ((c.runs k).foldl (fun s r =>
        let bs := (out.drop r.1).take r.2
        if c.dk then s.spadEngineWrite c.grp c.team c.handle (c.off + c.dstOff r.1) bs
        else (s.engineStore c.ctx c.die (core % 256)
          (vaOf (c.dst + BitVec.ofNat 64 (c.dstOff r.1))) bs).1) s).drainEnd core id k

/-- A chunk of a drain may be performed: a write to memory follows what the group committed before
(R304). -/
def State.drainReady (s : State) (core id k : Nat) : Bool :=
  let c := s.mat id
  c.live && c.kind = 4 && c.started && k < c.chunks && !c.landed.contains k
    && (s.coreAt core).mat.contains id && s.chunkFree core true id k c.paused
    && (c.dk || !c.after.any (s.opOpen c.grp))

/-- CHUNK LAND (13_copy R288; R316): a chunk of a copy or of a drain. -/
def execChunkLand (core cmd chunk : Nat) (s : State) : Out :=
  .next (if s.chunkReady core cmd chunk then s.copyChunk core cmd chunk
    else if s.drainReady core cmd chunk then s.drainChunk core cmd chunk
    else s)

/-- The operand of the amax merge (R317). -/
def MatCmd.amax (c : MatCmd) : Word :=
  let xs := (List.range (128 * c.rows)).map (fun i => f32.decode (c.snap.elems.getD i 0).toNat)
  BitVec.ofNat 32 (f32.deliver 0 (greatest xs, 0)).1

/-- The word of the merge, or why it cannot be reached (R317). -/
def State.amaxPlace (s : State) (core : Nat) (c : MatCmd) (a : DWord) : State × Except Nat Xl :=
  if !canonical a then (s, .error cBADA)
  else if misaligned a 4 then (s, .error cALGN)
  else match s.translate c.ctx c.die (vaOf a) .rw (some (core % 256)) with
    | (s, .error e) => (s, .error e)
    | (s, .ok x) => if s.linePois x.attr.home x.pk then (s, .error cPOIS) else (s, .ok x)

/-- AMAX (R257, R317): the merge at the home, after the drain's own writes. -/
def execAmax (core cmd : Nat) (s : State) : Out :=
  let c := s.mat cmd
  .next (match c.amx with
    | none => s
    | some a =>
      if !(c.live && c.started && c.landed.length = c.chunks && !c.after.any (s.opOpen c.grp)
          && s.chunkFree core true cmd amaxChunk c.paused) then s
      else match s.amaxPlace core c a with
        | (s, .error e) =>
          (match s.matFail core cmd amaxChunk (e, a) with
            | (s, true) => (s.releaseChunk core true cmd amaxChunk).matDone core cmd
            | (s, false) => s)
        | (s', .ok x) =>
          if (s'.millerCore x.attr.home (x.pk / 128)).any (s'.frozenAt x.attr.home) then s else
          let l : LaneOp := { at_ := x.pk, v1 := c.amax.setWidth 64 }
          let r : MillReq := { fromDie := c.die, core := core % 256, ctx := c.ctx, code := 10
                               attr := x.attr, lanes := [l] }
          let s := s'.millBefore r (x.pk / 128)
          let s := s.millLane r l (atNew 10 0 (s.millOld r l) l.v1 0)
          ((s.millAfter r (x.pk / 128)).releaseChunk core true cmd amaxChunk).matDone core cmd)

/-! Batches (R318). -/

/-- Batches of a core that name an object. -/
def State.batchesOn (s : State) (core tk h o : Nat) : List Nat :=
  (s.coreAt core).batches.filter (fun b =>
    (s.batch b).team = tk && (s.batch b).handle = h && (s.batch b).off = o)

/-- A group-wide instruction whose guard must be written before it issues (R305). -/
def State.settledGuard (s : State) (w : W0) (k : State) : State :=
  if (s.pendingGuard w).isSome then s.holdIssue else if s.guardW w then k else s.cont

/-- MFENCE (R318). -/
def execMfence (w : W0) (r : RRaw) (s : State) : Out :=
  let g := s.grp
  let ck := coreKey g.die g.core
  let h := w.a.toNat
  let a := (s.team g.team).alloc h
  let o := a.objAt 16 r.c.toNat
  .next (s.ordered false (s.settledGuard w (
    if s.followerBound then s.raiseSlot cACC
    else
      let miss := a.missing o 16
      let phase := if miss ≠ 0 then 0 else (a.barrier (s.issueClock a) o).phase
      let p := (s.batchesOn ck g.team h o).length
      let (id, s) := s.fresh
      let b : Batch := { live := true, grp := s.cur, team := g.team, handle := h, off := o
                         cmds := g.unbatched }
      let s := (s.setBatch id b).modCore ck (fun c => { c with batches := c.batches ++ [id] })
      let s := (s.modGrp (fun g => { g with unbatched := [] })).noteMemst s.cur miss
      (s.wrG w.d.toNat (BitVec.ofNat 32 ((phase + p) % 2 ^ 16))).cont)))

/-- BATCH ARRIVAL (R318). -/
def execBatchArrival (core batch : Nat) (s : State) : Out :=
  let b := s.batch batch
  .next (if !b.live || b.cmds.any (fun i => (s.mat i).live)
      || (s.batchesOn core b.team b.handle b.off).head? ≠ some batch then s
    else
      let s := s.modCore core (fun c => { c with batches := c.batches.filter (· ≠ batch) })
      (s.setBatch batch {}).arriveAt b.grp b.team b.handle b.off 1 0 none)

/-! MYOKE and MSTAT (R319, R320). -/

/-- MYOKE REPORT (R319). -/
def execMyokeReport (w : W0) (s : State) : Out :=
  let g := s.grp
  let t := s.team g.team
  let x : Nat := (if s.yokeBound g.die g.core then 2 ^ 31 else 0) + (if g.core % 2 = 0 then 2 ^ 30 else 0)
    + (if t.yokeMode then 2 ^ 29 else 0) + yokePartner g.core * 2 ^ 16 + g.die * 2 ^ 8 + (2 ^ t.nacc - 1)
  .next (s.settledGuard w ((s.wrG w.d.toNat (BitVec.ofNat 32 x)).cont))

/-- BIND and UNBIND trap where the team is not in yoke mode or not on a leader (R301). -/
def State.yokeBad (s : State) : Bool :=
  let g := s.grp
  !(s.team g.team).yokeMode || g.core % 2 = 1

/-- A BIND or UNBIND that waits holds its slot; one that takes effect lets it go (R319). -/
def State.yokeWait (s : State) : State := (s.modGrp (fun g => { g with yokeHeld := some s.curB })).holdIssue
def State.yokeDone (s : State) (b : Bool) : State :=
  ((s.setYoke s.grp.die s.grp.core b).modGrp (fun g => { g with yokeHeld := none })).cont

/-- MYOKE UNBIND (R319). -/
def execMyokeUnbind (w : W0) (s : State) : Out :=
  let g := s.grp
  let busy := (s.coreAt (coreKey g.die g.core)).mat.any (fun i => (s.mat i).team = g.team)
  .next (s.settledGuard w (
    if s.yokeBad then s.raiseSlot cACC
    else if busy then s.yokeWait else s.yokeDone false))

/-- MYOKE BIND (R319). -/
def execMyokeBind (w : W0) (s : State) : Out :=
  let g := s.grp
  let busy := !(s.coreAt (coreKey g.die (yokePartner g.core))).mat.isEmpty
  .next (s.settledGuard w (
    if s.yokeBad then s.raiseSlot cACC
    else if busy then s.yokeWait else s.yokeDone true))

/-- The status word of a tile (R321). -/
def Team.tileStatus (t : Team) (n : Nat) : Nat :=
  let x := t.tile n
  if t.nacc ≤ n then 0
  else 2 ^ 31 + (if t.yokedGrant then 2 ^ 30 else 0) + (if x.dof then 16 else 0)
    + (if x.dnv then 8 else 0) + (if x.pois then 4 else 0) + (if x.of_ then 2 else 0)
    + (if x.nv then 1 else 0)

/-- MSTAT (R320). -/
def execMstat (w : W0) (s : State) : Out :=
  let g := s.grp
  let c := s.coreAt (coreKey g.die g.core)
  let d := w.d.toNat
  .next (s.settledGuard w (match w.a.toNat with
    | 0 =>
      let out := (c.mat.filter (fun i => (s.mat i).grp = s.cur)).length
      let x : Word := g.mstst ||| BitVec.ofNat 32
        (min g.unbatched.length 31 * 2 ^ 13 + out * 2 ^ 8 + (16 - c.mat.length))
      ((s.wrG d x).modGrp (fun g => { g with mstst := 0 })).cont
    | 1 => (s.wrG d (BitVec.ofNat 32 ((spareColumns g.die - c.columnsUsed) * 2 ^ 24
        + c.marked * 2 ^ 16 + min c.replay 0xFFFF))).cont
    | n => (s.wrG d (BitVec.ofNat 32 ((s.team g.team).tileStatus (n - 8)))).cont))

end Sys2Proof.Machine
end

