-- ==== Sys2Proof/Machine/Alloc.lean ====
section
/-!
DEFINITION. The allocation class, 0xE0 to 0xE4, the refresh engine and the remapping of rows and
columns (10_allocation R202, R206, R211 to R223; 14_matrix R325; 17_cold R391).
-/

namespace Sys2Proof.Machine

/-! Designators (R202). -/

/-- What a designator names: a handle's allocation, a class range, or nothing. -/
inductive Target where
  | handle (h : Nat) (a : Alloc)
  | range (i : Nat) (c : ClassRange)
  | nothing
deriving DecidableEq, Repr

def State.target (s : State) (desig : Nat) : Target :=
  if desig < 16 then
    let a := (s.team s.grp.team).alloc desig
    if a.bound then .handle desig a else .nothing
  else
    let c := s.grp.crs.getD (desig - 16) {}
    if c.valid then .range (desig - 16) c else .nothing

/-- Rows of an allocation. -/
def Alloc.nrows (a : Alloc) : Nat := a.size / 128

/-- The words of a row that are not readable. -/
def Alloc.deadWords (a : Alloc) (lc row : Nat) : Word :=
  if a.rowExpired lc row then BitVec.allOnes 32 else a.x.getD row 0

/-- Register rows of a class range. -/
def ClassRange.rows (c : ClassRange) : List Nat :=
  (List.range (c.last + 1 - c.first)).map (fun i => c.first + i)

/-- The words of a register's row that are not readable. -/
def Group.deadWords (g : Group) (lc n : Nat) : Word :=
  maskOf (fun L => g.unreadable lc n L)

/-! A change of lease (R206, R216). -/

/-- Rows expired under the old lease become stale word by word; of the others `stamp` sets the
stamp anew. -/
def Alloc.settleRows (a : Alloc) (lc : Nat) (stamp : Bool) : Alloc :=
  (List.range a.nrows).foldl (fun b row =>
    if a.rowExpired lc row then { b with x := b.x.set row (BitVec.allOnes 32) 0 }
    else if stamp then { b with st := b.st.set row lc b.st0 } else b) a

def Group.settleRows (g : Group) (lc : Nat) (c : ClassRange) (stamp : Bool) : Group :=
  c.rows.foldl (fun b n =>
    if expiredAt lc (g.vst.getD n 0) c.lease then { b with vx := b.vx.set n (BitVec.allOnes 32) 0 }
    else if stamp then { b with vst := b.vst.set n lc 0 } else b) g

def Group.setRange (g : Group) (i : Nat) (c : ClassRange) : Group := { g with crs := g.crs.set i c {} }

/-- The lease a group-wide register gives. -/
def leaseOf (x : Word) : Nat := x.toNat % 2 ^ 16

/-! ALLOC (R214). -/

/-- The record a table entry gives, 0 for a poisoned line, or the cause of a translation fault with
its address (08_formats R152). -/
def State.fmtCapture (s : State) (ctx die i : Nat) : State × Except (Nat × Nat) DWord :=
  let va := s.fmtEntry ctx i
  if i = 0 then (s, .ok 0)
  else match s.translate ctx die va .r (some s.grp.core) with
    | (s, .error c) => (s, .error (c, va))
    | (s, .ok x) =>
      if s.linePois x.attr.home x.pk then (s, .ok 0)
      else
        let (s, b) := s.readHome die (x.pk / 16) x.attr false
        (s, .ok (fmKeep (BitVec.ofNat 64 (vbytesNat ((b.drop (x.pk % 16)).take 8)))))

/-- The status of an ALLOC. -/
def State.allocStatus (s : State) (h z k f : Nat) (rec_ : DWord) : Nat :=
  let t := s.team s.grp.team
  if (t.alloc h).bound then 1
  else if z = 0 || z % 4096 ≠ 0 || 2 ^ 23 < z then 3
  else if k = 3 then 4
  else if f ≠ 0 && !fmOk rec_ then 5
  else if t.reserve < z / 128 then 2
  else 0

/-- A fresh allocation of the issuing group. -/
def State.newAlloc (s : State) (z k f : Nat) (rec_ : DWord) (lease : Nat) : Alloc :=
  { size := z, cls := k, fmtIdx := f, record := rec_, owner := s.cur, lease, st0 := s.lat.lc }

/-- ALLOC (R214). -/
def execAlloc (w : W0) (r : RRaw) (s : State) : Out :=
  let k := (r.m16.extractLsb' 0 2).toNat
  let st := (r.m16.extractLsb' 10 6).toNat
  let h := w.d.toNat
  .next (if !s.guardW w then s.cont
    else match s.fmtCapture s.grp.ctx s.grp.die r.c.toNat with
      | (s, .error (c, va)) => s.parkFault c s.slot.act (BitVec.ofNat 64 va)
      | (s, .ok rec_) =>
        let z := (s.rdG w.a.toNat).toNat
        let lease := leaseOf (s.rdG r.b.toNat)
        let status := s.allocStatus h z k r.c.toNat rec_
        let s := if status = 0 then
            s.modTeam s.grp.team (fun t =>
              { t.setAlloc h (s.newAlloc z k r.c.toNat rec_ lease) with reserve := t.reserve - z / 128 })
          else s
        ((s.wrG st (BitVec.ofNat 32 status)).wrGP 0 (status = 0)).cont)

/-! FREE (R215). -/

/-- A copy command names a handle of its team. -/
def CopyCmd.names (c : CopyCmd) (h : Nat) : Bool :=
  (c.sk ≠ 0 && c.sh = h) || (c.dk ≠ 0 && c.dh = h) || (c.bv && c.bh = h) || (c.cv && c.ch = h)
    || (c.kind = 3 && c.ih = h)

/-- A matrix command names a handle of its team. -/
def MatCmd.names (c : MatCmd) (h : Nat) : Bool :=
  c.handle = h && (c.kind ≠ 2) && (c.kind ≠ 4 || c.dk)

/-- A range lock covers an allocation, or an engine command of the team names it. -/
def State.allocBusy (s : State) (tk h : Nat) : Bool :=
  let t := s.team tk
  (s.coreAt (coreKey t.die t.core)).locks.any (fun r => !r.mem && r.team = tk && r.handle = h && r.lo < r.hi)
    || s.copies.any (fun e => e.2.live && e.2.team = tk && e.2.names h)
    || s.mats.any (fun e => e.2.live && e.2.team = tk && e.2.names h)

/-- FREE (R215). -/
def execFree (w : W0) (s : State) : Out :=
  let h := w.a.toNat
  let s := s.landSts h
  .next (if !s.guardW w then s.cont
    else
      let tk := s.grp.team
      let a := (s.team tk).alloc h
      if !a.bound then s.cont
      else if s.allocBusy tk h then s.holdIssue
      else ((s.landTeamSts tk h).modTeam tk (fun t => { t.setAlloc h {} with reserve := t.reserve + a.nrows })).cont)

/-! RENEW, AQRY, RECLASS. -/

/-- RENEW (R216). -/
def execRenew (w : W0) (s : State) : Out :=
  let s := s.landSts w.d.toNat
  .next (s.groupExec w (fun s =>
    let lease := leaseOf (s.rdG w.a.toNat)
    match s.target w.d.toNat with
    | .nothing => s
    | .handle h a =>
      let a := if a.cls = 0 then a else a.settleRows (s.issueClock a) true
      s.setAlloc s.grp.team h { a with lease }
    | .range i c =>
      s.modGrp (fun g =>
        let g := if c.cls = 0 then g else g.settleRows s.lat.lc c true
        g.setRange i { c with lease })))

/-- The first word of AQRY: bound, class, the rows' state, the format index and the lease left.
`rows` are (stamp, expired, words not readable). -/
def aqryState (cls fmt lease lc : Nat) (rows : List (Nat × Bool × Word)) : Word :=
  let live := rows.filter (fun r => !r.2.1 && r.2.2 ≠ BitVec.allOnes 32)
  let left := match live.map (fun r => r.1 + lease - lc) with
    | [] => 0
    | x :: t => t.foldl min x
  BitVec.ofNat 32 (2 ^ 31 + cls * 2 ^ 29
    + (if cls ≠ 0 && rows.any (fun r => r.2.1 || r.2.2 ≠ 0) then 2 ^ 28 else 0)
    + (if cls ≠ 0 && rows.all (fun r => r.2.2 = BitVec.allOnes 32) then 2 ^ 27 else 0)
    + fmt % 256 * 2 ^ 16 + (if cls = 0 then 0xFFFF else left % 2 ^ 16))

/-- The second word of AQRY: the lease and the size. -/
def aqrySize (cls lease size : Nat) : Word :=
  BitVec.ofNat 32 ((if cls = 0 then 0xFFFF else lease) * 2 ^ 16 + size % 2 ^ 16)

/-- AQRY (R217). -/
def execAqry (w : W0) (s : State) : Out :=
  let s := s.landSts w.a.toNat
  .next (s.groupExec w (fun s =>
    let d := w.d.toNat
    match s.target w.a.toNat with
    | .nothing => (s.wrG d 0).wrG (d + 1) 0
    | .handle _ a =>
      let lc := s.issueClock a
      let rows := (List.range a.nrows).map (fun i =>
        (a.st.getD i a.st0, a.rowExpired lc i, a.deadWords lc i))
      (s.wrG d (aqryState a.cls a.fmtIdx a.lease lc rows)).wrG (d + 1)
        (aqrySize a.cls a.lease (a.size / 4096))
    | .range _ c =>
      let lc := s.lat.lc
      let g := s.grp
      let rows := c.rows.map (fun n =>
        (g.vst.getD n 0, expiredAt lc (g.vst.getD n 0) c.lease, g.deadWords lc n))
      (s.wrG d (aqryState c.cls 0 c.lease lc rows)).wrG (d + 1) (aqrySize c.cls c.lease c.rows.length)))

/-- The rows of an allocation whose class changes (R218). -/
def Alloc.relabel (a : Alloc) (lc k : Nat) : Alloc :=
  if a.cls = 0 && k ≠ 0 then { a with cls := k, st := [], st0 := lc, x := [] }
  else if k = 0 then
    { a with
      cls := 0, x := []
      data := a.data.filter (fun e => !a.unreadable lc e.1)
      pois := a.pois.filter (fun e => !a.unreadable lc (4 * e.1)) }
  else { a.settleRows lc false with cls := k }

/-- Words of register rows made zero and readable. -/
def Group.zeroWords (g : Group) (lc : Nat) (ns : List Nat) : Group :=
  ns.foldl (fun b n =>
    let dead := g.deadWords lc n
    let b := (lanesOf dead).foldl (fun b L => b.vput n L 0) b
    { b with vx := b.vx.set n 0 0, vpois := b.vpois.set n (b.vpois.getD n 0 &&& ~~~dead) 0 }) g

/-- The rows of a class range whose class changes (R218). -/
def Group.relabel (g : Group) (lc : Nat) (c : ClassRange) (k : Nat) : Group :=
  if c.cls = 0 && k ≠ 0 then
    c.rows.foldl (fun b n => { b with vst := b.vst.set n lc 0, vx := b.vx.set n 0 0 }) g
  else if k = 0 then (if c.cls = 0 then g else g.zeroWords lc c.rows)
  else g.settleRows lc c false

/-- RECLASS once its record is captured. -/
def State.reclass (s : State) (desig k : Nat) (lease : Nat) (fmt : Option (Nat × DWord)) : State :=
  let bad := k = 3 || (match fmt with | some (i, rec_) => i ≠ 0 && !fmOk rec_ | none => false)
  match s.target desig with
  | .nothing => s.wrGP 0 false
  | .handle h a =>
    if bad then s.wrGP 0 false
    else
      let s := if fmt.isSome then s.landTeamSts s.grp.team h else s
      let a := if fmt.isSome then (s.team s.grp.team).alloc h else a
      let a := { a.relabel (s.issueClock a) k with lease }
      let a := match fmt with | some (i, rec_) => { a with fmtIdx := i, record := rec_ } | none => a
      (s.setAlloc s.grp.team h a).wrGP 0 true
  | .range i c =>
    if bad then s.wrGP 0 false
    else (s.modGrp (fun g => (g.relabel s.lat.lc c k).setRange i { c with cls := k, lease })).wrGP 0 true

/-- RECLASS (R218). -/
def execReclass (w : W0) (r : RRaw) (s : State) : Out :=
  let s := s.landSts w.d.toNat
  let k := (r.m16.extractLsb' 0 2).toNat
  let lease := leaseOf (s.rdG w.a.toNat)
  .next (if !s.guardW w then s.cont
    else if !r.m16.getLsbD 2 then (s.reclass w.d.toNat k lease none).cont
    else match s.fmtCapture s.grp.ctx s.grp.die r.c.toNat with
      | (s, .error (c, va)) => s.parkFault c s.slot.act (BitVec.ofNat 64 va)
      | (s, .ok rec_) => (s.reclass w.d.toNat k lease (some (r.c.toNat, rec_))).cont)

/-! Refresh and repair (R220, R223; 14_matrix R325; 17_cold R391). -/

/-- A row that the refresh engine of a core keeps (R220): a register row, a row of a handle, an entry of a
team write buffer or of a store buffer, or a divergence cache. -/
inductive KeptRow where
  | reg (gk n : Nat)
  | spad (tk h row : Nat)
  | twb (tk i : Nat)
  | gsb (gk i : Nat)
  | div (gk : Nat)
deriving DecidableEq, Repr

/-- The lease clock of a group's registers, read by the refresh engine. -/
def State.rowClock (s : State) (gk : Nat) : Nat := s.clockOf (s.group gk)

/-- The rows kept on a core: of class 1 and 2 those with a readable word (R220). -/
def State.keptRows (s : State) (core : Nat) : List KeptRow :=
  let gs := s.groups.filter (fun e => e.2.live && !e.2.away && coreKey e.2.die e.2.core = core)
  let ts := s.teams.filter (fun e => e.2.live && !e.2.away && coreKey e.2.die e.2.core = core)
  gs.flatMap (fun e =>
    ((List.range e.2.nreg).filter (fun n => e.2.deadWords (s.clockOf e.2) n ≠ BitVec.allOnes 32)).map (.reg e.1)
      ++ (List.range e.2.gsb.length).map (.gsb e.1) ++ [.div e.1])
  ++ ts.flatMap (fun e =>
    e.2.handles.flatMap (fun x => ((List.range x.2.nrows).filter (fun r =>
        x.2.deadWords (s.allocClock e.1 x.2 none) r ≠ BitVec.allOnes 32)).map (.spad e.1 x.1))
      ++ (List.range e.2.twb.length).map (.twb e.1))

/-- The words of a row that an error could be met in: the readable ones; the four of a buffer's sector. -/
def State.keptWords (s : State) : KeptRow → List Nat
  | .reg gk n => (List.range 32).filter (fun L => !(s.group gk).unreadable (s.rowClock gk) n L)
  | .spad tk h row =>
    let a := (s.team tk).alloc h
    (List.range 32).filter (fun i => !a.unreadable (s.allocClock tk a none) (128 * row + 4 * i))
  | .twb _ _ => List.range 4
  | .gsb _ _ => List.range 4
  | .div _ => []

/-- What a check of a word finds: nothing, a correctable error, a transient one, a lasting one; or, from 4 on,
nothing yet, the word's cells failing afterwards so that the next read finds one of the three. The manual
leaves open when cells fail: a free choice of each word. -/
def State.wordError (s : State) (w : Nat) : Nat := (Config.freeWord s.freeCtr (2 ^ 43 + w)).toNat % 7

/-- A word of a buffer's entry poisoned. -/
def SecEntry.poisonWord (e : SecEntry) (w : Nat) : SecEntry :=
  { e with cells := e.cells.map (fun c => (c.1, if c.1 / 4 = w then { c.2 with pois := true } else c.2)) }

/-- A lasting error at a word of a row: the word is poisoned, and the row queued for remapping; of a buffer
the bytes are poisoned (R222, R223). -/
def State.lastingAt (s : State) (core : Nat) (r : KeptRow) (w : Nat) : State :=
  let at_ (l : List SecEntry) (i : Nat) : List SecEntry := mapI l (fun j e => if j = i then e.poisonWord w else e)
  match r with
  | .reg gk n => (s.modGroup gk (fun g => { g with
      vpois := g.vpois.set n (g.vpois.getD n 0 ||| maskOf (· = w)) 0 })).queueRow core ((s.group gk).team * 32 + 16) n
  | .spad tk h row =>
    let a := (s.team tk).alloc h
    (s.setAlloc tk h { a with pois := a.pois.set (32 * row + w) true false }).queueRow core (tk * 32 + h) row
  | .twb tk i => s.modTeam tk (fun t => { t with twb := at_ t.twb i })
  | .gsb gk i => s.modGroup gk (fun g => { g with gsb := at_ g.gsb i })
  | .div _ => s

/-- Cells of a word of a register or scratchpad row that have failed and that no read has met yet (R222). -/
def State.armAt (s : State) (core : Nat) (r : KeptRow) (w kind : Nat) : State :=
  match r with
  | .reg gk n => s.modCore core (fun c => { c with
      armed := c.armed ++ [{ site := 0, at_ := armKey gk n w, kind, cell := true }] })
  | .spad tk h row =>
    let a := (s.team tk).alloc h
    s.setAlloc tk h { a with arm := a.arm.set (32 * row + w) (kind + 1) 0 }
  | _ => s

/-- The context a kept row belongs to. -/
def State.keptCtx (s : State) : KeptRow → Nat
  | .reg gk _ | .gsb gk _ | .div gk => (s.group gk).ctx
  | .spad tk _ _ | .twb tk _ => (s.team tk).ctx

/-- The error found at a word of a row counted, and acted on (R222; 15_system R356). -/
def State.meetWord (s : State) (core : Nat) (r : KeptRow) (w k : Nat) : State :=
  match k with
  | 0 => s
  | 1 => s.countCore core 0x0D (s.keptCtx r) 1
  | 2 => s.countCore core 0x0E (s.keptCtx r) 1
  | 3 => (s.countCore core 0x0F (s.keptCtx r) 1).lastingAt core r w
  | k => s.armAt core r w (k - 4)

/-- REFRESH (R220, R222): a row that the core keeps, by its place among them, rewritten with what it holds,
and the errors met in its words; reads meet others (`State.meetRegs`, `State.meetSpad`). -/
def execRefresh (core row : Nat) (s : State) : Out :=
  .next (match (s.keptRows core)[row]? with
    | none => s
    | some r =>
      (s.keptWords r).foldl (fun t w => t.meetWord core r w (s.wordError w))
        (s.countCore core 0x11 (s.keptCtx r) 1))

/-- A row queued for remapping is still held. -/
def State.rowHeld (s : State) (unit : Nat) : Bool :=
  let t := s.team (unit / 32)
  t.live && !t.away && (16 ≤ unit % 32 || (t.alloc (unit % 32)).bound)

/-- ROW REMAP (R223). The repair names as the old location the row's index within its registers or its
allocation and as the new one how many spares were used before: the model's numbering, the manual giving
rows none (log entry 68). -/
def execRowRemap (core : Nat) (s : State) : Out :=
  let c := s.coreAt core
  .next (match c.rowRemaps.find? (fun e => !s.rowHeld e.1) with
    | none => s
    | some e =>
      let c := { c with rowRemaps := c.rowRemaps.erase e }
      if c.sparesUsed < 1024 then
        (s.setCore core { c with sparesUsed := c.sparesUsed + 1 }).appendRepair
          { type_ := 2, die := core / 256, unit_ := core % 256, old := e.2, new := c.sparesUsed }
      else s.setCore core { c with withdrawn := c.withdrawn + 1 })

/-- The array of a core is idle, with its partner's when they are bound. -/
def State.arrayIdle (s : State) (core : Nat) : Bool :=
  let idle (k : Nat) : Bool := (s.coreAt k).mat.isEmpty
  idle core && (!s.yokeBound (core / 256) (core % 256)
    || idle (coreKey (core / 256) (yokePartner (core % 256))))

/-- COLUMN REMAP (14_matrix R325). -/
def execColumnRemap (core : Nat) (s : State) : Out :=
  let c := s.coreAt core
  .next (if c.marked = 0 || !s.arrayIdle core || spareColumns (core / 256) ≤ c.columnsUsed then s
    else
      (s.setCore core { c with columnsUsed := c.columnsUsed + 1, marked := c.marked - 1 }).appendRepair
        { type_ := 3, die := core / 256, unit_ := core % 256, new := c.columnsUsed })

end Sys2Proof.Machine
end

