-- ==== Sys2Proof/Machine/Lifecycle.lean ====
section
/-!
DEFINITION. Teams and groups from placement to retirement: what a core has room for, how clusters
are placed, how a group retires and what ends with it, and how a group is killed (15_system R334 to
R339; 01_machine R10, R12, R14, R15, R17, R18; 03_groupwide R50; 04_control R64, R79, R85;
11_visibility R229).
-/

namespace Sys2Proof.Machine

/-! Room on a core (01_machine R12, 15_system R335). -/

/-- Teams resident on a core. -/
def State.teamsOn (s : State) (die core : Nat) : List (Nat × Team) :=
  s.teams.filter (fun e => e.2.live && !e.2.away && e.2.die = die && e.2.core = core)

/-- Groups resident on a core. -/
def State.groupsOn (s : State) (die core : Nat) : List (Nat × Group) :=
  s.groups.filter (fun e => e.2.live && !e.2.away && e.2.die = die && e.2.core = core)

/-- What a team asks of a core. -/
structure Need where
  ngrp : Nat := 1
  rows : Nat := 0
  quota : Nat := 0
  nacc : Nat := 0
  yoke : Bool := false
  /-- It stands at an even cluster column. -/
  even : Bool := true
deriving DecidableEq, Repr

/-- Tiles the team is granted (14_matrix R300). -/
def Need.tiles (n : Need) : Nat := if n.yoke && !n.even then 0 else n.nacc

/-- Rows a team takes (R335). -/
def Launch.rows (l : Launch) : Nat :=
  l.ngrp * (l.nreg + 1 + 2 * (l.gsb / 16))
    + 32 * (((List.range 4).map (fun k => l.f (10 + k) 0 16)).sum + l.f 14 0 16)

def Launch.need (l : Launch) (px : Nat) : Need :=
  { ngrp := l.ngrp, rows := l.rows, quota := l.quota, nacc := l.nacc, yoke := l.yoke, even := px % 2 = 0 }

/-- Rows a core offers (R12; 10_allocation R223). -/
def State.coreRows (s : State) (die core : Nat) : Nat :=
  (if s.hostsMiller die core then 117632 else 117760) - (s.coreAt (coreKey die core)).withdrawn

/-- Group slots of a port that are free (R9, R12). That the slot a Miller's core reserves on port 3 is
number 511 is the model's choice: R12 does not say which (log entry 64). -/
def State.freeSlots (s : State) (die core port : Nat) : List Nat :=
  let used := ((s.groupsOn die core).filter (fun e => e.2.port = port)).map (·.2.gslot)
  let n := if port = 3 && s.hostsMiller die core then 511 else 512
  (List.range n).filter (fun i => !used.contains i)

/-- Groups of a team that go to a port from a base port (R10). -/
def onPort (ngrp base port : Nat) : Nat :=
  ((List.range ngrp).filter (fun g => (base + g) % 4 = port)).length

/-- The base port: the lowest-numbered for which every port reached has the slots (R335). -/
def State.basePort (s : State) (die core ngrp : Nat) : Option Nat :=
  (List.range 4).find? (fun b =>
    (List.range 4).all (fun p => onPort ngrp b p ≤ (s.freeSlots die core p).length))

/-- The tile numbers in use on a core: its own teams' grants, and those yoked from its leader (R300). -/
def State.tilesUsed (s : State) (die core : Nat) : List Nat :=
  (s.teamsOn die core).flatMap (·.2.tileNos)
    ++ (if core % 2 = 1 then
        ((s.teamsOn die (yokeLeader core)).filter (fun e => e.2.yokedGrant)).flatMap (·.2.tileNos)
       else [])

/-- The tile numbers a grant can take on a core: free there, and for a yoked grant on the follower too
(R18, R300). -/
def State.tilesFree (s : State) (die core : Nat) (yoke : Bool) : List Nat :=
  let used := s.tilesUsed die core ++ (if yoke then s.tilesUsed die (core + 1) else [])
  (List.range 8).filter (fun n => !used.contains n)

/-- The tile numbers a grant takes. That they are the lowest is the model's choice: no program sees them
(R300; log entry 64). -/
def State.grantTiles (s : State) (die core : Nat) (n : Need) : List Nat :=
  (s.tilesFree die core n.yoke).take n.tiles

/-- A team that asks for tiles finds them (R18, R335). -/
def State.tilesFit (s : State) (die core : Nat) (n : Need) : Bool :=
  n.tiles = 0 || (n.tiles ≤ (s.tilesFree die core n.yoke).length && !(core % 2 = 1 && s.yokeBound die core))

/-- A team fits on a core (R335), private windows aside. -/
def State.fits (s : State) (die core : Nat) (n : Need) : Bool :=
  let on := s.teamsOn die core
  s.corePresent die core
    && (!n.yoke || s.corePresent die (yokePartner core))
    && (s.basePort die core n.ngrp).isSome
    && (on.map (·.2.rows)).sum + n.rows ≤ s.coreRows die core
    && (on.map (·.2.quota)).sum + n.quota ≤ 8192
    && s.tilesFit die core n

/-! Private windows (R338). -/

/-- The windows of a context that no group holds, ascending. -/
def State.freeWindows (s : State) (ctx : Nat) : List Nat :=
  let used := (s.groups.filter (fun e => e.2.live && e.2.ctx = ctx)).map (·.2.window)
  (List.range (bitsOf (s.cr ctx 0x10).toNat 16 16)).filter (fun i => !used.contains i)

/-! Placing a team (R334, R335; 03_groupwide R50; 04_control R64). -/

/-- The lease clock at a placement (10_allocation R206). -/
def State.clockAt (s : State) (l : Launch) (die : Nat) : Nat :=
  if l.count then 0 else s.dieTime die / 64

/-- The class ranges a launch record declares (10_allocation R201). -/
def Launch.ranges (l : Launch) : SMap ClassRange :=
  (List.range 4).filterMap (fun k =>
    if l.f (6 + k) 18 1 = 1 then
      some (k, { valid := true, first := l.f (6 + k) 0 8, last := l.f (6 + k) 8 8
                 cls := l.f (6 + k) 16 2, lease := 0xFFFF })
    else none)

/-- The preset allocations, owned by the team's group 0 (10_allocation R204, R206). -/
def Launch.presetAllocs (l : Launch) (owner clock : Nat) : SMap Alloc :=
  (List.range 4).filterMap (fun k =>
    if l.f (10 + k) 0 16 = 0 then none
    else some (k, { size := 4096 * l.f (10 + k) 0 16, cls := l.f (10 + k) 16 2
                    fmtIdx := l.f (10 + k) 18 8, record := l.presets.getD k 0
                    owner, lease := 0xFFFF, st0 := clock }))

/-- The lanes of a group that a launch populates: those of its work items, or every lane of a launch
with an item queue (R334). -/
def Launch.lanesOfGroup (l : Launch) (team g : Nat) : Word :=
  maskOf (fun L => l.items || l.lanes = 0 || 32 * (team * l.ngrp + g) + L < l.lanes)

/-- The team index (x, y, z) of a linear index (01_machine R14). -/
def Launch.teamX (l : Launch) (i : Nat) : Nat := i % l.gridX
def Launch.teamY (l : Launch) (i : Nat) : Nat := i / l.gridX % l.gridY
def Launch.teamZ (l : Launch) (i : Nat) : Nat := i / l.gridX / l.gridY

/-- A table with words at consecutive keys. -/
def wordTable (ws : List (Nat × Word)) : SMap Word := ws.foldl (fun m e => m.set e.1 e.2 0) []

/-- The group-wide registers at launch (03_groupwide R50). -/
def Launch.gInit (l : Launch) (team g px py : Nat) : SMap Word :=
  wordTable [(0, l.w 16), (1, l.w 17), (2, BitVec.ofNat 32 (l.teamX team)),
    (3, BitVec.ofNat 32 (l.teamY team * 2 ^ 16 + l.teamZ team)), (4, BitVec.ofNat 32 g),
    (5, BitVec.ofNat 32 (py * 2 ^ 16 + px))]

/-- The lane registers v0 and v1 at launch (R334, 03_groupwide R50). -/
def Launch.vInit (l : Launch) (team g : Nat) : SMap Word :=
  wordTable ((List.range 32).map (fun L => (L, BitVec.ofNat 32 L))
    ++ (List.range 32).map (fun L =>
      (32 + L, if l.items then 0 else BitVec.ofNat 32 (32 * (team * l.ngrp + g) + L))))

/-- The stamps of the class ranges' rows at launch (10_allocation R206). -/
def Launch.stamps (l : Launch) (clock : Nat) : SMap Nat :=
  l.ranges.foldl (fun m e => e.2.rows.foldl (fun m n => m.set n clock 0) m) []

/-- A group as placement makes it (R334; 04_control R64). One without a populated lane has no path
and retires at once, unless its launch has an item queue. -/
def Launch.newGroup (l : Launch) (t : Team) (lk tk g port slot window clock : Nat) : Group :=
  let pop := l.lanesOfGroup t.idx g
  let lanes : Word := if l.items then 0 else pop
  { live := true, launch := lk, team := tk, gidx := g, ctx := l.ctx, die := t.die, core := t.core
    port := port, gslot := slot, nreg := l.nreg, populated := pop, count := l.count, fpte := l.fpte
    window := window
    slotA := if l.items || pop ≠ 0 then { v := true, pc := l.entry, own := lanes, act := lanes, nj := true }
             else {}
    g := l.gInit t.idx g t.px t.py, v := l.vInit t.idx g, crs := l.ranges, vst := l.stamps clock
    workidx := wordTable ((List.range 32).map (fun L =>
      (L, if l.items then 0 else BitVec.ofNat 32 (32 * (t.idx * l.ngrp + g) + L))))
    gsbCap := l.gsb }

/-- The groups of a team given ports, slots and windows, ascending (R10, R338). -/
def State.placeGroups (s : State) (l : Launch) (lk tk clock base : Nat) : List Nat → State
  | [] => s
  | g :: rest =>
    let t := s.team tk
    let port := (base + g) % 4
    let slot := (s.freeSlots t.die t.core port).headD 0
    let window := (s.freeWindows l.ctx).headD 0
    let (gk, s) := s.fresh
    let s := s.setGroup gk (l.newGroup t lk tk g port slot window clock)
    s.placeGroups l lk tk clock base rest

/-- A team comes to a core: it sees no L1 line filled before (11_visibility R239). -/
def State.freshThreshold (s : State) (tk : Nat) : State :=
  let t := s.team tk
  let ck := coreKey t.die t.core
  let n := (s.coreAt ck).fillCtr + 1
  (s.modCore ck (fun c => { c with fillCtr := n })).modTeam tk (fun t => { t with l1thr := n, arrThr := n })

/-- The team at a position of a cluster placed on a core. -/
def State.placeTeam (s : State) (lk ck idx die core px py : Nat) : State :=
  let l := s.launch lk
  let (tk, s) := s.fresh
  let base := (s.basePort die core l.ngrp).getD 0
  let clock := s.clockAt l die
  let need := l.need px
  let t : Team := {
    live := true, launch := lk, idx, ctx := l.ctx, die, core, ngrp := l.ngrp, base, cluster := ck
    px, py, reserve := 32 * l.f 14 0 16, rows := l.rows, quota := l.quota
    nacc := need.tiles, tileNos := s.grantTiles die core need, yokeMode := l.yoke, yokeBound := l.yoke && px % 2 = 0
    leftGroups := l.ngrp }
  let owner := s.nextId
  let s := (s.setTeam tk { t with handles := l.presetAllocs owner clock }).freshThreshold tk
  let s := if t.yokeBound then s.setYoke die core true else s
  s.placeGroups l lk tk clock base (List.range l.ngrp)

/-! Placing a cluster (01_machine R15, R17; R336). -/

/-- The present positions of a cluster: its index within it, and its column and row. -/
def Launch.positions (l : Launch) (c : Nat) : List (Nat × Nat × Nat) :=
  (List.range l.area).filterMap (fun i =>
    if c * l.area + i < l.teams then some (i, i % l.clw, i / l.clw) else none)

/-- A core of a rectangle. -/
def rectCore (die base px py : Nat) : Nat := base + py * dieCols die + px

/-- A cluster fits on the rectangle whose lower-left core is `base`. -/
def State.rectFits (s : State) (l : Launch) (die base c : Nat) : Bool :=
  let cols := dieCols die
  base % cols + l.clw ≤ cols && base / cols + l.clh ≤ 8 && (!l.yoke || base % cols % 2 = 0)
    && (l.positions c).all (fun p => s.fits die (rectCore die base p.2.1 p.2.2) (l.need p.2.1))

/-- The first rectangle that fits (R336). -/
def State.findRect (s : State) (l : Launch) (die c : Nat) : Option Nat :=
  if (s.freeWindows l.ctx).length < (l.positions c).length * l.ngrp then none
  else (List.range (dieCores die)).find? (fun b => s.rectFits l die b c)

/-- The dies clusters go to in turn, cluster 0 first (R15). -/
def Launch.dieOf (l : Launch) (c : Nat) : Nat := l.dies.getD (c % l.dies.length) 0

/-- The next cluster of a launch for a die, if one is unplaced. -/
def Launch.nextOn (l : Launch) (die : Nat) : Option Nat :=
  match l.dies.findIdx? (· = die) with
  | none => none
  | some p =>
    let c := p + l.dies.length * l.placed.getD die 0
    if c < l.clusters then some c else none

/-- Cluster `c` of a launch placed on a rectangle of a die. -/
def State.placeCluster (s : State) (lk die c base : Nat) : State :=
  let l := s.launch lk
  let (ck, s) := (s.timeMsg commons die).fresh
  let pos := l.positions c
  let cl : Cluster := { live := true, launch := lk, idx := c, ctx := l.ctx, die
                        x0 := base % dieCols die, y0 := base / dieCols die
                        w := l.clw, h := l.clh, leftTeams := pos.length }
  let s := s.setCluster ck cl
  let s := s.modLaunch lk (fun l => { l with
    placed := l.placed.set die (l.placed.getD die 0 + 1) 0, failSince := l.failSince.set die 0 0 })
  pos.foldl (fun s p => s.placeTeam lk ck (c * l.area + p.1) die (rectCore die base p.2.1 p.2.2)
    p.2.1 p.2.2) s

/-! The end of a group (04_control R85, 11_visibility R229). -/

/-- A group has no path left and nothing outstanding: it retires. -/
def Group.ended (g : Group) : Bool :=
  g.live && !g.away && !g.slotA.v && !g.slotB.v && g.records = 0 && (g.rp.isNone || g.killed)
    && g.pend.isEmpty && g.trapPend.isNone && g.park.isNone

/-- The fault-buffer entries of a group's instructions freed, and its waiters gone. -/
def State.freeFaultsOf (s : State) (gk : Nat) : State :=
  let g := s.group gk
  s.modCore (coreKey g.die g.core) (fun c => { c with
    faults := c.faults.filter (fun e => !(!e.2.engine && e.2.grp = gk))
    waiters := c.waiters.filter (fun w => !(!w.engine && w.grp = gk)) })

/-- Items in ascending order of their positions (R342). -/
def sortItems (l : List (Word × Nat)) : List (Word × Nat) :=
  l.foldl (fun acc x => acc.takeWhile (fun y => y.2 ≤ x.2) ++ [x] ++ acc.dropWhile (fun y => y.2 ≤ x.2)) []

/-- Items of a launch's queue on a core go back to the command processor when no team of it is left
there (R342): a message from the core's die carries them. -/
def State.returnItems (s : State) (lk die core : Nat) : State :=
  let k := coreKey die core
  let q := ((s.coreAt k).items.getD lk {}).items
  if q.isEmpty || (s.teamsOn die core).any (fun e => e.2.launch = lk) then s
  else
    let s := (s.modCore k (fun c => { c with items := c.items.set lk {} {} })).timeMsg die commons
    s.modLaunch lk (fun l => { l with returned := sortItems (l.returned ++ q) })

/-- The last team of a cluster has ended: its merge area is committed to DEV. -/
def State.endCluster (s : State) (ck : Nat) : State := (s.pushDev ck).setCluster ck {}

/-- A context without a placed or swapped-out team uses the present values of its registers alone
(15_system R327). -/
def State.forgetOld (s : State) (ctx : Nat) : State :=
  if s.ctxTeams ctx then s else { s with cregOld := s.cregOld.filter (fun e => e.1 / 32 ≠ ctx) }

/-- The last group of a team has ended: its write buffer is committed to CLUS, its handles and
resources are freed. -/
def State.endTeam (s : State) (tk : Nat) : State :=
  let t := s.team tk
  let s := (((s.pushClus tk).setTeam tk {}).forgetOld t.ctx).timeMsg t.die commons
  let s := s.modLaunch t.launch (fun l => { l with retired := l.retired + 1 })
  let s := s.returnItems t.launch t.die t.core
  let s := { s with batches := s.batches.filter (fun e => e.2.team ≠ tk) }
  let c := s.cluster t.cluster
  if c.leftTeams ≤ 1 then s.endCluster t.cluster
  else s.setCluster t.cluster { c with leftTeams := c.leftTeams - 1 }

/-- The count of a retired owner stands still in count mode (10_allocation R204). -/
def State.freezeClocks (s : State) (gk : Nat) : State :=
  let g := s.group gk
  if !g.count then s
  else s.modTeam g.team (fun t => { t with
    handles := t.handles.map (fun e =>
      (e.1, if e.2.owner = gk then { e.2 with frozen := some g.issued } else e.2)) })

/-- The operand-store rows of a group's own: registers, record cache, GSB (01_machine R12). -/
def Group.ownRows (g : Group) : Nat := g.nreg + 1 + 2 * (g.gsbCap / 16)

/-- A group retires (R85, R229): its rows are free. -/
def State.retire (s : State) (gk : Nat) : State :=
  let g := s.group gk
  let s := ((s.pushTeam gk).freezeClocks gk).freeFaultsOf gk
  let s := s.setGroup gk {}
  let t := s.team g.team
  if t.leftGroups ≤ 1 then s.endTeam g.team
  else s.setTeam g.team { t with leftGroups := t.leftGroups - 1, rows := t.rows - g.ownRows }

/-- GROUP RETIRE (R85). -/
def execGroupRetire (grp : Nat) (s : State) : Out :=
  .next (if (s.group grp).ended then s.retire grp else s)

/-- Every lane of a group is killed (R349; 04_control R79). -/
def State.killGroup (s : State) (gk : Nat) : State :=
  let s := s.freeFaultsOf gk
  let s := s.modGroup gk (fun g => { g with
    slotA := {}, slotB := {}, recs := [], spilled := 0, xs := 0, rp := none, traps := []
    trapPend := none, park := none, killed := true })
  s.modLaunch (s.group gk).launch (fun l => { l with killed := true })

end Sys2Proof.Machine
end

