-- ==== Sys2Proof/Machine/Swap.lean ====
section
/-!
DEFINITION. Pre-emption: which teams leave a core and when, and how they come back (15_system R351
to R353; 14_matrix R324; 13_copy R297; 12_atomics_barriers R263, R275; 10_allocation R219). A team
that is away keeps its record; the rows and tiles of its image are in memory too, and come back from
there.
-/

namespace Sys2Proof.Machine

/-! The save pool (R327, R353). -/

/-- The lowest free slot of a context's save pool. -/
def State.freeSave (s : State) (ctx : Nat) : Option Nat :=
  let used := (s.teams.filter (fun e => e.2.live && e.2.ctx = ctx && (e.2.away || e.2.leaving))).map
    (·.2.saveSlot)
  (List.range (bitsOf (s.cr ctx 0x13).toNat 0 16)).find? (fun i => !used.contains i)

/-- A team is chosen to leave: it needs a free slot of its context's pool that holds its image, and a
core that is not halted (R351). -/
def State.evict (s : State) (tk : Nat) : State :=
  let t := s.team tk
  if !t.live || t.away || t.leaving || (s.coreAt (coreKey t.die t.core)).halted
      || 65536 * bitsOf (s.cr t.ctx 0x13).toNat 16 16 < s.imageSize tk then s
  else match s.freeSave t.ctx with
    | none => s
    | some i => s.setTeam tk { t with leaving := true, saveSlot := i }

/-! Swap-out (R352). -/

/-- Everything a team must wait for before it leaves has completed (R352, step 2). -/
def State.drained (s : State) (tk : Nat) : Bool :=
  (s.groups.all (fun e => !(e.2.live && e.2.team = tk) || e.2.pend.isEmpty))
    && !s.copies.any (fun e => e.2.live && e.2.team = tk)
    && !s.mats.any (fun e => e.2.live && e.2.team = tk)
    && !s.batches.any (fun e => e.2.live && e.2.team = tk)
    && !s.mills.any (fun e => e.2.live && (s.group e.2.grp).team = tk && (s.group e.2.grp).live)
    && !s.groups.any (fun e => e.2.live && e.2.team = tk && e.2.yokeHeld.isSome)

/-- A group as its team leaves: a park is kept, its fault-buffer entry is not. -/
def Group.depart (g : Group) : Group :=
  { g with away := true
           park := g.park.map (fun p => { p with entry := none }) }

/-- The virtual address of a team's slot of its context's save pool (R327, R353). -/
def State.saveAddr (s : State) (t : Team) : Nat :=
  (vaOf (BitVec.ofNat 64 (s.crAcc64 t.ctx 0x11 0)) / 2 ^ 16
    + t.saveSlot * bitsOf (s.crAcc t.ctx 0x13 0).toNat 16 16) * 2 ^ 16

/-- `n` bytes from an offset of an image whose layout the manual does not give: open. -/
def State.openImage (s : State) (off n : Nat) : List Byte :=
  (List.range n).map (fun i => Config.freeByte s.freeCtr (2 ^ 100 + off + i))

/-- Bytes of a part, the rest of it open. -/
def State.padPart (s : State) (off : Nat) (bs : List Byte) : List Byte :=
  bs ++ s.openImage (off + bs.length) (part bs.length - bs.length)

/-- A word of a register row in an image: an expired word is not saved (10_allocation R219). -/
def State.imageReg (s : State) (off gk n L : Nat) : List Byte :=
  let g := s.group gk
  if g.unreadable (s.clockOf g) n L then s.openImage (off + 128 * n + 4 * L) 4 else bytesLE 4 (g.vget n L).toNat

/-- Where the divergence cache begins in the part of a group. -/
def Group.imageRecs (g : Group) : Nat := 2048 + part (128 * g.nreg) + part (8 * g.nreg)

/-- The divergence cache in an image: its records by R71, in stack order, the oldest first. -/
def Group.recBytes (g : Group) : List Byte := g.recs.reverse.flatMap (fun r => wordBytes r.words)

/-- The part of a group, from its offset: state, register rows, stamps, divergence cache, GSB. -/
def State.imageGroup (s : State) (off gk : Nat) : List Byte :=
  let g := s.group gk
  let rows := (List.range g.nreg).flatMap (fun n => (List.range 32).flatMap (s.imageReg (off + 2048) gk n))
  let head := s.openImage off 2048 ++ rows
  let head := head ++ s.openImage (off + head.length) (g.imageRecs - head.length) ++ g.recBytes
  head ++ s.openImage (off + head.length) (g.imageSize - head.length)

/-- The part of a handle: its rows, then its stamps. -/
def State.imageHandle (s : State) (off tk h : Nat) : List Byte :=
  let a := (s.team tk).alloc h
  let lc := s.allocClock tk a none
  let rows := (List.range a.size).map (fun o =>
    if a.unreadable lc o then Config.freeByte s.freeCtr (2 ^ 100 + off + o) else a.data.getD o 0)
  rows ++ s.openImage (off + a.size) (a.imageSize - a.size)

/-- The image of a tile: its halves as MLDC reads them, and its status (14_matrix R324). -/
def State.imageTile (s : State) (off tk n : Nat) : List Byte :=
  let t := s.team tk
  (List.range (t.tileBytes / 4)).flatMap (fun i => bytesLE 4 ((t.tile n).elems.getD i 0).toNat)
    ++ s.padPart (off + t.tileBytes) (bytesLE 4 (t.tileStatus n))

/-- Parts laid one after the other from an offset. -/
def layParts (f : Nat → Nat → List Byte) : Nat → List Nat → List Byte
  | _, [] => []
  | off, x :: t => f off x ++ layParts f (off + (f off x).length) t

/-- The image of a team (R353). The layouts of the header, of a group's state, of stamps and of buffer
entries are not given, and their bytes are open: what they hold comes back from the record of the team, which
keeps every item (R219, R254; log entry 49). -/
def State.teamImage (s : State) (tk : Nat) : List Byte :=
  let t := s.team tk
  let head := s.openImage 0 4096 ++ layParts s.imageGroup 4096 (s.groupsOf tk)
  let spad := layParts (fun off h => s.imageHandle off tk h) head.length (t.handles.map (·.1))
  let twb := s.openImage (head.length + spad.length) (part (64 * t.twb.length))
  head ++ spad ++ twb
    ++ layParts (fun off n => s.imageTile off tk n) (head.length + spad.length + twb.length) (List.range t.nacc)

/-- The image of a team written to its save area, by the mesh, at DEV (R352, R353). -/
def State.writeImage (s : State) (tk : Nat) : State :=
  let s : State := { s with saved := s.saved.set tk (s.saveAddr (s.team tk) + 1) 0 }
  s.saveStore tk 0 (s.teamImage tk)

/-- The bytes at an offset of the area where a team was saved; none where they cannot be read, or are
poisoned. -/
def State.saveRead (s : State) (tk off n : Nat) : State × Option (List Byte) :=
  let t := s.team tk
  match s.saved.getD tk 0 with
  | 0 => (s, none)
  | a + 1 =>
    match s.engineRead t.ctx t.die (a + off) n (some t.core) with
    | (s, .error _) => (s, none)
    | (s, .ok bs) => (s, if anyPois bs then none else some (bs.map (·.val)))

/-- The words of register rows from their bytes; expired words stay as they are. -/
def Group.restoreRows (g : Group) (lc : Nat) (bs : List Byte) : Group :=
  (List.range g.nreg).foldl (fun g n => (List.range 32).foldl (fun g L =>
    if g.unreadable lc n L then g
    else g.vput n L (BitVec.ofNat 32 (natLE ((bs.drop (128 * n + 4 * L)).take 4)))) g) g

/-- The bytes of an allocation's rows from an image; expired words stay as they are. -/
def Alloc.restoreRows (a : Alloc) (lc : Nat) (bs : List Byte) : Alloc :=
  { a with data := (List.range a.size).foldl (fun d o =>
      if a.unreadable lc o then d else d.set o (bs.getD o 0) 0) a.data }

/-- A tile from its image. -/
def Tile.restore (x : Tile) (n : Nat) (bs : List Byte) : Tile :=
  let st := natLE ((bs.drop n).take 4)
  { x with
    elems := (List.range (n / 4)).foldl (fun m i =>
      m.set i (BitVec.ofNat 32 (natLE ((bs.drop (4 * i)).take 4))) 0) []
    nv := st.testBit 0, of_ := st.testBit 1, pois := st.testBit 2, dnv := st.testBit 3, dof := st.testBit 4 }

/-- The divergence cache from the bytes of its records, in stack order; a malformed record stays as it is. -/
def Group.restoreRecs (g : Group) (bs : List Byte) : Group :=
  let n := g.recs.length
  { g with recs := mapI g.recs (fun i r =>
      let w (k : Nat) : Word := BitVec.ofNat 32 (natLE ((bs.drop (16 * (n - 1 - i) + 4 * k)).take 4))
      (DivRec.ofWords (w 0) (w 1) (w 2) (w 3)).getD r) }

/-- The register rows and divergence records of a team's groups restored from the image, in order. -/
def State.restoreGroups (s : State) (tk : Nat) : Nat → List Nat → State
  | _, [] => s
  | off, gk :: t =>
    let s := match s.saveRead tk (off + 2048) (128 * (s.group gk).nreg) with
      | (s, none) => s
      | (s, some bs) => s.modGroup gk (fun g => g.restoreRows (s.clockOf g) bs)
    let g := s.group gk
    let s := match s.saveRead tk (off + g.imageRecs) (16 * g.recs.length) with
      | (s, none) => s
      | (s, some bs) => s.modGroup gk (fun g => g.restoreRecs bs)
    s.restoreGroups tk (off + (s.group gk).imageSize) t

/-- A team's saved items restored from the image (R352). -/
def State.restore (s : State) (tk : Nat) : State :=
  let s := s.restoreGroups tk 4096 (s.groupsOf tk)
  let s := (s.team tk).handles.foldl (fun s e => match s.saveRead tk (s.imageRows tk e.1) e.2.size with
    | (s, none) => s
    | (s, some bs) => s.setAlloc tk e.1 (e.2.restoreRows (s.allocClock tk e.2 none) bs)) s
  let n := (s.team tk).tileBytes
  let s := (List.range (s.team tk).nacc).foldl (fun s i =>
    match s.saveRead tk (s.imageTiles tk + i * (n + part 4)) (n + 4) with
    | (s, none) => s
    | (s, some bs) => s.setTile tk i (((s.team tk).tile i).restore n bs)) s
  { s with saved := s.saved.set tk 0 0 }

/-- A team leaves its core (R352, step 3): its yoke is unbound, and its record keeps whether it was
bound. -/
def State.depart (s : State) (tk : Nat) : State :=
  let s := s.meetTeam tk
  let t := s.team tk
  let gs := s.groupsOf tk
  let s := s.writeImage tk
  let s := gs.foldl (fun s gk => (s.freeFaultsOf gk).modGroup gk Group.depart) s
  let s := s.setTeam tk { t with away := true, leaving := false, awayAt := s.dieTime t.die / 64 }
  let s := if t.yokeBound then s.setYoke t.die t.core false else s
  s.returnItems t.launch t.die t.core

/-- A launch's teams are held by a PREEMPT of its queue (R328). -/
def State.queueHeld (s : State) (lk : Nat) : Bool :=
  let l := s.launch lk
  !l.device && (s.queue l.queue).hold

/-- SWAP OUT (R352): a drained team leaves. A team of a held queue that found no save slot
or a halted core when it was to leave is chosen as soon as it can be (R328). -/
def execSwapOut (team : Nat) (s : State) : Out :=
  let t := s.team team
  .next (if !t.leaving && s.queueHeld t.launch then s.evict team
    else if t.live && t.leaving && s.drained team && !(s.coreAt (coreKey t.die t.core)).halted
    then s.depart team else s)

/-! Swap-in (R352; 14_matrix R324). -/

/-- What an absent team asks of a core. -/
def Team.need (t : Team) : Need :=
  { ngrp := t.ngrp, rows := t.rows, quota := t.quota, nacc := t.nacc, yoke := t.yokedGrant }

/-- A core can take a team back: room, and for a team that leads a yoke a leader's place whose
follower has no matrix command outstanding. -/
def State.takesBack (s : State) (tk core : Nat) : Bool :=
  let t := s.team tk
  let leads := t.yokeMode && t.px % 2 = 0
  s.fits t.die core t.need
    && (!leads || (core % 2 = 0
        && !(t.yokedGrant && !(s.coreAt (coreKey t.die (core + 1))).mat.isEmpty)))

/-- Nothing addressed to an absent team is still on its way (12_atomics_barriers R275; 13_copy
R297). -/
def State.settledFor (s : State) (tk : Nat) : Bool :=
  !s.arrivals.any (fun e => e.2.live && e.2.team = tk)
    && !s.copies.any (fun e => e.2.live && e.2.started && e.2.dests.contains tk)

/-- The package dispatches queues and lets groups issue in this thermal state (17_cold R382). -/
def Thermal.runs (t : Thermal) : Bool := [6, 7, 8, 11].contains t.state

/-- The groups of a returning team take new ports and slots, ascending (01_machine R10). -/
def State.returnGroups (s : State) (die core base : Nat) : List Nat → State
  | [] => s
  | gk :: rest =>
    let port := (base + (s.group gk).gidx) % 4
    let slot := (s.freeSlots die core port).headD 0
    let s := s.modGroup gk (fun g => { g with away := false, core, port, gslot := slot })
    s.returnGroups die core base rest

/-- A team comes back to a core (R352). -/
def State.return_ (s : State) (tk core : Nat) : State :=
  let t := s.team tk
  let base := (s.basePort t.die core t.ngrp).getD 0
  let bound := t.yokeBound
  let s := (s.setTeam tk { t with away := false, core, base, tileNos := s.grantTiles t.die core t.need }).freshThreshold tk
  let s := if bound then s.setYoke t.die core true else s
  (s.returnGroups t.die core base (s.groupsOf tk)).restore tk

/-- SWAP IN (R352): `core` is a core of the team's die. -/
def execSwapIn (team core : Nat) (s : State) : Out :=
  let t := s.team team
  .next (if t.live && t.away && s.therm.runs && !s.queueHeld t.launch && s.settledFor team
      && s.takesBack team core then s.return_ team core else s)

/-! Placing, and making room (R336, R351). -/

/-- A launch has a cluster to place on a die, and may have it placed. -/
def State.placeable (s : State) (die lk : Nat) : Bool :=
  let l := s.launch lk
  l.stage = .dispatched && (l.nextOn die).isSome && !s.queueHeld lk && !(s.cr l.ctx 0).getLsbD 5

/-- The oldest launch of a priority with an unplaced cluster for a die. -/
def State.candidate (s : State) (die prio : Nat) : Option Nat :=
  s.launches.findIdx? (fun lk l => l.prio = prio && s.placeable die lk)

/-- The distributor's step for priorities `prio - 1` down to 0: the first candidate that fits is
placed; one that does not fit is marked with the time since when (R336, R351). -/
def State.placeStep (die : Nat) : Nat → State → State
  | 0, s => s
  | p + 1, s =>
    match s.candidate die p with
    | none => State.placeStep die p s
    | some lk =>
      let l := s.launch lk
      let c := (l.nextOn die).getD 0
      match s.findRect l die c with
      | some base => s.placeCluster lk die c base
      | none =>
        let s := if l.failSince.getD die 0 = 0 then
            s.modLaunch lk (fun l => { l with failSince := l.failSince.set die (s.time + 1) 0 })
          else s
        State.placeStep die p s

/-- CLUSTER PLACE (R336). -/
def execClusterPlace (die : Nat) (s : State) : Out :=
  .next (if s.therm.runs then State.placeStep die 8 s else s)

/-- Teams of lower priority on a die, the lowest priority and the youngest launch first (R351). -/
def State.victims (s : State) (die prio : Nat) : List Nat :=
  let ts := s.teams.filter (fun e => e.2.live && !e.2.away && !e.2.leaving && e.2.die = die
    && (s.launch e.2.launch).prio < prio && !(s.coreAt (coreKey die e.2.core)).halted)
  (List.range prio).flatMap (fun p =>
    let mine := ts.filter (fun e => (s.launch e.2.launch).prio = p)
    let ls := (dedup (mine.map (·.2.launch))).foldl (fun acc x =>
      acc.takeWhile (fun y => x < y) ++ [x] ++ acc.dropWhile (fun y => x < y)) ([] : List Nat)
    ls.flatMap (fun lk => (mine.filter (fun e => e.2.launch = lk)).map (·.1)))

/-- The victims to take, in order, until the cluster fits without them. -/
def State.enough (l : Launch) (die c : Nat) : List Nat → State → Option (List Nat)
  | [], s => if (s.findRect l die c).isSome then some [] else none
  | tk :: t, s =>
    if (s.findRect l die c).isSome then some []
    else
      let gone := (s.groupsOf tk).foldl (fun s gk => s.modGroup gk (fun g => { g with away := true }))
        (s.modTeam tk (fun t => { t with away := true }))
      (State.enough l die c t gone).map (fun r => tk :: r)

/-- A launch on a die has failed to fit for 100 microseconds, and lower-priority teams are there
(R351). -/
def State.starved (s : State) (die : Nat) : Option Nat :=
  (List.range 8).reverse.findSome? (fun p =>
    match s.candidate die p with
    | none => none
    | some lk =>
      let since := (s.launch lk).failSince.getD die 0
      if since ≠ 0 && since + 100000 ≤ s.time + 1 && !(s.victims die p).isEmpty then some lk else none)

/-- PLACEMENT TIMEOUT (R351). -/
def execPlacementTimeout (die : Nat) (s : State) : Out :=
  .next (match s.starved die with
    | none => s
    | some lk =>
      let l := s.launch lk
      match State.enough l die ((l.nextOn die).getD 0) (s.victims die l.prio) s with
      | none => s
      | some ts => ts.foldl State.evict s)

end Sys2Proof.Machine
end

