-- ==== Sys2Proof/Machine/Host.lean ====
section
/-!
DEFINITION. The command processor: its accesses to memory, the fault queue, host queues and their
commands, buffer handles, the checks, dispatch and completion of launches, item batches, resets
(15_system R328 to R333, R337, R342, R348, R350; 16_loading R364; 17_cold R387; 09_memory R196).
-/

namespace Sys2Proof.Machine

/-! Accesses of the Commons die, which homes nothing and holds nothing pending. -/

/-- The place of a byte of a context for an access of the command processor, A and D set; the record of
a page's format plays no part in it. -/
def State.cpPlace (s : State) (ctx va : Nat) (acc : Acc) : State × Except Nat Xl :=
  match s.walk ctx commons va with
  | .fault c => (s, .error c)
  | .leaf at_ e big =>
    if leafDenies e acc (s.privileged ctx) then (s, .error cTPROT)
    else ((s.walkSends ctx commons va).touchLeaf at_ e acc.writes, .ok (leafXl e big va))

/-- Pieces of a range placed: the first cause, or each piece's place and its bytes. -/
def State.cpPlaces (s : State) (ctx : Nat) (acc : Acc) :
    List (Nat × Nat) → State × Except Nat (List (Xl × Nat))
  | [] => (s, .ok [])
  | p :: t =>
    match s.cpPlace ctx p.1 acc with
    | (s, .error c) => (s, .error c)
    | (s, .ok x) =>
      match s.cpPlaces ctx acc t with
      | (s, .error c) => (s, .error c)
      | (s, .ok l) => (s, .ok ((x, p.2) :: l))

/-- The walks of an access of the command processor to `[va, va + n)`, with their updates (R173). -/
def State.cpTouch (s : State) (ctx va n : Nat) (acc : Acc) : State :=
  (pageStarts va n).foldl (fun s a => (s.cpPlace ctx a acc).1) s

/-- Bytes accepted at their homes and, for the host or a peer, written on (R250). -/
def State.homeWrite (s : State) (bs : List SByte) : State :=
  (sectorsOf bs 0).foldl (fun s e =>
    let s := (s.roundTrip commons e.attr.home).acceptHome e.attr e.sec e.cells
    if 2 ≤ e.attr.tier then s.writeOn e.attr.home else s) s

/-- Bytes written at SYS at an address of a context, or the cause that stops it. -/
def State.cpWrite (s : State) (ctx : Nat) (a : DWord) (bs : List Byte) : State × Option Nat :=
  if !canonical a then (s, some cBADA)
  else match s.cpPlaces ctx .w (pieces (vaOf a) bs.length) with
    | (s, .error c) => (s, some c)
    | (s, .ok ps) =>
      let (out, _) := ps.foldl (fun (acc : List SByte × List Byte) p =>
        (acc.1 ++ pieceBytes p.1 (acc.2.take p.2), acc.2.drop p.2)) ([], bs)
      (s.homeWrite out, none)

/-- Bytes read at SYS from an address of a context. -/
def State.cpRead (s : State) (ctx : Nat) (a : DWord) (n : Nat) : State × Except Nat (List VByte) :=
  if !canonical a then (s, .error cBADA)
  else match s.cpPlaces ctx .r (pieces (vaOf a) n) with
    | (s, .error c) => (s, .error c)
    | (s, .ok ps) =>
      let s := ps.foldl (fun s p => s.roundTrip commons p.1.attr.home) s
      let bs := ps.flatMap (fun p => (List.range p.2).map (fun i => (p.1.pk + i, s.homeByte p.1.attr.home (p.1.pk + i))))
      (s, .ok (s.seen 0 (bs.map (·.1)) (bs.map (·.2))))

/-- The SYS drain for every die (R250). -/
def State.drainDies (s : State) : State := (List.range 8).foldl (fun s d => s.sysDrain d) s

/-- An endpoint interrupt (17_cold R385). -/
def State.interrupt (s : State) (v : Nat) : State := { s with msix := dedup (s.msix ++ [v]) }

/-! The fault queue (R348). -/

/-- Entries of the fault queue. -/
def State.fqSize (s : State) : Nat := 2 ^ ((s.preg.getD 0x302 0).toNat % 32)

/-- FAULT QUEUE ENTRY (R348): the queue's base is a device physical address, or one of host memory
where no die has DRAM. -/
def execFaultQueueEntry (s : State) : Out :=
  let head := (s.preg.getD 0x303 0).toNat
  let tail := (s.preg.getD 0x304 0).toNat
  .next (match s.faultQ with
    | [] => s
    | e :: t =>
      if (head + 1) % s.fqSize = tail % s.fqSize then s
      else
        let base := (s.preg.getD 0x300 0).toNat + 2 ^ 32 * (s.preg.getD 0x301 0).toNat
        let at_ := base + 32 * head
        let s := s.setMemBytes (if isDram at_ then at_ else 2 * 2 ^ 64 + at_) (wordBytes e)
        { s with faultQ := t
                 preg := s.preg.set 0x303 (BitVec.ofNat 32 ((head + 1) % s.fqSize)) 0 }.interrupt 0)

/-- An entry that names no group (R348). -/
def State.report (s : State) (cause ctx : Nat) (w2 : Word) (addr : DWord) : State :=
  { s with faultQ := s.faultQ ++ [faultEntry cause false false ctx 0 w2 0 addr (s.dieTime commons)] }

/-- FAULT BUFFER ENTRY FREE (09_memory R177). -/
def execFaultBufferEntryFree (core : Nat) (s : State) : Out := .next (s.modCore core Core.reserve)

/-! Completion of a launch (R333). -/

/-- The dies that ran a team of a launch. -/
def Launch.ranOn (l : Launch) : List Nat := (l.placed.filter (fun e => e.2 ≠ 0)).map (·.1)

/-- The completion record (R333). -/
def completionRecord (status reason discarded time : Nat) : List Word :=
  [BitVec.ofNat 32 (status + reason * 256), BitVec.ofNat 32 discarded] ++ words64 (BitVec.ofNat 64 time)

/-- A launch completes with a status and a reason (R333). -/
def State.complete (s : State) (lk status reason : Nat) : State :=
  let l := s.launch lk
  let s := s.setLaunch lk { l with stage := .complete, status, reason, doneAt := s.dieTime commons }
  let a := l.f64 28
  if a = 0 then s
  else
    let s := l.ranOn.foldl (fun s d => s.sysDrain d) s
    match s.cpWrite l.ctx a (wordBytes (completionRecord status reason l.discarded (s.dieTime commons))) with
    | (s, none) => s
    | (s, some c) => s.report cCPLF l.ctx (BitVec.ofNat 32 c) a

/-- LAUNCH COMPLETE (R333). -/
def execLaunchComplete (launch : Nat) (s : State) : Out :=
  let l := s.launch launch
  .next (if l.stage = .dispatched && l.retired = l.teams then
    s.complete launch (if l.killed then 4 else 0) 0 else s)

/-! The checks of a launch record (R332). -/

/-- Reserved bits of the record's words. -/
def recordReserved : List (Nat × Word) :=
  [(4, 0xFC000000), (5, 0xFC000080), (6, 0xFFF80000), (7, 0xFFF80000), (8, 0xFFF80000),
   (9, 0xFFF80000), (10, 0xFC000000), (11, 0xFC000000), (12, 0xFC000000), (13, 0xFC000000),
   (14, 0xFFFF0000), (22, 0xF800FC00), (23, 0xFFFF0000), (30, 0xFFFFFFFF), (31, 0xFFFFFFFF)]

/-- The context a record names. -/
def Launch.recCtx (l : Launch) : Nat := l.f 22 16 6

/-- A class range breaks R201. -/
def Launch.rangesBad (l : Launch) : Bool :=
  let rs := l.ranges.map (·.2)
  rs.any (fun c => c.last < c.first || l.nreg ≤ c.last || c.cls = 3)
    || (List.range rs.length).any (fun i => (List.range i).any (fun j =>
      let a := rs.getD i {}
      let b := rs.getD j {}
      a.first ≤ b.last && b.first ≤ a.last))

/-- The format record of a preset, captured (08_formats R152): a refused one is off. -/
def State.presetRec (s : State) (l : Launch) (k : Nat) : DWord :=
  let i := l.f (10 + k) 18 8
  if i = 0 then 0
  else match s.cpPlace l.ctx (s.fmtEntry l.ctx i) .r with
    | (_, .error _) => 0
    | (s, .ok x) =>
      if s.linePois x.attr.home x.pk then 0
      else fmKeep (BitVec.ofNat 64 (natLE ((List.range 8).map (fun b =>
        (s.homeByte x.attr.home (x.pk + b)).val))))

/-- A preset is refused. -/
def State.presetBad (s : State) (l : Launch) (k : Nat) : Bool :=
  let size := l.f (10 + k) 0 16
  size ≠ 0 && (2048 < size || l.f (10 + k) 16 2 = 3
    || (l.f (10 + k) 18 8 ≠ 0 && !fmOk (s.presetRec l k)))

/-- The handle a bit of BUFR or BUFW names. -/
def Launch.buf (l : Launch) (k : Nat) : Nat := l.f (24 + k / 2) (16 * (k % 2)) 16
/-- The handles a launch reads or writes, each with whether it writes. -/
def Launch.bufs (l : Launch) : List (Nat × Bool) :=
  (List.range 8).filterMap (fun k =>
    if l.f 23 k 1 = 1 then some (l.buf k, true)
    else if l.f 23 (8 + k) 1 = 1 then some (l.buf k, false) else none)

/-- Checks 1 to 7, but for those of presets and handles: the reason of the first that fails. -/
def State.recordHead (s : State) (l : Launch) : Option Nat :=
  let ctxl := s.cr l.ctx 0
  if l.f 0 24 8 ≠ 1 || recordReserved.any (fun e => l.w e.1 &&& e.2 ≠ 0) then some 1
  else if !ctxl.getLsbD 0 || l.rcl ≠ ctxl.getLsbD 2
      || (l.device && l.ctx ≠ (s.launch l.parent).ctx && !s.privileged (s.launch l.parent).ctx) then some 6
  else if l.teams = 0 || 2 ^ 32 ≤ l.teams then some 2
  else if l.area = 0 || 12 < l.area || 8 < l.clh || (l.yoke && l.clw % 2 = 1) then some 3
  else if 8 < l.nacc || 128 < l.f 5 8 8 then some 8
  else if l.rangesBad then some 4
  else none

/-- Checks 1 to 7: the reason of the first that fails. -/
def State.recordBad (s : State) (l : Launch) : Option Nat :=
  if (s.recordHead l).isSome then s.recordHead l
  else if (List.range 4).any (s.presetBad l) then some 4
  else if l.bufs.any (fun b => b.1 = 0 || !(s.handle b.1).set_) then some 5
  else none

/-- The walks of reading the format records of a launch's presets (09_memory R173). -/
def State.touchPresets (s : State) (l : Launch) : State :=
  if (s.recordHead l).isSome then s
  else (List.range 4).foldl (fun s k =>
    if l.f (10 + k) 0 16 = 0 || l.f (10 + k) 18 8 = 0 then s
    else s.cpTouch l.ctx (s.fmtEntry l.ctx (l.f (10 + k) 18 8)) 8 .r) s

/-- The walks of translating a launch's first argument, by which its clusters are placed, and of reading
the directory entry of its object (09_memory R173). -/
def State.touchArg (s : State) (l : Launch) : State :=
  if canonical (l.f64 18) then s.cpTouch l.ctx (vaOf (l.f64 18)) 1 .r else s
def State.touchDir (s : State) (l : Launch) : State :=
  if l.codeObj = 0 then s
  else s.cpTouch l.ctx (vaOf (BitVec.ofNat 64 (s.codeBase l.ctx + dirOff + 64 * l.codeObj))) 64 .r

/-- The dies clusters go to in turn, cluster 0 first, or the cause that places none (01_machine R15,
R16). -/
def State.placement (s : State) (l : Launch) : Except Nat (List Nat) :=
  let a := l.f64 18
  if !canonical a then .error cBADA
  else match s.walk l.ctx commons (vaOf a) with
    | .fault c => .error c
    | .leaf _ e _ =>
      if leafDenies e .r (s.privileged l.ctx) then .error cTPROT
      else match ilvOf (pteIlv e) with
        | none => .ok [pteHome e]
        | some (ds, st) =>
          let k := a.toNat / st % ds.length
          .ok (ds.drop k ++ ds.take k)

/-- Checks 9 and 10, on the dies that some cluster of the launch goes to. -/
def State.placeBad (s : State) (l : Launch) (ds : List Nat) : Option Nat :=
  if (ds.take l.clusters).any (fun d => dieCols d < l.clw) then some 3
  else if 117760 < l.rows || bitsOf (s.cr l.ctx 0x10).toNat 16 16 < l.ngrp then some 7
  else none

/-! Buffer handles (R330). -/

/-- A launch has completed. -/
def State.done (s : State) (lk : Nat) : Bool := (s.launch lk).stage = .complete

/-- What a launch waits for through a handle has completed. -/
def State.handleFree (s : State) (h : Handle) (write : Bool) : Bool :=
  h.writer.all s.done
    && (!write || (h.readers.all s.done && h.named.all (fun n => h.horizon < n || s.done n)))

/-- The lines of a handle's range as a context places them. -/
def State.handleLines (s : State) (ctx : Nat) (h : Handle) : List Xl :=
  if h.len = 0 then []
  else (rangeLines (vaOf h.base) h.len.toNat).filterMap (fun va =>
    match s.walk ctx commons va with
    | .fault _ => none
    | .leaf _ e big => some (leafXl e big va))

/-- The hand-off of a handle from its last writer (R330): the command processor finds the lines, and asks
the dies. -/
def State.handOff (s : State) (l : Launch) (h : Handle) : State :=
  match h.writer with
  | none => s
  | some w =>
    let s := s.cpTouch l.ctx (vaOf h.base) h.len.toNat .r
    let xs := s.handleLines l.ctx h
    let s := (s.launch w).ranOn.foldl (fun s d =>
      xs.foldl (fun s x => s.sendOrdered d (x.pk / 128)) (s.roundTrip commons d)) s
    let s := (dedup l.dies).foldl (fun s d => xs.foldl (fun s x => s.invLine d x) (s.roundTrip commons d)) s
    (dedup l.dies).foldl (fun s d =>
      s.modDie d (fun d => { d with gfill := d.gfill + 1, gthr := d.gfill + 1 })) s

/-- A launch recorded as a handle's writer, or among its readers. -/
def Handle.note (h : Handle) (lk : Nat) (write : Bool) : Handle :=
  let h := { h with named := h.named ++ [lk] }
  if write then { h with writer := some lk, readers := [], horizon := 0 }
  else if h.readers.length < 8 then { h with readers := h.readers ++ [lk] }
  else { h with horizon := max h.horizon (h.readers.headD 0), readers := h.readers.tail ++ [lk] }

/-! Dispatch (R329, R337; 16_loading R364). -/

/-- The entry clause of a launch (16_loading R364): in the translation of its EPOCH, or in the newest
complete one that holds its kernel; none while its code awaits the first pass, an error for an
unregistered object. -/
def State.entryOf (s : State) (l : Launch) : Except Unit (Option (BitVec 24)) :=
  let e := (l.w 0).extractLsb' 0 24
  if l.codeObj = 0 then .ok (some e)
  else
    let d := s.dirEntry l.ctx commons l.codeObj
    if !d.valid then .error ()
    else if !d.l1 then .ok (some e)
    else
      let epoch := l.f 1 16 16
      let has (t : Translation) : Bool := t.map.getD e.toNat 0 ≠ 0
      let held := s.trans.find? (fun t => epoch ≠ 0 && t.2.live && t.2.complete && t.2.ctx = l.ctx
        && t.2.obj = l.codeObj && t.2.epoch = epoch && has t.2)
      .ok ((match held with | some t => some t.2 | none => s.newest l.ctx l.codeObj has).map
        (fun (t : Translation) => BitVec.ofNat 24 (t.map.getD e.toNat 0)))

/-- Earlier launches of a launch's queue, or of its context's device-side queue, have been
dispatched (R329). -/
def State.firstInQueue (s : State) (lk : Nat) : Bool :=
  let l := s.launch lk
  !s.launches.any (fun e => e.1 < lk && e.2.stage = .queued && e.2.device = l.device
    && (if l.device then (s.launch e.2.parent).ctx = (s.launch l.parent).ctx else e.2.queue = l.queue))

/-- A launch goes to the distributors. -/
def State.dispatch (s : State) (lk : Nat) (ds : List Nat) (entry : BitVec 24) : State :=
  let l := s.launch lk
  let l := { l with stage := .dispatched, dies := ds, entry, since := s.time
                    closed := (l.w 22).getLsbD 25
                    presets := (List.range 4).map (s.presetRec l), codeAt := some s.homeImage }
  let s := s.setLaunch lk l
  l.bufs.foldl (fun s b =>
    let s := s.handOff l (s.handle b.1)
    s.setHandle b.1 ((s.handle b.1).note lk b.2)) s

/-- A launch whose record is good and which waits for nothing: placed, and its entry found (R332, R337). -/
def State.startLaunch (s : State) (lk : Nat) (l : Launch) : State :=
  let s := s.touchArg l
  match s.placement l with
  | .error c => s.complete lk 2 c
  | .ok ds =>
    match s.placeBad l ds with
    | some r => s.complete lk 1 r
    | none =>
      let s := s.touchDir l
      match s.entryOf l with
      | .error _ => s.complete lk 1 6
      | .ok none => s
      | .ok (some e) => s.dispatch lk ds e

/-- LAUNCH DISPATCH (R332, R337). -/
def execLaunchDispatch (launch : Nat) (s : State) : Out :=
  let l := s.launch launch
  .next (if l.stage ≠ .queued || !s.therm.runs || !s.firstInQueue launch then s
    else
      let s := s.touchPresets l
      match s.recordBad l with
      | some r => s.complete launch 1 r
      | none =>
        if (s.cr l.ctx 0).getLsbD 5 || (l.device && l.dep && !s.done l.parent)
            || !l.bufs.all (fun b => s.handleFree (s.handle b.1) b.2) then s
        else s.startLaunch launch l)

/-! The item queue (R342). -/

/-- The initial items from a number on, at most `n`, each with its position. -/
def Launch.initialItems (l : Launch) (n : Nat) : List (Word × Nat) :=
  (List.range (min n ((l.w 21).toNat - l.itemNext))).map (fun i =>
    (l.w 20 + BitVec.ofNat 32 (l.itemNext + i), l.itemNext + i))

/-- The next batch of the items that the command processor holds, in ascending order: returned ones below the
initial ones it still holds, those, and the returned ones above (R342). -/
def Launch.batch (l : Launch) : List (Word × Nat) × Launch :=
  let a := (l.returned.filter (fun x => x.2 < l.itemNext)).take 256
  let b := l.initialItems (256 - a.length)
  let c := (l.returned.filter (fun x => l.itemNext ≤ x.2)).take (256 - a.length - b.length)
  let gone := a ++ c
  (a ++ b ++ c, { l with itemNext := l.itemNext + b.length
                         returned := l.returned.filter (fun x => !gone.contains x) })

/-- ITEM BATCH (R342): a message from the Commons die carries it. -/
def execItemBatch (core launch : Nat) (s : State) : Out :=
  let l := s.launch launch
  let q := ((s.coreAt core).items.getD launch {}).items
  let here := (s.teamsOn (core / 256) (core % 256)).any (fun e => e.2.launch = launch)
  .next (if l.stage ≠ .dispatched || !l.items || !here || 256 ≤ q.length then s
    else
      let s := s.timeMsg commons (core / 256)
      (s.modCore core (fun c => { c with items := c.items.set launch { items := q ++ l.batch.1 } {} })).setLaunch
        launch l.batch.2)

/-! Resets and the watchdog (R350). -/

/-- What a reset takes from a core: the fault entries, waiters, commands and queues of a context. -/
def State.clearCore (s : State) (ctx : Nat) (c : Core) : Core :=
  let mine (gk : Nat) : Bool := (s.group gk).ctx = ctx && (s.group gk).live
  let cpy (i : Nat) : Bool := (s.copy i).live && (s.copy i).ctx = ctx
  let mat (i : Nat) : Bool := (s.mat i).live && (s.mat i).ctx = ctx
  { c with
    faults := c.faults.filter (fun e => !(if e.2.engine then
      (if e.2.matrix then mat e.2.cmd else cpy e.2.cmd) else mine e.2.grp))
    waiters := c.waiters.filter (fun w => !(if w.engine then
      (if w.matrix then mat w.cmd else cpy w.cmd) else mine w.grp))
    locks := c.locks.filter (fun r => !(cpy r.owner || mat r.owner))
    cpy := c.cpy.filter (fun i => !cpy i)
    mat := c.mat.filter (fun i => !mat i)
    batches := c.batches.filter (fun i => (s.team (s.batch i).team).ctx ≠ ctx)
    items := c.items.filter (fun e => (s.launch e.1).ctx ≠ ctx) }

/-- Steps 2 to 8 of a reset (R350). -/
def State.reset_ (s : State) (ctx : Nat) : State :=
  let s' := { s with cores := s.cores.mapV {} (fun _ c => s.clearCore ctx c) }
  let s' := { s' with
    batches := s.batches.filter (fun e => (s.team e.2.team).ctx ≠ ctx)
    copies := s.copies.filter (fun e => e.2.ctx ≠ ctx)
    mats := s.mats.filter (fun e => e.2.ctx ≠ ctx)
    groups := s.groups.filter (fun e => e.2.ctx ≠ ctx)
    teams := s.teams.filter (fun e => e.2.ctx ≠ ctx)
    clusters := s.clusters.filter (fun e => e.2.ctx ≠ ctx)
    queues := s.queues.mapV {} (fun _ x => if x.ctx = ctx then
      { x with stale := (x.tail + x.entries - x.head) % x.entries } else x) }
  let s' := (s'.launches.filter (fun e => e.2.ctx = ctx && (e.2.stage = .queued || e.2.stage = .dispatched))).foldl
    (fun s e => s.complete e.1 3 0) s'
  ((s'.forgetOld ctx).report cRESET ctx 0 0).setCr ctx 0 (s'.cr ctx 0 &&& ~~~0x20)

/-- CONTEXT RESET (R350). -/
def execContextReset (ctx : Nat) (s : State) : Out :=
  .next (if (s.cr ctx 0).getLsbD 5 then s.reset_ ctx else s)

/-- WATCHDOG EXPIRY (R350). -/
def execWatchdogExpiry (launch : Nat) (s : State) : Out :=
  let l := s.launch launch
  let limit := (s.cr l.ctx 0x14).toNat
  .next (if l.stage ≠ .dispatched || l.wdFired || limit = 0 || s.time < l.since + 1000 * limit then s
    else
      let s := s.setLaunch launch { l with wdFired := true }
      if (s.cr l.ctx 0).getLsbD 2 then s.startReset l.ctx
      else (s.report cWDOG l.ctx 0 0).setCr l.ctx 0 (s.cr l.ctx 0 ||| 0x10))

/-! Host queues and their commands (R328). -/

/-- DOORBELL (R328; 17_cold R387); in OFF it is not served (R392). -/
def execDoorbell (q : Nat) (tail : BitVec 32) (s : State) : Out :=
  let x := s.queue q
  .next (if s.therm.state ≠ 0 && q < 1024 && x.enable then s.setQueue q { x with tail := tail.toNat % x.entries } else s)

/-- The command at the head of a queue, read from host memory. -/
def State.ringCmd (s : State) (q : Nat) : List Word :=
  let x := s.queue q
  let at_ := 2 * 2 ^ 64 + x.base.toNat + 128 * x.head
  wordsLE ((List.range 128).map (fun i => s.memByte (at_ + i))) 32

/-- The queue has a command that may be dispatched (R329; 17_cold R382). -/
def State.queueReady (s : State) (q : Nat) : Bool :=
  let x := s.queue q
  q < 1024 && x.enable && x.head ≠ x.tail && s.therm.runs && !(s.cr x.ctx 0).getLsbD 5
    && !s.launches.any (fun e => e.2.stage = .queued && !e.2.device && e.2.queue = q)

/-- The head command is taken from its queue. -/
def State.popCmd (s : State) (q : Nat) : State :=
  let x := s.queue q
  s.setQueue q { x with head := (x.head + 1) % x.entries, stale := x.stale - 1 }

/-- A command discarded and counted (R328). -/
def State.queueError (s : State) (q : Nat) : State :=
  let x := s.queue q
  (s.setQueue q { x with errs := x.errs + 1 }).interrupt 2

/-- A command of a type performed when it stands at the head of its queue: `none` from `k` discards
it. -/
def State.hostCmd (s : State) (q type_ : Nat) (k : State → List Word → Option State) : State :=
  let ws := s.ringCmd q
  if !s.queueReady q || bitsOf (ws.getD 0 0).toNat 24 8 ≠ type_ then s
  else
    let s := s.popCmd q
    match k s ws with
    | some s => s
    | none => s.queueError q

/-- The 64-bit value at words `n` and `n + 1`. -/
def cmd64 (ws : List Word) (n : Nat) : DWord := pair (ws.getD n 0) (ws.getD (n + 1) 0)
/-- Bits of word 1 of a command. -/
def cmdF (ws : List Word) (lo w : Nat) : Nat := bitsOf (ws.getD 1 0).toNat lo w

/-- NOP, and a command of a reserved type (R328). -/
def execHostNop (q : Nat) (s : State) : Out :=
  let t := bitsOf ((s.ringCmd q).getD 0 0).toNat 24 8
  .next (if 0x0B < t then s.hostCmd q t (fun _ _ => none) else s.hostCmd q 0 (fun s _ => some s))

/-- LAUNCH (R331); one that a reset of the context found in the ring ends with status 3 (R350). -/
def execHostLaunch (q : Nat) (s : State) : Out :=
  let stale := (s.queue q).stale ≠ 0
  .next (s.hostCmd q 1 (fun s ws =>
    let (lk, s) := s.fresh
    let l : Launch := { stage := .queued, rec_ := ws, queue := q, prio := (s.queue q).prio }
    let s := s.setLaunch lk { l with ctx := l.recCtx }
    some (if stale then s.complete lk 3 0 else s)))

/-- SIGNAL (R328): after every earlier command of its queue. -/
def execSignal (q : Nat) (s : State) : Out :=
  let busy := s.launches.any (fun e => !e.2.device && e.2.queue = q && e.2.stage ≠ .complete)
  .next (if busy then s
    else s.hostCmd q 2 (fun s ws =>
      let (s, _) := s.drainDies.cpWrite (s.queue q).ctx (cmd64 ws 2) (bytesLE 8 (cmd64 ws 4).toNat)
      some s))

/-- WAIT (R328): each look at the value is a read of the command processor. -/
def execWait (q : Nat) (s : State) : Out :=
  let ws := s.ringCmd q
  .next (if !s.queueReady q || bitsOf (ws.getD 0 0).toNat 24 8 ≠ 3 then s
    else match s.cpRead (s.queue q).ctx (cmd64 ws 2) 8 with
      | (s, .error _) => s
      | (s, .ok bs) =>
        if (if cmdF ws 0 1 = 1 then vbytesNat bs = (cmd64 ws 4).toNat else (cmd64 ws 4).toNat ≤ vbytesNat bs)
        then s.popCmd q else s)

/-- BUFSET (R328). -/
def execBufset (q : Nat) (s : State) : Out :=
  .next (s.hostCmd q 4 (fun s ws =>
    let h := cmdF ws 0 16
    if h = 0 then none
    else some (s.setHandle h { s.handle h with set_ := true, base := cmd64 ws 2, len := cmd64 ws 4 })))

/-- BUFFREE (R328). -/
def execBuffree (q : Nat) (s : State) : Out :=
  .next (s.hostCmd q 5 (fun s ws => if cmdF ws 0 16 = 0 then none else some (s.setHandle (cmdF ws 0 16) {})))

/-- The pairs of a CTXSET: up to 15; zero pairs at the end are none. -/
def ctxPairs (ws : List Word) : List (Nat × Word) :=
  let ps := (List.range 15).map (fun i => ((ws.getD (2 + 2 * i) 0).toNat, ws.getD (3 + 2 * i) 0))
  let n := ((ps.drop 1).reverse.dropWhile (fun p => p.1 = 0 && p.2 = 0)).length
  ps.take (n + 1)

/-- The bits of a context register that can be written (R326, R327). -/
def ctxMask (i : Nat) : Word :=
  match i with
  | 0 => 0x0D
  | 1 => 0x01FFFFFF
  | 0x10 => 0xFFFF001F
  | _ => 0xFFFFFFFF

/-- A context register written: WDX by a one clears, PRIV only from queue 0 (R326). What fetches, frames
and saves of teams in place may still use of it is kept (R327). -/
def State.writeCtx (s : State) (ctx i : Nat) (v : Word) (admin : Bool) : State :=
  if i = 0 then
    let old := s.cr ctx 0
    let m : Word := if admin then 0x0F else 0x0D
    s.setCr ctx 0 ((old &&& 0x30 &&& ~~~(v &&& 0x10)) ||| (v &&& m) ||| (old &&& 0x0F &&& ~~~m))
  else (s.keepOld ctx i).setCr ctx i (v &&& ctxMask i)

/-- CTXSET (R328). -/
def execCtxset (q : Nat) (s : State) : Out :=
  .next (s.hostCmd q 6 (fun s ws =>
    let ps := ctxPairs ws
    if q ≠ 0 || ps.any (fun p => 0x14 < p.1) then none
    else some (ps.foldl (fun s p => s.writeCtx (cmdF ws 0 6) p.1 p.2 true) s)))

/-- A power of two from 16 to 65,536. -/
def ringSize (n : Nat) : Bool := (List.range 13).any (fun i => n = 2 ^ (i + 4))

/-- QSET (R328). -/
def execQset (q : Nat) (s : State) : Out :=
  .next (s.hostCmd q 7 (fun s ws =>
    let n := (ws.getD 4 0).toNat
    let k := cmdF ws 0 10
    if q ≠ 0 || k = 0 || !ringSize n then none
    else some (s.setQueue k { s.queue k with
      enable := cmdF ws 19 1 = 1, ctx := cmdF ws 13 6, prio := cmdF ws 10 3
      base := cmd64 ws 2, entries := n, head := 0, tail := 0, stale := 0 })))

/-- An append to a log has been accepted and has not completed (09_memory R196). -/
def State.logBusy (s : State) (lk : Nat) : Bool :=
  s.groups.any (fun e => e.2.live && e.2.pend.any (fun o =>
    match o.log with | some (k, _) => k = lk && !o.g.isEmpty | none => false))

/-- A binding takes effect: offsets start again at 0. -/
def Log.bind_ (l : Log) (die base cap : Nat) : Log :=
  { l with bound := true, die, base, cap, next := 0, rebind := none }

/-- LOGBIND (09_memory R196). -/
def execLogbind (q : Nat) (s : State) : Out :=
  .next (s.hostCmd q 8 (fun s ws =>
    let k := logKey (s.queue q).ctx (cmdF ws 0 8)
    let l := s.log k
    let base := (cmd64 ws 2).toNat
    let cap := (cmd64 ws 4).toNat
    let die := 4 + cmdF ws 8 3
    if cmdF ws 12 1 = 1 then some (s.setLog k { l with bound := false, rebind := none })
    else if 7 < die || base % 65536 ≠ 0 || cap % 65536 ≠ 0 then none
    else if l.bound && s.logBusy k then some (s.setLog k { l with rebind := some (die, base, cap) })
    else some (s.setLog k (l.bind_ die base cap))))

/-- LOGBIND REBIND (09_memory R196). -/
def execLogbindRebind (ctx log : Nat) (s : State) : Out :=
  let k := logKey ctx log
  .next (match (s.log k).rebind with
    | none => s
    | some (die, base, cap) => if s.logBusy k then s else s.setLog k ((s.log k).bind_ die base cap))

/-- UOPSET (R328; 12_atomics_barriers R266): the fragment is copied as its code now stands. -/
def execUopset (q : Nat) (s : State) : Out :=
  .next (s.hostCmd q 9 (fun s ws =>
    let ctx := (s.queue q).ctx
    let k := ctx * 16 + cmdF ws 0 4
    if cmdF ws 4 1 = 1 then some { s with uops := s.uops.set k {} {} }
    else match s.codeIndex ctx (cmd64 ws 2) with
      | none => none
      | some w =>
        let f : Frag := { installed := true, start := w, mem := s.homeImage, creg := s.creg }
        some { s with uops := s.uops.set k f {} }))

/-- The placed teams of a queue's launches. -/
def State.teamsOfQueue (s : State) (q : Nat) : List Nat :=
  (s.teams.filter (fun e => e.2.live && !e.2.away && !(s.launch e.2.launch).device
    && (s.launch e.2.launch).queue = q)).map (·.1)

/-- PREEMPT (R328). -/
def execPreempt (q : Nat) (s : State) : Out :=
  .next (s.hostCmd q 10 (fun s ws =>
    let k := cmdF ws 0 10
    let hold := cmdF ws 16 1 = 1
    let s := s.setQueue k { s.queue k with hold := hold }
    some (if hold then (s.teamsOfQueue k).foldl State.evict s else s)))

/-- CTXRESET (R328). -/
def execCtxreset (q : Nat) (s : State) : Out :=
  .next (s.hostCmd q 11 (fun s ws => if q ≠ 0 then none else some (s.startReset (cmdF ws 0 6))))

end Sys2Proof.Machine
end

