-- ==== Sys2Proof/Machine/Cold.lean ====
section
/-!
DEFINITION. The thermal supervisor: samples, bands, the package state machine, its registers, and
the drain into the arrays (17_cold R378 to R383, R391; 11_visibility R251).
-/

namespace Sys2Proof.Machine

def State.modTherm (s : State) (f : Thermal → Thermal) : State := { s with therm := f s.therm }

/-! Registers (R381). -/

def thUp (x : Word) : Nat := bitsOf x.toNat 0 16
def thDown (x : Word) : Nat := bitsOf x.toNat 16 16
def Thermal.thr (t : Thermal) (k : Nat) : Word := match k with | 1 => t.thr1 | 2 => t.thr2 | _ => t.thr3

/-- TEMPK. -/
def Thermal.tempk (t : Thermal) : Word := BitVec.ofNat 32 (t.hot % 256 * 2 ^ 16 + t.temp % 2 ^ 16)
/-- TBAND. -/
def Thermal.tband (t : Thermal) : Word :=
  BitVec.ofNat 32 (t.state % 16 * 16 + (if t.wsm then 8 else 0) + t.band % 4)

/-- A thermal register read. -/
def Thermal.read (t : Thermal) (i : Nat) : Word :=
  match i with
  | 0x310 => t.tempk
  | 0x311 => t.tband
  | 0x312 => t.bandlog
  | 0x313 => t.thr1
  | 0x314 => t.thr2
  | 0x315 => t.thr3
  | 0x316 => if t.busy then 0x80000000 else 0
  | 0x317 => BitVec.ofNat 32 (t.high % 2 ^ 16)
  | 0x318 => BitVec.ofNat 32 (t.terrDie % 256 * 256 + t.terrCode % 256)
  | _ => 0

/-- The reset value of UP of a threshold: the image's, none above those of R381 (R391). -/
def Image.top (x : Image) (k : Nat) : Nat :=
  match k with | 1 => min (thUp x.thr1) 340 | 2 => min (thUp x.thr2) 400 | _ => min (thUp x.thr3) 520

/-- A threshold as stored: UP at most its reset value, DOWN at most UP - 4. -/
def clampThr (x : Image) (k : Nat) (v : Word) : Word :=
  let up := min (thUp v) (x.top k)
  BitVec.ofNat 32 (up + (if k = 3 then 0 else min (thDown v) (up - 4)) * 2 ^ 16)

/-- THRESHOLD WRITE (R381). -/
def State.writeThr (s : State) (k : Nat) (v : Word) : State :=
  let x := clampThr s.image k v
  s.modTherm (fun t => match k with
    | 1 => { t with thr1 := x } | 2 => { t with thr2 := x } | _ => { t with thr3 := x })

/-- BANDLOG written: counts as given, the flags cleared by ones. -/
def State.writeBandlog (s : State) (v : Word) : State :=
  s.modTherm (fun t => { t with bandlog := (v &&& 0xFFFFFF00) ||| (t.bandlog &&& 7 &&& ~~~v) })

/-- A flag of BANDLOG set, which raises the thermal interrupt. -/
def State.setBandlog (s : State) (bit : Word) : State :=
  (s.modTherm (fun t => { t with bandlog := t.bandlog ||| bit })).interrupt 1

/-- A count of BANDLOG at bit `lo` one higher, saturating at 255. -/
def State.countBand (s : State) (lo : Nat) : State :=
  s.modTherm (fun t =>
    if bitsOf t.bandlog.toNat lo 8 = 255 then t
    else { t with bandlog := t.bandlog + BitVec.ofNat 32 (2 ^ lo) })

/-! Drains (11_visibility R251). -/

def State.drainctl (s : State) : Word := s.preg.getD 0x305 0
def State.setDrainctl (s : State) (v : Word) : State := { s with preg := s.preg.set 0x305 v 0 }

/-- DRAINCTL written: a drain that starts keeps the kinds it was started with. -/
def State.writeDrain (s : State) (v : Word) : State :=
  let old := s.drainctl
  let kept := old &&& 0x102 &&& ~~~(v &&& 0x100)
  if !v.getLsbD 0 then s.setDrainctl (kept ||| (v &&& 0xC))
  else if old.getLsbD 1 then s
  else { s.setDrainctl (kept ||| (v &&& 0xC) ||| 2) with drainSel := v &&& 0xC }

/-- Every L2 drained: pending-home data, SWC included, then dirty lines (R251). -/
def State.drainL2 (s : State) : State :=
  (List.range 8).foldl (fun s d => s.writeOn d)
    ((List.range 8).foldl (fun s d => s.sendAll d true) s)

/-- DRAIN START (R251); in OFF it is not served (R392). -/
def execDrainStart (value : BitVec 32) (s : State) : Out :=
  .next (if s.therm.state = 0 then s else s.writeDrain (value ||| 1))

/-- The supervisor's drain on entering SAFE starts: once the teams that leave are gone and no drain is in
progress, the SYS drain of every die and then a DRAINCTL drain of both kinds (17_cold R383, step 4). -/
def State.startSafeDrain (s : State) : State :=
  if s.therm.safeDrain && !s.teams.any (fun e => e.2.live && e.2.leaving) then
    (s.drainDies.writeDrain 0xD).modTherm (fun t => { t with safeOwn := true })
  else s

/-- DRAIN COMPLETE (R251): the drain in progress ends, and with the supervisor's own the entry into SAFE
and its command; with none in progress, the supervisor's own starts when it may. -/
def execDrainComplete (s : State) : Out :=
  let d := s.drainctl
  .next (if d.getLsbD 1 then
      let s := (if s.drainSel.getLsbD 3 then s.drainL2 else s).setDrainctl ((d &&& ~~~2) ||| 0x100)
      if s.therm.safeOwn then
        s.modTherm (fun t => { t with safeDrain := false, safeOwn := false, busy := false })
      else s
    else s.startSafeDrain)

/-! The state machine (R382, R383). -/

/-- BAND (R381): 3 above THR3.UP; the band that a running state fixes; in the other states, where the manual
gives no hysteresis, the band that the temperature is in by the UP thresholds (log entry 41), and the old one
before the first sample. -/
def Thermal.bandIn (t : Thermal) (st : Nat) : Nat :=
  if t.sensors.isEmpty && !([5, 6, 7, 8].contains st) then t.band
  else if !t.sensors.isEmpty && thUp t.thr3 < t.temp then 3
  else match st with
    | 5 => 0
    | 6 => 0
    | 7 => 1
    | 8 => 2
    | _ => if t.temp ≤ thUp t.thr1 then 0 else if t.temp ≤ thUp t.thr2 then 1 else 2

/-- A change of STATE, which raises the thermal interrupt. The samples counted for the thresholds go on being
counted: R379 speaks of samples, in whatever state. -/
def State.enter (s : State) (st : Nat) : State :=
  (s.modTherm (fun t => { t with
    state := st, stateSince := s.time, wsm := [9, 10, 11].contains st, band := t.bandIn st
    bandTo := none, dewSince := none, dewOk := false, dewMet := false, soakSince := none
    trainFail := false })).interrupt 1

/-- Every team still resident stays after all. -/
def State.stay (s : State) : State :=
  { s with teams := s.teams.mapV {} (fun _ t => { t with leaving := false }) }

/-- SAFE is entered (R383): teams with a free save slot leave, and the drain is to follow. -/
def State.enterSafe (s : State) : State :=
  let s := ((s.enter 9).countBand 24).modTherm (fun t => { t with safeDrain := true })
  (s.teams.keys).foldl State.evict s

/-- SAFE or ASCENT is left for a state in which groups issue. -/
def State.enterRunning (s : State) (st : Nat) : State := (s.enter st).stay

/-- The compute dies are powered off: their DRAM and operand stores lose their contents (R382). -/
def State.diesOff (s : State) : State :=
  { s with
    mem := s.mem.filter (fun e => 2 ^ 64 ≤ e.1)
    mpois := s.mpois.filter (fun e => 2 ^ 62 ≤ e.1)
    cores := [], dies := [] }

/-- Power is lost: what the management flash and the Granary hold stays, with the memory of host and
peers (R382, R391; 09_memory R197). -/
def State.powerLoss (s : State) : State :=
  { State.reset with
    mem := s.mem.filter (fun e => 2 ^ 64 ≤ e.1)
    image := s.image, repairs := s.repairs, sparesUsed := s.sparesUsed, inputs := s.inputs, freeCtr := s.freeCtr
    seq := s.seq, nextId := s.nextId, saved := s.saved }

/-- TERR records a code, and the die of a failed step, 0xFF where the step is of no die. -/
def State.terr (s : State) (code die : Nat) : State :=
  s.modTherm (fun t => { t with terrCode := code, terrDie := die % 256 })

/-- A command refused (R381): no step has failed, and nothing else changes. -/
def State.refuse (s : State) : State := s.modTherm (fun t => { t with terrCode := 3 })

/-- A condition has held for a time. -/
def State.heldFor_ (s : State) (x : Option Nat) (n : Nat) : Bool :=
  match x with | some t0 => t0 + n ≤ s.time | none => false

/-- COOL (R382): in PURGE once the dew point has been below 200 K for 5 min; in WARM with nothing placed,
saved or queued. -/
def State.cmdCool (s : State) : State :=
  let t := s.therm
  if t.state = 1 && s.heldFor_ t.dewSince (300 * 10 ^ 9) then s.enter 2
  else if t.state = 11 && !s.teams.any (fun e => e.2.live)
      && !s.launches.any (fun e => e.2.stage = .queued || e.2.stage = .dispatched) then
    (s.diesOff).enter 1
  else s.refuse

/-- GO (R382). -/
def State.cmdGo (s : State) : State := if s.therm.state = 5 then s.enter 6 else s.refuse

/-- RESUME (R382): every sample below THR2.UP for 10 s, and the steps of entering SAFE done (R383). -/
def State.cmdResume (s : State) : State :=
  let t := s.therm
  if t.state = 9 && !t.safeDrain && s.heldFor_ t.belowR (10 ^ 10) then (s.enterRunning 8).countBand 16
  else s.refuse

/-- SAFE (R382): the command is being performed until the last step of R383. -/
def State.cmdSafe (s : State) : State :=
  if [6, 7, 8].contains s.therm.state then s.enterSafe.modTherm (fun t => { t with busy := true })
  else s.refuse

/-- ASCEND (R382). -/
def State.cmdAscend (s : State) : State :=
  let t := s.therm
  if (t.state = 4 && t.trainFail) || t.state = 5 || t.state = 9 then s.enter 10 else s.refuse

/-- A value written to THCMD (R381); in OFF it is not served (R392). -/
def State.thCmd (s : State) (v : Word) : State :=
  if s.therm.state = 0 then s
  else if s.therm.busy then s.refuse
  else match (v.extractLsb' 0 4).toNat with
    | 1 => s.cmdCool
    | 2 => s.cmdGo
    | 3 => s.cmdResume
    | 4 => s.cmdSafe
    | 5 => s.cmdAscend
    | _ => s

/-- A thermal register written, under its access codes (R381); in OFF none is served (R392). -/
def State.writeTherm (s : State) (i : Nat) (v : Word) : State :=
  if s.therm.state = 0 then s
  else match i with
  | 0x312 => s.writeBandlog v
  | 0x313 => s.writeThr 1 v
  | 0x314 => s.writeThr 2 v
  | 0x315 => s.writeThr 3 v
  | 0x316 => s.thCmd v
  | 0x317 => if v.getLsbD 31 then s.modTherm (fun t => { t with high := t.temp }) else s
  | 0x318 => if v.extractLsb' 0 8 = 0xFF then s.modTherm (fun t => { t with terrCode := 0 }) else s
  | _ => s

/-- THCMD COOL (R382). -/
def execThcmdCool (s : State) : Out := .next (s.thCmd 1)
/-- THCMD GO (R382). -/
def execThcmdGo (s : State) : Out := .next (s.thCmd 2)
/-- THCMD RESUME (R382). -/
def execThcmdResume (s : State) : Out := .next (s.thCmd 3)
/-- THCMD SAFE (R382). -/
def execThcmdSafe (s : State) : Out := .next (s.thCmd 4)
/-- THCMD ASCEND (R382). -/
def execThcmdAscend (s : State) : Out := .next (s.thCmd 5)
/-- TEMPMAX CLR (R381). -/
def execTempmaxClr (s : State) : Out := .next (s.writeTherm 0x317 0x80000000)
/-- THRESHOLD WRITE (R381). -/
def execThresholdWrite (k : Nat) (value : BitVec 32) (s : State) : Out :=
  .next (if 1 ≤ k && k ≤ 3 then s.writeTherm (0x312 + k) value else s)

/-! Samples (R378, R379). -/

/-- A reading is taken in: within 60 to 400 K, and within 8 K of the median of its die's four, the
mean of the two in the middle. -/
def sensorOk (readings : List Nat) (i : Nat) : Bool :=
  let r := readings.getD i 0
  let four := (List.range 4).map (fun k => readings.getD (4 * (i / 4) + k) 0)
  let two := four.sum - maxOf four - four.foldl min (four.headD 0)
  240 ≤ r && r ≤ 1600 && 2 * r ≤ two + 64 && two ≤ 2 * r + 64

/-- The package temperature and the sensor that gives it: the highest reading taken in. -/
def hottest (readings : List Nat) (valid : List Bool) : Option (Nat × Nat) :=
  (List.range 36).foldl (fun acc i =>
    if !valid.getD i false then acc
    else
      let r := readings.getD i 0
      match acc with
      | none => some (r, i)
      | some (x, _) => if x < r then some (r, i) else acc) none

/-- Since when a condition has held. -/
def since (old : Option Nat) (now : Nat) (c : Bool) : Option Nat :=
  if !c then none else match old with | none => some now | some t => some t

/-- What a sample writes down. -/
def State.noteSample (s : State) (readings : List Nat) (valid : List Bool) (temp hot dew : Nat) : State :=
  let all (p : Nat → Bool) : Bool := (List.range 36).all (fun i => !valid.getD i false || p (readings.getD i 0))
  s.modTherm (fun t => { t with
    sensors := readings, valid, temp, hot, dew, high := max t.high temp
    over1 := if thUp t.thr1 < temp then t.over1 + 1 else 0
    over2 := if thUp t.thr2 < temp then t.over2 + 1 else 0
    below1 := since t.below1 s.time (temp < thDown t.thr1)
    below2 := since t.below2 s.time (temp < thDown t.thr2)
    belowR := since t.belowR s.time (temp < thUp t.thr2)
    dewSince := since t.dewSince s.time (t.state = 1 && dew < 800)
    dewOk := t.dewOk && dew < 800
    soakSince := since t.soakSince s.time (t.state = 3 && all (fun r => 308 ≤ r && r ≤ 320))
    band := ({ t with sensors := readings, temp } : Thermal).bandIn t.state })

/-- The transitions a sample triggers (R379, R382, R383). -/
def State.afterSample (s : State) : State :=
  let t := s.therm
  let on (p : Nat → Bool) : Bool := (List.range 36).any (fun i => t.valid.getD i false && p (t.sensors.getD i 0))
  let any (p : Nat → Bool) : Bool := t.sensors.any p
  let poor := (List.range 9).any (fun d =>
    ((List.range 4).filter (fun k => t.valid.getD (4 * d + k) false)).length < 2)
  match t.state with
  | 2 => if !on (fun r => 320 < r) then s.enter 3 else s
  | 3 => if any (fun r => 340 < r) then s.enter 2 else s
  | 6 =>
    if thUp t.thr3 < t.temp || poor then s.enterSafe
    else if 3 ≤ t.over1 then s.modTherm (fun t => { t with bandTo := some 1 }) else s
  | 7 =>
    if thUp t.thr3 < t.temp || poor then s.enterSafe
    else if 3 ≤ t.over2 then s.modTherm (fun t => { t with bandTo := some 2 }) else s
  | 8 => if thUp t.thr3 < t.temp || poor then s.enterSafe else s
  | 9 => if any (fun r => 600 < r) then s.enter 10 else s
  | 10 =>
    let low := t.sensors.foldl min (t.sensors.headD 0)
    let s := if low < t.dew + 20 then s.setBandlog 2 else s
    if !on (fun r => r < 1132) then s.enterRunning 11 else s
  | _ => s

/-- SENSOR SAMPLE (R378): 36 readings and the dew point, in units of 0.25 K. -/
def execSensorSample (readings : List Nat) (dew : Nat) (s : State) : Out :=
  let valid := (List.range 36).map (sensorOk readings)
  .next (if s.therm.state = 0 || readings.length ≠ 36 then s
    else
      let s := if valid.contains false then s.setBandlog 4 else s
      match hottest readings valid with
      | none => (s.noteSample readings valid s.therm.temp s.therm.hot dew).afterSample
      | some (temp, hot) => (s.noteSample readings valid temp hot dew).afterSample)

/-- BAND CHANGE (R380): the band moves, up or down; in band 1 three samples above THR2.UP that have been
taken already make the next change pending. -/
def execBandChange (s : State) : Out :=
  .next (match s.therm.bandTo with
    | none => s
    | some b =>
      if !([6, 7, 8].contains s.therm.state) then s
      else
        let up := s.therm.state < 6 + b
        let s := s.enter (6 + b)
        let s := if up && b = 1 && 3 ≤ s.therm.over2 then s.modTherm (fun t => { t with bandTo := some 2 }) else s
        if up then s.countBand (8 * b) else if b = 1 then s.countBand 8 else s)

/-- BAND RETURN HOLD (R379). -/
def execBandReturnHold (s : State) : Out :=
  let t := s.therm
  .next (if t.state = 7 && s.heldFor_ t.below1 (10 ^ 10) then s.modTherm (fun t => { t with bandTo := some 0 })
    else if t.state = 8 && s.heldFor_ t.below2 (10 ^ 10) then s.modTherm (fun t => { t with bandTo := some 1 })
    else s)

/-! From OFF to READY (R382, R391, R392). -/

/-- POWER ON (R382, R392): boot verification passes, and whether the append signature does. -/
def execPowerOn (verified appendOk : Bool) (s : State) : Out :=
  .next (if s.therm.state = 0 && verified then
      (s.enter 1).modTherm (fun t => { t with appendOk := appendOk })
    else s)

/-- POWER OFF (R382). -/
def execPowerOff (s : State) : Out := .next (if s.therm.state = 11 then s.powerLoss else s)

/-- DEW POINT HOLD (R382): five minutes below 200 K. -/
def execDewPointHold (s : State) : Out :=
  .next (if s.therm.state = 1 && s.heldFor_ s.therm.dewSince (300 * 10 ^ 9) then
      s.modTherm (fun t => { t with dewOk := true, dewMet := true })
    else s)

/-- PURGE TIMEOUT (R382): the dew point not reached within 60 min; the step is of no die. -/
def execPurgeTimeout (s : State) : Out :=
  let t := s.therm
  .next (if t.state = 1 && !t.dewMet && !s.heldFor_ t.dewSince (300 * 10 ^ 9)
      && t.stateSince + 3600 * 10 ^ 9 ≤ s.time then (s.enter 0).terr 1 0xFF else s)

/-- RATE MEASURE (R382, R383): a rate in units of 0.25 K per minute. -/
def execRateMeasure (rate : Nat) (s : State) : Out :=
  .next (if (s.therm.state = 2 && 8 < rate) || (s.therm.state = 10 && 12 < rate) then s.setBandlog 1 else s)

/-- SOAK HOLD (R382). -/
def execSoakHold (s : State) : Out :=
  .next (if s.therm.state = 3 && s.heldFor_ s.therm.soakSince (600 * 10 ^ 9) then s.enter 4 else s)

/-! The configuration image (R391). -/

/-- The records in force: the base's, and the appended ones unless their signature failed (R392). -/
def State.inForce (s : State) : List Repair := s.image.base ++ (if s.therm.appendOk then s.repairs else [])

/-- A record applied at COLDTRAIN: a spare core, row or column taken, an L2 line withdrawn. Repairs of DRAM
rows and link lanes are the memory devices' and the links' own. -/
def State.applyRepair (s : State) (r : Repair) : State :=
  let ck := coreKey r.die r.unit_
  match r.type_ with
  | 1 => { s with sparesUsed := s.sparesUsed.set r.die (s.sparesUsed.getD r.die 0 + 1) 0 }
  | 2 => s.modCore ck (fun c =>
      if c.sparesUsed < 1024 then { c with sparesUsed := c.sparesUsed + 1 } else { c with withdrawn := c.withdrawn + 1 })
  | 3 => s.modCore ck (fun c => { c with columnsUsed := c.columnsUsed + 1 })
  | 5 => s.modDie r.die (fun d => { d with withdrawn := d.withdrawn + 1 })
  | _ => s

/-- The image applied: no core absent yet, no repair but those in force, the thresholds at the image's reset
values, none above those of R381. -/
def State.applyImage (s : State) : State :=
  let s := { s with
    sparesUsed := [], absent := []
    cores := s.cores.mapV {} (fun _ c => { c with sparesUsed := 0, withdrawn := 0, columnsUsed := 0 })
    dies := s.dies.mapV {} (fun _ d => { d with withdrawn := 0 }) }
  let s := s.inForce.foldl State.applyRepair s
  ((s.writeThr 1 s.image.thr1).writeThr 2 s.image.thr2).writeThr 3 s.image.thr3

/-- A core that fails its cold self-test is replaced by a spare of its die, or its position is absent
(R391). -/
def State.coreFails (s : State) (ck : Nat) : State :=
  let die := ck / 256
  let n := s.sparesUsed.getD die 0
  if 8 ≤ die || dieCores die ≤ ck % 256 || s.absent.contains ck then s
  else if n < 4 then
    ({ s with sparesUsed := s.sparesUsed.set die (n + 1) 0 }).appendRepair
      { type_ := 1, die, unit_ := ck % 256, new := n }
  else { s with absent := s.absent ++ [ck] }

/-- The links are trained: every port is up (R382, R387). -/
def State.linksUp (s : State) : State :=
  { s with bar := (List.range 8).foldl (fun m n =>
      m.set ((0x30200 + 4 * n) / 4) (m.getD ((0x30200 + 4 * n) / 4) 0 ||| 1) 0) s.bar }

/-- COLDTRAIN COMPLETE (R382, R391): the image is applied, cores that fail their self-test are replaced, and
every step has passed within 90 s, or one has failed. -/
def execColdtrainComplete (ok : Bool) (die : Nat) (badCores : List Nat) (s : State) : Out :=
  .next (if s.therm.state ≠ 4 || s.therm.trainFail then s
    else
      let s := badCores.foldl State.coreFails s.applyImage
      if ok && s.time ≤ s.therm.stateSince + 90 * 10 ^ 9 then s.linksUp.enter 5
      else (s.terr 2 die).modTherm (fun t => { t with trainFail := true }))

end Sys2Proof.Machine
end

