-- ==== Sys2Proof/Machine/Control.lean ====
section
/-!
DEFINITION. The control class, 0x01 to 0x12 and 0x1C: divergence records, joins, exits, calls,
REFILL, the masks, traps and breakpoints (04_control R62 to R90; 15_system R347 for TRET).
-/

namespace Sys2Proof.Machine

/-! The record stack (R71 to R74). -/

/-- Why the record stack cannot do what an instruction needs: it is full (R72), or the spill area
cannot be reached or is bad (R73), with the record's address and whether a replay can help. -/
inductive StackErr where
  | divx
  | divf (addr : DWord) (nrep : Bool)
deriving DecidableEq, Repr

/-- The spill-area address of stack position `i` (R72). -/
def State.recordAddr (s : State) (g : Group) (i : Nat) : DWord :=
  BitVec.ofNat 64 (s.winBase g + 16 * i)

/-- The place of a spilled record, reached for a read or a write (R73). -/
def State.recordPlace (s : State) (gk i : Nat) (acc : Acc) : Except StackErr (State × Xl) :=
  let g := s.group gk
  let a := s.recordAddr g i
  match s.translate g.ctx g.die (vaOf a) acc (some g.core) with
  | (_, .error _) => .error (.divf a false)
  | (s, .ok x) => if s.linePois x.attr.home x.pk then .error (.divf a true) else .ok (s, x)

/-- A record written to the spill area, past every buffer (R72). -/
def State.spillRecord (s : State) (gk i : Nat) (r : DivRec) : Except StackErr State :=
  match s.recordPlace gk i .w with
  | .error e => .error e
  | .ok (s, x) =>
    .ok ((sectorsOf (pieceBytes x (wordBytes r.words)) gk).foldl
      (fun s e => s.acceptHome x.attr e.sec e.cells) s)

/-- A record read back from the spill area. -/
def State.readRecord (s : State) (gk i : Nat) : Except StackErr (State × DivRec) :=
  match s.recordPlace gk i .r with
  | .error e => .error e
  | .ok (s, x) =>
    let word (k : Nat) : Word := BitVec.ofNat 32
      (natLE ((List.range 4).map (fun b => (s.homeByte x.attr.home (x.pk + 4 * k + b)).val)))
    match DivRec.ofWords (word 0) (word 1) (word 2) (word 3) with
    | none => .error (.divf (s.recordAddr (s.group gk) i) true)
    | some r => .ok (s, r)

/-- Push: the stack holds 4,096 records, the cache eight (R72). -/
def State.push (s : State) (gk : Nat) (r : DivRec) : Except StackErr State :=
  let g := s.group gk
  if 4096 ≤ g.records then .error .divx
  else if g.recs.length < 8 then .ok (s.modGroup gk (fun g => { g with recs := r :: g.recs }))
  else
    match s.spillRecord gk g.spilled (g.recs.getLastD {}) with
    | .error e => .error e
    | .ok s => .ok ((s.modGroup gk (fun g =>
        { g with recs := r :: g.recs.dropLast, spilled := g.spilled + 1 })).countGroup gk 6)

/-- The newest record is in the cache: a spilled one is read back when the cache is empty, less
the lanes in XS (R72, R74). -/
def State.refillTop (s : State) (gk : Nat) : Except StackErr State :=
  let g := s.group gk
  if !g.recs.isEmpty || g.spilled = 0 then .ok s
  else
    match s.readRecord gk (g.spilled - 1) with
    | .error e => .error e
    | .ok (s, r) => .ok (s.modGroup gk (fun g =>
        let r : DivRec := { r with exm := r.mask &&& g.xs, mask := r.mask &&& ~~~g.xs }
        { g with recs := [r], spilled := g.spilled - 1
                 xs := if g.spilled = 1 then 0 else g.xs }))

/-- The top record is popped if it is as wanted. A record without lanes is discarded and the next
one examined; with a CALL record goes one level of CALLDEPTH (R74). -/
def State.popIf (gk : Nat) (want : DivRec → Bool) :
    Nat → State → Except StackErr (State × Option DivRec)
  | 0, s => .ok (s, none)
  | n + 1, s =>
    if (s.group gk).ownRecords = 0 then .ok (s, none)
    else match s.refillTop gk with
      | .error e => .error e
      | .ok s =>
        match (s.group gk).recs with
        | [] => .ok (s, none)
        | r :: t =>
          if !want r then .ok (s, none)
          else
            let s := s.modGroup gk (fun g => { g with recs := t })
            if r.mask ≠ 0 then .ok (s, some r)
            else if r.kind = .call then
              State.popIf gk want n (s.modGroup gk (fun g => { g with calldepth := g.calldepth - 1 }))
            else State.popIf gk want n s

/-- As many records as a stack can hold, and one. -/
def stackFuel : Nat := 4097

/-- A popped PATH record as a path (R75). -/
def DivRec.place (r : DivRec) : PcSlot :=
  { v := true, pc := r.pc, ins := r.ins, own := r.mask, act := r.mask, ja := r.ja, arr := r.arr }

/-- The record of an evicted partner (R70). A record has no place for the lanes that TRET left to replay
(09_memory R178): a partner evicted before its replay issues makes its instruction anew with every lane of
its mask, and so does one whose instruction had parked (R176). That is the model's choice, the manual stating none (log entry 17). -/
def PcSlot.evicted (x : PcSlot) : DivRec :=
  { kind := .path, arr := x.arr, ins := x.ins, pc := x.pc, ja := x.ja, mask := x.own }

def State.putSlot (s : State) (gk : Nat) (b : Bool) (x : PcSlot) : State :=
  s.modGroup gk (fun g => g.setSlot b x)

def State.slotOf (s : State) (gk : Nat) (b : Bool) : PcSlot := (s.group gk).slot b

/-! Joins and merges (R75 to R77). -/

/-- The record is a PATH with the join address. -/
def DivRec.pathTo (ja : BitVec 24) (r : DivRec) : Bool := r.kind = .path && r.ja = ja

/-- A path to the join address on top of the stack is popped into a free slot. -/
def State.popPath (s : State) (gk : Nat) (b : Bool) (ja : BitVec 24) :
    Except StackErr (State × Bool) :=
  match State.popIf gk (DivRec.pathTo ja) stackFuel s with
  | .error e => .error e
  | .ok (s, none) => .ok (s, false)
  | .ok (s, some r) => .ok (s.putSlot gk b r.place, true)

/-- Merge (R76): the path that lives on stands in slot `bx`; the other slot becomes free. -/
def State.merge (s : State) (gk : Nat) (bx : Bool) (own : Word) (t : BitVec 24) :
    Except StackErr State :=
  let x : PcSlot := { v := true, pc := t, own, act := own, ja := (s.slotOf gk bx).ja, nj := true }
  let s := (s.putSlot gk (!bx) {}).putSlot gk bx x
  match State.popIf gk (fun r => r.kind = .join) stackFuel s with
  | .error e => .error e
  | .ok (s, none) => .ok s
  | .ok (s, some r) =>
    let s := s.putSlot gk bx { x with ja := r.ja, nj := false }
    match s.popPath gk (!bx) r.ja with
    | .error e => .error e
    | .ok (s, _) => .ok s

/-- TryMerge (R75) of the slot `b`, which has arrived. -/
def State.tryMerge (s : State) (gk : Nat) (b : Bool) : Except StackErr State :=
  let x := s.slotOf gk b
  let with_ (s : State) : Except StackErr State :=
    let o := s.slotOf gk (!b)
    if o.arr then s.merge gk (!b) (x.own ||| o.own) x.pc else .ok s
  if (s.slotOf gk (!b)).v then with_ s
  else
    match s.popPath gk (!b) x.ja with
    | .error e => .error e
    | .ok (s, true) => with_ s
    | .ok (s, false) => s.merge gk b x.own x.pc

/-- No slot is valid: records are popped until one is (R77), and with none left the group goes to
its refill point or ends (R85). A handler that all its lanes have left gives way to the
interrupted group's records. -/
def State.settle (gk : Nat) : Nat → State → Except StackErr State
  | 0, s => .ok s
  | n + 1, s =>
    let g := s.group gk
    if g.slotA.v || g.slotB.v then .ok s
    else if g.ownRecords = 0 then
      if g.records = 0 then
        .ok (match g.rp with
          | none => s
          | some r => s.putSlot gk false { v := true, pc := r, nj := true })
      else State.settle gk n (s.modGroup gk (fun g =>
        { g with traps := g.traps.map (fun t => { t with base := 0 }) }))
    else
      match State.popIf gk (fun _ => true) stackFuel s with
      | .error e => .error e
      | .ok (s, none) => State.settle gk n s
      | .ok (s, some r) =>
        match r.kind with
        | .path =>
          let s := s.putSlot gk false r.place
          if r.arr then s.tryMerge gk false else .ok s
        | .join => .ok (s.putSlot gk false { r.place with ins := 0, nj := r.nj, arr := false })
        | .call =>
          .ok ((s.putSlot gk false { r.place with ins := 0, nj := r.nj, arr := false }).modGroup gk
            (fun g => { g with calldepth := g.calldepth - 1 }))

/-- Lanes leave every record (R74). -/
def Group.dropLanes (g : Group) (e : Word) : Group :=
  { g with recs := g.recs.map (fun r => { r with mask := r.mask &&& ~~~e })
           xs := if g.spilled = 0 then g.xs else g.xs ||| e }

/-- Lanes leave every record (R74) and every interrupted slot (R79). -/
def State.dropLanes (s : State) (gk : Nat) (e : Word) : State :=
  (s.modGroup gk (·.dropLanes e)).keepXk gk e

/-- Lanes removed from one slot; a slot left without lanes is freed, and its partner or the
records go on (R78). -/
def State.leaveSlot (s : State) (gk : Nat) (b : Bool) (e : Word) : Except StackErr State :=
  let x := s.slotOf gk b
  let own := x.own &&& ~~~e
  if own ≠ 0 then .ok (s.putSlot gk b { x with own := own, act := x.act &&& ~~~e })
  else
    let s := (s.dropWait gk b).putSlot gk b {}
    let o := s.slotOf gk (!b)
    if o.v then (if o.arr then s.tryMerge gk (!b) else .ok s) else State.settle gk 3 s

/-! What an instruction does when the stack fails it. -/

/-- The outcome of a stack operation, or its trap or park before any effect (R72, R73). `act` is
Active. -/
def State.orFail (s : State) (act : Word) (r : Except StackErr State) : State :=
  match r with
  | .ok s' => s'
  | .error .divx => s.raiseMask cDIVX act
  | .error (.divf a nrep) => s.park cDIVF act a nrep

/-! Branches (R69, R70). -/

/-- The slot moves to a clause. -/
def State.goto_ (s : State) (t : BitVec 24) : State := s.setSlot (s.slot.goto_ t)

/-- The slot moves, its mask first restored. -/
def State.gotoRestored (s : State) (t : BitVec 24) : State :=
  s.setSlot { s.slot.goto_ t with act := s.slot.own }

/-- The slot's mask restored (R62, R68). -/
def State.restored (s : State) : State := s.setSlot { s.slot with act := s.slot.own }

/-- The map that names a target in a level-1 stream is read with a DEV-scope acquire (16_loading R370). -/
def State.mapRead (s : State) (a : DWord) : State :=
  match (s.codeIndex s.grp.ctx a).bind (s.l1Object s.grp.ctx s.grp.die) with
  | none => s
  | some _ => s.acquireAt s.cur 4

/-- An indirect transfer: BADT for the Active lanes of `r`, a park on untranslated code, or `k`. -/
def State.transfer (s r : State) (w : W0) (a : DWord) (k : State → BitVec 24 → State) : State :=
  match s.codeDest a with
  | .bad => r.raiseMask cBADT (r.activeW w) a
  | .cnr obj epoch word => s.parkCnr obj epoch word
  | .at_ t => k (s.mapRead a) t

/-- A table entry read with DEV-scope acquire (R69, R82): ILL past the table's end, a replayable
park on a translation fault, POIS on a poisoned entry, the traps in the state `r` makes. -/
def State.withEntry (s : State) (base cnt idx : Nat) (r : State → State) (k : State → DWord → State) :
    State :=
  if cnt ≤ idx then (r s).raiseSlot cILL
  else
    let a := BitVec.ofNat 64 (base + 8 * idx)
    match s.groupRead s.cur (vaOf a) 8 4 true with
    | (s, .error (c, va)) => s.parkFault c s.slot.act (BitVec.ofNat 64 va)
    | (s, .ok bs) =>
      if anyPois bs then (r s).raiseSlot cPOIS a
      else k (s.acquireAt s.cur 4) (BitVec.ofNat 64 (vbytesNat bs))

/-- BRA (R69). -/
def execBra (b : Br) (s : State) : Out :=
  .next (if s.guardG b.g b.n then
      match brTarget s.lat.clause b.off with
      | none => s.raiseMask cBADT (s.active b.g b.n)
      | some t => s.goto_ t
    else s.cont)

/-- BRX (R69). -/
def execBrx (w : W0) (s : State) : Out :=
  .next (if s.guardW w then s.transfer s w (s.rdG64 w.a.toNat) State.goto_ else s.cont)

/-- TRAMP (R69). -/
def execTramp (w : W0) (imm : Word) (s : State) : Out :=
  .next (if s.guardW w then
      s.withEntry (s.cr64 s.grp.ctx 9) (s.cr s.grp.ctx 0xB).toNat imm.toNat id
        (fun s a => s.transfer s w a State.goto_)
    else s.cont)

/-- The split of BRD, once both addresses are good (R70). -/
def State.split (s : State) (t n : Word) (target join : BitVec 24) : Except StackErr State := do
  let x := s.slot
  let o := s.other
  let s ← if o.v then s.push s.cur o.evicted else pure s
  let s := if o.v then s.dropWait s.cur (!s.curB) else s
  let s ← if x.nj then pure s
    else s.push s.cur { kind := .join, pc := join, ja := x.ja, mask := x.own }
  let o' : PcSlot := { v := true, pc := target, own := t, act := t, ja := join }
  let x' : PcSlot := { x with own := n, act := n, ja := join, nj := false }
  pure ((s.putSlot s.cur (!s.curB) o').setSlot (x'.goto_ s.lat.next))

/-- BRD (R70). -/
def execBrd (b : Br) (j : Word) (s : State) : Out :=
  let own := s.slot.own
  let t := own &&& s.guardMask b.g b.n
  let n := own &&& ~~~s.guardMask b.g b.n
  let act := s.active b.g b.n
  .next (if t = 0 then s.gotoRestored s.lat.next
    else match brTarget s.lat.clause b.off with
      | none => s.raiseMask cBADT act
      | some tgt =>
        if n = 0 then s.gotoRestored tgt
        else match brTarget s.lat.clause (j.extractLsb' 0 16) with
          | none => s.raiseMask cBADT act
          | some jn => s.orFail act (s.split t n tgt jn))

/-- JOIN (R75). -/
def execJoin (b : Br) (s : State) : Out :=
  let x := s.slot
  .next (match brTarget s.lat.clause b.off with
    | none => s.raiseMask cBADT x.act
    | some t =>
      if x.nj || x.ja ≠ t then s.gotoRestored t
      else
        let x' : PcSlot := { x.goto_ t with act := x.own, arr := true }
        s.orFail x.act ((s.setSlot x').tryMerge s.cur s.curB))

/-! Exits (R78). -/

/-- EXIT of the lanes `e`: the slot at NEXT, the lanes gone from records and slot. -/
def State.exitLanes (s : State) (e : Word) : Except StackErr State :=
  if e = 0 then .ok s.cont
  else (s.cont.dropLanes s.cur e).leaveSlot s.cur s.curB e

/-- EXIT (R78). -/
def execExit (w : W0) (s : State) : Out := 
  .next (s.orFail (s.activeW w) (s.exitLanes (s.activeW w)))

/-! Calls and returns (R82, R83). -/

/-- The stack work of a call: the partner evicted, the caller's divergence state sealed. -/
def State.sealCall (s : State) : Except StackErr State := do
  let x := s.slot
  let o := s.other
  let s ← if o.v then s.push s.cur o.evicted else pure s
  let s := if o.v then (s.dropWait s.cur (!s.curB)).putSlot s.cur (!s.curB) {} else s
  if (s.grp.ownRecords ≠ 0) || !x.nj then
    let s ← s.push s.cur
      { kind := .call, pc := s.lat.next, nj := x.nj, ja := if x.nj then 0 else x.ja, mask := x.own }
    pure (s.setSlot { s.slot with nj := true })
  else pure s

/-- A call to a clause. -/
def State.callTo (s : State) (w : W0) (t : BitVec 24) : State :=
  s.orFail (s.activeW w) (match s.sealCall with
    | .error e => .error e
    | .ok s =>
      let link := BitVec.ofNat 64 (s.codeAddr s.grp.ctx s.lat.next)
      let s := s.modGrp (fun g => { g.gput64 62 link with calldepth := g.calldepth + 1 })
      .ok (s.gotoRestored t))

/-- CALL (R82): its trap on a bad target finds the slot's mask restored. -/
def execCall (b : Br) (s : State) : Out :=
  let w : W0 := { g := b.g, n := b.n, f := false, d := 0, a := 0, h := false }
  .next (if s.guardG b.g b.n then
      match brTarget s.lat.clause b.off with
      | none => s.restored.raiseMask cBADT (s.restored.activeW w)
      | some t => s.callTo w t
    else s.cont)

/-- CALLG (R82). -/
def execCallg (w : W0) (s : State) : Out :=
  .next (if s.guardW w then
      s.transfer s.restored w (s.rdG64 w.a.toNat) (fun s => s.callTo w)
    else s.cont)

/-- CALLX (R82). -/
def execCallx (w : W0) (imm : Word) (s : State) : Out :=
  .next (if s.guardW w then
      s.withEntry (s.cr64 s.grp.ctx 6) (s.cr s.grp.ctx 8).toNat imm.toNat State.restored
        (fun s a => s.transfer s.restored w a (fun s => s.callTo w))
    else s.cont)

/-- The stack work of a return, and the move to the link (R83). -/
def State.returnTo (s : State) (t : BitVec 24) : Except StackErr State := do
  let s := s.modGrp (fun g => { g with calldepth := g.calldepth - 1 })
  let (s, r) ← State.popIf s.cur (fun r => r.kind = .call) stackFuel s
  match r with
  | none => pure (s.gotoRestored t)
  | some r =>
    let s := s.setSlot { s.slot with ja := r.ja, nj := r.nj }
    if r.nj then pure (s.gotoRestored t)
    else
      let (s, _) ← s.popPath s.cur (!s.curB) r.ja
      pure (s.gotoRestored t)

/-- RET (R83): its traps find the slot's mask restored; a park finds the state before it. -/
def execRet (w : W0) (s : State) : Out :=
  let link := s.rdG64 62
  let act := s.activeW w
  let r := s.restored
  .next (if !s.guardW w then s.cont
    else if link = 0 then s.orFail act (r.exitLanes s.slot.own)
    else if !s.slot.nj then r.raiseMask cDIVR (r.activeW w)
    else match s.codeDest link with
      | .bad => r.raiseMask cBADT (r.activeW w) link
      | .cnr obj epoch word => s.parkCnr obj epoch word
      | .at_ t =>
        let s := s.mapRead link
        s.orFail act (s.returnTo t))

/-! REFILL (R84). -/

/-- The queue is closed, the command processor holds no item and no core's queue holds one
(15_system R342). A launch without a queue has none to hold. -/
def State.itemsDone (s : State) (lk : Nat) : Bool :=
  let l := s.launch lk
  !l.items || (l.closed && (l.w 21).toNat ≤ l.itemNext && l.returned.isEmpty
    && s.cores.all (fun e => (e.2.items.getD lk {}).items.isEmpty))

/-- Items given to vacant lanes, ascending, until the core's queue is empty (R84). -/
def State.takeItems (s : State) (d : Nat) : List Nat → State
  | [] => s
  | L :: t =>
    let g := s.grp
    let ck := coreKey g.die g.core
    let c := s.coreAt ck
    match (c.items.getD g.launch {}).items with
    | [] => s
    | (item, pos) :: q =>
      let s := s.setCore ck { c with items := c.items.set g.launch { items := q } {} }
      let m : Word := maskOf (· = L)
      let s := (s.disarmReg s.cur d m).modGrp (fun g =>
        { g.writeRow s.lat.lc d m (fun _ => item) with
          workidx := g.workidx.set L (BitVec.ofNat 32 pos) 0 })
      (s.setSlot { s.slot with own := s.slot.own ||| m }).takeItems d t

/-- REFILL acts: at divergence depth 0 and call depth 0, outside a handler (R84). -/
def State.refillActs (s : State) : Bool :=
  s.slot.nj && !s.other.v && s.grp.records = 0 && s.grp.calldepth = 0 && s.grp.traps.isEmpty

/-- Some vacant lane has a pending load (R84). -/
def State.refillWaits (s : State) : Bool :=
  let vacant := s.grp.populated &&& ~~~s.slot.own
  s.grp.pend.any (fun o =>
    o.v.any (fun p => inMask vacant (p.key % 32)) || o.dst.any (fun k => inMask vacant (k % 32)))

/-- The slot's place after its REFILL, in this clause or, after a migration, in the newer epoch's
(R369). -/
def State.afterRefill (s : State) : State :=
  match s.migrateTo with
  | none => s.touchMig.cont
  | some (c, k) =>
    let s := s.touchMig
    let x := s.slot
    let rp := BitVec.ofNat 24 c
    let s := s.modGrp (fun g => { g with rp := some rp })
    s.setSlot { x with pc := rp, ins := k + 1, only := none, again := none }

/-- REFILL (R84). -/
def execRefill (w : W0) (s : State) : Out :=
  .next (if !s.refillActs then s.cont
    else if s.refillWaits then s.holdIssue
    else
      let vacant := s.grp.populated &&& ~~~s.slot.own
      let s := s.modGrp (fun g => { g with rp := some s.lat.clause })
      let s := s.takeItems w.d.toNat (lanesOf vacant)
      let own := s.slot.own
      let s := (s.setSlot { s.slot with act := own }).modGrp (fun g => g.gpput 0 (own ≠ 0))
      if own = 0 && s.itemsDone s.grp.launch then
        (s.setSlot {}).modGrp (fun g => { g with rp := none })
      else s.afterRefill)

/-! Issue, masks and status (R80, R81, R86, R87). -/

/-- The continuation of the group ends at the port's next pick (04_control R66). -/
def State.yieldPort (s : State) : State :=
  let g := s.grp
  s.modCore (coreKey g.die g.core) (fun c =>
    { c with ports := c.ports.set g.port { c.ports.getD g.port {} with yld := true } {} })

/-- YIELD (R86). -/
def execYield (w : W0) (s : State) : Out :=
  .next (if s.guardW w then s.yieldPort.cont else s.cont)

/-- SLEEP (R87): the slot stays at its SLEEP, which is issued again if the slot is evicted, and
goes on when it wakes. -/
def execSleep (w : W0) (imm : Word) (s : State) : Out :=
  .next (if !s.guardW w then s.cont
    else if imm = 0 then s.yieldPort.cont
    else
      let x := s.slot
      let a := x.advance s.lat
      let wake := (s.dieTime s.grp.die + imm.toNat) % 2 ^ 64
      s.setSlot { x with slp := true, wake := wake, wpc := a.pc, wins := a.ins })

/-- The divergence status word (R81). -/
def State.dstat (s : State) : Word :=
  let n := s.grp.ownRecords
  let o := s.other
  BitVec.ofNat 32 (n + min s.grp.recs.length n * 2 ^ 25 + (if s.slot.nj then 2 ^ 29 else 0)
    + (if o.v && o.arr then 2 ^ 30 else 0) + (if o.v then 2 ^ 31 else 0))

/-- DSTAT (R81). -/
def execDstat (w : W0) (s : State) : Out :=
  .next (s.groupExec w (fun s => s.wrG w.d.toNat s.dstat))

/-- MASKR (R80). -/
def execMaskr (w : W0) (s : State) : Out :=
  .next (s.groupExec w (fun s => s.wrG w.d.toNat s.slot.act))

/-- MASKW (R80). -/
def execMaskw (w : W0) (s : State) : Out :=
  .next (s.groupExec w (fun s =>
    s.setSlot { s.slot with act := s.rdG w.a.toNat &&& s.slot.own }))

/-! Traps and breakpoints (R88 to R90). -/

/-- TRAP (R88). -/
def execTrap (w : W0) (s : State) : Out :=
  let act := s.activeW w
  .next (if act = 0 then s.cont
    else s.cont.raise ((lanesOf act).map (fun L => { lane := L, cause := cSWT })) false w.d.toNat)

/-- BRK (R90). -/
def execBrk (w : W0) (s : State) : Out :=
  let act := s.activeW w
  .next (if act = 0 || !(s.cr s.grp.ctx 0).getLsbD 3 then s.cont
    else s.cont.parkWith s.cur
      { cause := cBRK, slotB := s.curB, lanes := act, addr := 0, code := w.d.toNat
        word := s.lat.word })

/-! TRET (R89, R347). -/

/-- A slot as the frame gives it, with what the frame does not hold taken from the slot kept, where it stands
at the same instruction: the lanes of a replay, the Active of an instruction that parked, and the end of a
sleep (R89: exactly where it was interrupted). -/
def restoredSlot (x keep : PcSlot) : PcSlot :=
  let same := keep.v && keep.pc = x.pc && keep.ins = x.ins
  let x := { x with act := x.act &&& x.own, only := if same then keep.only else none
                    again := if same then keep.again else none }
  if !x.slp then x
  else if keep.slp && same then
    { x with wake := keep.wake, wpc := keep.wpc, wins := keep.wins }
  else { x with wake := 0, wpc := x.pc, wins := x.ins }

/-- Both slots valid must be partners (R64). -/
def slotsOk (a b : PcSlot) : Bool :=
  !(a.v && b.v) || (a.ja = b.ja && !a.nj && !b.nj && a.own &&& b.own = 0)

/-- A group's state reloaded from the words of its frame, XK not yet removed (R347). -/
def Group.reload (g : Group) (f : Nat → Word) (t : TrapCtx) (a b : PcSlot) : Group :=
  let fixReplay (x : PcSlot) (slotB : Bool) : PcSlot :=
    if t.replay && slotB = t.slotB && x.pc = t.pc && x.ins = t.ins && t.tlanes ≠ 0 then
      { x with only := some t.tlanes, again := none } else x
  let g := { g with
    slotA := fixReplay a false, slotB := fixReplay b true, traps := g.traps.tail
    calldepth := (f 14).toNat
    rp := if (f 15).getLsbD 31 then some ((f 15).extractLsb' 0 24) else none
    fpstat := f 16 &&& 0x1F, memst := f 17 &&& 0xF, csw := f 18 &&& 0xFF
    cpyst := f 19 &&& 0xF0000000, mstst := f 20 &&& 0xF0000000
    tlatch := f 38 }
  let g := (List.range 12).foldl (fun g i => g.pput i (f (24 + i))) g
  let g := (List.range 3).foldl (fun g i => g.gpput i ((f 36).getLsbD i)) g
  let g := (List.range 8).foldl (fun g i => g.fmput i (pair (f (40 + 2 * i)) (f (41 + 2 * i)))) g
  (List.range 8).foldl (fun g i => g.gput (56 + i) (f (56 + i))) g

/-- The lanes gone during the handler leave the interrupted slots (R79, R89). -/
def State.dropGone (s : State) (gk : Nat) (xk : Word) : Except StackErr State := do
  let go (s : State) (b : Bool) : Except StackErr State :=
    let x := s.slotOf gk b
    if x.v && x.own &&& xk ≠ 0 then s.leaveSlot gk b xk else .ok s
  let s ← go s false
  let s ← go s true
  State.settle gk 3 s

/-- TRET (R89, R347). -/
def execTret (_w : W0) (s : State) : Out :=
  let g := s.grp
  .next (match g.traps with
    | [] => s.raiseSlot cILL
    | t :: _ =>
      if s.other.v || !s.slot.nj || g.ownRecords ≠ 0 then s.park cDBL s.slot.act 0
      else
        let fa := s.frameAddr g (1 < g.traps.length)
        match s.groupRead s.cur (vaOf (BitVec.ofNat 64 fa)) 384 4 false with
        | (s, .error (c, va)) => s.parkFault c s.slot.act (BitVec.ofNat 64 va)
        | (s, .ok bs) =>
          let ws := wordsLE (bs.map (·.val)) 96
          let f (n : Nat) : Word := ws.getD n 0
          let a := restoredSlot (PcSlot.ofFrame (f 4) (f 5) (f 6) (f 7)) t.keepA
          let b := restoredSlot (PcSlot.ofFrame (f 8) (f 9) (f 10) (f 11)) t.keepB
          if !slotsOk a b then s.park cDBL s.slot.act 0
          else s.orFail s.slot.act ((s.modGrp (fun g => g.reload f t a b)).dropGone s.cur (f 2 ||| t.xk)))

end Sys2Proof.Machine
end

