-- ==== Sys2Proof/Machine/Regs.lean ====
section
/-!
DEFINITION. The system registers: which there are, which unit a selector names, who may read them,
and what a write does (15_system R326, R327, R355, R356).
-/

namespace Sys2Proof.Machine

/-- The unit a register is held by: none that exists, or a context, core, die, or the package. -/
inductive RegUnit where
  | absent
  | ctx (c : Nat)
  | core (k : Nat)
  | die (d : Nat)
  | package
deriving DecidableEq, Repr

def idxIn (lo hi i : Nat) : Bool := lo ≤ i && i ≤ hi
def isCtxReg (i : Nat) : Bool := i ≤ 0x14
def isCoreReg (i : Nat) : Bool := idxIn 0x100 0x108 i
def isDieReg (i : Nat) : Bool := idxIn 0x200 0x20F i
def isPkgReg (i : Nat) : Bool := idxIn 0x300 0x305 i || idxIn 0x310 0x318 i

/-- The registers whose maps are wholly RO. -/
def regRO (i : Nat) : Bool := i = 0x108 || i = 0x303 || i = 0x310 || i = 0x311

/-- The index, the selector and the die that word 1 of SRD and SWR gives. -/
def sysIdx (w : Word) : Nat := bitsOf w.toNat 0 16
def sysSel (w : Word) : Nat := bitsOf w.toNat 16 8
def sysDie (w : Word) : Nat := bitsOf w.toNat 24 4

/-- The unit that word 1 names for the issuing group: none for a reserved index or selector, which
is illegal. -/
def State.regUnit (s : State) (w : Word) : Option RegUnit :=
  let g := s.grp
  let i := sysIdx w
  let sel := sysSel w
  let die := if sysDie w = 15 then g.die else sysDie w
  let dieOk := sysDie w = 15 || sysDie w < 8
  if isCtxReg i then
    if sysDie w ≠ 15 then none
    else if sel = 255 then some (.ctx g.ctx)
    else if 64 ≤ sel then none
    else some (if s.ctxValid sel then .ctx sel else .absent)
  else if isCoreReg i then
    if !dieOk || (96 ≤ sel && sel ≠ 255) then none
    else
      let c := if sel = 255 then g.core else sel
      some (if s.corePresent die c then .core (coreKey die c) else .absent)
  else if isDieReg i then
    if !dieOk || sel ≠ 255 then none else some (.die die)
  else if isPkgReg i then
    if sel ≠ 255 || sysDie w ≠ 15 then none else some .package
  else none

/-- The unit is the issuing group's own. -/
def State.ownUnit (s : State) (u : RegUnit) : Bool :=
  let g := s.grp
  match u with
  | .absent => false
  | .ctx c => c = g.ctx
  | .core k => k = coreKey g.die g.core
  | .die d => d = g.die
  | .package => true

/-! Event counters as they are seen (R356). -/

/-- Sources of events that the model does not count: cycles, caches and other timing. -/
def uncounted (code : Nat) : Bool :=
  [0x00, 0x0B, 0x40, 0x43, 0x44, 0x45, 0x49].contains code

/-- A counter with the events that the model does not count added: any number of them since it was
last looked at. -/
def settleCtr (fresh : Nat) (sel : Word) (x : DWord) : DWord :=
  if sel.getLsbD 8 && uncounted (sel.extractLsb' 0 8).toNat then
    x + pair (Config.freeWord fresh (2 ^ 41)) (Config.freeWord fresh (2 ^ 41 + 1))
  else x

/-- A core's counter, or a die's, as it now stands. -/
def State.settleCore (s : State) (k i : Nat) : State :=
  s.modCore k (fun c => { c with
    ctrs := c.ctrs.set i (settleCtr s.freeCtr (c.evsel.getD i 0) (c.ctrs.getD i 0)) 0 })
def State.settleDie (s : State) (d i : Nat) : State :=
  s.modDie d (fun x => { x with
    ctrs := x.ctrs.set i (settleCtr s.freeCtr (x.devsel.getD i 0) (x.ctrs.getD i 0)) 0 })

/-- EVSEL, or DEVSEL, written: CLR zeroes the counter and reads 0. -/
def State.writeEvsel (s : State) (k i : Nat) (v : Word) : State :=
  (s.settleCore k i).modCore k (fun c => { c with
    evsel := c.evsel.set i (v &&& 0x7F3FF) 0
    ctrs := if v.getLsbD 19 then c.ctrs.set i 0 0 else c.ctrs })
def State.writeDevsel (s : State) (d i : Nat) (v : Word) : State :=
  (s.settleDie d i).modDie d (fun x => { x with
    devsel := x.devsel.set i (v &&& 0x7F3FF) 0
    ctrs := if v.getLsbD 19 then x.ctrs.set i 0 0 else x.ctrs })

/-! HALTSTAT (R355). -/

/-- Something is in flight towards a core: an arrival, the landings of a command that has started, the
reply to a load or an atomic, or a request to its Miller. -/
def State.inbound (s : State) (k : Nat) : Bool :=
  let here (tk : Nat) : Bool := let t := s.team tk; t.live && !t.away && coreKey t.die t.core = k
  s.arrivals.any (fun e => e.2.live && here e.2.team)
    || s.copies.any (fun e => e.2.live && e.2.started && e.2.dests.any here)
    || s.groups.any (fun e => e.2.live && !e.2.away && coreKey e.2.die e.2.core = k
      && e.2.pend.any (fun o => o.kind = .load || o.kind = .atomic))
    || s.mills.any (fun e => e.2.live
      && (s.millerCore e.2.attr.home e.2.line).map (coreKey e.2.attr.home) = some k)

def State.haltstat (s : State) (k : Nat) : Word :=
  let c := s.coreAt k
  (if c.halted then 1 else 0) ||| (if c.frozen then 2 else 0)
    ||| (if c.halted && c.cpy.isEmpty && !s.inbound k then 4 else 0)

/-! Reads and writes. -/

/-- A system register read; one of a unit that does not exist reads zero. -/
def State.readReg (s : State) (i : Nat) (u : RegUnit) : Word :=
  match u with
  | .absent => 0
  | .ctx c => s.cr c i
  | .core k => if i = 0x108 then s.haltstat k else (s.coreAt k).evsel.getD (i - 0x100) 0
  | .die d => (s.die d).devsel.getD (i - 0x200) 0
  | .package => if 0x310 ≤ i then s.therm.read i else s.preg.getD i 0

/-- A package register written. -/
def State.writePkg (s : State) (i : Nat) (v : Word) : State :=
  match i with
  | 0x302 => { s with preg := s.preg.set 0x302 (v &&& 0x1F) 0 }
  | 0x303 => s
  | 0x305 => s.writeDrain v
  | _ => if 0x310 ≤ i then s.writeTherm i v else { s with preg := s.preg.set i v 0 }

/-- A system register written by privileged software under its access codes. -/
def State.writeReg (s : State) (i : Nat) (u : RegUnit) (v : Word) : State :=
  match u with
  | .absent => s
  | .ctx c => s.writeCtx c i v false
  | .core k => if i = 0x108 then s else s.writeEvsel k (i - 0x100) v
  | .die d => s.writeDevsel d (i - 0x200) v
  | .package => s.writePkg i v

/-- EVSEL CLR (R356): the counter of a selector zeroed; `unit` is a core's key or a die. In OFF it is not
served (17_cold R392). -/
def execEvselClr (index unit : Nat) (s : State) : Out :=
  .next (if s.therm.state = 0 then s
    else if index < 8 then s.writeEvsel unit index ((s.coreAt unit).evsel.getD index 0 ||| 0x80000)
    else if index < 24 then
      s.writeDevsel unit (index - 8) ((s.die unit).devsel.getD (index - 8) 0 ||| 0x80000)
    else s)

end Sys2Proof.Machine
end

