-- ==== Sys2Proof/Machine/Endpoint.lean ====
section
/-!
DEFINITION. The host endpoint, its registers, accesses from the host and from peers, links and
attestation (17_cold R385 to R393).
-/

namespace Sys2Proof.Machine

def State.setBar (s : State) (off : Nat) (v : Word) : State := { s with bar := s.bar.set (off / 4) v 0 }

/-- BAR2 is served: READY to WARM (R386). -/
def State.barServed (s : State) : Bool := 5 ≤ s.therm.state && s.therm.state ≤ 11

/-! BAR2 windows (R386). -/

/-- The device physical address a BAR2 offset names: none where the window is not valid or leaves a
die's DRAM. -/
def State.windowAddr (s : State) (off : Nat) : Option Nat :=
  let k := off / 2 ^ 32
  let base := bitsOf (s.barWord (0x30000 + 8 * k + 4)).toNat 0 20 * 2 ^ 32
  if 16 ≤ k || !(s.barWord (0x30000 + 8 * k)).getLsbD 0 || 8 ≤ base / 2 ^ 48
      || dramSize (base / 2 ^ 48) < base % 2 ^ 48 + 2 ^ 32 then none
  else some (base + off % 2 ^ 32)

/-- Bytes accepted at the home of a device physical address. -/
def State.deviceWrite (s : State) (pa : Nat) (bs : List Byte) : State :=
  s.homeWrite (mapI bs (fun i b => { pk := pa + i, attr := { home := (pa + i) / 2 ^ 48 }, val := b }))

/-- Bytes at a device physical address as an access from outside reads them: accepted at DEV, those of a
spill area open (04_control R72). -/
def State.deviceRead (s : State) (pa n : Nat) : State × List Byte :=
  let pks := (List.range n).map (pa + ·)
  let s := (dedup (pks.map (· / 16))).foldl (fun s k =>
    (s.serve commons k { home := k * 16 / 2 ^ 48 } false).1) s
  (s, (s.seen 0 pks (pks.map (fun k => s.homeByte (k / 2 ^ 48) k))).map (·.val))

/-- The access is answered with bytes. -/
def State.answers (s : State) (bs : List Byte) : State := { s with answer := bs }

/-- An access that is not served reads all ones (R386). -/
def allOnes (n : Nat) : List Byte := List.replicate n 0xFF

/-- A read of BAR2 (R386). -/
def State.readWindow (s : State) (off len : Nat) : State :=
  match s.windowAddr off with
  | none => s.answers (allOnes len)
  | some pa =>
    if s.barServed && off % 2 ^ 32 + len ≤ 2 ^ 32 then
      let (s, bs) := s.deviceRead pa len
      s.answers bs
    else s.answers (allOnes len)

/-- HOST WRITE (R386): a posted write within one window. -/
def execHostWrite (off : Nat) (data : List (BitVec 8)) (s : State) : Out :=
  .next (match s.windowAddr off with
    | none => s
    | some pa =>
      if s.barServed && off % 2 ^ 32 + data.length ≤ 2 ^ 32 then s.deviceWrite pa data else s)

/-- An atomic performed by the owning Miller at a device physical address, and answered with the old
value (R385, R389; 15_system R356). -/
def State.deviceAtomic (s : State) (pa code : Nat) (wide : Bool) (v v2 : DWord) : State :=
  let n := if wide then 8 else 4
  let home := pa / 2 ^ 48
  if pa % n ≠ 0 then s.answers (allOnes n)
  else
    let (s, bs) := (s.countDie home 0x47 none 1).deviceRead pa n
    (s.homeStore { home } pa n (atNew code (if wide then 4 else 3) (BitVec.ofNat 64 (natLE bs)) v v2)).answers bs

/-- The Miller operation of a PCIe AtomicOp: 0 FetchAdd, 1 Swap, 2 CompareAndSwap. -/
def pcieCode (op : Nat) : Nat := match op with | 0 => 0 | 1 => 6 | _ => 9

/-- HOST ATOMICOP (R385). -/
def execHostAtomicop (off op : Nat) (wide : Bool) (v v2 : BitVec 64) (s : State) : Out :=
  .next (match s.windowAddr off with
    | none => s.answers (allOnes (if wide then 8 else 4))
    | some pa =>
      if s.barServed && op < 3 then s.deviceAtomic pa (pcieCode op) wide v v2
      else s.answers (allOnes (if wide then 8 else 4)))

/-! BAR0 (R387). -/

/-- A register of BAR0 that the endpoint serves: in OFF the device's number and the attestation mailbox
alone (R392). -/
def State.bar0Serves (s : State) (off : Nat) : Bool :=
  s.therm.state ≠ 0 || off < 4 || idxIn 0x400 0x8FF off

/-- DEVID (R387). -/
def devid : Nat := 0x0900B009

/-- The word of BAR0 at an offset. What a doorbell reads as is open; a place without a register reads 0. -/
def State.readBar (s : State) (off : Nat) : Word :=
  let off := off / 4 * 4
  if !s.bar0Serves off then BitVec.allOnes 32
  else if off = 0 then BitVec.ofNat 32 devid
  else if idxIn 0x100 0x120 off then s.therm.read (0x310 + (off - 0x100) / 4)
  else if idxIn 0x10000 0x11FFF off then Config.freeWord s.freeCtr (2 ^ 43 + off)
  else if idxIn 0x20000 0x20FFF off then BitVec.ofNat 32 (s.queue ((off - 0x20000) / 4)).errs
  else s.barWord off

/-- The bytes of BAR0 at an offset. -/
def State.bar0Bytes (s : State) (off len : Nat) : List Byte :=
  (List.range len).map (fun i => BitVec.ofNat 8 ((s.readBar (off + i)).toNat / 2 ^ (8 * ((off + i) % 4))))

/-- HOST READ (R386, R387): of BAR2, or at offsets from 2^36 on of BAR0. -/
def execHostRead (off len : Nat) (s : State) : Out :=
  .next (if 2 ^ 36 ≤ off then s.answers (s.bar0Bytes (off - 2 ^ 36) len) else s.readWindow off len)

/-! Queue 0 (R387). -/

/-- ADMEN (R387): queue 0 from ADMBASE and ADMSIZE. -/
def State.enableAdmin (s : State) : State :=
  let n := (s.barWord 0x208).toNat
  if !s.bar0Serves 0x20C || (s.barWord 0x20C).getLsbD 0 || !ringSize n then s
  else
    (s.setBar 0x20C 1).setQueue 0 { s.queue 0 with
      enable := true, base := pair (s.barWord 0x200) (s.barWord 0x204), entries := n, head := 0, tail := 0, stale := 0 }

/-- ADMEN (R387). -/
def execAdmen (s : State) : Out := .next s.enableAdmin

/-! Attestation (R393). -/

/-- Bytes put at a BAR0 offset, a multiple of 4. -/
def State.putBar (s : State) (off : Nat) (bs : List Byte) : State :=
  (mapI (wordsLE bs (bs.length / 4)) (fun i w => (i, w))).foldl (fun s e => s.setBar (off + 4 * e.1) e.2) s

/-- `n` bytes of an output of the security root. -/
def rootBytes (which at_ n : Nat) : List Byte := (List.range n).map (Config.rootByte which at_)

/-- Repairs made at run time, as recorded. -/
def State.runtimeRepairs (s : State) : Nat := (s.repairs.filter (fun r => r.type_ ≠ 1)).length

/-- The report up to the signature. -/
def State.reportBody (s : State) : List Byte :=
  (List.range 16).flatMap (fun i => bytesLE 4 (s.barWord (0x400 + 4 * i)).toNat)
  ++ bytesLE 4 devid
  ++ bytesLE 4 ((s.barWord 0x300).toNat % 256 + s.therm.state % 16 * 256
      + (if s.therm.appendOk then 2 ^ 12 else 0) + (if 4096 ≤ s.repairs.length then 2 ^ 13 else 0))
  ++ bytesLE 8 (s.dieTime commons)
  ++ bytesLE 4 s.runtimeRepairs
  ++ bytesLE 4 ((List.range 8).map (fun d => (4 - s.sparesUsed.getD d 0) * 16 ^ d)).sum
  ++ bytesLE 8 0
  ++ rootBytes 0 0 320 ++ rootBytes 1 s.repairs.length 32

/-- The mailbox answers, and vector 3 is raised. -/
def State.attest (s : State) (bs : List Byte) : State :=
  ((s.putBar 0x500 (bs ++ List.replicate (1024 - bs.length) 0)).setBar 0x444 1).interrupt 3

/-- ATTESTATION REPORT (R393). -/
def execAttestationReport (s : State) : Out :=
  .next (s.attest (s.reportBody ++ rootBytes 2 s.freeCtr 132))

/-- IDENTITY CERTIFICATE (R393). -/
def execIdentityCertificate (s : State) : Out := .next (s.attest (rootBytes 3 0 1024))

/-! Peers and links (R388, R389). -/

/-- A refused peer access counted, saturating. -/
def State.countRefused (s : State) (port : Nat) : State :=
  let x := s.barWord (0x30200 + 4 * port)
  if bitsOf x.toNat 16 16 = 0xFFFF then s else s.setBar (0x30200 + 4 * port) (x + 0x10000)

/-- The export entry of a window offset, if it is in the table (R389). -/
def State.exportEntry (s : State) (off : Nat) : Option DWord :=
  let i := off / 2 ^ 26
  let base := (pair (s.barWord 0x304) (s.barWord 0x308)).toNat
  if (s.barWord 0x30C).toNat ≤ i then none
  else some (BitVec.ofNat 64 (natLE ((List.range 8).map (fun b =>
    (s.homeByte ((base + 8 * i) / 2 ^ 48) (base + 8 * i + b)).val))))

/-- PEER ACCESS (R389): kind 0 a read of as many bytes as `data` has, 1 a write, 2 + 2c and 3 + 2c the
Miller operation c on 4 and on 8 bytes. An access that is not served is answered with nothing: the peer has
poison for it. -/
def execPeerAccess (port kind off : Nat) (data : List (BitVec 8)) (v v2 : BitVec 64) (s : State) : Out :=
  let up := port < 8 && (s.barWord (0x30200 + 4 * port)).getLsbD 0 && s.barServed
  let s := s.answers []
  .next (if !up then s
    else match s.exportEntry off with
      | none => s.countRefused port
      | some e =>
        let pa := (e.extractLsb' 26 26).toNat * 2 ^ 26 + off % 2 ^ 26
        let bit := if kind = 0 then 1 else if kind = 1 then 2 else 3
        if !e.getLsbD 0 || !e.getLsbD bit then s.countRefused port
        else if !isDram pa then s
        else match kind with
          | 0 => let (s, bs) := s.deviceRead pa data.length; s.answers bs
          | 1 => s.deviceWrite pa data
          | k => s.deviceAtomic pa ((k - 2) / 2) (k % 2 = 1) v v2)

/-- LINK RETRAIN (R388): the count of retrains saturates, and a port that fails goes down. -/
def execLinkRetrain (port : Nat) (ok : Bool) (s : State) : Out :=
  let off := 0x30200 + 4 * port
  let x := s.barWord off
  let x := if bitsOf x.toNat 8 8 = 0xFF then x else x + 0x100
  .next (if port < 8 then s.setBar off ((x &&& 0xFFFFFFFE) ||| (if ok then 1 else 0)) else s)

/-- FLIT REPLAY (R388): seen by no program. -/
def execFlitReplay (_port : Nat) (s : State) : Out := .next s

/-! Writes of BAR0 (R387). -/

/-- A register of BAR0 written by the host under its access code. A count of export entries above 262,144
is ignored (log entry 58). -/
def State.writeBar (s : State) (off : Nat) (v : Word) : State :=
  if off % 4 ≠ 0 || !s.bar0Serves off then s
  else if idxIn 0x100 0x120 off then s.writeTherm (0x310 + (off - 0x100) / 4) v
  else if idxIn 0x200 0x208 off then (if (s.barWord 0x20C).getLsbD 0 then s else s.setBar off v)
  else if off = 0x20C then
    (if v.getLsbD 0 then s.enableAdmin else (s.setBar off 0).setQueue 0 { s.queue 0 with enable := false })
  else if off = 0x300 then s.setBar off (v &&& 0xFF)
  else if off = 0x304 then s.setBar off (v &&& 0xFFFFFFF8)
  else if off = 0x308 then s.setBar off v
  else if off = 0x30C then (if v.toNat ≤ 262144 then s.setBar off v else s)
  else if idxIn 0x400 0x43C off then s.setBar off v
  else if off = 0x440 then
    (if v = 1 then s.attest (s.reportBody ++ rootBytes 2 s.freeCtr 132)
     else if v = 2 then s.attest (rootBytes 3 0 1024) else s)
  else if off = 0x444 then s.setBar off (s.barWord off &&& ~~~(v &&& 1))
  else if idxIn 0x10000 0x11FFF off then
    let q := (off - 0x10000) / 8
    let x := s.queue q
    if off % 8 = 0 && x.enable then s.setQueue q { x with tail := v.toNat % x.entries } else s
  else if idxIn 0x20000 0x20FFF off then
    let q := (off - 0x20000) / 4
    s.setQueue q { s.queue q with errs := v.toNat }
  else if idxIn 0x30000 0x3007F off then
    s.setBar off (if off % 8 = 0 then v &&& 1 else v &&& 0xFFFFF)
  else if idxIn 0x30100 0x301FF off then s.setBar off v
  else if idxIn 0x80000 0x8FFFF off then s.setBar off v
  else s

/-- REGISTER WRITE (00_scope R3; R327, R387): space 0 a context's system register, 1 a core's, 2 a
die's, 3 a package's, 4 a register of BAR0. -/
def execRegisterWrite (space index unit : Nat) (value : BitVec 32) (s : State) : Out :=
  .next (if s.therm.state = 0 && space < 4 then s else match space with
    | 0 => if isCtxReg index && unit < 64 then s.writeReg index (.ctx unit) value else s
    | 1 => if isCoreReg index && s.corePresent (unit / 256) (unit % 256) then
        s.writeReg index (.core unit) value else s
    | 2 => if isDieReg index && unit < 8 then s.writeReg index (.die unit) value else s
    | 3 => if isPkgReg index then s.writeReg index .package value else s
    | 4 => s.writeBar index value
    | _ => s)

end Sys2Proof.Machine
end

