-- ==== Sys2Proof/Machine/Integer.lean ====
section
/-!
DEFINITION. Integer and address instructions, 0x40 to 0x5E (05_integer R91 to R108), and NOP.
-/

namespace Sys2Proof.Machine

/-- NOP (02_encoding R38). -/
def execNop (_w : W0) (s : State) : Out := .next s.cont

/-- MOV (R96). -/
def execMov (w : W0) (s : State) : Out := .next (s.lane1 w (fun a => a))

/-- MOVI (R96). -/
def execMovi (w : W0) (imm : Word) (s : State) : Out :=
  .next (s.laneExec (s.activeW w) [] (fun s ok => s.wr w.d.toNat ok (fun _ => imm)))

/-- IADD (R96). -/
def execIadd (w : W0) (r : Alu) (s : State) : Out := .next (s.lane2 w r (fun a b => a + b))

/-- ISUB (R96). -/
def execIsub (w : W0) (r : Alu) (s : State) : Out := .next (s.lane2 w r (fun a b => a - b))

/-- IMUL (R97): the low half, the same for both signs. -/
def execImul (w : W0) (r : Alu) (s : State) : Out := .next (s.lane2 w r (fun a b => a * b))

/-- The high half of an exact product (R97). -/
def mulHigh (signed : Bool) (a b : Word) : Word :=
  if signed then BitVec.ofInt 32 (a.toInt * b.toInt / 2 ^ 32)
  else BitVec.ofNat 32 (a.toNat * b.toNat / 2 ^ 32)

/-- TY 12 and 13 are unsigned (R35). -/
def tyUnsigned (r : Alu) : Bool := r.ty.toNat = 12 || r.ty.toNat = 13

/-- IMULH (R97). -/
def execImulh (w : W0) (r : Alu) (s : State) : Out :=
  .next (s.lane2 w r (mulHigh (!tyUnsigned r)))

/-- IMAD (R97). -/
def execImad (w : W0) (r : Alu) (s : State) : Out :=
  .next (s.laneExec (s.activeW w) [w.a.toNat, r.b.toNat, r.c.toNat] (fun s' ok =>
    s'.wr w.d.toNat ok (fun L =>
      s.srcA w r L * intMod r.ab r.nb (s.rd r.b.toNat L) + s.srcC r L)))

/-- The exact product of two 32-bit operands, modulo 2^64 (R97). -/
def mulWide (signed : Bool) (a b : Word) : DWord :=
  if signed then a.signExtend 64 * b.signExtend 64 else a.setWidth 64 * b.setWidth 64

/-- IMADW (R97). -/
def execImadw (w : W0) (r : Alu) (s : State) : Out :=
  .next (s.laneExec (s.activeW w) [w.a.toNat, r.b.toNat, r.c.toNat, r.c.toNat + 1] (fun s' ok =>
    s'.wr64 w.d.toNat ok (fun L =>
      mulWide (!tyUnsigned r) (s.rd w.a.toNat L) (s.rd r.b.toNat L)
        + intMod false r.nc (s.rd64 r.c.toNat L))))

/-- The registers of a 64-bit two-source form. -/
def regs64 (w : W0) (r : Alu) : List Nat :=
  [w.a.toNat, w.a.toNat + 1] ++ (if r.imm then [] else [r.b.toNat, r.b.toNat + 1])

/-- Operand B of a 64-bit form: C, or the pair (R98). -/
def State.srcB64 (s : State) (r : Alu) (L : Nat) : DWord :=
  if r.imm then r.c.setWidth 64 else s.rd64 r.b.toNat L

/-- Two-source 64-bit lane form (R98). -/
def State.lane2w (s : State) (w : W0) (r : Alu) (f : DWord → DWord → DWord) : State :=
  s.laneExec (s.activeW w) (regs64 w r) (fun s' ok =>
    s'.wr64 w.d.toNat ok (fun L => f (s.rd64 w.a.toNat L) (s.srcB64 r L)))

/-- IADD64 (R98). -/
def execIadd64 (w : W0) (r : Alu) (s : State) : Out := .next (s.lane2w w r (fun a b => a + b))

/-- ISUB64 (R98). -/
def execIsub64 (w : W0) (r : Alu) (s : State) : Out := .next (s.lane2w w r (fun a b => a - b))

/-- IAND (R96). -/
def execIand (w : W0) (r : Alu) (s : State) : Out := .next (s.lane2 w r (fun a b => a &&& b))

/-- IOR (R96). -/
def execIor (w : W0) (r : Alu) (s : State) : Out := .next (s.lane2 w r (fun a b => a ||| b))

/-- IXOR (R96). -/
def execIxor (w : W0) (r : Alu) (s : State) : Out := .next (s.lane2 w r (fun a b => a ^^^ b))

/-- INOT (R96). -/
def execInot (w : W0) (s : State) : Out := .next (s.lane1 w (fun a => ~~~a))

/-- The shifts of R99, the count never taken modulo the width. -/
def shlBy {w : Nat} (x : BitVec w) (n : Word) : BitVec w := if n.toNat < w then x <<< n.toNat else 0
def shrBy {w : Nat} (x : BitVec w) (n : Word) : BitVec w := if n.toNat < w then x >>> n.toNat else 0
def sarBy {w : Nat} (x : BitVec w) (n : Word) : BitVec w := x.sshiftRight (min n.toNat (w - 1))

/-- The count of a shift (R99). -/
def State.shiftCount (s : State) (r : Alu) (L : Nat) : Word :=
  if r.imm then immW r else s.rd r.b.toNat L

/-- A lane shift at 32 bits, or at 64 when TY is `wide` (R99). -/
def State.laneShift (s : State) (w : W0) (r : Alu) (wide : Nat)
    (f : Word → Word → Word) (f64 : DWord → Word → DWord) : State :=
  if r.ty.toNat = wide then
    s.laneExec (s.activeW w) (w.a.toNat :: (w.a.toNat + 1) :: regsB r) (fun s' ok =>
      s'.wr64 w.d.toNat ok (fun L => f64 (s.rd64 w.a.toNat L) (s.shiftCount r L)))
  else
    s.laneExec (s.activeW w) (w.a.toNat :: regsB r) (fun s' ok =>
      s'.wr w.d.toNat ok (fun L => f (s.rd w.a.toNat L) (s.shiftCount r L)))

/-- ISHL (R99). -/
def execIshl (w : W0) (r : Alu) (s : State) : Out := .next (s.laneShift w r 4 shlBy shlBy)

/-- ISHR (R99). -/
def execIshr (w : W0) (r : Alu) (s : State) : Out := .next (s.laneShift w r 4 shrBy shrBy)

/-- ISAR (R99). -/
def execIsar (w : W0) (r : Alu) (s : State) : Out := .next (s.laneShift w r 9 sarBy sarBy)

/-- The usable width of a field at position `p` (R100). -/
def fieldWidth (p k : Nat) : Nat := min k (32 - min p 32)

/-- The extracted field (R100). -/
def bfeVal (signed : Bool) (a : Word) (p k : Nat) : Word :=
  let k' := fieldWidth p k
  let f := a.toNat / 2 ^ min p 32 % 2 ^ k'
  if signed && 0 < k' then BitVec.ofInt 32 (sext k' f) else BitVec.ofNat 32 f

/-- The inserted field (R100). -/
def bfiVal (d a : Word) (p k : Nat) : Word :=
  if p < 32 then
    let m : Word := BitVec.ofNat 32 ((2 ^ fieldWidth p k - 1) * 2 ^ p)
    (d &&& ~~~m) ||| ((a <<< p) &&& m)
  else d

/-- Position and width of BFE and BFI: registers, or the B and C fields (R100). -/
def State.fieldPK (s : State) (r : Alu) (L : Nat) : Nat × Nat :=
  if r.imm then (r.b.toNat, r.c.toNat) else ((s.rd r.b.toNat L).toNat, (s.rd r.c.toNat L).toNat)

/-- The registers that give position and width. -/
def fieldRegs (r : Alu) : List Nat := if r.imm then [] else [r.b.toNat, r.c.toNat]

/-- BFE (R100): TY 0 is .Z32. -/
def execBfe (w : W0) (r : Alu) (s : State) : Out :=
  .next (s.laneExec (s.activeW w) (w.a.toNat :: fieldRegs r) (fun s' ok =>
    s'.wr w.d.toNat ok (fun L =>
      let pk := s.fieldPK r L
      bfeVal (r.ty.toNat = 8) (s.rd w.a.toNat L) pk.1 pk.2)))

/-- BFI (R100), which also reads its destination (R108). -/
def execBfi (w : W0) (r : Alu) (s : State) : Out :=
  .next (s.laneExec (s.activeW w) (w.d.toNat :: w.a.toNat :: fieldRegs r) (fun s' ok =>
    s'.wr w.d.toNat ok (fun L =>
      let pk := s.fieldPK r L
      bfiVal (s.rd w.d.toNat L) (s.rd w.a.toNat L) pk.1 pk.2)))

/-- The number of set bits (R101). -/
def popcW (a : Word) : Word := BitVec.ofNat 32 (popCount 32 a.toNat)

/-- The number of leading zero bits (R101). -/
def clzW (a : Word) : Word := BitVec.ofNat 32 (ctz 32 a.reverse.toNat)

/-- POPC (R101). -/
def execPopc (w : W0) (s : State) : Out := .next (s.lane1 w popcW)

/-- CLZ (R101). -/
def execClz (w : W0) (s : State) : Out := .next (s.lane1 w clzW)

/-- BREV (R101). -/
def execBrev (w : W0) (s : State) : Out := .next (s.lane1 w (fun a => a.reverse))

/-- IMIN (R102). -/
def execImin (w : W0) (r : Alu) (s : State) : Out := .next (s.lane2 w r (minInt (!tyUnsigned r)))

/-- IMAX (R102). -/
def execImax (w : W0) (r : Alu) (s : State) : Out := .next (s.lane2 w r (maxInt (!tyUnsigned r)))

/-- IABS (R102). -/
def execIabs (w : W0) (s : State) : Out := .next (s.lane1 w (intMod true false))

/-- TY 9 and 13 are 64-bit (R35). -/
def tyWide (r : Alu) : Bool := r.ty.toNat = 9 || r.ty.toNat = 13

/-- The condition code OPX[3:1] (R93). -/
def ccOf (r : Alu) : Nat := r.opx.toNat / 2

/-- ICMP (R103). -/
def execIcmp (w : W0) (r : Alu) (s : State) : Out :=
  .next (if tyWide r then
    s.laneExec (s.activeW w) (regs64 w r) (fun s' ok =>
      s'.wrP w.d.toNat ok (fun L =>
        cmpInt (!tyUnsigned r) (ccOf r) (s.rd64 w.a.toNat L) (s.srcB64 r L)))
  else
    s.laneExec (s.activeW w) (w.a.toNat :: regsB r) (fun s' ok =>
      s'.wrP w.d.toNat ok (fun L =>
        cmpInt (!tyUnsigned r) (ccOf r) (s.srcA w r L) (s.srcB r L))))

/-- SEL (R104): each lane reads only the source it takes (10_allocation R208). -/
def execSel (w : W0) (r : Alu) (s : State) : Out :=
  let from_ : Nat → Nat := fun L => if inMask (s.grp.pget r.c.toNat) L then w.a.toNat else r.b.toNat
  .next (if r.ty.toNat = 4 then
    s.laneExecL (s.activeW w) (fun L => [from_ L, from_ L + 1]) (fun s' ok =>
      s'.wr64 w.d.toNat ok (fun L => s.rd64 (from_ L) L))
  else
    s.laneExecL (s.activeW w) (fun L => [from_ L]) (fun s' ok =>
      s'.wr w.d.toNat ok (fun L => s.rd (from_ L) L)))

/-- The address of GLEA and LEA (03_groupwide R56, R105). -/
def leaVal (signed : Bool) (base : DWord) (idx : Word) (c : BitVec 8) (sh : Nat) : DWord :=
  base + (((if signed then idx.signExtend 64 else idx.setWidth 64) + c.setWidth 64) <<< sh)

/-- LEA (R105). -/
def execLea (w : W0) (r : Alu) (s : State) : Out :=
  .next (s.laneExec (s.activeW w) [r.b.toNat] (fun s' ok =>
    s'.wr64 w.d.toNat ok (fun L =>
      leaVal (r.ty.toNat = 8) (s.rdG64 w.a.toNat) (s.rd r.b.toNat L) r.c r.opx.toNat)))

/-- Width and signedness of the integer type codes 6 to 13 (R35). -/
def intTy (ty : Nat) : Nat × Bool :=
  match ty with
  | 6 => (8, true)
  | 7 => (16, true)
  | 8 => (32, true)
  | 9 => (64, true)
  | 10 => (8, false)
  | 11 => (16, false)
  | 12 => (32, false)
  | _ => (64, false)

/-- A value clamped to the range of a type (R4). -/
def clampZ (v lo hi : Int) : Int := if v < lo then lo else if hi < v then hi else v

/-- A value clamped to an integer type, as the 64 bits that its registers take (R106). -/
def clampTy (t : Nat × Bool) (v : Int) : DWord :=
  if t.2 then BitVec.ofInt 64 (clampZ v (-(2 ^ (t.1 - 1))) (2 ^ (t.1 - 1) - 1))
  else BitVec.ofInt 64 (clampZ v 0 (2 ^ t.1 - 1))

/-- A source read as an integer type (R106). -/
def readTy (t : Nat × Bool) (x : DWord) : Int :=
  if t.2 then sext t.1 x.toNat else (x.toNat % 2 ^ t.1 : Nat)

/-- ICVT (R106): OPX names the source type, .S8 being 0. -/
def execIcvt (w : W0) (r : Alu) (s : State) : Out :=
  let td := intTy r.ty.toNat
  let ts := intTy (r.opx.toNat + 6)
  let src : Nat → DWord := fun L =>
    if ts.1 = 64 then s.rd64 w.a.toNat L else (s.rd w.a.toNat L).setWidth 64
  .next (s.laneExec (s.activeW w) (if ts.1 = 64 then [w.a.toNat, w.a.toNat + 1] else [w.a.toNat])
    (fun s' ok =>
      if td.1 = 64 then s'.wr64 w.d.toNat ok (fun L => clampTy td (readTy ts (src L)))
      else s'.wr w.d.toNat ok (fun L => lo32 (clampTy td (readTy ts (src L))))))

/-- A saturating sum or difference (R107). -/
def addSat (signed sub : Bool) (a b : Word) : Word :=
  if signed then
    BitVec.ofInt 32 (clampZ (if sub then a.toInt - b.toInt else a.toInt + b.toInt)
      (-(2 ^ 31)) (2 ^ 31 - 1))
  else
    BitVec.ofInt 32 (clampZ (if sub then (a.toNat : Int) - b.toNat else (a.toNat : Int) + b.toNat)
      0 (2 ^ 32 - 1))

/-- IADDS (R107). -/
def execIadds (w : W0) (r : Alu) (s : State) : Out :=
  .next (s.lane2 w r (addSat (!tyUnsigned r) (r.opx.getLsbD 1)))

/-- Byte `i` of a word, signed or unsigned. -/
def byteOf (signed : Bool) (x : Word) (i : Nat) : Int :=
  let b := x.extractLsb' (8 * i) 8
  if signed then b.toInt else b.toNat

/-- A four-way dot product added to an accumulator, wrapping (R97). -/
def dot4 (sa sb : Bool) (a b c : Word) : Word :=
  BitVec.ofInt 32 (c.toInt + byteOf sa a 0 * byteOf sb b 0 + byteOf sa a 1 * byteOf sb b 1
    + byteOf sa a 2 * byteOf sb b 2 + byteOf sa a 3 * byteOf sb b 3)

/-- IDOT4 (R97): OPX[1:0] names the signs of A and B. -/
def execIdot4 (w : W0) (r : Alu) (s : State) : Out :=
  let k := r.opx.toNat
  .next (s.laneExec (s.activeW w) [w.a.toNat, r.b.toNat, r.c.toNat] (fun s' ok =>
    s'.wr w.d.toNat ok (fun L =>
      dot4 (k = 0 || k = 2) (k = 0 || k = 1) (s.rd w.a.toNat L) (s.rd r.b.toNat L)
        (s.rd r.c.toNat L))))

end Sys2Proof.Machine
end

