-- ==== Sys2Proof/Machine/GroupWide.lean ====
section
/-!
DEFINITION. Group-wide arithmetic, comparison and selection, 0x20 to 0x33 and 0x37 (03_groupwide
R48 to R56).
-/

namespace Sys2Proof.Machine

/-- GMOV (R54). -/
def execGmov (w : W0) (s : State) : Out := .next (s.group1 w (fun a => a))

/-- GMOVI (R54). -/
def execGmovi (w : W0) (imm : Word) (s : State) : Out :=
  .next (s.groupExec w (fun s => s.wrG w.d.toNat imm))

/-- GADD (R54). -/
def execGadd (w : W0) (r : Alu) (s : State) : Out := .next (s.group2 w r (fun a b => a + b))

/-- GSUB (R54). -/
def execGsub (w : W0) (r : Alu) (s : State) : Out := .next (s.group2 w r (fun a b => a - b))

/-- GMUL (R54). -/
def execGmul (w : W0) (r : Alu) (s : State) : Out := .next (s.group2 w r (fun a b => a * b))

/-- GMAD (R54). -/
def execGmad (w : W0) (r : Alu) (s : State) : Out :=
  .next (s.groupExec w (fun s =>
    s.wrG w.d.toNat (s.rdG w.a.toNat * s.rdG r.b.toNat + s.rdG r.c.toNat)))

/-- GAND (R54). -/
def execGand (w : W0) (r : Alu) (s : State) : Out := .next (s.group2 w r (fun a b => a &&& b))

/-- GOR (R54). -/
def execGor (w : W0) (r : Alu) (s : State) : Out := .next (s.group2 w r (fun a b => a ||| b))

/-- GXOR (R54). -/
def execGxor (w : W0) (r : Alu) (s : State) : Out := .next (s.group2 w r (fun a b => a ^^^ b))

/-- GSHL (R54). -/
def execGshl (w : W0) (r : Alu) (s : State) : Out := .next (s.group2 w r shlBy)

/-- GSHR (R54). -/
def execGshr (w : W0) (r : Alu) (s : State) : Out := .next (s.group2 w r shrBy)

/-- GSAR (R54). -/
def execGsar (w : W0) (r : Alu) (s : State) : Out := .next (s.group2 w r sarBy)

/-- Operand B of a 64-bit group-wide form: C, or the pair. -/
def State.gsrc64 (s : State) (r : Alu) : DWord :=
  if r.imm then r.c.setWidth 64 else s.rdG64 r.b.toNat

/-- GADD64 (R54). -/
def execGadd64 (w : W0) (r : Alu) (s : State) : Out :=
  .next (s.groupExec w (fun s => s.wrG64 w.d.toNat (s.rdG64 w.a.toNat + s.gsrc64 r)))

/-- GCMP (R55). -/
def execGcmp (w : W0) (r : Alu) (s : State) : Out :=
  .next (s.groupExec w (fun s => s.wrGP w.d.toNat
    (if tyWide r then cmpInt (!tyUnsigned r) (ccOf r) (s.rdG64 w.a.toNat) (s.gsrc64 r)
     else cmpInt (!tyUnsigned r) (ccOf r) (s.rdG w.a.toNat) (s.gsrc r))))

/-- GSEL (R55). -/
def execGsel (w : W0) (r : Alu) (s : State) : Out :=
  .next (s.groupExec w (fun s =>
    s.wrG w.d.toNat (if s.rdGP r.c.toNat then s.rdG w.a.toNat else s.rdG r.b.toNat)))

/-- GMIN (R54). -/
def execGmin (w : W0) (r : Alu) (s : State) : Out := .next (s.group2 w r (minInt (!tyUnsigned r)))

/-- GMAX (R54). -/
def execGmax (w : W0) (r : Alu) (s : State) : Out := .next (s.group2 w r (maxInt (!tyUnsigned r)))

/-- GPOPC (R54). -/
def execGpopc (w : W0) (s : State) : Out := .next (s.group1 w popcW)

/-- GFFS (R54). -/
def execGffs (w : W0) (s : State) : Out :=
  .next (s.group1 w (fun a => BitVec.ofNat 32 (ctz 32 a.toNat)))

/-- GLEA (R56). -/
def execGlea (w : W0) (r : Alu) (s : State) : Out :=
  .next (s.groupExec w (fun s => s.wrG64 w.d.toNat
    (leaVal (r.ty.toNat = 8) (s.rdG64 w.a.toNat) (s.rdG r.b.toNat) r.c r.opx.toNat)))

/-- The index of a three-predicate table (R55, 07_lanes R132). -/
def plopBit (t : BitVec 8) (a b c : Bool) : Bool :=
  t.getLsbD ((if a then 4 else 0) + (if b then 2 else 0) + (if c then 1 else 0))

/-- GPLOP (R55). -/
def execGplop (w : W0) (r : Alu) (s : State) : Out :=
  .next (s.groupExec w (fun s => s.wrGP w.d.toNat
    (plopBit r.c (s.rdGP w.a.toNat) (s.rdGP r.b.toNat) (s.rdGP (r.opx.toNat % 4)))))

end Sys2Proof.Machine
end

