-- ==== Sys2Proof/Machine/Lanes.lean ====
section
/-!
DEFINITION. Predicate and lane-exchange instructions, 0x80 to 0x8A (07_lanes R127 to R140).
-/

namespace Sys2Proof.Machine

/-- A predicate named by a source field, in lane `L` (R127). -/
def State.pred (s : State) (n L : Nat) : Bool :=
  if n < 12 then inMask (s.grp.pget n) L else s.rdGP (n - 12)

/-- PLOP (R132). -/
def execPlop (w : W0) (r : Alu) (s : State) : Out :=
  .next (s.laneExec (s.activeW w) [] (fun s' ok =>
    s'.wrP w.d.toNat ok (fun L =>
      plopBit r.c (s.pred w.a.toNat L) (s.pred r.b.toNat L) (s.pred r.opx.toNat L))))

/-- The PALL word of a lane (R133). -/
def State.pall (s : State) (L : Nat) : Word :=
  (List.range 16).foldl (fun acc n => if s.pred n L then acc ||| BitVec.ofNat 32 (2 ^ n) else acc) 0

/-- PMOV in its four forms (R133). -/
def execPmov (w : W0) (r : Alu) (s : State) : Out :=
  .next (match r.opx.toNat with
    | 0 => s.laneExec (s.activeW w) [] (fun s' ok => s'.wr w.d.toNat ok s.pall)
    | 1 => s.laneExec (s.activeW w) [w.a.toNat] (fun s' ok =>
        (List.range 12).foldl (fun x n => x.wrP n ok (fun L => inMask (s.rd w.a.toNat L) n)) s')
    | 2 => s.laneExec (s.activeW w) [] (fun s' ok =>
        s'.wr w.d.toNat ok (fun L => if s.pred r.c.toNat L then 1 else 0))
    | _ => s.laneExec (s.activeW w) [w.a.toNat] (fun s' ok =>
        s'.wrP r.c.toNat ok (fun L => inMask (s.rd w.a.toNat L) 0)))

/-- VOTE (R134). -/
def execVote (w : W0) (r : Alu) (s : State) : Out :=
  let m := s.activeW w
  let p := s.grp.pget w.a.toNat &&& m
  let b := match r.opx.toNat with
    | 0 => decide (p ≠ 0)
    | 1 => decide (p = m)
    | _ => decide (p = 0 ∨ p = m)
  .next (if m = 0 then s.cont else (s.wrGP w.d.toNat b).cont)

/-- BALLOT (R134). -/
def execBallot (w : W0) (_r : Alu) (s : State) : Out :=
  let m := s.activeW w
  .next (if m = 0 then s.cont else (s.wrG w.d.toNat (s.grp.pget w.a.toNat &&& m)).cont)

/-- PRANK (R134). -/
def execPrank (w : W0) (r : Alu) (s : State) : Out :=
  let p := (s.grp.pget w.a.toNat &&& s.activeW w).toNat
  .next (s.laneExec (s.activeW w) [] (fun s' ok =>
    s'.wr w.d.toNat ok (fun L =>
      BitVec.ofNat 32 (popCount (if r.opx.getLsbD 0 then L + 1 else L) p))))

/-! Instructions that read words of other lanes (R130). -/

/-- A word as (register, lane). -/
abbrev LaneWord := Nat × Nat

/-- An instruction that reads the words `ws`, of whatever lanes: an expired or poisoned word among
them traps every lane of `m`, and the instruction then has no effect (10_allocation R208,
R222). That it raises ERX, for all lanes of `m`, where it meets both is the model's choice: R130, R208 and
R222 do not order the two (log entry 16). -/
def State.crossExec (s : State) (m : Word) (ws : List LaneWord) (eff : State → State) : State :=
  let lc := s.lat.lc
  if m = 0 then s.cont
  else if ws.any (fun x => s.grp.rdErx lc x.1 x.2) then s.raiseAll cERX m
  else if ws.any (fun x => s.grp.rdPois lc x.1 x.2) then s.raiseAll cPOIS m
  else
    let s' := if ws.any (fun x => s.grp.rdLapse lc x.1 x.2) then s.setMemst memstLAPSE else s
    (eff s').cont

/-- TY 4 names a pair (R128). -/
def tyPair (r : Alu) : Bool := r.ty.toNat = 4

/-- The words of operand A in a lane. -/
def wordsA (w : W0) (r : Alu) (L : Nat) : List LaneWord :=
  if tyPair r then [(w.a.toNat, L), (w.a.toNat + 1, L)] else [(w.a.toNat, L)]

/-- The source lane of SHFL (R136). -/
def shflLane (mode L b : Nat) : Nat :=
  let j : Int := match mode with
    | 0 => b
    | 1 => (L : Int) - b
    | 2 => L + b
    | _ => (L ^^^ b : Nat)
  if 0 ≤ j && j ≤ 31 then j.toNat else L

/-- SHFL (R136). -/
def execShfl (w : W0) (r : Alu) (s : State) : Out :=
  let m := s.activeW w
  let imm := r.opx.getLsbD 2
  let b (L : Nat) : Nat := if imm then r.c.toNat else (s.rd r.b.toNat L).toNat
  let j (L : Nat) : Nat := shflLane (r.opx.toNat % 4) L (b L)
  let ws := (lanesOf m).flatMap (fun L => (if imm then [] else [(r.b.toNat, L)]) ++ wordsA w r (j L))
  .next (s.crossExec m ws (fun s' =>
    if tyPair r then s'.wr64 w.d.toNat m (fun L => s.rd64 w.a.toNat (j L))
    else s'.wr w.d.toNat m (fun L => s.rd w.a.toNat (j L))))

/-- The lane index of RDLANE and WRLANE (R135). -/
def State.laneIdx (s : State) (r : Alu) : Nat :=
  (if r.opx.getLsbD 0 then r.c.toNat else (s.rdG r.b.toNat).toNat) % 32

/-- RDLANE (R135). -/
def execRdlane (w : W0) (r : Alu) (s : State) : Out :=
  let k := s.laneIdx r
  .next (s.crossExec (s.activeW w) (wordsA w r k) (fun s' =>
    if tyPair r then s'.wrG64 w.d.toNat (s.rd64 w.a.toNat k)
    else s'.wrG w.d.toNat (s.rd w.a.toNat k)))

/-- WRLANE (R135). -/
def execWrlane (w : W0) (r : Alu) (s : State) : Out :=
  let m := s.activeW w &&& maskOf (· = s.laneIdx r)
  .next (if tyPair r then (s.wr64 w.d.toNat m (fun _ => s.rdG64 w.a.toNat)).cont
    else (s.wr w.d.toNat m (fun _ => s.rdG w.a.toNat)).cont)

/-- MATCH (R137). -/
def execMatchv (w : W0) (r : Alu) (s : State) : Out :=
  let m := s.activeW w
  let val (L : Nat) : DWord :=
    if tyPair r then s.rd64 w.a.toNat L else (s.rd w.a.toNat L).setWidth 64
  .next (s.crossExec m ((lanesOf m).flatMap (wordsA w r)) (fun s' =>
    s'.wr w.d.toNat m (fun L => m &&& maskOf (fun K => val K = val L))))

/-- The fixed tree of LRED: a node of 2^n lanes from `lo` (R138). -/
def lredNode (m : Word) (val : Nat → Nat) (op : Nat → Nat → FRes) : Nat → Nat → Option FRes
  | 0, lo => if inMask m lo then some (val lo, 0) else none
  | n + 1, lo =>
    match lredNode m val op n lo, lredNode m val op n (lo + 2 ^ n) with
    | none, y => y
    | x, none => x
    | some x, some y => let z := op x.1 y.1; some (z.1, z.2 ||| x.2 ||| y.2)

/-- The operation of a node (R138). -/
def lredOp (r : Alu) (x y : Nat) : FRes :=
  let a : Word := BitVec.ofNat 32 x
  let b : Word := BitVec.ofNat 32 y
  let signed := r.ty.toNat ≠ 12
  let op := r.opx.toNat % 8
  if r.ty.toNat = 16 then
    match op with
    | 0 => f32.deliver (rndOf r) (sumNum (rndOf r) [f32.decode x, f32.decode y])
    | 1 => f32.minMax false x y
    | _ => f32.minMax true x y
  else
    let z : Word := match op with
      | 0 => a + b
      | 1 => minInt signed a b
      | 2 => maxInt signed a b
      | 3 => a &&& b
      | 4 => a ||| b
      | _ => a ^^^ b
    (z.toNat, 0)

/-- LRED (R138, R139): an enabled exception of any node traps every Active lane. That the frame gives each
of them the bits that all the nodes raise is the model's choice: R113 speaks of the bits that a lane raised,
and LRED raises them at nodes (log entry 65). The words it read count as read (10_allocation R208). -/
def execLred (w : W0) (r : Alu) (s : State) : Out :=
  let m := s.activeW w
  let res := (lredNode m (s.bits32 w.a) (lredOp r) 5 0).getD (0, 0)
  let ws := (lanesOf m).map (fun L => (w.a.toNat, L))
  .next (if res.2 &&& s.grp.fpte ≠ 0
      && !ws.any (fun x => s.grp.rdErx s.lat.lc x.1 x.2 || s.grp.rdPois s.lat.lc x.1 x.2) then
      let s := if ws.any (fun x => s.grp.rdLapse s.lat.lc x.1 x.2) then s.setMemst memstLAPSE else s
      ((s.orFpstat res.2).cont).raise
        ((lanesOf m).map (fun L => { lane := L, cause := cFPX, lexc := res.2 })) false
    else s.crossExec m ws (fun s' =>
      (s'.orFpstat res.2).wr w.d.toNat m (fun _ => BitVec.ofNat 32 res.1)))

/-- The value of the time-related specials, and the time latch after a read of TIMELO
(03_groupwide R59, R60; R140). -/
def State.readTime (s : State) (lo : Bool) : State × Word :=
  let t := s.dieTime s.grp.die
  if lo then (s.modGrp (fun g => { g with tlatch := BitVec.ofNat 32 (t / 2 ^ 32) }), BitVec.ofNat 32 t)
  else (s, s.grp.tlatch)

/-- LEASECLK (R59). -/
def State.leaseClk (s : State) : Word :=
  if s.grp.count then BitVec.ofNat 32 s.lat.lc else BitVec.ofNat 32 (s.dieTime s.grp.die / 64)

/-- The outstanding writes of a register's lanes. -/
def pendLanes (n : Nat) (m : Word) (f : Nat → Word) : List PendWord :=
  (lanesOf m).map (fun L => { key := n * 32 + L, val := f L })

/-- LSREAD (R140). A TIMELO without Active lanes reads no time and leaves the latch as it was: the model's
choice, R140 not saying (log entry 71). -/
def execLsread (w : W0) (s : State) : Out :=
  let m := s.activeW w
  let d := w.d.toNat
  let put (f : Nat → Word) : State := (s.wr d m f).cont
  let counted (x : State × Word) : State :=
    (x.1.issueOp w.f { v := pendLanes d m (fun _ => x.2) }).cont
  .next (match w.a.toNat with
    | 0 => put (fun L => BitVec.ofNat 32 L)
    | 1 => put (fun L => s.grp.workidx.getD L 0)
    | 2 => put (fun _ => if s.curB then 1 else 0)
    | 3 => put (fun L => BitVec.ofNat 32 (2 ^ L - 1))
    | 4 => put (fun L => BitVec.ofNat 32 (2 ^ 32 - 2 ^ (L + 1)))
    | 5 => counted (s, s.leaseClk)
    | 6 => s.afterAcquire (if m = 0 then counted (s, 0) else counted (s.readTime true))
    | _ => s.afterAcquire (counted (s.readTime false)))

end Sys2Proof.Machine
end

