-- ==== Sys2Proof/Decode.lean ====
section
/-!
DEFINITION. The decoder, total on any two words, and the encoder beside it (02_encoding R31 to
R39). `decode` answers the instruction or the name of the reason why the words are none.
-/

namespace Sys2Proof

/-- Why the words are not an instruction (R39). -/
inductive DecodeError where
  /-- The opcode is assigned to no instruction. -/
  | unassigned
  /-- Opcodes 0x1D to 0x1F. -/
  | toolReserved
  /-- W disagrees with the opcode's word count. -/
  | wordCount
  /-- Branch format with F = 1 or bit 0 set. -/
  | branchBits
  /-- A field value the instruction does not allow. -/
  | field
deriving DecidableEq, Repr

/-- The fields of word 0 (R31). -/
def W0.ofWord (w : Word) : W0 :=
  { g := w.extractLsb' 19 4, n := w.getLsbD 18, f := w.getLsbD 17, d := w.extractLsb' 9 8,
    a := w.extractLsb' 1 8, h := w.getLsbD 0 }

/-- The fields of a branch-format word 0 (R33). -/
def Br.ofWord (w : Word) : Br :=
  { g := w.extractLsb' 19 4, n := w.getLsbD 18, off := w.extractLsb' 1 16 }

/-- Word 1 with M16 in the ALU layout (R32, R35). -/
def Alu.ofWord (w : Word) : Alu :=
  { b := w.extractLsb' 24 8, c := w.extractLsb' 16 8, ty := w.extractLsb' 11 5,
    rnd := w.extractLsb' 9 2, na := w.getLsbD 8, aa := w.getLsbD 7, nb := w.getLsbD 6,
    ab := w.getLsbD 5, nc := w.getLsbD 4, opx := w.extractLsb' 0 4 }

/-- Word 1 with M16 in the memory layout (R32, R35). -/
def MemF.ofWord (w : Word) : MemF :=
  { b := w.extractLsb' 24 8, c := w.extractLsb' 16 8, ty := w.extractLsb' 11 5,
    sco := w.extractLsb' 8 3, ord := w.extractLsb' 6 2, hnt := w.extractLsb' 4 2,
    e := w.getLsbD 3, nob := w.getLsbD 2, opx := w.extractLsb' 0 2 }

/-- Word 1 with M16 left to the entry (R32, R35). -/
def RRaw.ofWord (w : Word) : RRaw :=
  { b := w.extractLsb' 24 8, c := w.extractLsb' 16 8, m16 := w.extractLsb' 0 16 }

/-- Bit 23 of word 0: word 1 follows (R31). -/
def wBit (w : Word) : Bool := w.getLsbD 23

/-- The opcode of word 0 (R31). -/
def opcode (w : Word) : Nat := (w.extractLsb' 24 8).toNat

/-- The opcode map, opcodes 0x00 to 0x3F (R38). -/
def opMapCtl (op : Nat) (w0 w1 : Word) : Option Instr :=
  match op with
  | 0x00 => some (.nop (.ofWord w0))
  | 0x01 => some (.bra (.ofWord w0))
  | 0x02 => some (.brd (.ofWord w0) w1)
  | 0x03 => some (.join (.ofWord w0))
  | 0x04 => some (.brx (.ofWord w0))
  | 0x05 => some (.call (.ofWord w0))
  | 0x06 => some (.callg (.ofWord w0))
  | 0x07 => some (.ret (.ofWord w0))
  | 0x08 => some (.exit (.ofWord w0))
  | 0x09 => some (.refill (.ofWord w0))
  | 0x0A => some (.yield (.ofWord w0))
  | 0x0B => some (.sleep (.ofWord w0) w1)
  | 0x0C => some (.dstat (.ofWord w0))
  | 0x0D => some (.maskr (.ofWord w0))
  | 0x0E => some (.maskw (.ofWord w0))
  | 0x0F => some (.trap (.ofWord w0))
  | 0x10 => some (.tret (.ofWord w0))
  | 0x11 => some (.brk (.ofWord w0))
  | 0x12 => some (.callx (.ofWord w0) w1)
  | 0x1C => some (.tramp (.ofWord w0) w1)
  | 0x20 => some (.gmov (.ofWord w0))
  | 0x21 => some (.gmovi (.ofWord w0) w1)
  | 0x22 => some (.gadd (.ofWord w0) (.ofWord w1))
  | 0x23 => some (.gsub (.ofWord w0) (.ofWord w1))
  | 0x24 => some (.gmul (.ofWord w0) (.ofWord w1))
  | 0x25 => some (.gmad (.ofWord w0) (.ofWord w1))
  | 0x26 => some (.gand (.ofWord w0) (.ofWord w1))
  | 0x27 => some (.gor (.ofWord w0) (.ofWord w1))
  | 0x28 => some (.gxor (.ofWord w0) (.ofWord w1))
  | 0x29 => some (.gshl (.ofWord w0) (.ofWord w1))
  | 0x2A => some (.gshr (.ofWord w0) (.ofWord w1))
  | 0x2B => some (.gsar (.ofWord w0) (.ofWord w1))
  | 0x2C => some (.gadd64 (.ofWord w0) (.ofWord w1))
  | 0x2D => some (.gcmp (.ofWord w0) (.ofWord w1))
  | 0x2E => some (.gsel (.ofWord w0) (.ofWord w1))
  | 0x2F => some (.gmin (.ofWord w0) (.ofWord w1))
  | 0x30 => some (.gmax (.ofWord w0) (.ofWord w1))
  | 0x31 => some (.gpopc (.ofWord w0))
  | 0x32 => some (.gffs (.ofWord w0))
  | 0x33 => some (.glea (.ofWord w0) (.ofWord w1))
  | 0x34 => some (.gld (.ofWord w0) (.ofWord w1))
  | 0x35 => some (.gst (.ofWord w0) (.ofWord w1))
  | 0x36 => some (.gsread (.ofWord w0))
  | 0x37 => some (.gplop (.ofWord w0) (.ofWord w1))
  | _ => none

/-- The opcode map, opcodes 0x40 to 0x5F (R38). -/
def opMapInt (op : Nat) (w0 w1 : Word) : Option Instr :=
  match op with
  | 0x40 => some (.mov (.ofWord w0))
  | 0x41 => some (.movi (.ofWord w0) w1)
  | 0x42 => some (.iadd (.ofWord w0) (.ofWord w1))
  | 0x43 => some (.isub (.ofWord w0) (.ofWord w1))
  | 0x44 => some (.imul (.ofWord w0) (.ofWord w1))
  | 0x45 => some (.imulh (.ofWord w0) (.ofWord w1))
  | 0x46 => some (.imad (.ofWord w0) (.ofWord w1))
  | 0x47 => some (.imadw (.ofWord w0) (.ofWord w1))
  | 0x48 => some (.iadd64 (.ofWord w0) (.ofWord w1))
  | 0x49 => some (.isub64 (.ofWord w0) (.ofWord w1))
  | 0x4A => some (.iand (.ofWord w0) (.ofWord w1))
  | 0x4B => some (.ior (.ofWord w0) (.ofWord w1))
  | 0x4C => some (.ixor (.ofWord w0) (.ofWord w1))
  | 0x4D => some (.inot (.ofWord w0))
  | 0x4E => some (.ishl (.ofWord w0) (.ofWord w1))
  | 0x4F => some (.ishr (.ofWord w0) (.ofWord w1))
  | 0x50 => some (.isar (.ofWord w0) (.ofWord w1))
  | 0x51 => some (.bfe (.ofWord w0) (.ofWord w1))
  | 0x52 => some (.bfi (.ofWord w0) (.ofWord w1))
  | 0x53 => some (.popc (.ofWord w0))
  | 0x54 => some (.clz (.ofWord w0))
  | 0x55 => some (.brev (.ofWord w0))
  | 0x56 => some (.imin (.ofWord w0) (.ofWord w1))
  | 0x57 => some (.imax (.ofWord w0) (.ofWord w1))
  | 0x58 => some (.iabs (.ofWord w0))
  | 0x59 => some (.icmp (.ofWord w0) (.ofWord w1))
  | 0x5A => some (.sel (.ofWord w0) (.ofWord w1))
  | 0x5B => some (.lea (.ofWord w0) (.ofWord w1))
  | 0x5C => some (.icvt (.ofWord w0) (.ofWord w1))
  | 0x5D => some (.iadds (.ofWord w0) (.ofWord w1))
  | 0x5E => some (.idot4 (.ofWord w0) (.ofWord w1))
  | _ => none

/-- The opcode map, opcodes 0x60 to 0x7F (R38). -/
def opMapFlt (op : Nat) (w0 w1 : Word) : Option Instr :=
  match op with
  | 0x60 => some (.fadd (.ofWord w0) (.ofWord w1))
  | 0x61 => some (.fsub (.ofWord w0) (.ofWord w1))
  | 0x62 => some (.fmul (.ofWord w0) (.ofWord w1))
  | 0x63 => some (.ffma (.ofWord w0) (.ofWord w1))
  | 0x64 => some (.fmin (.ofWord w0) (.ofWord w1))
  | 0x65 => some (.fmax (.ofWord w0) (.ofWord w1))
  | 0x66 => some (.fcmp (.ofWord w0) (.ofWord w1))
  | 0x67 => some (.fclass (.ofWord w0) (.ofWord w1))
  | 0x68 => some (.frnd (.ofWord w0) (.ofWord w1))
  | 0x69 => some (.frcp (.ofWord w0) (.ofWord w1))
  | 0x6A => some (.frsq (.ofWord w0) (.ofWord w1))
  | 0x6B => some (.fsqrt (.ofWord w0) (.ofWord w1))
  | 0x6C => some (.fexp2 (.ofWord w0) (.ofWord w1))
  | 0x6D => some (.flog2 (.ofWord w0) (.ofWord w1))
  | 0x6E => some (.fsin (.ofWord w0) (.ofWord w1))
  | 0x6F => some (.fcos (.ofWord w0) (.ofWord w1))
  | 0x70 => some (.ftanh (.ofWord w0) (.ofWord w1))
  | 0x71 => some (.fscale (.ofWord w0) (.ofWord w1))
  | 0x72 => some (.dadd (.ofWord w0) (.ofWord w1))
  | 0x73 => some (.dmul (.ofWord w0) (.ofWord w1))
  | 0x74 => some (.dfma (.ofWord w0) (.ofWord w1))
  | 0x75 => some (.dcmp (.ofWord w0) (.ofWord w1))
  | 0x76 => some (.hadd2 (.ofWord w0) (.ofWord w1))
  | 0x77 => some (.hmul2 (.ofWord w0) (.ofWord w1))
  | 0x78 => some (.hfma2 (.ofWord w0) (.ofWord w1))
  | 0x79 => some (.fdot2 (.ofWord w0) (.ofWord w1))
  | _ => none

/-- The opcode map, opcodes 0x80 to 0x9F (R38). -/
def opMapMid (op : Nat) (w0 w1 : Word) : Option Instr :=
  match op with
  | 0x80 => some (.plop (.ofWord w0) (.ofWord w1))
  | 0x81 => some (.pmov (.ofWord w0) (.ofWord w1))
  | 0x82 => some (.vote (.ofWord w0) (.ofWord w1))
  | 0x83 => some (.ballot (.ofWord w0) (.ofWord w1))
  | 0x84 => some (.shfl (.ofWord w0) (.ofWord w1))
  | 0x85 => some (.rdlane (.ofWord w0) (.ofWord w1))
  | 0x86 => some (.wrlane (.ofWord w0) (.ofWord w1))
  | 0x87 => some (.matchv (.ofWord w0) (.ofWord w1))
  | 0x88 => some (.prank (.ofWord w0) (.ofWord w1))
  | 0x89 => some (.lred (.ofWord w0) (.ofWord w1))
  | 0x8A => some (.lsread (.ofWord w0))
  | 0x90 => some (.fcvt (.ofWord w0) (.ofWord w1))
  | 0x91 => some (.fpack (.ofWord w0) (.ofWord w1))
  | 0x92 => some (.funpack (.ofWord w0) (.ofWord w1))
  | 0x93 => some (.fmld (.ofWord w0) (.ofWord w1))
  | 0x94 => some (.fmst (.ofWord w0) (.ofWord w1))
  | 0x95 => some (.fscl (.ofWord w0) (.ofWord w1))
  | _ => none

/-- The opcode map, opcodes 0xA0 to 0xBF (R38). -/
def opMapMem (op : Nat) (w0 w1 : Word) : Option Instr :=
  match op with
  | 0xA0 => some (.ld (.ofWord w0) (.ofWord w1))
  | 0xA1 => some (.st (.ofWord w0) (.ofWord w1))
  | 0xA2 => some (.ldw (.ofWord w0) (.ofWord w1))
  | 0xA3 => some (.stw (.ofWord w0) (.ofWord w1))
  | 0xA4 => some (.ldg (.ofWord w0) (.ofWord w1))
  | 0xA5 => some (.stg (.ofWord w0) (.ofWord w1))
  | 0xA6 => some (.lds (.ofWord w0) (.ofWord w1))
  | 0xA7 => some (.sts (.ofWord w0) (.ofWord w1))
  | 0xA8 => some (.pref (.ofWord w0) (.ofWord w1))
  | 0xA9 => if w1.getLsbD 0 then some (.commitChk (.ofWord w0) (.ofWord w1)) else some (.commit (.ofWord w0) (.ofWord w1))
  | 0xAA => some (.abort (.ofWord w0) (.ofWord w1))
  | 0xAB => some (.fence (.ofWord w0) (.ofWord w1))
  | 0xAC => some (.wbr (.ofWord w0) (.ofWord w1))
  | 0xAD => some (.invr (.ofWord w0) (.ofWord w1))
  | 0xAE => some (.append (.ofWord w0) (.ofWord w1))
  | 0xAF => some (.apsync (.ofWord w0) (.ofWord w1))
  | 0xB0 => some (.cstat (.ofWord w0))
  | _ => none

/-- The opcode map, opcodes 0xC0 to 0xDF (R38). -/
def opMapEng (op : Nat) (w0 w1 : Word) : Option Instr :=
  match op with
  | 0xC0 => some (.atom (.ofWord w0) (.ofWord w1))
  | 0xC1 => some (.cas (.ofWord w0) (.ofWord w1))
  | 0xC2 => some (.red (.ofWord w0) (.ofWord w1))
  | 0xC3 => some (.atoms (.ofWord w0) (.ofWord w1))
  | 0xC4 => some (.uatom (.ofWord w0) (.ofWord w1))
  | 0xC5 => some (.binit (.ofWord w0) (.ofWord w1))
  | 0xC6 => some (.barv (.ofWord w0) (.ofWord w1))
  | 0xC7 => some (.bwait (.ofWord w0) (.ofWord w1))
  | 0xC8 => some (.btest (.ofWord w0) (.ofWord w1))
  | 0xC9 => some (.bexp (.ofWord w0) (.ofWord w1))
  | 0xCA => some (.chkt (.ofWord w0) (.ofWord w1))
  | 0xCB => some (.time (.ofWord w0))
  | 0xD0 => some (.cpy (.ofWord w0))
  | 0xD1 => some (.cpy2d (.ofWord w0))
  | 0xD2 => some (.cpym (.ofWord w0))
  | 0xD3 => some (.cpyg (.ofWord w0))
  | 0xD4 => some (.cpyq (.ofWord w0))
  | 0xD5 => some (.cpyc (.ofWord w0))
  | 0xD8 => some (.mma (.ofWord w0) (.ofWord w1))
  | 0xD9 => some (.mmas (.ofWord w0) (.ofWord w1))
  | 0xDA => some (.mzero (.ofWord w0))
  | 0xDB => some (.mldc (.ofWord w0) (.ofWord w1))
  | 0xDC => some (.mdrain (.ofWord w0) (.ofWord w1))
  | 0xDD => some (.mfence (.ofWord w0) (.ofWord w1))
  | 0xDE => if (W0.ofWord w0).a = 0 then some (.myokeReport (.ofWord w0))
      else if (W0.ofWord w0).a = 1 then some (.myokeUnbind (.ofWord w0))
      else some (.myokeBind (.ofWord w0))
  | 0xDF => some (.mstat (.ofWord w0))
  | _ => none

/-- The opcode map, opcodes 0xE0 to 0xFF (R38). -/
def opMapSys (op : Nat) (w0 w1 : Word) : Option Instr :=
  match op with
  | 0xE0 => some (.alloc (.ofWord w0) (.ofWord w1))
  | 0xE1 => some (.free (.ofWord w0))
  | 0xE2 => some (.renew (.ofWord w0))
  | 0xE3 => some (.aqry (.ofWord w0))
  | 0xE4 => some (.reclass (.ofWord w0) (.ofWord w1))
  | 0xF0 => some (.srd (.ofWord w0) w1)
  | 0xF1 => some (.swr (.ofWord w0) w1)
  | 0xF2 => some (.launch (.ofWord w0))
  | 0xF3 => if (W0.ofWord w0).d = 0 then some (.ipush (.ofWord w0)) else some (.ipushClose (.ofWord w0))
  | 0xF4 => some (.resume (.ofWord w0))
  | 0xF5 => some (.killg (.ofWord w0))
  | 0xF6 => some (.tlbinv (.ofWord w0) (.ofWord w1))
  | 0xF7 => some (.evcnt (.ofWord w0))
  | 0xF8 => some (.haltc (.ofWord w0) (.ofWord w1))
  | 0xF9 => some (.goc (.ofWord w0))
  | 0xFA => some (.ecci (.ofWord w0) (.ofWord w1))
  | _ => none

/-- The instruction an opcode names, with the fields of its words (R38). -/
def opMap (op : Nat) (w0 w1 : Word) : Option Instr :=
  if op < 0x40 then opMapCtl op w0 w1
  else if op < 0x60 then opMapInt op w0 w1
  else if op < 0x80 then opMapFlt op w0 w1
  else if op < 0xA0 then opMapMid op w0 w1
  else if op < 0xC0 then opMapMem op w0 w1
  else if op < 0xE0 then opMapEng op w0 w1
  else opMapSys op w0 w1

/-- The opcodes of one word (R38). -/
def oneWordOps : List Nat :=
  [0x00, 0x01, 0x03, 0x04, 0x05, 0x06, 0x07, 0x08, 0x09, 0x0A, 0x0C, 0x0D, 0x0E, 0x0F, 0x10, 0x11, 0x20, 0x31, 0x32, 0x36, 0x40, 0x4D, 0x53, 0x54, 0x55, 0x58, 0x8A, 0xB0, 0xCB, 0xD0, 0xD1, 0xD2, 0xD3, 0xD4, 0xD5, 0xDA, 0xDE, 0xDF, 0xE1, 0xE2, 0xE3, 0xF2, 0xF3, 0xF4, 0xF5, 0xF7, 0xF9]

/-- The words an opcode takes (R38). -/
def opWords (op : Nat) : Nat := if oneWordOps.contains op then 1 else 2

/-- BRA, BRD, JOIN and CALL (R33). -/
def isBranchOp (op : Nat) : Bool := op = 0x01 || op = 0x02 || op = 0x03 || op = 0x05

/-- The instruction at word 0 `w0`; `w1` is the word after it, and does not matter to an
instruction of one word. -/
def decode (w0 w1 : Word) : Except DecodeError Instr :=
  let op := opcode w0
  match opMap op w0 w1 with
  | none => .error (if 0x1D ≤ op && op ≤ 0x1F then .toolReserved else .unassigned)
  | some i =>
    if wBit w0 != (opWords op = 2) then .error .wordCount
    else if isBranchOp op && (w0.getLsbD 17 || w0.getLsbD 0) then .error .branchBits
    else if i.wf then .ok i
    else .error .field

/-- Word 0 from its fields (R31). -/
def W0.enc (op : BitVec 8) (two : Bool) (w : W0) : Word :=
  op ++ BitVec.ofBool two ++ w.g ++ BitVec.ofBool w.n ++ BitVec.ofBool w.f ++ w.d ++ w.a
    ++ BitVec.ofBool w.h

/-- Word 0 of branch format from its fields (R33). -/
def Br.enc (op : BitVec 8) (two : Bool) (b : Br) : Word :=
  op ++ BitVec.ofBool two ++ b.g ++ BitVec.ofBool b.n ++ BitVec.ofBool false ++ b.off
    ++ BitVec.ofBool false

/-- Word 1 in the ALU layout (R35). -/
def Alu.enc (r : Alu) : Word :=
  r.b ++ r.c ++ r.ty ++ r.rnd ++ BitVec.ofBool r.na ++ BitVec.ofBool r.aa ++ BitVec.ofBool r.nb
    ++ BitVec.ofBool r.ab ++ BitVec.ofBool r.nc ++ r.opx

/-- Word 1 in the memory layout (R35). -/
def MemF.enc (m : MemF) : Word :=
  m.b ++ m.c ++ m.ty ++ m.sco ++ m.ord ++ m.hnt ++ BitVec.ofBool m.e ++ BitVec.ofBool m.nob
    ++ m.opx

/-- Word 1 with M16 left to the entry (R35). -/
def RRaw.enc (r : RRaw) : Word := r.b ++ r.c ++ r.m16

/-- The words of a coded instruction, word 0 first (R31 to R38); an event row has none. -/
def encode : Instr → List Word
  | .nop w => [w.enc 0x00 false]
  | .bra b => [b.enc 0x01 false]
  | .brd b j => [b.enc 0x02 true, j]
  | .join b => [b.enc 0x03 false]
  | .brx w => [w.enc 0x04 false]
  | .call b => [b.enc 0x05 false]
  | .callg w => [w.enc 0x06 false]
  | .ret w => [w.enc 0x07 false]
  | .exit w => [w.enc 0x08 false]
  | .refill w => [w.enc 0x09 false]
  | .yield w => [w.enc 0x0A false]
  | .sleep w imm => [w.enc 0x0B true, imm]
  | .dstat w => [w.enc 0x0C false]
  | .maskr w => [w.enc 0x0D false]
  | .maskw w => [w.enc 0x0E false]
  | .trap w => [w.enc 0x0F false]
  | .tret w => [w.enc 0x10 false]
  | .brk w => [w.enc 0x11 false]
  | .callx w imm => [w.enc 0x12 true, imm]
  | .tramp w imm => [w.enc 0x1C true, imm]
  | .gmov w => [w.enc 0x20 false]
  | .gmovi w imm => [w.enc 0x21 true, imm]
  | .gadd w r => [w.enc 0x22 true, r.enc]
  | .gsub w r => [w.enc 0x23 true, r.enc]
  | .gmul w r => [w.enc 0x24 true, r.enc]
  | .gmad w r => [w.enc 0x25 true, r.enc]
  | .gand w r => [w.enc 0x26 true, r.enc]
  | .gor w r => [w.enc 0x27 true, r.enc]
  | .gxor w r => [w.enc 0x28 true, r.enc]
  | .gshl w r => [w.enc 0x29 true, r.enc]
  | .gshr w r => [w.enc 0x2A true, r.enc]
  | .gsar w r => [w.enc 0x2B true, r.enc]
  | .gadd64 w r => [w.enc 0x2C true, r.enc]
  | .gcmp w r => [w.enc 0x2D true, r.enc]
  | .gsel w r => [w.enc 0x2E true, r.enc]
  | .gmin w r => [w.enc 0x2F true, r.enc]
  | .gmax w r => [w.enc 0x30 true, r.enc]
  | .gpopc w => [w.enc 0x31 false]
  | .gffs w => [w.enc 0x32 false]
  | .glea w r => [w.enc 0x33 true, r.enc]
  | .gld w r => [w.enc 0x34 true, r.enc]
  | .gst w r => [w.enc 0x35 true, r.enc]
  | .gsread w => [w.enc 0x36 false]
  | .gplop w r => [w.enc 0x37 true, r.enc]
  | .mov w => [w.enc 0x40 false]
  | .movi w imm => [w.enc 0x41 true, imm]
  | .iadd w r => [w.enc 0x42 true, r.enc]
  | .isub w r => [w.enc 0x43 true, r.enc]
  | .imul w r => [w.enc 0x44 true, r.enc]
  | .imulh w r => [w.enc 0x45 true, r.enc]
  | .imad w r => [w.enc 0x46 true, r.enc]
  | .imadw w r => [w.enc 0x47 true, r.enc]
  | .iadd64 w r => [w.enc 0x48 true, r.enc]
  | .isub64 w r => [w.enc 0x49 true, r.enc]
  | .iand w r => [w.enc 0x4A true, r.enc]
  | .ior w r => [w.enc 0x4B true, r.enc]
  | .ixor w r => [w.enc 0x4C true, r.enc]
  | .inot w => [w.enc 0x4D false]
  | .ishl w r => [w.enc 0x4E true, r.enc]
  | .ishr w r => [w.enc 0x4F true, r.enc]
  | .isar w r => [w.enc 0x50 true, r.enc]
  | .bfe w r => [w.enc 0x51 true, r.enc]
  | .bfi w r => [w.enc 0x52 true, r.enc]
  | .popc w => [w.enc 0x53 false]
  | .clz w => [w.enc 0x54 false]
  | .brev w => [w.enc 0x55 false]
  | .imin w r => [w.enc 0x56 true, r.enc]
  | .imax w r => [w.enc 0x57 true, r.enc]
  | .iabs w => [w.enc 0x58 false]
  | .icmp w r => [w.enc 0x59 true, r.enc]
  | .sel w r => [w.enc 0x5A true, r.enc]
  | .lea w r => [w.enc 0x5B true, r.enc]
  | .icvt w r => [w.enc 0x5C true, r.enc]
  | .iadds w r => [w.enc 0x5D true, r.enc]
  | .idot4 w r => [w.enc 0x5E true, r.enc]
  | .fadd w r => [w.enc 0x60 true, r.enc]
  | .fsub w r => [w.enc 0x61 true, r.enc]
  | .fmul w r => [w.enc 0x62 true, r.enc]
  | .ffma w r => [w.enc 0x63 true, r.enc]
  | .fmin w r => [w.enc 0x64 true, r.enc]
  | .fmax w r => [w.enc 0x65 true, r.enc]
  | .fcmp w r => [w.enc 0x66 true, r.enc]
  | .fclass w r => [w.enc 0x67 true, r.enc]
  | .frnd w r => [w.enc 0x68 true, r.enc]
  | .frcp w r => [w.enc 0x69 true, r.enc]
  | .frsq w r => [w.enc 0x6A true, r.enc]
  | .fsqrt w r => [w.enc 0x6B true, r.enc]
  | .fexp2 w r => [w.enc 0x6C true, r.enc]
  | .flog2 w r => [w.enc 0x6D true, r.enc]
  | .fsin w r => [w.enc 0x6E true, r.enc]
  | .fcos w r => [w.enc 0x6F true, r.enc]
  | .ftanh w r => [w.enc 0x70 true, r.enc]
  | .fscale w r => [w.enc 0x71 true, r.enc]
  | .dadd w r => [w.enc 0x72 true, r.enc]
  | .dmul w r => [w.enc 0x73 true, r.enc]
  | .dfma w r => [w.enc 0x74 true, r.enc]
  | .dcmp w r => [w.enc 0x75 true, r.enc]
  | .hadd2 w r => [w.enc 0x76 true, r.enc]
  | .hmul2 w r => [w.enc 0x77 true, r.enc]
  | .hfma2 w r => [w.enc 0x78 true, r.enc]
  | .fdot2 w r => [w.enc 0x79 true, r.enc]
  | .plop w r => [w.enc 0x80 true, r.enc]
  | .pmov w r => [w.enc 0x81 true, r.enc]
  | .vote w r => [w.enc 0x82 true, r.enc]
  | .ballot w r => [w.enc 0x83 true, r.enc]
  | .shfl w r => [w.enc 0x84 true, r.enc]
  | .rdlane w r => [w.enc 0x85 true, r.enc]
  | .wrlane w r => [w.enc 0x86 true, r.enc]
  | .matchv w r => [w.enc 0x87 true, r.enc]
  | .prank w r => [w.enc 0x88 true, r.enc]
  | .lred w r => [w.enc 0x89 true, r.enc]
  | .lsread w => [w.enc 0x8A false]
  | .fcvt w r => [w.enc 0x90 true, r.enc]
  | .fpack w r => [w.enc 0x91 true, r.enc]
  | .funpack w r => [w.enc 0x92 true, r.enc]
  | .fmld w r => [w.enc 0x93 true, r.enc]
  | .fmst w r => [w.enc 0x94 true, r.enc]
  | .fscl w r => [w.enc 0x95 true, r.enc]
  | .ld w r => [w.enc 0xA0 true, r.enc]
  | .st w r => [w.enc 0xA1 true, r.enc]
  | .ldw w r => [w.enc 0xA2 true, r.enc]
  | .stw w r => [w.enc 0xA3 true, r.enc]
  | .ldg w r => [w.enc 0xA4 true, r.enc]
  | .stg w r => [w.enc 0xA5 true, r.enc]
  | .lds w r => [w.enc 0xA6 true, r.enc]
  | .sts w r => [w.enc 0xA7 true, r.enc]
  | .pref w r => [w.enc 0xA8 true, r.enc]
  | .commit w r => [w.enc 0xA9 true, r.enc]
  | .commitChk w r => [w.enc 0xA9 true, r.enc]
  | .abort w r => [w.enc 0xAA true, r.enc]
  | .fence w r => [w.enc 0xAB true, r.enc]
  | .wbr w r => [w.enc 0xAC true, r.enc]
  | .invr w r => [w.enc 0xAD true, r.enc]
  | .append w r => [w.enc 0xAE true, r.enc]
  | .apsync w r => [w.enc 0xAF true, r.enc]
  | .cstat w => [w.enc 0xB0 false]
  | .atom w r => [w.enc 0xC0 true, r.enc]
  | .cas w r => [w.enc 0xC1 true, r.enc]
  | .red w r => [w.enc 0xC2 true, r.enc]
  | .atoms w r => [w.enc 0xC3 true, r.enc]
  | .uatom w r => [w.enc 0xC4 true, r.enc]
  | .binit w r => [w.enc 0xC5 true, r.enc]
  | .barv w r => [w.enc 0xC6 true, r.enc]
  | .bwait w r => [w.enc 0xC7 true, r.enc]
  | .btest w r => [w.enc 0xC8 true, r.enc]
  | .bexp w r => [w.enc 0xC9 true, r.enc]
  | .chkt w r => [w.enc 0xCA true, r.enc]
  | .time w => [w.enc 0xCB false]
  | .cpy w => [w.enc 0xD0 false]
  | .cpy2d w => [w.enc 0xD1 false]
  | .cpym w => [w.enc 0xD2 false]
  | .cpyg w => [w.enc 0xD3 false]
  | .cpyq w => [w.enc 0xD4 false]
  | .cpyc w => [w.enc 0xD5 false]
  | .mma w r => [w.enc 0xD8 true, r.enc]
  | .mmas w r => [w.enc 0xD9 true, r.enc]
  | .mzero w => [w.enc 0xDA false]
  | .mldc w r => [w.enc 0xDB true, r.enc]
  | .mdrain w r => [w.enc 0xDC true, r.enc]
  | .mfence w r => [w.enc 0xDD true, r.enc]
  | .myokeReport w => [w.enc 0xDE false]
  | .myokeUnbind w => [w.enc 0xDE false]
  | .myokeBind w => [w.enc 0xDE false]
  | .mstat w => [w.enc 0xDF false]
  | .alloc w r => [w.enc 0xE0 true, r.enc]
  | .free w => [w.enc 0xE1 false]
  | .renew w => [w.enc 0xE2 false]
  | .aqry w => [w.enc 0xE3 false]
  | .reclass w r => [w.enc 0xE4 true, r.enc]
  | .srd w imm => [w.enc 0xF0 true, imm]
  | .swr w imm => [w.enc 0xF1 true, imm]
  | .launch w => [w.enc 0xF2 false]
  | .ipush w => [w.enc 0xF3 false]
  | .ipushClose w => [w.enc 0xF3 false]
  | .resume w => [w.enc 0xF4 false]
  | .killg w => [w.enc 0xF5 false]
  | .tlbinv w r => [w.enc 0xF6 true, r.enc]
  | .evcnt w => [w.enc 0xF7 false]
  | .haltc w r => [w.enc 0xF8 true, r.enc]
  | .goc w => [w.enc 0xF9 false]
  | .ecci w r => [w.enc 0xFA true, r.enc]
  | .pick _ _ _ _ => []
  | .completion _ _ => []
  | .groupRetire _ => []
  | .sleepWake _ _ => []
  | .trapEntry _ => []
  | .faultBufferEntryFree _ => []
  | .faultQueueEntry => []
  | .backgroundDrain _ _ => []
  | .guestEviction _ _ => []
  | .l1LineDrop _ _ => []
  | .millerAtomic _ _ => []
  | .amax _ _ => []
  | .barw _ => []
  | .userOperation _ _ => []
  | .remoteArrival _ => []
  | .copyCommandStart _ _ => []
  | .guardResolve _ _ => []
  | .chunkLand _ _ _ => []
  | .matrixCommandStart _ _ => []
  | .batchArrival _ _ => []
  | .columnRemap _ => []
  | .refresh _ _ => []
  | .rowRemap _ => []
  | .hostNop _ => []
  | .hostLaunch _ => []
  | .signal _ => []
  | .wait _ => []
  | .bufset _ => []
  | .buffree _ => []
  | .ctxset _ => []
  | .qset _ => []
  | .logbind _ => []
  | .logbindRebind _ _ => []
  | .uopset _ => []
  | .preempt _ => []
  | .ctxreset _ => []
  | .contextReset _ => []
  | .watchdogExpiry _ => []
  | .launchDispatch _ => []
  | .clusterPlace _ => []
  | .launchComplete _ => []
  | .itemBatch _ _ => []
  | .placementTimeout _ => []
  | .swapOut _ => []
  | .swapIn _ _ => []
  | .translationJobComplete _ _ _ _ => []
  | .firstPass _ _ _ _ _ => []
  | .secondPass _ _ _ _ _ => []
  | .appendDurable _ => []
  | .doorbell _ _ => []
  | .admen => []
  | .hostRead _ _ => []
  | .hostWrite _ _ => []
  | .hostAtomicop _ _ _ _ _ => []
  | .attestationReport => []
  | .identityCertificate => []
  | .peerAccess _ _ _ _ _ _ => []
  | .linkRetrain _ _ => []
  | .drainStart _ => []
  | .drainComplete => []
  | .evselClr _ _ => []
  | .tempmaxClr => []
  | .thresholdWrite _ _ => []
  | .thcmdCool => []
  | .thcmdGo => []
  | .thcmdResume => []
  | .thcmdSafe => []
  | .thcmdAscend => []
  | .registerWrite _ _ _ _ => []
  | .sensorSample _ _ => []
  | .bandChange => []
  | .bandReturnHold => []
  | .powerOn _ _ => []
  | .powerOff => []
  | .dewPointHold => []
  | .purgeTimeout => []
  | .rateMeasure _ => []
  | .soakHold => []
  | .coldtrainComplete _ _ _ => []
  | .flitReplay _ => []

/-- The decoder's answer on a list of words: the instruction and how many words it takes. -/
def decodeWords : List Word → Option (Instr × Nat)
  | [] => none
  | w0 :: rest =>
    match decode w0 rest.headI with
    | .error _ => none
    | .ok i => some (i, opWords (opcode w0))

/-- The instruction whose words, numbered as the opcode table numbers them, are `w`: bits
[31:0] are word 0 and bits [63:32] word 1. The number of bits given does not matter, since the
bits above them are zero. -/
def decodeTableWord (_nbits w : Nat) : Option Instr :=
  (decodeWords [BitVec.ofNat 32 w, BitVec.ofNat 32 (w / 2 ^ 32)]).map (·.1)

end Sys2Proof
end

