-- ==== Sys2Proof/Machine/System.lean ====
section
/-!
DEFINITION. The system class, 0xF0 to 0xFA, and GSREAD, 0x36 (15_system R326, R327, R340, R341,
R349, R354 to R358; 03_groupwide R59 to R61).
-/

namespace Sys2Proof.Machine

/-! Group specials (03_groupwide R59). -/

/-- The band GSREAD TBAND gives (17_cold R381). -/
def Thermal.special (t : Thermal) : Nat := if t.wsm then 3 else t.band

/-- A group special that is not tracked and fits one register. -/
def State.special (s : State) (i : Nat) : Word :=
  let g := s.grp
  let t := s.team g.team
  let l := s.launch g.launch
  let c := s.cluster t.cluster
  match i with
  | 0 => BitVec.ofNat 32 g.gidx
  | 1 => BitVec.ofNat 32 t.idx
  | 2 => BitVec.ofNat 32 l.teams
  | 3 => BitVec.ofNat 32 t.ngrp
  | 4 => BitVec.ofNat 32 (t.py * 2 ^ 16 + t.px)
  | 5 => BitVec.ofNat 32 (c.h * 2 ^ 16 + c.w)
  | 6 => BitVec.ofNat 32 (g.port * 2 ^ 12 + g.die * 2 ^ 8 + g.core)
  | 7 => if g.die < 4 then 0 else 1
  | 8 => BitVec.ofNat 32 s.therm.special
  | 10 => if s.curB then 1 else 0
  | 11 => BitVec.ofNat 32 (g.ownRecords + (if s.other.v then 1 else 0))
  | 12 => BitVec.ofNat 32 g.calldepth
  | 13 => t.abortGen
  | 14 => BitVec.ofNat 32 (s.transEpoch g.ctx s.lat.clause)
  | 15 => BitVec.ofNat 32 (s.codeLevel g.ctx s.lat.clause)
  | 16 => g.fpstat
  | _ => 0

/-- GSREAD (R59): PRIVBASE is a pair, LEASECLK and the time are tracked. -/
def execGsread (w : W0) (s : State) : Out :=
  let d := w.d.toNat
  let counted (x : State × Word) : State :=
    (x.1.issueOp w.f { g := [{ key := d, val := x.2 }] }).cont
  let idle := (s.issueOp w.f {}).cont
  .next (match w.a.toNat with
    | 9 => if s.guardW w then counted (s, s.leaseClk) else idle
    | 17 => s.groupExec w (fun s => s.wrG64 d (BitVec.ofNat 64 (s.privBase s.grp)))
    | 18 => s.afterAcquire (if s.guardW w then counted (s.readTime true) else idle)
    | 19 => s.afterAcquire (if s.guardW w then counted (s.readTime false) else idle)
    | i => s.groupExec w (fun s => s.wrG d (s.special i)))

/-! Privilege (R326). -/

/-- A privileged instruction: no effect under a false guard, PRIVT for unprivileged code. -/
def State.privExec (s : State) (w : W0) (k : State → State) : State :=
  if !s.guardW w then s.cont
  else if !s.privileged s.grp.ctx then s.raiseSlot cPRIVT
  else k s

/-- SRD (R327): a reserved name is illegal whatever the guard; an unprivileged read of anything but
an own register that is wholly RO is a privilege trap. -/
def execSrd (w : W0) (imm : Word) (s : State) : Out :=
  .next (match s.regUnit imm with
    | none => s.raiseSlot cILL
    | some u =>
      if !s.guardW w then s.cont
      else if !s.privileged s.grp.ctx && !(regRO (sysIdx imm) && s.ownUnit u) then s.raiseSlot cPRIVT
      else (s.wrG w.d.toNat (s.readReg (sysIdx imm) u)).cont)

/-- SWR (R327). -/
def execSwr (w : W0) (imm : Word) (s : State) : Out :=
  .next (match s.regUnit imm with
    | none => s.raiseSlot cILL
    | some u => s.privExec w (fun s => (s.writeReg (sysIdx imm) u (s.rdG w.a.toNat)).cont))

/-! LAUNCH (R340). -/

/-- Records in a context's device-side queue. -/
def State.deviceQueued (s : State) (ctx : Nat) : Nat :=
  (s.launches.filter (fun e => e.2.stage = .queued && e.2.device && (s.launch e.2.parent).ctx = ctx)).length

/-- A record queued with the issuing launch as its parent. -/
def State.queueLaunch (s : State) (ws : List Word) : State :=
  let parent := s.grp.launch
  let (lk, s) := (s.timeMsg s.grp.die commons).fresh
  let l : Launch := { stage := .queued, rec_ := ws, device := true, parent }
  s.setLaunch lk { l with ctx := l.recCtx, prio := min (l.f 22 22 3) (s.launch parent).prio }

/-- LAUNCH (R340). -/
def execLaunch (w : W0) (s : State) : Out :=
  let a := s.rdG64 w.a.toNat
  let d := w.d.toNat
  .next (if !s.guardW w then s.cont
    else s.ordered true (
      let s := s.releaseAt s.cur 4
      if !canonical a then s.raiseSlot cBADA a
      else match s.groupRead s.cur (vaOf a) 128 4 false with
        | (s, .error (c, va)) => s.parkFault c s.slot.act (BitVec.ofNat 64 va)
        | (s, .ok bs) =>
          if anyPois bs then s.raiseSlot cPOIS a
          else if a.toNat % 128 ≠ 0 || 4096 ≤ s.deviceQueued s.grp.ctx then (s.wrG d 1).cont
          else ((s.queueLaunch (wordsLE (bs.map (·.val)) 32)).wrG d 0).cont))

/-! The item queue (R341). -/

/-- Items pushed by lanes in order, or discarded after the close. -/
def State.pushItems (s : State) (xs : List Word) : State :=
  let g := s.grp
  let l := s.launch g.launch
  if l.closed then s.setLaunch g.launch { l with discarded := l.discarded + xs.length }
  else
    let p := (l.w 21).toNat + l.pushed
    let s := s.setLaunch g.launch { l with pushed := l.pushed + xs.length }
    s.modCore (coreKey g.die g.core) (fun c =>
      let q := (c.items.getD g.launch {}).items
      { c with items := c.items.set g.launch { items := q ++ mapI xs (fun i x => (x, p + i)) } {} })

/-- IPUSH (R341). -/
def execIpush (w : W0) (s : State) : Out :=
  let g := s.grp
  let m := s.activeW w
  let l := s.launch g.launch
  let q := ((s.coreAt (coreKey g.die g.core)).items.getD g.launch {}).items
  .next (if !l.items then s.cont
    else if !l.closed && 4096 < q.length + (lanesOf m).length then s.holdIssue
    else s.laneExec m [w.a.toNat]
      (fun s' ok => s'.pushItems ((lanesOf ok).map (fun L => s.rd w.a.toNat L))))

/-- IPUSH.CLOSE (R341). -/
def execIpushClose (w : W0) (s : State) : Out :=
  .next (if s.activeW w = 0 || !(s.launch s.grp.launch).items then s.cont
    else (s.modLaunch s.grp.launch (fun l => { l with closed := true })).cont)

/-! RESUME and KILLG (R349). -/

def tgScope (x : Word) : Nat := bitsOf x.toNat 30 2
def tgDie (x : Word) : Nat := bitsOf x.toNat 18 4
def tgCore (x : Word) : Nat := bitsOf x.toNat 11 7
def tgSlot (x : Word) : Nat := bitsOf x.toNat 0 11
def tgBad (x : Word) : Bool := bitsOf x.toNat 22 8 ≠ 0 || tgScope x = 2

/-- The group at a target, resident, or away and last there. -/
def State.groupAt (s : State) (x : Word) (away : Bool) : Option Nat :=
  s.groups.findIdx? (fun _ g => g.live && g.away = away && g.die = tgDie x && g.core = tgCore x
    && g.slotNo = tgSlot x)

/-- The parked group goes on: its entry of the fault buffer is freed (R349). -/
def State.unpark (s : State) (gk : Nat) : State :=
  let g := s.group gk
  match g.park with
  | none => s
  | some p =>
    let s := s.setGroup gk { g with park := none }
    match p.entry with
    | none => s
    | some i => s.modCore (coreKey g.die g.core) (fun c => c.freeFault i)

/-- An engine fault entry released, its chunk to be performed again (R291, R349). -/
def State.releaseEntry (s : State) (core i : Nat) : State :=
  let e := (s.coreAt core).faults.getD i {}
  let s := s.modCore core (fun c => c.freeFault i)
  if e.matrix then
    let c := s.mat e.cmd
    if c.live then s.setMat e.cmd { c with paused := c.paused.filter (· ≠ e.chunk) } else s
  else
    let c := s.copy e.cmd
    if c.live then s.setCopy e.cmd { c with paused := c.paused.filter (· ≠ e.chunk) } else s

/-- Groups made ready, and the status that says so. -/
def State.resumeAll (s : State) (gs : List Nat) : State × Nat :=
  let parked := gs.filter (fun k => (s.group k).park.isSome)
  (parked.foldl State.unpark s, if parked.isEmpty then 1 else 0)

/-- What RESUME does and answers. -/
def State.resume (s : State) (x : Word) : State × Nat :=
  if tgBad x then (s, 3)
  else if tgScope x = 3 then
    let core := coreKey (tgDie x) (tgCore x)
    let e := (s.coreAt core).faults.getD (tgSlot x) {}
    if tgSlot x < 64 && e.used && e.engine && !e.reserved then (s.releaseEntry core (tgSlot x), 0) else (s, 2)
  else match (match s.groupAt x false with | some k => some k | none => s.groupAt x true) with
    | none => (s, 2)
    | some k => s.resumeAll (if tgScope x = 0 then [k] else s.groupsOf (s.group k).team)

/-- RESUME (R349). -/
def execResume (w : W0) (s : State) : Out :=
  .next (s.privExec w (fun s =>
    let (s', st) := s.resume (s.rdG w.a.toNat)
    (s'.wrG w.d.toNat (BitVec.ofNat 32 st)).cont))

/-- What KILLG answers, and the groups it kills. -/
def State.killTargets (s : State) (x : Word) : List Nat × Nat :=
  if tgBad x || tgScope x = 3 then ([], 3)
  else match s.groupAt x false with
    | none => ([], 2)
    | some k => (if tgScope x = 0 then [k] else s.groupsOf (s.group k).team, 0)

/-- KILLG (R349). -/
def execKillg (w : W0) (s : State) : Out :=
  .next (s.privExec w (fun s =>
    let (gs, st) := s.killTargets (s.rdG w.a.toNat)
    gs.foldl State.killGroup ((s.wrG w.d.toNat (BitVec.ofNat 32 st)).cont)))

/-! TLBINV (R354). -/

/-- A cached translation is of a context's page that overlaps a range. -/
def TlbEnt.meets (e : TlbEnt) (ctx lo hi : Nat) : Bool :=
  e.ctx = ctx && e.page * pageSize e.big < hi && lo < (e.page + 1) * pageSize e.big

/-- Translations that satisfy a test dropped on every die and on its cores, with the format records that
travel with them. -/
def State.dropTlb (s : State) (p : TlbEnt → Bool) : State :=
  { s with dies := s.dies.mapV {} (fun _ d => { d with tlb := d.tlb.filter (fun e => !p e) })
           cores := s.cores.mapV {} (fun _ c => { c with tlb := c.tlb.filter (fun e => !p e) }) }

/-- An access that used a translation of a context, of any where none is named, is still to be performed: a
request that a Miller has queued. Every other access is performed as it is translated. -/
def State.accessOut (s : State) (ctx : Option Nat) : Bool :=
  s.mills.any (fun e => e.2.live && (match ctx with | none => true | some c => e.2.ctx = c))

/-- The issuing die tells every die to drop translations, and hears from it (12_atomics_barriers R277). -/
def State.tellDies (s : State) : State :=
  (List.range 8).foldl (fun s d => s.roundTrip s.grp.die d) s

/-- TLBINV (R354): it waits for the accesses of the contexts it names. That it waits for those to other pages
too is within what a completion may take. -/
def execTlbinv (w : W0) (r : RRaw) (s : State) : Out :=
  .next (s.privExec w (fun s =>
    let ctx := if r.c = 0xFF then s.grp.ctx else r.c.toNat
    let lo := vaOf (s.rdG64 w.a.toNat)
    let n := (s.rdG r.b.toNat).toNat
    let go (s : State) (c : Option Nat) (p : TlbEnt → Bool) : State :=
      if s.accessOut c then s.holdIssue else (s.tellDies.dropTlb p).cont
    match (r.m16.extractLsb' 0 2).toNat with
    | 0 => if n = 0 then s.cont else go s (some ctx) (·.meets ctx lo (lo + n))
    | 1 => go s (some ctx) (·.ctx = ctx)
    | _ => go s none (fun _ => true)))

/-! EVCNT (R357). -/

/-- A selector opens its counter to a context. -/
def evUser (sel : Word) (ctx : Nat) : Bool :=
  sel.getLsbD 9 && (!sel.getLsbD 18 || (sel.extractLsb' 12 6).toNat = ctx)

/-- EVCNT (R357). -/
def execEvcnt (w : W0) (s : State) : Out :=
  let g := s.grp
  let n := w.a.toNat
  let k := coreKey g.die g.core
  let sel := if n < 8 then (s.coreAt k).evsel.getD n 0 else (s.die g.die).devsel.getD (n - 8) 0
  .next (if !s.guardW w then s.cont
    else if !s.privileged g.ctx && !evUser sel g.ctx then s.raiseSlot cPRIVT
    else if n < 8 then
      let s := s.settleCore k n
      (s.wrG64 w.d.toNat ((s.coreAt k).ctrs.getD n 0)).cont
    else
      let s := s.settleDie g.die (n - 8)
      (s.wrG64 w.d.toNat ((s.die g.die).ctrs.getD (n - 8) 0)).cont)

/-! HALTC and GOC (R355). -/

/-- The core a target names, if it exists. -/
def State.coreNamed (s : State) (x : Word) : Option Nat :=
  if tgScope x = 0 && bitsOf x.toNat 22 8 = 0 && tgSlot x = 0 && s.corePresent (tgDie x) (tgCore x) then
    some (coreKey (tgDie x) (tgCore x)) else none

/-- Halt and freeze of a core set, and the status. -/
def State.halt (s : State) (w : W0) (halted frozen : Bool) : State :=
  match s.coreNamed (s.rdG w.a.toNat) with
  | none => (s.wrG w.d.toNat 2).cont
  | some k => ((s.wrG w.d.toNat 0).cont).modCore k (fun c => { c with halted, frozen })

/-- HALTC (R355). -/
def execHaltc (w : W0) (r : RRaw) (s : State) : Out :=
  .next (s.privExec w (fun s => s.halt w true (r.m16.getLsbD 0)))

/-- GOC (R355). -/
def execGoc (w : W0) (s : State) : Out := .next (s.privExec w (fun s => s.halt w false false))

/-! ECCI (R358). -/

/-- ECCI at a line of memory: the issuing die's copy, or the DRAM word. -/
def State.armMem (s : State) (site kind : Nat) (a : DWord) : State :=
  if !canonical a then s.raiseSlot cBADA a
  else match s.translate s.grp.ctx s.grp.die (vaOf a) .r (some s.grp.core) with
    | (s, .error c) => s.parkFault c s.slot.act a
    | (s, .ok x) =>
      let e : ArmedErr := { site, at_ := x.pk, kind }
      let die := if site = 1 then s.grp.die else x.attr.home
      (if site = 2 && x.attr.tier ≠ 0 then s
       else s.modDie die (fun d => { d with armed := d.armed ++ [e] })).cont

/-- ECCI (R358). -/
def execEcci (w : W0) (r : RRaw) (s : State) : Out :=
  let kind := (r.m16.extractLsb' 2 2).toNat
  let site := (r.m16.extractLsb' 0 2).toNat
  .next (s.privExec w (fun s =>
    if site = 0 then
      let x := s.rdG r.b.toNat
      let g := s.grp
      let reg := bitsOf x.toNat 0 8
      let e : ArmedErr := { site := 0, at_ := armKey s.cur reg (bitsOf x.toNat 8 5), kind }
      (if g.nreg ≤ reg then s
       else s.modCore (coreKey g.die g.core) (fun c => { c with armed := c.armed ++ [e] })).cont
    else s.armMem site kind (s.rdG64 w.a.toNat)))

end Sys2Proof.Machine
end

