-- ==== Sys2Proof/Machine/Uses.lean ====
section
/-!
DEFINITION. What an instruction names before it is performed: the lane registers it reads and writes,
the group-wide registers and predicates it writes, and how it is tracked (02_encoding R29, R30, R34).
-/

namespace Sys2Proof.Machine

/-- The registers an instruction reads and writes under the guard of `w`; `all` says that it reads
lanes other than the Active ones; `nm` are those it names without reading them. `track` is its tracking kind: none, or whether it must be tracked,
with its F bit (R29). -/
structure Uses where
  w : W0 := { g := 15, n := false, f := false, d := 0, a := 0, h := false }
  track : Option (Bool × Bool) := none
  rd : List Nat := []
  nm : List Nat := []
  wd : List Nat := []
  gw : List Nat := []
  gpw : List Nat := []
  all : Bool := false
deriving DecidableEq, Repr

/-- `n` registers from a field on. -/
def span (n : Nat) (x : BitVec 8) : List Nat := (List.range n).map (fun j => x.toNat + j)

/-- Two registers where `wide`, otherwise one. -/
def span2 (wide : Bool) (x : BitVec 8) : List Nat := span (if wide then 2 else 1) x

/-- Lane sources A and B (unless immediate), one destination, each of `n` registers. -/
def usesAB (w : W0) (r : Alu) (n : Nat) (imm : Bool) : Uses :=
  { w, rd := span n w.a ++ (if imm then [] else span n r.b), wd := span n w.d }

/-- One lane source and one destination. -/
def usesA (w : W0) : Uses := { w, rd := span 1 w.a, wd := span 1 w.d }

/-- Three lane sources of `n` registers. -/
def usesABC (w : W0) (r : Alu) (n : Nat) : Uses :=
  { w, rd := span n w.a ++ span n r.b ++ span n r.c, wd := span n w.d }

/-- Shifts: the count is one register (05_integer R93). -/
def usesShift (w : W0) (r : Alu) : Uses :=
  let wide := r.ty = 4 || r.ty = 9
  { w, rd := span2 wide w.a ++ (if r.imm then [] else span 1 r.b), wd := span2 wide w.d }

/-- One group-wide destination. -/
def usesG (w : W0) (n : Nat := 1) : Uses := { gw := span n w.d }

/-- The registers a memory operand reads: the base pair of lanes, the offset register. -/
def usesAddr (w : W0) (m : MemF) (la laneOff : Bool) : List Nat :=
  (if la then span 2 w.a else []) ++ (if m.nob || !laneOff then [] else span 1 m.b)

/-- Registers of a data operand of a type. -/
def usesData (w : W0) (m : MemF) : List Nat :=
  span (match dataField m.ty.toNat with | .v2 => 2 | .v4 => 4 | _ => 1) w.d

/-- A load, its destination one element register when E = 1. -/
def usesLoad (w : W0) (m : MemF) (la laneOff : Bool) : Uses :=
  { w, track := some (true, w.f), rd := usesAddr w m la laneOff, wd := usesData w m }

def usesStore (w : W0) (m : MemF) (la laneOff : Bool) : Uses :=
  { w, track := some (false, w.f), rd := usesAddr w m la laneOff ++ usesData w m }

/-- Registers of an atomic's value. -/
def atomWidth (m : MemF) : Nat := if [4, 9, 13].contains m.ty.toNat then 2 else 1

/-- An atomic with one or two operands, with or without a reply. -/
def usesAtom (w : W0) (m : MemF) (two reply : Bool) : Uses :=
  let n := atomWidth m
  { w, track := some (reply, w.f), rd := usesAddr w m false true ++ span (if two then 2 * n else n) w.d
    wd := if reply then span n w.d else [] }

/-- A conversion's registers under its record: none under one that raises FMTX, which comes before a range
past the register count (08_formats R155, R158). -/
def usesRun (s : State) (r : Alu) (x : BitVec 8) : List Nat :=
  let rec_ := s.grp.fmget r.c.toNat
  if fmOk rec_ then span (fmPer rec_) x else []

/-- The scale register, if the record is scaled (08_formats R158). -/
def usesScale (s : State) (r : Alu) : List Nat :=
  let rec_ := s.grp.fmget r.c.toNat
  if fmOk rec_ then scaleRegs rec_ r else []

/-- A and its scales (14_matrix R306, R308): the yoked operand's size while the team's yoke is bound
(R299). -/
def usesMma (s : State) (w : W0) (r : RRaw) (sparse : Bool) : Uses :=
  { w, track := some (false, w.f)
    rd := span (mmRegs sparse (s.runsYoked (s.team s.grp.team))) w.a ++ (if r.m16.getLsbD 3 then span 1 r.c else [])
    all := true }

/-- The registers an instruction names. -/
def State.uses (s : State) : Instr → Uses
  | .call _ | .callg _ | .callx _ _ => { gw := [62, 63] }
  | .refill w => { wd := span 1 w.d, gpw := [0] }
  | .dstat w | .maskr w | .gmov w | .gmovi w _ | .gadd w _ | .gsub w _ | .gmul w _ | .gmad w _
  | .gand w _ | .gor w _ | .gxor w _ | .gshl w _ | .gshr w _ | .gsar w _ | .gsel w _ | .gmin w _
  | .gmax w _ | .gpopc w | .gffs w | .cpyq w | .cpyc w | .mfence w _ | .myokeReport w
  | .myokeUnbind w | .myokeBind w | .mstat w | .srd w _ | .launch w | .resume w | .killg w
  | .haltc w _ | .goc w => usesG w
  | .tret _ => { gw := [56, 57, 58, 59, 60, 61, 62, 63], gpw := [0, 1, 2] }
  | .gadd64 w _ | .glea w _ | .fmst w _ | .time w | .aqry w | .evcnt w => usesG w 2
  | .gcmp w _ | .gplop w _ | .vote w _ | .btest w _ | .chkt w _ => { gpw := span 1 w.d }
  | .cstat w => { usesG w with track := some (true, w.f) }
  | .append w _ => { usesG w 2 with track := some (true, w.f) }
  | .gst w _ | .commit w _ | .abort w _ | .fence w _ | .wbr w _ | .invr w _ | .apsync w _ | .barv w _
  | .cpy w | .cpy2d w | .cpym w | .cpyg w | .mldc w _ | .mdrain w _ => { track := some (false, w.f) }
  | .gld w m => { usesG w (match gDataField m.ty.toNat with | .g2 => 2 | .g4 => 4 | _ => 1) with track := some (true, w.f) }
  | .gsread w => { usesG w (if w.a = 17 then 2 else 1) with
      track := if w.a = 9 || w.a = 18 || w.a = 19 then some (true, w.f) else none }
  | .commitChk w _ => { gpw := [0], track := some (true, w.f) }
  | .alloc _ r => { gw := [bitsOf r.m16.toNat 10 6], gpw := [0] }
  | .reclass _ _ => { gpw := [0] }
  | .mov w | .inot w | .popc w | .clz w | .brev w | .iabs w => usesA w
  | .movi w _ => { wd := span 1 w.d }
  | .iadd w r | .isub w r | .imul w r | .imulh w r | .iand w r | .ior w r | .ixor w r | .imin w r
  | .imax w r | .iadds w r => usesAB w r 1 r.imm
  | .imad w r | .idot4 w r | .ffma w r | .hfma2 w r | .fdot2 w r => usesABC w r 1
  | .imadw w r => { w, rd := span 1 w.a ++ span 1 r.b ++ span 2 r.c, wd := span 2 w.d }
  | .iadd64 w r | .isub64 w r => usesAB w r 2 r.imm
  | .ishl w r | .ishr w r | .isar w r => usesShift w r
  | .bfe w r => { w, rd := span 1 w.a ++ (if r.imm then [] else span 1 r.b ++ span 1 r.c), wd := span 1 w.d }
  | .bfi w r => { w, rd := span 1 w.d ++ span 1 w.a ++ (if r.imm then [] else span 1 r.b ++ span 1 r.c), wd := span 1 w.d }
  | .icmp w r =>
      let n := if r.ty = 9 || r.ty = 13 then 2 else 1
      { w, rd := span n w.a ++ (if r.imm then [] else span n r.b) }
  | .sel w r => usesAB w r (if r.ty = 4 then 2 else 1) false
  | .lea w r => { w, rd := span 1 r.b, wd := span 2 w.d }
  | .icvt w r =>
      { w, rd := span2 (r.opx = 3 || r.opx = 7) w.a, wd := span2 (r.ty = 9 || r.ty = 13) w.d }
  | .fadd w r | .fsub w r | .fmul w r | .fmin w r | .fmax w r | .fscale w r | .hadd2 w r
  | .hmul2 w r => usesAB w r 1 false
  | .fcmp w r => { w, rd := span 1 w.a ++ span 1 r.b }
  | .fclass w r => { w, rd := span2 (r.ty = 17) w.a, wd := span 1 w.d }
  | .frnd w _ | .frcp w _ | .frsq w _ | .fsqrt w _ | .fexp2 w _ | .flog2 w _ | .fsin w _ | .fcos w _
  | .ftanh w _ => usesA w
  | .dadd w r | .dmul w r => usesAB w r 2 false
  | .dfma w r => usesABC w r 2
  | .dcmp w r => { w, rd := span 2 w.a ++ span 2 r.b }
  | .pmov w r => if r.opx = 0 || r.opx = 2 then { wd := span 1 w.d } else { w, rd := span 1 w.a }
  | .ballot w _ => usesG w
  | .shfl w r => { usesAB w r (if r.ty = 4 then 2 else 1) true with
      rd := span2 (r.ty = 4) w.a ++ (if r.opx.getLsbD 2 then [] else span 1 r.b), all := true }
  | .rdlane w r => { w, rd := span2 (r.ty = 4) w.a, gw := span2 (r.ty = 4) w.d, all := true }
  | .wrlane w r => { wd := span2 (r.ty = 4) w.d }
  | .matchv w r => { w, rd := span2 (r.ty = 4) w.a, wd := span 1 w.d }
  | .prank w _ => { wd := span 1 w.d }
  | .lred w _ => usesA w
  | .lsread w => { wd := span 1 w.d, track := if 5 ≤ w.a.toNat then some (true, w.f) else none }
  | .fcvt w r =>
      { w, rd := span2 (r.opx = 1 || r.opx = 3 || r.opx = 7) w.a
        wd := span2 (r.ty = 9 || r.ty = 13 || r.ty = 17) w.d }
  | .fpack w r => { w, rd := usesRun s r w.a ++ usesScale s r, nm := span 1 r.b, wd := span 1 w.d }
  | .funpack w r => { w, rd := span 1 w.a ++ usesScale s r, nm := span 1 r.b, wd := usesRun s r w.d }
  | .fscl w _ => { w, rd := span 1 w.a, wd := span 1 w.d }
  | .ld w m => usesLoad w m (m.opx.getLsbD 0) true
  | .st w m => usesStore w m (m.opx.getLsbD 0) true
  | .ldw w m => usesLoad w m false false
  | .stw w m => usesStore w m false false
  | .ldg w m | .lds w m => usesLoad w m false true
  | .stg w m | .sts w m => usesStore w m false true
  | .pref w m => { w, track := some (false, w.f), rd := usesAddr w m (m.opx.getLsbD 0) true }
  | .atom w m => usesAtom w m false true
  | .cas w m | .uatom w m => usesAtom w m true true
  | .red w m => usesAtom w m false false
  | .atoms w m => usesAtom w m (m.op = 9) true
  | .mma w r => usesMma s w r false
  | .mmas w r => usesMma s w r true
  | .ipush w => { w, rd := span 1 w.a }
  | _ => {}

/-- The base pair of a memory operand, unless its lanes give it. -/
def greadsBase (w : W0) (la : Bool) : List Nat := if la then [] else span 2 w.a

/-- The group-wide registers an instruction reads (03_groupwide R53, R57 and the entries of the
classes). -/
def readsG : Instr → List Nat
  | .brx w | .callg w | .launch w | .lea w _ | .atom w _ | .cas w _ | .red w _ | .uatom w _ | .ldg w _
  | .stg w _ => span 2 w.a
  | .ret _ => [62, 63]
  | .maskw w | .gmov w | .gpopc w | .gffs w | .swr w _ | .resume w | .killg w | .haltc w _ | .goc w
  | .cpyc w | .renew w | .reclass w _ => span 1 w.a
  | .gadd w r | .gsub w r | .gmul w r | .gand w r | .gor w r | .gxor w r | .gshl w r | .gshr w r
  | .gsar w r | .gmin w r | .gmax w r => span 1 w.a ++ regsB r
  | .gmad w r => span 1 w.a ++ span 1 r.b ++ span 1 r.c
  | .gsel w r => span 1 w.a ++ span 1 r.b
  | .gadd64 w r => span 2 w.a ++ (if r.imm then [] else span 2 r.b)
  | .gcmp w r => span2 (tyWide r) w.a ++ (if r.imm then [] else span2 (tyWide r) r.b)
  | .glea w r => span 2 w.a ++ span 1 r.b
  | .gld w m | .ldw w m | .stw w m => span 2 w.a ++ (if m.nob then [] else span 1 m.b)
  | .gst w m => span 2 w.a ++ (if m.nob then [] else span 1 m.b)
      ++ span (match gDataField m.ty.toNat with | .g2 => 2 | .g4 => 4 | _ => 1) w.d
  | .rdlane _ r => if r.opx.getLsbD 0 then [] else span 1 r.b
  | .wrlane w r => span2 (r.ty = 4) w.a
  | .fmld w r => if r.opx.toNat = 0 then span 2 w.a else if r.opx.toNat = 1 then span 1 r.b else []
  | .ld w m | .st w m | .pref w m => greadsBase w (m.opx.getLsbD 0)
  | .wbr w r | .invr w r | .append w r | .tlbinv w r | .ecci w r => span 2 w.a ++ span 1 r.b
  | .binit w r | .barv w r | .bexp w r | .chkt w r | .bwait w r | .btest w r => span 1 w.d ++ span 1 r.b
  | .alloc w r => span 1 w.a ++ span 1 r.b
  | .cpy w | .cpy2d w | .cpym w | .cpyg w => span 8 w.a
  | .mma _ r | .mmas _ r | .mldc _ r => span 1 r.b
  | .mdrain w r => span 4 w.a ++ (if r.m16.getLsbD 9 then span 2 r.b else [])
  | _ => []

/-- The lanes whose registers an instruction reads, for errors armed at them. -/
def State.readMask (s : State) (u : Uses) : Word :=
  if u.rd.isEmpty then 0
  else if s.activeW u.w = 0 then 0 else if u.all then BitVec.allOnes 32 else s.activeW u.w

end Sys2Proof.Machine
end

