-- ==== Sys2Proof/Machine/Wakes.lean ====
section
/-!
DEFINITION. What makes a stopped slot or group go on without an instruction: the end of a sleep, and
a trap still to be taken (04_control R87; 15_system R344).
-/

namespace Sys2Proof.Machine

/-- A slot that wakes goes on after its SLEEP; one that a handler has moved, where it stands. -/
def PcSlot.woken (x : PcSlot) : PcSlot := { x with slp := false, pc := x.wpc, ins := x.wins }

/-- The die's time base has advanced by a sleeping slot's count (R87). -/
def PcSlot.slept (x : PcSlot) (now : Nat) : Bool :=
  x.v && x.slp && (now + 2 ^ 64 - x.wake % 2 ^ 64) % 2 ^ 64 < 2 ^ 63

/-- A slot of a group whose sleep is over goes on. -/
def State.wakeSlot (s : State) (gk : Nat) (b : Bool) : State :=
  let g := s.group gk
  if (g.slot b).slept (s.dieTime g.die) then s.setGroup gk (g.setSlot b (g.slot b).woken) else s

/-- A group's slots whose sleep is over go on: a slot is ready at the first cycle in which its count has
passed (R87). -/
def State.wakeSlots (s : State) (gk : Nat) : State := (s.wakeSlot gk false).wakeSlot gk true

/-- SLEEP WAKE (R87). -/
def execSleepWake (grp : Nat) (slotB : Bool) (s : State) : Out :=
  .next (if (s.group grp).live then s.wakeSlot grp slotB else s)

/-- TRAP ENTRY (R344): a trap whose frame could not be written is taken after RESUME. -/
def execTrapEntry (grp : Nat) (s : State) : Out :=
  let g := s.group grp
  .next (if g.live && !g.away && g.park.isNone && g.trapPend.isSome then
      (s.wakeSlots grp).takeTrap grp
    else s)

end Sys2Proof.Machine
end

