-- ==== Sys2Proof/Machine/Issue.lean ====
section
/-!
DEFINITION. The issue stage: how a slot's next instruction is found in its clause, which checks it
meets before any effect, and when it may issue (02_encoding R24 to R30, R36, R39, R40; 04_control
R65).
-/

namespace Sys2Proof.Machine

/-! The clause header (R24). -/

def hdrCnt (h : Word) : Nat := bitsOf h.toNat 0 4
def hdrEng (h : Word) : Nat := bitsOf h.toNat 4 3
def hdrWait (h : Word) : Nat := bitsOf h.toNat 7 12
def hdrVA (h : Word) : Bool := h.getLsbD 23
def hdrVB (h : Word) : Bool := h.getLsbD 28
def hdrFLA (h : Word) : Nat := bitsOf h.toNat 19 4
def hdrFLB (h : Word) : Nat := bitsOf h.toNat 24 4
def hdrYLD (h : Word) : Bool := h.getLsbD 29

/-- A header that raises ILL (R39). -/
def hdrBad (h : Word) : Bool :=
  hdrCnt h = 0 || hdrEng h = 7 || bitsOf h.toNat 30 2 ≠ 0 || (hdrVA h && 12 ≤ hdrFLA h)
    || (hdrVB h && 12 ≤ hdrFLB h)

/-- The control transfers (R25). -/
def isTransfer (op : Nat) : Bool :=
  [0x01, 0x02, 0x03, 0x04, 0x05, 0x06, 0x07, 0x08, 0x0F, 0x10, 0x11, 0x12, 0x1C].contains op

def inRange (lo hi op : Nat) : Bool := lo ≤ op && op ≤ hi

/-- The opcodes an engine class admits, besides NOP and a last control transfer (R25). -/
def engAdmits (eng op : Nat) : Bool :=
  match eng with
  | 0 => inRange 0x40 0x5E op || inRange 0x60 0x79 op || inRange 0x80 0x8A op
      || inRange 0x90 0x95 op || inRange 0x20 0x37 op
  | 1 => inRange 0x20 0x37 op || inRange 0xE0 0xE4 op
  | 2 => inRange 0xA0 0xB0 op || inRange 0xC0 0xCB op || inRange 0x20 0x37 op
  | 3 => inRange 0xD8 0xDF op
  | 4 => inRange 0xD0 0xD5 op
  | 5 => inRange 0x09 0x0E op
  | 6 => inRange 0xF0 0xFA op
  | _ => false

/-- The opcode may stand where it stands in its clause (R25). -/
def placed (eng op : Nat) (last : Bool) : Bool :=
  op = 0 || (if isTransfer op then last else engAdmits eng op)

/-- The flag slot F selects, if the header makes it valid (R28). -/
def flagSel (h : Word) (f : Bool) : Option Nat :=
  if f then (if hdrVB h then some (hdrFLB h) else none) else (if hdrVA h then some (hdrFLA h) else none)

/-! Finding the next instruction (R24, R26). -/

/-- Where a slot's next instruction stands: a word whose fetch faults, an illegal header, the clause
after a finished one, or its header, word index and words. -/
inductive Located where
  | fault (word : BitVec 24) (cause : Nat)
  | badHeader
  | past (next : BitVec 24)
  | here (h : Word) (word : BitVec 24) (w0 w1 : Word)
deriving DecidableEq, Repr

/-- The words of an instruction, by its W bit (R31). -/
def wordsOf (w0 : Word) : BitVec 24 := if w0.getLsbD 23 then 2 else 1

/-- The word after `n` instructions, or the word whose fetch faults and its cause. Word indices have 24
bits: code that runs on past the last word of the window goes on at word 0, which is the model's choice
(log entry 46), the manual stating only the fate of transfers that leave the window. -/
def seek (get : BitVec 24 → Except Nat Word) :
    Nat → BitVec 24 → Except (BitVec 24 × Nat) (BitVec 24)
  | 0, w => .ok w
  | n + 1, w =>
    match get w with
    | .error c => .error (w, c)
    | .ok x => seek get n (w + wordsOf x)

/-- The instruction after the first `ins` of the clause at `pc`. Where word 0 can be fetched and word 1
cannot, the fault reports word 0, and it comes before what is illegal in word 0 alone: the model's choice
(log entry 46), the manual giving a fetch fault no address and the two no order. -/
def locate (get : BitVec 24 → Except Nat Word) (pc : BitVec 24) (ins : Nat) : Located :=
  match get pc with
  | .error c => .fault pc c
  | .ok h =>
    if hdrBad h then .badHeader
    else match seek get (min ins (hdrCnt h)) (pc + 1) with
      | .error (w, c) => .fault w c
      | .ok w =>
        if hdrCnt h ≤ ins then .past w
        else match get w with
          | .error c => .fault w c
          | .ok w0 =>
            if w0.getLsbD 23 then
              match get (w + 1) with
              | .error c => .fault w c
              | .ok w1 => .here h w w0 w1
            else .here h w w0 0

/-- A byte of a line of code as a group's core fetches it: where it has changed since the launch, its
contents at launch or now, a free choice of the line and the core (R43). -/
def State.codeByte (s : State) (g : Group) (home pk : Nat) : Byte :=
  let now := (s.homeByte home pk).val
  match (s.launch g.launch).codeAt with
  | none => now
  | some m =>
    if Config.freeBool s.freeCtr (2 ^ 90 + (pk / 128 * 8 + g.die) * 256 + g.core) then
      m.getD pk (memBlank pk)
    else now

/-- A code word as a group fetches it, or the cause of the fault (R26, R43). The arena, which only the
Thresher writes, gives its present words (16_loading R368, R371). -/
def State.codeWord (s : State) (gk : Nat) (w : BitVec 24) : Except Nat Word :=
  let g := s.group gk
  match (s.translate g.ctx g.die (vaOf (BitVec.ofNat 64 (s.codeAddr g.ctx w w.toNat))) .x (some g.core)).2 with
  | .error c => .error c
  | .ok x => .ok (BitVec.ofNat 32 (natLE ((List.range 4).map (fun i =>
      if arenaLo ≤ w.toNat && w.toNat < arenaHi then (s.homeByte x.attr.home (x.pk + i)).val
      else s.codeByte g x.attr.home (x.pk + i)))))

/-- The issuing slot's next instruction; a slot past its clause's end enters the next clause. -/
def State.place (s : State) : State × Located :=
  let x := s.slot
  match locate (s.codeWord s.cur) x.pc x.ins with
  | .past n => (s.setSlot { x with pc := n, ins := 0 }, locate (s.codeWord s.cur) n 0)
  | l => (s, l)

/-! What holds an instruction back, and what makes it illegal. -/

/-- A slot's instruction may be looked at (04_control R65): it has a path, neither waits nor sleeps,
and neither its group, its team, its core, its context nor the package is stopped. -/
def State.mayIssue (s : State) (gk : Nat) (b : Bool) : Bool :=
  let g := s.group gk
  let x := g.slot b
  let c := s.coreAt (coreKey g.die g.core)
  g.live && !g.away && g.park.isNone && g.trapPend.isNone && x.v && !x.arr && !x.slp
    && !c.halted && !c.frozen && !c.waits gk b && (!(s.team g.team).leaving || g.yokeHeld = some b)
    && s.therm.runs && !(s.cr g.ctx 0).getLsbD 5

/-- A flag named in WAIT is not zero (R28). -/
def Group.waitsOn (g : Group) (h : Word) : Bool :=
  (List.range 12).any (fun n => (hdrWait h).testBit n && g.flag n ≠ 0)

/-- A register or predicate that the instruction writes is the destination of an outstanding one
(R30). -/
def Group.interlocked (g : Group) (u : Uses) : Bool :=
  g.pend.any (fun o =>
    o.v.any (fun p => u.wd.contains (p.key / 32)) || o.dst.any (fun k => u.wd.contains (k / 32))
      || o.g.any (fun p => u.gw.contains p.key)
      || (match o.gp with | some (n, _) => u.gpw.contains n | none => false))

/-- A register or predicate that the instruction reads is the destination of an outstanding one. -/
def Group.readsPending (g : Group) (u : Uses) (gr : List Nat) : Bool :=
  g.pend.any (fun o =>
    o.v.any (fun p => u.rd.contains (p.key / 32)) || o.dst.any (fun k => u.rd.contains (k / 32))
      || o.g.any (fun p => gr.contains p.key) || o.gp.isSome)

/-- In translated code an instruction that reads what an outstanding one will write waits for it, as the
wait masks of its translation have it: level-1 code receives no old-or-new values (16_loading R367). -/
def State.levelWaits (s : State) (i : Instr) (u : Uses) : Bool :=
  (s.transAt s.grp.ctx s.slot.pc).isSome && s.grp.readsPending u (readsG i)

/-- The flag a counted instruction would raise stands at 63 (R28). -/
def Group.flagFull (g : Group) (h : Word) (u : Uses) : Bool :=
  match u.track with
  | none => false
  | some (_, f) => match flagSel h f with | none => false | some n => 63 ≤ g.flag n

/-- An instruction that decodes and yet is illegal where it stands (R25, R29, R34, R39). -/
def State.illegal (s : State) (h w0 : Word) (u : Uses) : Bool :=
  !placed (hdrEng h) (opcode w0) s.lat.last
    || (match u.track with | some (true, f) => (flagSel h f).isNone | _ => false)
    || (u.rd ++ u.nm ++ u.wd).any (fun n => s.grp.nreg ≤ n)

/-! The issue of an instruction. -/

/-- The walkers' updates of fetching a clause up to a word (09_memory R173). -/
def State.touchCode (s : State) (n : Nat) : State :=
  let g := s.grp
  let va := vaOf (BitVec.ofNat 64 (s.codeAddr g.ctx s.slot.pc))
  (s.translateAll g.ctx g.die .x (some g.core) (pageStarts va (4 * n))).1

/-- The instruction at a word issues: its place, its clock, and its count (10_allocation R204,
R205). -/
def State.latch (s : State) (h : Word) (w : BitVec 24) (w0 : Word) : State :=
  let x := s.slot
  let l : Latch := { clause := x.pc, next := w + wordsOf w0, word := w, ins := x.ins
                     last := x.ins + 1 = hdrCnt h, lc := s.clockOf s.grp, fla := flagSel h false
                     flb := flagSel h true, yld := hdrYLD h, gd := (W0.ofWord w0).g, gn := (W0.ofWord w0).n }
  let own := (s.transEntry s.grp.ctx x.pc).map (·.1)
  let s := ({ s with lat := l, held := false }).modGrp (fun g =>
    { g with issued := g.issued + 1, lastB := s.curB
             epochs := match own with | none => g.epochs | some k => dedup (k :: g.epochs) })
  let s := s.countGroup s.cur 1
  if l.last && l.yld then s.yieldPort else s

/-- A fetch fault parks the group; its instruction has not issued (R26; 09_memory R176, R177). -/
def State.fetchFault (s : State) (w : BitVec 24) (cause : Nat) : State :=
  let n := s.grp.issued
  let again := s.slot.again
  let l : Latch := { s.lat with word := w, clause := s.slot.pc, ins := s.slot.ins }
  let s := { s with lat := l }
  (s.parkFault cause s.slot.act (BitVec.ofNat 64 (s.codeAddr s.grp.ctx w))).modGrp (fun g =>
    { g.setSlot s.curB { g.slot s.curB with again := again } with issued := n })

/-- The scratchpad bytes that the lanes of an access read, but for those that a range lock refuses. -/
def State.laneReads (s : State) (w : W0) (m ma : MemF) (size : Nat) (wr : Bool) (a : Alloc) : List Nat :=
  let ok := (s.readSources (s.activeW w) (fun _ => spadRegs m)).2.2
  ((lanesOf ok).map (fun L => (a.laneAt ma.e size wr L (s.spadOff ma a L)).offs)).flatMap (fun o =>
    if s.spadLocked s.cur w.a.toNat wr o then [] else o)

/-- The errors of cells that an instruction's reads of scratchpad meet (10_allocation R222): an LDS's, an
ATOMS's, and those of the barrier instructions, MFENCE and CHKT. -/
def State.meetScratch (s : State) (i : Instr) : State :=
  let meet (h : BitVec 8) (offs : Alloc → List Nat) : State :=
    let a := (s.team s.grp.team).alloc h.toNat
    if a.arm.isEmpty then s else s.meetSpad s.grp.team h.toNat (s.issueClock a) (offs a)
  let obj (w : W0) (r : RRaw) (unit_ n : Nat) : State :=
    if !s.guardW w then s
    else meet w.a (fun a => (List.range n).map (fun j => a.objAt unit_ r.c.toNat + j))
  match i with
  | .lds w m => meet w.a (s.laneReads w m m (tySize m.ty.toNat) false)
  | .atoms w m =>
    let ty := m.ty.toNat
    meet w.a (s.laneReads w m { m with ty := if atWide ty then 4 else 3 } (atSize ty) true)
  | .bwait w r | .btest w r | .bexp w r | .mfence w r => obj w r 16 16
  | .chkt w r => obj w r 4 4
  | _ => s

/-- What becomes of the issuing slot's next instruction: it may not issue, it ends in a trap or park
of its own, or it is performed. -/
inductive Issue where
  | wait
  | stop (s : State)
  | run (i : Instr) (s : State)
deriving DecidableEq, Repr

/-- The issuing slot's next instruction comes to issue (R24 to R30, R36, R39, R40; 04_control R65). -/
def State.issue (s : State) : Issue :=
  let s := s.wakeSlots s.cur
  if !s.mayIssue s.cur s.curB then .wait
  else match s.place with
    | (s, .fault w c) => .stop (s.fetchFault w c)
    | (s, .badHeader) =>
      let l : Latch := { s.lat with word := s.slot.pc, clause := s.slot.pc, ins := s.slot.ins }
      .stop (({ s with lat := l }).raiseSlot cILL)
    | (s, .past _) => .stop s
    | (s, .here h w w0 w1) =>
      if s.slot.ins = 0 && s.grp.waitsOn h then .wait
      else
        let s := (s.touchCode (w - s.slot.pc + wordsOf w0).toNat).latch h w w0
        match decode w0 w1 with
        | .error _ => .stop (s.raiseSlot cILL)
        | .ok i =>
          let u := s.uses i
          if s.illegal h w0 u then .stop (s.raiseSlot cILL)
          else if s.grp.interlocked u || s.grp.flagFull h u || s.levelWaits i u then .wait
          else .run i ((s.meetRegs s.cur s.lat.lc (s.readMask u) u.rd).meetScratch i)

/-- What an instruction that waits leaves: the MEMST bits that a BWAIT's reads set (12_atomics_barriers
R270), and the slot that a MYOKE holds. -/
def Group.waitsWith (g t : Group) : Group := { g with memst := t.memst, yokeHeld := t.yokeHeld }

/-- The end of an issue: an instruction that may not issue after all changes nothing else, and one that a
fault-buffer entry was reserved for and did not need it frees it (09_memory R177). -/
def State.issued (before : State) : Out → Out
  | .next t =>
    if t.held then
      .next { before.modGroup before.cur (fun g => g.waitsWith (t.group before.cur)) with picked := false }
    else .next { t.releaseReserved before.cur before.curB with picked := false }
  | o => o

end Sys2Proof.Machine
end

