-- ==== Sys2Proof/Machine/Perform.lean ====
section
/-!
DEFINITION. The meanings of the coded instructions, for what runs or tries one inside another
transition: a Miller running a user operation, a port looking for a ready pair (04_control R65;
12_atomics_barriers R266). An event row is no coded instruction.
-/

namespace Sys2Proof.Machine

/-- A coded instruction performed at the issuing slot. -/
def perform (i : Instr) (s : State) : Out :=
  match i with
  | .nop w => Sys2Proof.Machine.execNop w s
  | .bra b => Sys2Proof.Machine.execBra b s
  | .brd b j => Sys2Proof.Machine.execBrd b j s
  | .join b => Sys2Proof.Machine.execJoin b s
  | .brx w => Sys2Proof.Machine.execBrx w s
  | .call b => Sys2Proof.Machine.execCall b s
  | .callg w => Sys2Proof.Machine.execCallg w s
  | .ret w => Sys2Proof.Machine.execRet w s
  | .exit w => Sys2Proof.Machine.execExit w s
  | .refill w => Sys2Proof.Machine.execRefill w s
  | .yield w => Sys2Proof.Machine.execYield w s
  | .sleep w imm => Sys2Proof.Machine.execSleep w imm s
  | .dstat w => Sys2Proof.Machine.execDstat w s
  | .maskr w => Sys2Proof.Machine.execMaskr w s
  | .maskw w => Sys2Proof.Machine.execMaskw w s
  | .trap w => Sys2Proof.Machine.execTrap w s
  | .tret w => Sys2Proof.Machine.execTret w s
  | .brk w => Sys2Proof.Machine.execBrk w s
  | .callx w imm => Sys2Proof.Machine.execCallx w imm s
  | .tramp w imm => Sys2Proof.Machine.execTramp w imm s
  | .gmov w => Sys2Proof.Machine.execGmov w s
  | .gmovi w imm => Sys2Proof.Machine.execGmovi w imm s
  | .gadd w r => Sys2Proof.Machine.execGadd w r s
  | .gsub w r => Sys2Proof.Machine.execGsub w r s
  | .gmul w r => Sys2Proof.Machine.execGmul w r s
  | .gmad w r => Sys2Proof.Machine.execGmad w r s
  | .gand w r => Sys2Proof.Machine.execGand w r s
  | .gor w r => Sys2Proof.Machine.execGor w r s
  | .gxor w r => Sys2Proof.Machine.execGxor w r s
  | .gshl w r => Sys2Proof.Machine.execGshl w r s
  | .gshr w r => Sys2Proof.Machine.execGshr w r s
  | .gsar w r => Sys2Proof.Machine.execGsar w r s
  | .gadd64 w r => Sys2Proof.Machine.execGadd64 w r s
  | .gcmp w r => Sys2Proof.Machine.execGcmp w r s
  | .gsel w r => Sys2Proof.Machine.execGsel w r s
  | .gmin w r => Sys2Proof.Machine.execGmin w r s
  | .gmax w r => Sys2Proof.Machine.execGmax w r s
  | .gpopc w => Sys2Proof.Machine.execGpopc w s
  | .gffs w => Sys2Proof.Machine.execGffs w s
  | .glea w r => Sys2Proof.Machine.execGlea w r s
  | .gld w m => Sys2Proof.Machine.execGld w m s
  | .gst w m => Sys2Proof.Machine.execGst w m s
  | .gsread w => Sys2Proof.Machine.execGsread w s
  | .gplop w r => Sys2Proof.Machine.execGplop w r s
  | .mov w => Sys2Proof.Machine.execMov w s
  | .movi w imm => Sys2Proof.Machine.execMovi w imm s
  | .iadd w r => Sys2Proof.Machine.execIadd w r s
  | .isub w r => Sys2Proof.Machine.execIsub w r s
  | .imul w r => Sys2Proof.Machine.execImul w r s
  | .imulh w r => Sys2Proof.Machine.execImulh w r s
  | .imad w r => Sys2Proof.Machine.execImad w r s
  | .imadw w r => Sys2Proof.Machine.execImadw w r s
  | .iadd64 w r => Sys2Proof.Machine.execIadd64 w r s
  | .isub64 w r => Sys2Proof.Machine.execIsub64 w r s
  | .iand w r => Sys2Proof.Machine.execIand w r s
  | .ior w r => Sys2Proof.Machine.execIor w r s
  | .ixor w r => Sys2Proof.Machine.execIxor w r s
  | .inot w => Sys2Proof.Machine.execInot w s
  | .ishl w r => Sys2Proof.Machine.execIshl w r s
  | .ishr w r => Sys2Proof.Machine.execIshr w r s
  | .isar w r => Sys2Proof.Machine.execIsar w r s
  | .bfe w r => Sys2Proof.Machine.execBfe w r s
  | .bfi w r => Sys2Proof.Machine.execBfi w r s
  | .popc w => Sys2Proof.Machine.execPopc w s
  | .clz w => Sys2Proof.Machine.execClz w s
  | .brev w => Sys2Proof.Machine.execBrev w s
  | .imin w r => Sys2Proof.Machine.execImin w r s
  | .imax w r => Sys2Proof.Machine.execImax w r s
  | .iabs w => Sys2Proof.Machine.execIabs w s
  | .icmp w r => Sys2Proof.Machine.execIcmp w r s
  | .sel w r => Sys2Proof.Machine.execSel w r s
  | .lea w r => Sys2Proof.Machine.execLea w r s
  | .icvt w r => Sys2Proof.Machine.execIcvt w r s
  | .iadds w r => Sys2Proof.Machine.execIadds w r s
  | .idot4 w r => Sys2Proof.Machine.execIdot4 w r s
  | .fadd w r => Sys2Proof.Machine.execFadd w r s
  | .fsub w r => Sys2Proof.Machine.execFsub w r s
  | .fmul w r => Sys2Proof.Machine.execFmul w r s
  | .ffma w r => Sys2Proof.Machine.execFfma w r s
  | .fmin w r => Sys2Proof.Machine.execFmin w r s
  | .fmax w r => Sys2Proof.Machine.execFmax w r s
  | .fcmp w r => Sys2Proof.Machine.execFcmp w r s
  | .fclass w r => Sys2Proof.Machine.execFclass w r s
  | .frnd w r => Sys2Proof.Machine.execFrnd w r s
  | .frcp w r => Sys2Proof.Machine.execFrcp w r s
  | .frsq w r => Sys2Proof.Machine.execFrsq w r s
  | .fsqrt w r => Sys2Proof.Machine.execFsqrt w r s
  | .fexp2 w r => Sys2Proof.Machine.execFexp2 w r s
  | .flog2 w r => Sys2Proof.Machine.execFlog2 w r s
  | .fsin w r => Sys2Proof.Machine.execFsin w r s
  | .fcos w r => Sys2Proof.Machine.execFcos w r s
  | .ftanh w r => Sys2Proof.Machine.execFtanh w r s
  | .fscale w r => Sys2Proof.Machine.execFscale w r s
  | .dadd w r => Sys2Proof.Machine.execDadd w r s
  | .dmul w r => Sys2Proof.Machine.execDmul w r s
  | .dfma w r => Sys2Proof.Machine.execDfma w r s
  | .dcmp w r => Sys2Proof.Machine.execDcmp w r s
  | .hadd2 w r => Sys2Proof.Machine.execHadd2 w r s
  | .hmul2 w r => Sys2Proof.Machine.execHmul2 w r s
  | .hfma2 w r => Sys2Proof.Machine.execHfma2 w r s
  | .fdot2 w r => Sys2Proof.Machine.execFdot2 w r s
  | .plop w r => Sys2Proof.Machine.execPlop w r s
  | .pmov w r => Sys2Proof.Machine.execPmov w r s
  | .vote w r => Sys2Proof.Machine.execVote w r s
  | .ballot w r => Sys2Proof.Machine.execBallot w r s
  | .shfl w r => Sys2Proof.Machine.execShfl w r s
  | .rdlane w r => Sys2Proof.Machine.execRdlane w r s
  | .wrlane w r => Sys2Proof.Machine.execWrlane w r s
  | .matchv w r => Sys2Proof.Machine.execMatchv w r s
  | .prank w r => Sys2Proof.Machine.execPrank w r s
  | .lred w r => Sys2Proof.Machine.execLred w r s
  | .lsread w => Sys2Proof.Machine.execLsread w s
  | .fcvt w r => Sys2Proof.Machine.execFcvt w r s
  | .fpack w r => Sys2Proof.Machine.execFpack w r s
  | .funpack w r => Sys2Proof.Machine.execFunpack w r s
  | .fmld w r => Sys2Proof.Machine.execFmld w r s
  | .fmst w r => Sys2Proof.Machine.execFmst w r s
  | .fscl w r => Sys2Proof.Machine.execFscl w r s
  | .ld w m => Sys2Proof.Machine.execLd w m s
  | .st w m => Sys2Proof.Machine.execSt w m s
  | .ldw w m => Sys2Proof.Machine.execLdw w m s
  | .stw w m => Sys2Proof.Machine.execStw w m s
  | .ldg w m => Sys2Proof.Machine.execLdg w m s
  | .stg w m => Sys2Proof.Machine.execStg w m s
  | .lds w m => Sys2Proof.Machine.execLds w m s
  | .sts w m => Sys2Proof.Machine.execSts w m s
  | .pref w m => Sys2Proof.Machine.execPref w m s
  | .commit w r => Sys2Proof.Machine.execCommit w r s
  | .commitChk w r => Sys2Proof.Machine.execCommitChk w r s
  | .abort w r => Sys2Proof.Machine.execAbort w r s
  | .fence w r => Sys2Proof.Machine.execFence w r s
  | .wbr w r => Sys2Proof.Machine.execWbr w r s
  | .invr w r => Sys2Proof.Machine.execInvr w r s
  | .append w r => Sys2Proof.Machine.execAppend w r s
  | .apsync w r => Sys2Proof.Machine.execApsync w r s
  | .cstat w => Sys2Proof.Machine.execCstat w s
  | .atom w m => Sys2Proof.Machine.execAtom w m s
  | .cas w m => Sys2Proof.Machine.execCas w m s
  | .red w m => Sys2Proof.Machine.execRed w m s
  | .atoms w m => Sys2Proof.Machine.execAtoms w m s
  | .uatom w m => Sys2Proof.Machine.execUatom w m s
  | .binit w r => Sys2Proof.Machine.execBinit w r s
  | .barv w r => Sys2Proof.Machine.execBarv w r s
  | .bwait w r => Sys2Proof.Machine.execBwait w r s
  | .btest w r => Sys2Proof.Machine.execBtest w r s
  | .bexp w r => Sys2Proof.Machine.execBexp w r s
  | .chkt w r => Sys2Proof.Machine.execChkt w r s
  | .time w => Sys2Proof.Machine.execTime w s
  | .cpy w => Sys2Proof.Machine.execCpy w s
  | .cpy2d w => Sys2Proof.Machine.execCpy2d w s
  | .cpym w => Sys2Proof.Machine.execCpym w s
  | .cpyg w => Sys2Proof.Machine.execCpyg w s
  | .cpyq w => Sys2Proof.Machine.execCpyq w s
  | .cpyc w => Sys2Proof.Machine.execCpyc w s
  | .mma w r => Sys2Proof.Machine.execMma w r s
  | .mmas w r => Sys2Proof.Machine.execMmas w r s
  | .mzero w => Sys2Proof.Machine.execMzero w s
  | .mldc w r => Sys2Proof.Machine.execMldc w r s
  | .mdrain w r => Sys2Proof.Machine.execMdrain w r s
  | .mfence w r => Sys2Proof.Machine.execMfence w r s
  | .myokeReport w => Sys2Proof.Machine.execMyokeReport w s
  | .myokeUnbind w => Sys2Proof.Machine.execMyokeUnbind w s
  | .myokeBind w => Sys2Proof.Machine.execMyokeBind w s
  | .mstat w => Sys2Proof.Machine.execMstat w s
  | .alloc w r => Sys2Proof.Machine.execAlloc w r s
  | .free w => Sys2Proof.Machine.execFree w s
  | .renew w => Sys2Proof.Machine.execRenew w s
  | .aqry w => Sys2Proof.Machine.execAqry w s
  | .reclass w r => Sys2Proof.Machine.execReclass w r s
  | .srd w imm => Sys2Proof.Machine.execSrd w imm s
  | .swr w imm => Sys2Proof.Machine.execSwr w imm s
  | .launch w => Sys2Proof.Machine.execLaunch w s
  | .ipush w => Sys2Proof.Machine.execIpush w s
  | .ipushClose w => Sys2Proof.Machine.execIpushClose w s
  | .resume w => Sys2Proof.Machine.execResume w s
  | .killg w => Sys2Proof.Machine.execKillg w s
  | .tlbinv w r => Sys2Proof.Machine.execTlbinv w r s
  | .evcnt w => Sys2Proof.Machine.execEvcnt w s
  | .haltc w r => Sys2Proof.Machine.execHaltc w r s
  | .goc w => Sys2Proof.Machine.execGoc w s
  | .ecci w r => Sys2Proof.Machine.execEcci w r s
  | _ => .next s

end Sys2Proof.Machine
end

