-- ==== Sys2Proof/Machine/Pick.lean ====
section
/-!
DEFINITION. How an issue port picks (04_control R65, R66; 01_machine R11).
-/

namespace Sys2Proof.Machine

/-- What a pair would issue: nothing when it is not ready (R65). An instruction whose meaning finds
that it must wait is not ready either. -/
def State.pairReady (s : State) (gk : Nat) (b : Bool) : Bool :=
  match ({ s with cur := gk, curB := b } : State).issue with
  | .wait => false
  | .stop _ => true
  | .run i t => match perform i t with | .next u => !u.held | _ => true

/-- A ready group of a port: its key, its wait count, its slot number, and its ready slots. -/
structure Ready where
  gk : Nat := 0
  wait : Nat := 0
  gslot : Nat := 0
  a : Bool := false
  b : Bool := false
deriving DecidableEq, Repr

/-- The ready groups of a port. -/
def State.readyOn (s : State) (die core port : Nat) : List Ready :=
  s.groups.filterMap (fun e =>
    let g := e.2
    if g.live && !g.away && g.die = die && g.core = core && g.port = port then
      let a := s.pairReady e.1 false
      let b := s.pairReady e.1 true
      if a || b then some { gk := e.1, wait := g.waitCnt, gslot := g.gslot, a, b } else none
    else none)

/-- The older of two ready groups; the lower slot of two as old (R66). -/
def Ready.older (x y : Ready) : Ready :=
  if y.wait < x.wait || (x.wait = y.wait && x.gslot ≤ y.gslot) then x else y

/-- The port goes on with the group of its previous pick (R66). -/
def Port.continues (p : Port) (rs : List Ready) : Option Ready :=
  if p.run < 16 && !p.yld && rs.all (fun r => r.wait < 192) then
    rs.find? (fun r => p.last = some r.gk)
  else none

/-- The group a port chooses (R66). -/
def Port.choose (p : Port) : List Ready → Option Ready
  | [] => none
  | r :: t =>
    match p.continues (r :: t) with
    | some c => some c
    | none => some (t.foldl Ready.older r)

/-- Within the chosen group, the slot: of two ready ones, that which did not issue last (R66). -/
def State.chooseSlot (s : State) (r : Ready) : Bool :=
  if r.a && r.b then !(s.group r.gk).lastB else r.b

/-- The resource of a core's ports that an instruction needs: memory issue, the engine's queue, the matrix
array (01_machine R11). -/
def sharedOp (op : Nat) : Option Nat :=
  if [0x34, 0x35].contains op || inRange 0xA0 0xCB op then some 0
  else if inRange 0xD0 0xD5 op then some 1
  else if inRange 0xD8 0xDF op then some 2
  else none

/-- What a pair would issue: the shared resource it needs, and whether the port prefers other pairs after
it. -/
def State.pickTraits (s : State) (gk : Nat) (b : Bool) : Option Nat × Bool :=
  match ({ s with cur := gk, curB := b } : State).issue with
  | .run i t =>
    let op := opcode (encode i).headI
    (sharedOp op, op = 0x0A || (t.lat.last && t.lat.yld))
  | _ => (none, false)

/-- What a port would choose at a pick: the group, as the ready one it is, and its slot. -/
def State.portChoice (s : State) (die core port : Nat) : Option (Ready × Bool) :=
  (((s.coreAt (coreKey die core)).ports.getD port {}).choose (s.readyOn die core port)).map
    (fun r => (r, s.chooseSlot r))

/-- A port that chooses an instruction of a shared resource in the same cycle as other ports loses to the
first of them in round-robin order after the port that won it last (R11). -/
def State.loses (s : State) (die core port res : Nat) : Bool :=
  let last := (s.coreAt (coreKey die core)).won.getD res 0
  let rank (p : Nat) : Nat := (p + 4 - last % 4) % 4
  (List.range 4).any (fun p => p ≠ port && rank p < rank port
    && (match s.portChoice die core p with
      | none => false
      | some (r, b) => (s.pickTraits r.gk b).1 = some res))

/-- The wait counts after a pick (R66). -/
def State.countWaits (s : State) (chosen : Nat) (rs : List Ready) : State :=
  rs.foldl (fun s r => s.modGroup r.gk (fun g =>
    { g with waitCnt := if r.gk = chosen then 0 else g.waitCnt + 1 })) s

/-- PICK (R66). A port that issues an instruction of a shared resource counts as the one that won it last,
also where no other contends: the model's choice, R11 speaking of winning where ports contend (log
entry 69). `lose` says that the ports choose in the same cycle: the port loses the arbitration when
another one contends for its resource and precedes it; then nothing issues, and the cycle still counts as
a pick (01_machine R11). -/
def execPick (die core port : Nat) (lose : Bool) (s : State) : Out :=
  let ck := coreKey die core
  let p := (s.coreAt ck).ports.getD port {}
  let rs := s.readyOn die core port
  .next (match s.portChoice die core port with
    | none => s
    | some (r, b) =>
      let (res, yields) := s.pickTraits r.gk b
      let lost := lose && (match res with | none => false | some k => s.loses die core port k)
      let p' : Port := { last := some r.gk, run := if p.last = some r.gk then p.run + 1 else 1
                         yld := lost && yields }
      let s := (s.countWaits r.gk rs).modCore ck (fun c => { c with ports := c.ports.set port p' {} })
      if lost then s.countGroup r.gk 2
      else
        let s := match res with
          | none => s
          | some k => s.modCore ck (fun c => { c with won := c.won.set k (port + 1) 0 })
        { s with cur := r.gk, curB := b, picked := true })

end Sys2Proof.Machine
end

