-- ==== Sys2Proof/Machine/Thresher.lean ====
section
/-!
DEFINITION. The Thresher: which clauses are a translation of a level-1 stream, where in the arena they may
stand, and what installing them does (16_loading R365 to R371; 02_encoding R41, R42). The clauses come with
the event, each with the stream word it translates, and with them the kernel table of the object's file
(R360); an event whose clauses are no translation changes nothing.
-/

namespace Sys2Proof.Machine

/-! Clauses among the words of an event (02_encoding R24). -/

/-- A clause: its place, its header, its instructions with the place of each, and the place after it. -/
structure TClause where
  at_ : Nat
  hdr : Word
  ins : List (Nat × Word × Word)
  next : Nat
deriving DecidableEq, Repr

/-- The first `n` instructions of words that stand at a place, the place after them and the other words. -/
def takeInstrs : Nat → Nat → List Word → Option (List (Nat × Word × Word) × Nat × List Word)
  | 0, k, ws => some ([], k, ws)
  | _ + 1, _, [] => none
  | n + 1, k, x :: t =>
    if x.getLsbD 23 then
      match t with
      | [] => none
      | y :: t => (takeInstrs n (k + 2) t).map (fun r => ((k, x, y) :: r.1, r.2))
    else (takeInstrs n (k + 1) t).map (fun r => ((k, x, 0) :: r.1, r.2))

/-- The words at a place as clauses one after another; none when the last is cut short. -/
def clausesOf : Nat → Nat → List Word → Option (List TClause)
  | _, _, [] => some []
  | 0, _, _ :: _ => none
  | fuel + 1, k, h :: t =>
    match takeInstrs (hdrCnt h) (k + 1) t with
    | none => none
    | some (ins, next, rest) =>
      (clausesOf fuel next rest).map (fun cs => { at_ := k, hdr := h, ins, next } :: cs)

/-! Words of a stream (R41). -/

/-- The opcode of an instruction word. -/
def opOf (w : Word) : Nat := bitsOf w.toNat 24 8

/-- The opcodes of branch format (02_encoding R33). -/
def brOp (op : Nat) : Bool := [0x01, 0x02, 0x03, 0x05].contains op

/-- The level-2 opcodes: unassigned in a level-1 stream (02_encoding R38, R41). -/
def level2 (op : Nat) : Bool :=
  [0x0C, 0x1C, 0x70, 0xAE, 0xAF, 0xC4, 0xD2, 0xD5, 0xD9, 0xE4].contains op

/-- The decoder reads an instruction. -/
def decodes (w0 w1 : Word) : Bool :=
  match decode w0 w1 with
  | .ok _ => true
  | .error _ => false

/-- An instruction is one at level 1 as it is at level 2: FPACK's OPX[3] is reserved there (08_formats
R155). -/
def atLevel1 : Instr → Bool
  | .fpack _ r => !r.opx.getLsbD 3
  | _ => true

/-- A stream word begins a level-1 instruction: its flag bit is clear, and with its second word it decodes
(R41). -/
def isStreamInstr (w0 w1 : Word) : Bool :=
  !level2 (opOf w0) && !w0.getLsbD 17
    && (match decode w0 w1 with | .ok i => atLevel1 i | .error _ => false)

/-- The offset of a branch-format word, and of BRD's join. -/
def brOff (w0 : Word) : Int := (w0.extractLsb' 1 16).toInt
def brdJoin (w1 : Word) : Int := (w1.extractLsb' 0 16).toInt

/-- A BRD or JOIN of a stream that a translation cannot render: its target, or BRD's join, is more than
8,192 words away (R366). -/
def brTooFar (w0 w1 : Word) : Bool :=
  let far (o : Int) : Bool := 8192 < o.natAbs
  (opOf w0 = 0x03 && far (brOff w0)) || (opOf w0 = 0x02 && (far (brOff w0) || far (brdJoin w1)))

/-- After the instruction the path never goes on at the next one. After an EXIT it may: lanes that MASKW has
left out of ACT stay (04_control R78). -/
def noFall (w0 : Word) : Bool :=
  [0x03, 0x10].contains (opOf w0)
    || ([0x01, 0x04, 0x07].contains (opOf w0) && w0.extractLsb' 18 5 = 0x1E)

/-! What an instruction becomes (R366). -/

/-- A translation being judged: its object, the stream words it maps with their clauses, those of the epoch
it joins among them, and the stream words that must become a clause raising ILL whatever they hold. -/
structure TJob where
  ctx : Nat := 0
  dir : DirEnt := {}
  tr : SMap Nat := []
  ill : List Nat := []
deriving DecidableEq, Repr

/-- A stream word of the object. -/
def TJob.holds (j : TJob) (p : Nat) : Bool := j.dir.base ≤ 4 * p && 4 * p < j.dir.base + j.dir.len

/-- The clause of the stream word at an offset from another; 0 where none translates it. -/
def TJob.target (j : TJob) (p : Nat) (off : Int) : Nat := j.tr.getD ((p : Int) + off).toNat 0

/-- A branch of the stream goes to a word of the stream. One that goes to word 1 of a two-word instruction, though
every target must be a word 0 (R41), goes to what that word spells as an instruction of its own: the model's
choice (log entry 44). -/
def TJob.lands (j : TJob) (p : Nat) (off : Int) : Bool := 0 ≤ (p : Int) + off && j.holds ((p : Int) + off).toNat

/-- The stream words of an instruction at a stream word. -/
def State.streamWords (s : State) (j : TJob) (p : Nat) : Word × Word :=
  (s.windowWord j.ctx commons p, s.windowWord j.ctx commons (p + 1))

/-- A stream word becomes a clause that raises ILL: it is no instruction, it branches out of the stream or
too far, or its kernel is above the floor (R42, R365, R366). -/
def State.becomesIll (s : State) (j : TJob) (p : Nat) : Bool :=
  let w := s.streamWords j p
  j.ill.contains p || !isStreamInstr w.1 w.2 || brTooFar w.1 w.2
    || (brOp (opOf w.1) && !j.lands p (brOff w.1))
    || (opOf w.1 = 0x02 && !j.lands p (brdJoin w.2))

/-- A clause can be reached from a clause by a branch-format offset. -/
def inReach (c t : Nat) : Bool := let o := (t : Int) - c; -32768 ≤ o && o ≤ 32767

/-- A level-2 branch word in the clause at `c` goes to the clause `t`. -/
def goesTo (c t : Nat) (o : Int) : Bool := t ≠ 0 && (c : Int) + o = t

/-- The words share opcode, guard and sense. -/
def sameHead (w0 x0 : Word) : Bool := w0.extractLsb' 18 14 = x0.extractLsb' 18 14
/-- The words share guard and sense. -/
def sameGuard (w0 x0 : Word) : Bool := w0.extractLsb' 18 5 = x0.extractLsb' 18 5

/-- An 8-byte entry of a table of the context. -/
def State.tableNat (s : State) (ctx reg i : Nat) : Nat := s.peekNat ctx commons (s.cr64 ctx reg + 8 * i) 8

/-- A trampoline entry goes to a clause (R366, R374). -/
def State.trampHolds (s : State) (ctx i t : Nat) : Bool := s.tableNat ctx 9 i = s.codeBase ctx + 4 * t

/-- A trampoline entry can take a branch to a clause: it goes there, or it is one of the Thresher's that no
translation uses (R366). -/
def State.trampTo (s : State) (ctx i t : Nat) : Bool :=
  i < (s.cr ctx 0xB).toNat && (s.trampHolds ctx i t
    || (Config.thresherTramp ctx i
      && !s.trans.any (fun e => e.2.live && e.2.ctx = ctx && e.2.tramps.contains i)))

/-- A linkage index is that of the Thresher's entry of the function at a stream word (R363, R366). -/
def State.linkTo (s : State) (j : TJob) (i p : Nat) : Bool :=
  j.dir.tlink ≤ i && i < j.dir.tlink + j.dir.nfunc
    && s.peekNat j.ctx commons (j.dir.funcs + 4 * (i - j.dir.tlink)) 4 = 4 * p

/-- A branch of the stream at a stream word is rendered in the clause at `c` by `x0`, `x1`. -/
def State.rendersBranch (s : State) (j : TJob) (p c : Nat) (w0 w1 x0 x1 : Word) : Bool :=
  let t := j.target p (brOff w0)
  if sameHead w0 x0 then
    goesTo c t (brOff x0) && (opOf w0 ≠ 0x02 || goesTo c (j.target p (brdJoin w1)) (brdJoin x1))
  else if opOf w0 = 0x01 && opOf x0 = 0x1C then
    sameGuard w0 x0 && t ≠ 0 && !inReach c t && s.trampTo j.ctx x1.toNat t
  else
    opOf w0 = 0x05 && opOf x0 = 0x12 && sameGuard w0 x0 && (t = 0 || !inReach c t)
      && s.linkTo j x1.toNat ((p : Int) + brOff w0).toNat

/-- A stream instruction is rendered in the clause at `c`: itself, with its flag and hold bits free, a
branch with its own target, or one of the two substitutes. -/
def State.renders (s : State) (j : TJob) (p c : Nat) (x0 x1 : Word) : Bool :=
  let (w0, w1) := s.streamWords j p
  decodes x0 x1 && (if brOp (opOf w0) then s.rendersBranch j p c w0 w1 x0 x1
    else w0 &&& 0xFFFDFFFE = x0 &&& 0xFFFDFFFE && (!w0.getLsbD 23 || w1 = x1))

/-- The instructions of a clause are those of the stream from a word on, one for one; what comes back is
the stream word after them, and none where they are not. -/
def State.follows (s : State) (j : TJob) (c : Nat) : Nat → List (Nat × Word × Word) → Option Nat
  | p, [] => some p
  | p, (_, x0, x1) :: t =>
    if j.holds p && !s.becomesIll j p && s.renders j p c x0 x1 then
      s.follows j c (p + if (s.streamWords j p).1.getLsbD 23 then 2 else 1) t
    else none

/-! A whole clause. -/

/-- What an instruction counted with required tracking will write, before it completes. -/
def latePart (u : Uses) : List Nat × List Nat × List Nat :=
  match u.track with
  | some (true, _) => (u.wd, u.gw, u.gpw)
  | _ => ([], [], [])

/-- What the instruction of two words reads, writes and counts on, by the format records of no group. -/
def usesOf (x0 x1 : Word) : Uses × List Nat :=
  match decode x0 x1 with
  | .ok i => (State.reset.uses i, readsG i)
  | .error _ => ({}, [])

/-- An instruction reads or writes a register that an outstanding one will write, or its guard, or another
source, is a predicate that one will write. -/
def touches (l : List Nat × List Nat × List Nat) (u : Uses) (gr : List Nat) : Bool :=
  l.1.any (fun n => (u.rd ++ u.wd).contains n) || l.2.1.any (fun n => (gr ++ u.gw).contains n)
    || !l.2.2.isEmpty

/-- No instruction of a clause meets what an earlier one of it will write late: within a clause nothing
waits (R367). -/
def lateFree : List (List Nat × List Nat × List Nat) → List (Nat × Word × Word) → Bool
  | _, [] => true
  | late, (_, x0, x1) :: t =>
    let (u, gr) := usesOf x0 x1
    !late.any (fun l => touches l u gr) && lateFree (latePart u :: late) t

/-- The instructions of a clause stand where its header admits them, and count on a valid flag (02_encoding
R25, R29). -/
def wellPlaced (h : Word) (ins : List (Nat × Word × Word)) : Bool :=
  (mapI ins (fun i x => (i, x))).all (fun e =>
    let x0 := e.2.2.1
    let u := (usesOf x0 e.2.2.2).1
    placed (hdrEng h) (opOf x0) (e.1 + 1 = ins.length)
      && (match u.track with | some (true, f) => (flagSel h f).isSome | _ => true))

/-- A clause raises ILL in place of its stream word. -/
def TClause.raisesIll (c : TClause) : Bool :=
  match c.ins with
  | [(_, x0, x1)] => !decodes x0 x1
  | _ => false

/-- The trampoline entries of the branches that a clause renders by TRAMP, with their targets (R366). -/
def State.trampsOf (s : State) (j : TJob) : Nat → List (Nat × Word × Word) → List (Nat × Nat)
  | _, [] => []
  | p, (_, x0, x1) :: t =>
    let (w0, _) := s.streamWords j p
    let rest := s.trampsOf j (p + if w0.getLsbD 23 then 2 else 1) t
    if opOf x0 = 0x1C && decodes x0 x1 then (x1.toNat, j.target p (brOff w0)) :: rest else rest

/-- No two branches take one entry for two targets. -/
def oneTarget (l : List (Nat × Nat)) : Bool := l.all (fun x => l.all (fun y => x.1 ≠ y.1 || x.2 = y.2))

/-- A clause translates the stream from a word on (R366, R42, R367). Where the stream ends after its last
instruction, any clause may stand next: the manual is silent on flow past the stream's end, and the choice is
the model's (log entry 44). -/
def State.clauseGood (s : State) (j : TJob) (p : Nat) (c : TClause) : Bool :=
  j.holds p && !hdrBad c.hdr && (
    if s.becomesIll j p then c.raisesIll
    else match s.follows j c.at_ p c.ins with
      | none => false
      | some q =>
        wellPlaced c.hdr c.ins && lateFree [] c.ins
          && (noFall ((c.ins.getLastD (0, 0, 0)).2.1) || !j.holds q || j.tr.getD q 0 = c.next))

/-- The clauses of an event, each with its stream word: none where the map does not name them in order. -/
def pairUp : List TClause → List (Nat × Nat) → Option (List (Nat × TClause))
  | [], [] => some []
  | c :: cs, e :: es => if e.2 = c.at_ then (pairUp cs es).map ((e.1, c) :: ·) else none
  | _, _ => none

/-! The form of the first pass (R368). -/

/-- What is outstanding on the way to a clause of a first pass: a flag and what its instruction will
write. -/
abbrev LatePart := Nat × List Nat × List Nat × List Nat

/-- A stream word as the first pass sees it: its clause's wait mask, what its instruction reads and writes,
what it leaves outstanding, and the stream words where the path may go on. -/
structure FNode where
  at_ : Nat := 0
  wait : Nat := 0
  uses : Uses := {}
  reads : List Nat := []
  late : Option LatePart := none
  next : List Nat := []
deriving DecidableEq, Repr

/-- Where the path may go on after a stream word without a call (R368): a call comes back to the word after
it. `arms` adds the join of a BRD, which a path reaches by a JOIN. -/
def State.succs (s : State) (j : TJob) (arms : Bool) (p : Nat) : List Nat :=
  let (w0, w1) := s.streamWords j p
  let goes (o : Int) : List Nat := [((p : Int) + o).toNat]
  if s.becomesIll j p then []
  else (if noFall w0 then [] else [p + if w0.getLsbD 23 then 2 else 1])
    ++ (if [0x01, 0x02, 0x03].contains (opOf w0) then goes (brOff w0) else [])
    ++ (if arms && opOf w0 = 0x02 then goes (brdJoin w1) else [])

/-- Stream words reached from some, of those that satisfy a test. -/
def reachFrom (next : Nat → List Nat) (p : Nat → Bool) : Nat → List Nat → List Nat
  | 0, l => l
  | n + 1, l => reachFrom next p n (dedup (l ++ (l.flatMap next).filter p))

/-- The clauses as nodes: each of one instruction, those counted on f0 to f11 in rotation. -/
def State.firstNodes (s : State) (j : TJob) : Nat → List (Nat × TClause) → Option (List FNode)
  | _, [] => some []
  | n, (p, c) :: t =>
    match c.ins with
    | [(_, x0, x1)] =>
      let (u, gr) := usesOf x0 x1
      let flag := n % 12
      let node : FNode := { at_ := p, wait := hdrWait c.hdr, uses := u, reads := gr, next := s.succs j false p
                            late := if u.track.isNone then none else some (flag, latePart u) }
      if u.track.isNone then (s.firstNodes j n t).map (node :: ·)
      else if flagSel c.hdr (x0.getLsbD 17) ≠ some flag then none
      else (s.firstNodes j (n + 1) t).map (node :: ·)
    | _ => none

/-- What is still outstanding when a clause has waited, and when it has issued. -/
def FNode.waited (n : FNode) (l : List LatePart) : List LatePart := l.filter (fun x => !n.wait.testBit x.1)
def FNode.after (n : FNode) (l : List LatePart) : List LatePart := n.late.toList ++ n.waited l

/-- What may be outstanding before each clause, one step further along every path. -/
def flowRound (ns : List FNode) (m : SMap (List LatePart)) : SMap (List LatePart) :=
  ns.foldl (fun m n =>
    let out := n.after (m.getD n.at_ [])
    n.next.foldl (fun m q =>
      let old := m.getD q []
      m.set q (old ++ out.filter (fun x => !old.contains x)) []) m) m

/-- What may be outstanding before each clause on any path: no path needs more steps to bring it there than
there are clauses. -/
def flowOf (ns : List FNode) : Nat → SMap (List LatePart) → SMap (List LatePart)
  | 0, m => m
  | k + 1, m => flowOf ns k (flowRound ns m)

/-- The form of a first pass (R368): code reachable from the entry without calls, each instruction in a
clause of its own, each clause waiting on every flag that counts an outstanding instruction, on any path to
it, whose destination it reads or writes. -/
def State.firstForm (s : State) (j : TJob) (entry : Nat) (cs : List (Nat × TClause)) : Bool :=
  let reach := reachFrom (s.succs j true) (fun p => j.tr.getD p 0 ≠ 0) j.tr.length [entry]
  cs.all (fun e => reach.contains e.1)
    && (match s.firstNodes j 0 cs with
      | none => false
      | some ns =>
        let m := flowOf ns ns.length []
        ns.all (fun n => !(n.waited (m.getD n.at_ [])).any (fun l => touches l.2 n.uses n.reads)))

/-! The arena (R371). -/

/-- A translation is kept: it is its object's newest, a live group has executed it, or a launch names its
EPOCH or enters it. -/
def State.kept (s : State) (k : Nat) : Bool :=
  let t := s.trans.getD k {}
  (s.newest t.ctx t.obj).any (fun x => x.epoch = t.epoch)
    || s.groups.any (fun e => e.2.live && e.2.epochs.contains k)
    || s.launches.any (fun e => (e.2.stage = .queued || e.2.stage = .dispatched) && e.2.ctx = t.ctx
      && ((e.2.codeObj = t.obj && e.2.f 1 16 16 = t.epoch)
        || (e.2.stage = .dispatched
          && t.ranges.any (fun r => r.1 ≤ e.2.entry.toNat && e.2.entry.toNat < r.2))))

/-- Two ranges of words share a 128-byte line. -/
def sharesLine (a b : Nat × Nat) : Bool := a.1 / 32 < (b.2 + 31) / 32 && b.1 / 32 < (a.2 + 31) / 32

/-- The translations of a context with a line of a range. -/
def State.transOn (s : State) (ctx lo hi : Nat) : List Nat :=
  (s.trans.filter (fun e => e.2.live && e.2.ctx = ctx && e.2.ranges.any (sharesLine (lo, hi)))).map (·.1)

/-- A range of the arena none of whose lines belongs to a translation that is kept. -/
def State.arenaFree (s : State) (ctx lo hi : Nat) : Bool :=
  arenaLo ≤ lo && hi ≤ arenaHi && lo < hi && (s.transOn ctx lo hi).all (fun k => !s.kept k)

/-- The translations whose lines a range reuses are gone. -/
def State.reclaim (s : State) (ctx lo hi : Nat) : State :=
  (s.transOn ctx lo hi).foldl (fun s k => { s with trans := s.trans.set k {} {} }) s

/-- Arena words written at SYS, whatever the page's W bit: only the Thresher writes them (R362,
R368). Their walks set A and D (09_memory R173). -/
def State.writeArena (s : State) (ctx arena : Nat) (words : List Word) : State :=
  (mapI words (fun i w => (i, w))).foldl (fun s e =>
    let va := vaOf (BitVec.ofNat 64 (s.codeBase ctx + 4 * (arena + e.1)))
    match s.walk ctx commons va with
    | .fault _ => s
    | .leaf at_ e' big =>
      (s.touchLeaf at_ e' true).homeWrite (pieceBytes (leafXl e' big va) (bytesLE 4 e.2.toNat))) s

/-! Installing (R368, R370). -/

/-- The stream words of an event that its epoch does not map yet, with their clauses. -/
def mapOver (old : SMap Nat) (map : List (Nat × Nat)) : SMap Nat :=
  map.foldl (fun m e => m.set e.1 e.2 0) old

/-- The map of a translation that may be there. -/
def State.mapOf (s : State) (key : Option Nat) : SMap Nat :=
  match key with | none => [] | some k => (s.trans.getD k {}).map

/-- A translation to be judged. -/
def State.jobOf (s : State) (ctx obj : Nat) (map : List (Nat × Nat)) (key : Option Nat) (ill : List Nat) :
    TJob :=
  { ctx, dir := s.dirEntry ctx commons obj, tr := mapOver (s.mapOf key) map, ill }

/-- The clauses of an event translate a level-1 object, joined to a translation of it, none of whose lines
they reuse, or to none: none where they do not. -/
def State.judge (s : State) (ctx obj arena : Nat) (words : List Word) (map : List (Nat × Nat))
    (key : Option Nat) (ill : List Nat) : Option (List (Nat × TClause)) :=
  let old := s.mapOf key
  let hi := arena + words.length
  let j := s.jobOf ctx obj map key ill
  match (clausesOf words.length arena words).bind (pairUp · map) with
  | none => none
  | some cs =>
    if j.dir.valid && j.dir.l1 && s.arenaFree ctx arena hi && key.all (fun k => !(s.transOn ctx arena hi).contains k)
        && cs.length = (dedup (map.map (·.1))).length && map.all (fun e => old.getD e.1 0 = 0)
        && cs.all (fun e => s.clauseGood j e.1 e.2)
        && oneTarget (cs.flatMap (fun e => s.trampsOf j e.1 e.2.ins))
    then some cs else none

/-- A trampoline entry of the Thresher's set to a clause, at SYS (R366, R374). -/
def State.writeTramp (s : State) (ctx i t : Nat) : State :=
  if s.trampHolds ctx i t then s
  else
    let va := vaOf (BitVec.ofNat 64 (s.cr64 ctx 9 + 8 * i))
    match s.walk ctx commons va with
    | .fault _ => s
    | .leaf at_ e big => (s.touchLeaf at_ e true).homeWrite
        (pieceBytes (leafXl e big va) (bytesLE 8 (s.codeBase ctx + 4 * t)))

/-- The walks of what the Thresher reads for an event: the directory entry, the function table, the stream
(09_memory R173). -/
def State.touchObject (s : State) (ctx obj : Nat) : State :=
  let d := s.dirEntry ctx commons obj
  let at_ (s : State) (a n : Nat) : State := s.touchRange ctx commons (vaOf (BitVec.ofNat 64 a)) n .r
  at_ (at_ (at_ s (s.codeBase ctx + dirOff + 64 * obj) 64) d.funcs (4 * d.nfunc)) (s.codeBase ctx + d.base) d.len

/-- Clauses written, and mapped in a translation: a new one under an epoch, or one that is held. A word
already translated is not translated again. The trampoline entries that the clauses use are set, and the
object's kernel table is kept. -/
def State.install (s : State) (key : Option Nat) (ctx obj epoch arena : Nat) (words : List Word)
    (map : List (Nat × Nat)) (cs : List (Nat × TClause)) (kers : List (List Word)) : State :=
  let j := s.jobOf ctx obj map key []
  let file := s.objFile ctx obj kers
  let ts := cs.flatMap (fun e => s.trampsOf j e.1 e.2.ins)
  let s := ((s.touchObject ctx obj).reclaim ctx arena (arena + words.length)).writeArena ctx arena words
  let s := ts.foldl (fun s e => s.writeTramp ctx e.1 e.2) s
  let (k, s) := match key with | some k => (k, s) | none => s.fresh
  let t : Translation := match key with
    | some k => s.trans.getD k {}
    | none => { live := true, ctx, obj, epoch, complete := true }
  let t : Translation := { t with
    map := mapOver t.map map
    src := map.foldl (fun m e => m.set e.2 (e.1 + 1) 0) t.src
    ranges := t.ranges ++ [(arena, arena + words.length)]
    tramps := dedup (t.tramps ++ ts.map (·.1)) }
  { s with trans := s.trans.set k t {}, files := s.files.set (fileKey ctx obj) file {} }

/-- The translation of an object under an epoch. -/
def State.transOf (s : State) (ctx obj epoch : Nat) : Option Nat :=
  s.trans.findIdx? (fun _ t => t.live && t.ctx = ctx && t.obj = obj && t.epoch = epoch)

/-- The declarations of a launch record are above the resource floor (R365). -/
def Launch.aboveFloor (l : Launch) : Bool :=
  96 < l.nreg || 32 < l.gsb
    || 256 < ((List.range 4).map (fun k => l.f (10 + k) 0 16)).sum + l.f 14 0 16
    || 32 < l.f 5 16 10 || 16 < l.ngrp || 4 < l.area || 4 < l.nacc

/-- The declarations of a kernel, as the launch-record words of its KERTAB entry, are above the resource
floor (R360, R365). -/
def kerAbove (k : List Word) : Bool :=
  Launch.aboveFloor { rec_ := List.replicate 4 0 ++ ((k.drop 3).take 12) }

/-- The entry words of an object's kernels above the floor: each becomes a clause that raises ILL, in every
translation of the object (R365). -/
def State.floorIll (s : State) (ctx obj : Nat) (kers : List (List Word)) : List Nat :=
  let d := s.dirEntry ctx commons obj
  ((s.objFile ctx obj kers).kers.filter kerAbove).map (kerEntry d)

/-- The first queued launch of an object whose kernel no translation holds (R364, R368). -/
def State.untranslated (s : State) (ctx obj : Nat) : Option Launch :=
  (s.launches.find? (fun e => e.2.stage = .queued && e.2.ctx = ctx && e.2.codeObj = obj
    && (s.newest ctx obj (fun t => t.map.getD ((e.2.w 0).toNat % 2 ^ 24) 0 ≠ 0)).isNone)).map (·.2)

/-- The pairs of an event's map that are of stream words, and the kernel table that its other pairs give:
entries of 16 words (R360). -/
def wordPairs (map : List (Nat × Nat)) : List (Nat × Nat) := map.filter (fun e => e.1 < 2 ^ 24)
def kerTable (map : List (Nat × Nat)) : List (List Word) :=
  let ws := (map.filter (fun e => 2 ^ 24 ≤ e.1)).map (fun e => BitVec.ofNat 32 e.2)
  (List.range (ws.length / 16)).map (fun i => (ws.drop (16 * i)).take 16)

/-- FIRST PASS (R368): the kernel of a queued launch, under epoch 1; one above the floor becomes one clause
that raises ILL (R365). -/
def execFirstPass (ctx obj arena : Nat) (words : List (BitVec 32)) (map : List (Nat × Nat))
    (s : State) : Out :=
  let kers := kerTable map
  let map := wordPairs map
  .next (match s.untranslated ctx obj with
    | none => s
    | some l =>
      let e := (l.w 0).toNat % 2 ^ 24
      let ill := s.floorIll ctx obj kers
      let key := s.transOf ctx obj 1
      match s.judge ctx obj arena words map key ill with
      | none => s
      | some cs =>
        if cs.any (fun x => x.1 = e) && (!ill.contains e || cs.length = 1)
            && s.firstForm (s.jobOf ctx obj map key ill) e cs then
          s.install key ctx obj 1 arena words map cs kers
        else s)

/-- SECOND PASS (R368): the next epoch, up to 65,535. -/
def execSecondPass (ctx obj arena : Nat) (words : List (BitVec 32)) (map : List (Nat × Nat))
    (s : State) : Out :=
  let kers := kerTable map
  let map := wordPairs map
  .next (match s.newest ctx obj with
    | none => s
    | some t =>
      match s.judge ctx obj arena words map none (s.floorIll ctx obj kers) with
      | none => s
      | some cs =>
        if t.epoch < 65535 then s.install none ctx obj (t.epoch + 1) arena words map cs kers else s)

/-- The groups parked on a job go on (R370). -/
def State.resumeJob (s : State) (job : Nat) : State :=
  let gs := (s.jobs.getD job {}).groups
  let s := { s with jobs := s.jobs.set job {} {} }
  gs.foldl (fun s gk =>
    let g := s.group gk
    match g.park with
    | some p => if p.cause = cCNR then s.setGroup gk { g with park := none } else s
    | none => s) s

/-- The translation a job's clauses join: that of its epoch, or the newest where that one is gone; none
where the object has none. -/
def State.jobKey (s : State) (j : Job) : Option Nat :=
  match s.transOf j.ctx j.obj j.epoch with
  | some k => some k
  | none => (s.newest j.ctx j.obj).bind (fun t => s.transOf j.ctx j.obj t.epoch)

/-- TRANSLATION JOB COMPLETE (R370): a word that has been translated meanwhile is not translated again. -/
def execTranslationJobComplete (job arena : Nat) (words : List (BitVec 32)) (map : List (Nat × Nat))
    (s : State) : Out :=
  let kers := kerTable map
  let map := wordPairs map
  let j := s.jobs.getD job {}
  let key := s.jobKey j
  .next (if !j.live then s
    else if (s.mapOf key).getD j.word 0 ≠ 0 then s.resumeJob job
    else match s.judge j.ctx j.obj arena words map key (s.floorIll j.ctx j.obj kers) with
      | none => s
      | some cs =>
        if map.any (fun e => e.1 = j.word) then
          (s.install key j.ctx j.obj 1 arena words map cs kers).resumeJob job
        else s)

end Sys2Proof.Machine
end

