-- ==== Sys2Proof/Machine/UserOp.lean ====
section
/-!
DEFINITION. User operations: a Miller running a fragment for one lane operation (12_atomics_barriers
R266). The fragment runs on a copy of the state, in a group of the Miller's own with one lane, of
which only the result is kept.
-/

namespace Sys2Proof.Machine

/-- What a fragment may issue: lane-class and group-class instructions and transfers, but no memory,
allocation or call instruction (R266). -/
def fragmentOp (eng op : Nat) : Bool :=
  eng ≤ 1 && op ≠ 0x34 && op ≠ 0x35 && !inRange 0xE0 0xE4 op && op ≠ 0x05 && op ≠ 0x06 && op ≠ 0x12

/-- A word of the fragment, as UOPSET copied it (15_system R328); one on a page that does not translate
reads as zero, which is no header. -/
def fragmentWord (s : State) (ctx : Nat) (f : Frag) (w : BitVec 24) : Except Nat Word :=
  .ok (({ s with mem := f.mem, creg := f.creg, cregOld := [], dies := [] } : State).windowWord ctx commons
    w.toNat)

/-- The Miller's group, at the start of a fragment (R266). -/
def millerGroup (r : MillReq) (core : Nat) (pc : BitVec 24) (old v v2 : DWord) : Group :=
  let slotA : PcSlot := { v := true, pc, own := 1, act := 1, nj := true }
  let g : Group := { live := true, ctx := r.ctx, die := r.attr.home, core, port := 3, nreg := 256
                     populated := 1, slotA }
  let put (g : Group) (n : Nat) (x : DWord) : Group := (g.vput n 0 (lo32 x)).vput (n + 1) 0 (hi32 x)
  put (put (put g 0 old) 2 v) 4 v2

/-- A lane register pair of the Miller's lane. -/
def Group.millerPair (g : Group) (n : Nat) : DWord := pair (g.vget n 0) (g.vget (n + 1) 0)

/-- Outstanding operations of a fragment complete before its next instruction. -/
def Group.landAll (g : Group) : Group := g.pend.foldl Group.land g

/-- The slot the fragment goes on in, unless it has trapped, parked, stopped or lost its lane. -/
def Group.millerSlot (g : Group) : Option Bool :=
  if g.park.isSome || g.trapPend.isSome || !g.traps.isEmpty then none
  else if g.slotA.v && !g.slotA.arr && !g.slotA.slp then some false
  else if g.slotB.v && !g.slotB.arr && !g.slotB.slp then some true
  else none


/-- A fragment run for at most `fuel` instructions: the new value and the reply, or a failure. -/
def runFragment (word : BitVec 24 → Except Nat Word) : Nat → State → Option (DWord × DWord)
  | 0, _ => none
  | fuel + 1, s =>
    let x := s.slot
    let l := match locate word x.pc x.ins with
      | .past n => (s.setSlot { x with pc := n, ins := 0 }, locate word n 0)
      | l => (s, l)
    match l with
    | (s, .here h w w0 w1) =>
      let s := s.latch h w w0
      match decode w0 w1 with
      | .error _ => none
      | .ok i =>
        if s.illegal h w0 (s.uses i) || !fragmentOp (hdrEng h) (opcode w0) then none
        else
          let ret := match i with | .ret r => s.guardW r | _ => false
          if ret then some (s.grp.millerPair 0, s.grp.millerPair 6)
          else match perform i s with
            | .next t =>
              let t := t.modGrp Group.landAll
              if t.held then none
              else match t.grp.millerSlot with
                | none => none
                | some b => runFragment word fuel { t with curB := b }
            | _ => none
    | _ => none

/-- A user operation for one lane: the new value and the reply, or a failure (R266). The Miller runs the
fragment it found when it accepted the request. -/
def State.userOp (s : State) (r : MillReq) (l : LaneOp) (old : DWord) : Option (DWord × DWord) :=
  let core := (s.millerCore r.attr.home r.line).getD 0
  let (gk, t) := s.fresh
  let g := millerGroup r core r.frag.start old l.v1 l.v2
  if !r.frag.installed then none
  else runFragment (fragmentWord s r.ctx r.frag) 256 ({ t with cur := gk, curB := false }.setGroup gk g)

/-- Replies of some lanes reach the outstanding operation, with more to come. -/
def State.millWords (s : State) (r : MillReq) (ws : List PendWord) : State :=
  s.modGroup r.grp (fun g => { g with pend := g.pend.map (fun o =>
    if o.id = r.op then { o with
      v := o.v ++ ws, dst := o.dst.filter (fun k => !ws.any (fun w => w.key = k)) } else o) })

/-- The lanes of an operation that have no reply: those whose operation failed, once every other
lane is performed. -/
def Group.failedLanes (g : Group) (op : Nat) : Word :=
  match g.pend.find? (fun o => o.id = op) with
  | none => 0
  | some o => maskOf (fun L => o.dst.any (fun k => k % 32 = L))

/-- The slot of a group that holds some of a set of lanes, the one that issued before the other. -/
def Group.holds (g : Group) (b : Bool) (m : Word) : Option Bool :=
  let has (c : Bool) : Bool := (g.slot c).v && (g.slot c).own &&& m ≠ 0
  if has b then some b else if has (!b) then some (!b) else none

/-- Lanes that a path in a record may still hold. -/
def Group.inRecords (g : Group) (m : Word) : Bool :=
  g.recs.any (fun r => r.mask &&& m ≠ 0) || (g.spilled ≠ 0 && m &&& ~~~g.xs ≠ 0)

/-- The operation of an instruction whose lanes failed has no more words to come. -/
def State.endOp (s : State) (r : MillReq) : State :=
  s.modGroup r.grp (fun g => { g with pend := g.pend.map (fun o => if o.id = r.op then { o with dst := [] } else o) })

/-- The requesting lanes whose operation failed take UOPF in a slot that holds them, the instruction as
the resume point; their destinations are left (R266). -/
def State.raiseUopf (s : State) (r : MillReq) (b : Bool) (failed : Word) : State :=
  let lanes : List LaneTrap := (lanesOf failed).map (fun L => { lane := L, cause := cUOPF })
  let p : PendTrap := { slotB := b, lanes, pc := r.pc, ins := r.ins, ipc := r.pc, iins := r.ins, word := r.word }
  ((s.endOp r).modGroup r.grp (fun g => { g with trapPend := some p })).takeTrap r.grp

/-- A group that could not be given a trap now. -/
def Group.trapBusy (g : Group) : Bool :=
  g.live && (g.away || g.park.isSome || g.trapPend.isSome || !g.traps.isEmpty)

/-- The end of a request with failed lanes: the trap, nothing when those lanes have all left, or `none`
while the group can take no trap or the lanes stand in a record. -/
def State.endUser (s : State) (r : MillReq) (failed : Word) : Option State :=
  let s := s.wakeSlots r.grp
  let g := s.group r.grp
  if g.trapBusy then none
  else match g.holds r.slotB failed with
    | some b => some (s.raiseUopf r b (failed &&& (g.slot b).own))
    | none => if g.inRecords failed then none else some (s.endOp r)

/-- USER OPERATION (R266): the next lane operation of a request, in ascending lane order. The last
reply of an instruction with a failed lane waits while its group can take no trap (log entry 18). -/
def execUserOperation (die req : Nat) (s : State) : Out :=
  let r := s.mill req
  .next (if !s.millReady die req || !r.user then s
    else match r.lanes with
      | [] => (s.unqueueMill die req).millReply req [] 0
      | l :: rest =>
        let t := s.millBefore { r with lanes := [l] } r.line
        let (t, ws) := match t.userOp r l (t.millOld r l) with
          | none => (t, [])
          | some (new, reply) => (t.millLane r l new, replyWords r l.lane reply)
        let more := !rest.isEmpty || s.mills.any (fun e => e.2.live && e.2.op = r.op && e.1 ≠ req)
        if !rest.isEmpty then (t.setMill req { r with lanes := rest }).millWords r ws
        else
          let t := (((t.unqueueMill die req).millReply req ws 0).millAfter r r.line)
          let failed := if more then 0 else (t.group r.grp).failedLanes r.op
          if failed = 0 then t else (t.endUser r failed).getD s)

end Sys2Proof.Machine
end

