-- ==== Sys2Proof/Machine/Step.lean ====
section
/-!
DEFINITION. One step of the package, and the placing of an instruction where the next step runs it.
-/

namespace Sys2Proof.Machine

/-- A transition that no code word names: an event row of the opcode table. -/
def isEvent (i : Instr) : Bool := (encode i).isEmpty

/-- The port that picks when nothing else is to happen: each port of each core in turn. -/
def State.turn (s : State) : Instr :=
  .pick (s.rrCore / 384 % 8) (s.rrCore / 4 % 96) (s.rrCore % 4) false

/-- One step (log entry 9). A pair that a port has picked issues its next instruction; otherwise the
next event of the input list happens, after the ticks it names; with no event left a port picks.
Every step has its own free values. -/
def step (s : State) : Host.Outcome State Fault Refusal :=
  let s : State := { s with freeCtr := s.freeCtr + 1 }
  if s.picked then
    match s.issue with
    | .wait => .next { s with picked := false }
    | .stop t => State.issued s (.next t)
    | .run i t => State.issued s (exec i t)
  else match s.inputs with
    | (ticks, i) :: rest =>
      let t : State := { s with inputs := rest, time := s.time + ticks }
      if isEvent i then exec i t else .next t
    | [] => exec s.turn { s with rrCore := s.rrCore + 1 }

/-- The engine class of a clause that admits an opcode (02_encoding R25). -/
def engFor (op : Nat) : Nat := ((List.range 7).find? (fun e => placed e op true)).getD 0

/-- The header of a clause of one instruction, both flag slots valid. -/
def oneHeader (op : Nat) : Nat := 1 + 16 * engFor op + 2 ^ 23 + 2 ^ 24 + 2 ^ 28

/-- The page tables of a context whose first 64 MiB are one page of die 0, at 64 MiB: R, W and X
(09_memory R168, R169). -/
def placeTables (s : State) : State :=
  ((s.setMemBytes 0 (bytesLE 8 0x2001)).setMemBytes 0x2000 (bytesLE 8 0x4001)).setMemBytes 0x4000
    (bytesLE 8 0x400000F)

/-- The clause of one instruction at the start of the code window. -/
def placeClause (s : State) (w : Nat) : State :=
  s.setMemBytes 0x4000000 (bytesLE 4 (oneHeader (w / 2 ^ 24 % 256)) ++ bytesLE 8 w)

/-- The group whose slot A stands at the placed clause, with every lane of its path. -/
def placedGroup : Group :=
  let slotA : PcSlot := { v := true, own := BitVec.allOnes 32, act := BitVec.allOnes 32, nj := true }
  { live := true, launch := 1, team := 1, nreg := 256, populated := BitVec.allOnes 32, slotA }

/-- An instruction placed where the next step issues it, as a launch would leave the package: running,
a valid context, its page tables, the clause, and a group picked to issue it (log entry 9). -/
def State.withFetchWord (s : State) (_nbits w : Nat) : State :=
  let therm : Thermal := { s.therm with state := 6, wsm := false, band := 0 }
  let s : State := { s with therm, creg := s.creg.set 0 1 0, cur := 1, curB := false, picked := true }
  ((placeClause (placeTables s) w).setGroup 1 placedGroup).setTeam 1 { live := true, launch := 1, ngrp := 1 }

end Sys2Proof.Machine
end

