-- ==== Sys2Proof/Safety.lean ====
section
/-!
DEFINITION. What counts as a safe run, and the terms that statements are made in: an instruction
that completes, what a next state keeps, and which registers it finds written.
-/

namespace Sys2Proof.Machine

/-- The package never stops: each of the first `n` steps answers a next state. -/
def SafeRun (n : Nat) (s : State) : Prop :=
  match n with
  | 0 => True
  | n + 1 => ∃ t, step s = .next t ∧ SafeRun n t

/-- The instruction answers a next state, of which `P` holds. -/
def Runs (i : Instr) (s : State) (P : State → Prop) : Prop := ∃ t, exec i s = .next t ∧ P t

/-- Every byte of memory reads as before. -/
def SameMem (s t : State) : Prop := ∀ k, t.memByte k = s.memByte k

/-- Nothing but the issuing group differs. -/
def OnlyGroup (s t : State) : Prop := t = s.setGrp t.grp ∧ SameMem s t

/-- The state without the errors armed at some registers of the issuing group in the lanes of `m`
(15_system R358): they change nothing but what the core's `armed` lists. -/
def State.disarmRegs (s : State) (ns : List Nat) (m : Word) : State :=
  ns.foldl (fun s n => s.disarmReg s.cur n m) s

/-- The lanes `m` of the issuing group have had words written, lane `L` those that `val L` lists, and
nothing else differs but the state of the written rows, and the errors armed at the written words, which
are gone; MEMST.LAPSE is set if `lapse`. -/
def LanesWritten (s t : State) (m : Word) (lapse : Bool) (val : Nat → List (Nat × Word)) : Prop :=
  OnlyGroup (s.disarmRegs ((val 0).map (·.1)) m) t
    ∧ (∀ n L, L < 32 → t.grp.vget n L =
        if inMask m L then ((val L).lookup n).getD (s.grp.vget n L) else s.grp.vget n L)
    ∧ t.grp = { s.grp with
        v := t.grp.v, vst := t.grp.vst, vx := t.grp.vx, vpois := t.grp.vpois
        memst := if lapse then s.grp.memst ||| 8 else s.grp.memst }

/-- Group-wide registers have been written, `ws` listing them, and nothing else differs. -/
def GroupWritten (s t : State) (ws : List (Nat × Word)) : Prop :=
  OnlyGroup s t
    ∧ (∀ n, t.grp.gget n = (ws.lookup n).getD (s.grp.gget n))
    ∧ t.grp = { s.grp with g := t.grp.g }

/-- Group-wide predicate `d` has been written, gp3 apart, and nothing else differs. -/
def GroupPredWritten (s t : State) (d : Nat) (b : Bool) : Prop :=
  OnlyGroup s t
    ∧ (∀ n, t.grp.gpget n = if n = 3 then true else if n = d then b else s.grp.gpget n)
    ∧ t.grp = { s.grp with gp := t.grp.gp }

/-- Lane predicates have been written in the lanes `m`, lane `L` those that `val L` lists, and nothing
else differs; MEMST.LAPSE is set if `lapse`. -/
def PredsWritten (s t : State) (m : Word) (lapse : Bool) (val : Nat → List (Nat × Bool)) : Prop :=
  OnlyGroup s t
    ∧ (∀ n L, L < 32 → inMask (t.grp.pget n) L =
        if inMask m L then ((val L).lookup n).getD (inMask (s.grp.pget n) L) else inMask (s.grp.pget n) L)
    ∧ t.grp = { s.grp with
        p := t.grp.p, memst := if lapse then s.grp.memst ||| 8 else s.grp.memst }

/-- No Active lane reads a word that traps: expired in a trapping range, or poisoned. -/
def ReadsClean (s : State) (m : Word) (rd : Nat → List Nat) : Prop :=
  ∀ L, L < 32 → inMask m L → ∀ n ∈ rd L,
    s.grp.rdErx s.lat.lc n L = false ∧ s.grp.rdPois s.lat.lc n L = false

/-- A lane instruction under the guard of `w` that reads the registers `rd L` in each Active lane `L`
and whose effect on the lanes that do not trap is `P before after lanes lapse`. With no trap it
completes and the slot goes on; otherwise the other lanes have their effect and the trapping ones
trap, with the instruction as the resume point. -/
def LaneForm (s : State) (i : Instr) (w : W0) (rd : Nat → List Nat)
    (P : State → State → Word → Bool → Prop) : Prop :=
  let m := s.activeW w
  (ReadsClean s m rd →
    ∃ u, exec i s = .next u.cont ∧ P s u m (s.lapses m rd))
  ∧ (¬ ReadsClean s m rd →
    ∃ u, exec i s = .next (u.raise (s.readTraps m rd) true)
      ∧ P s u (without m (s.readTraps m rd)) (s.lapses (without m (s.readTraps m rd)) rd))

/-- A lane instruction that writes lane registers. -/
def WritesLanes (s : State) (i : Instr) (w : W0) (rd : Nat → List Nat)
    (val : Nat → List (Nat × Word)) : Prop :=
  LaneForm s i w rd (fun s u m l => LanesWritten s u m l val)

/-- A lane instruction that writes lane predicates. -/
def WritesPreds (s : State) (i : Instr) (w : W0) (rd : Nat → List Nat)
    (val : Nat → List (Nat × Bool)) : Prop :=
  LaneForm s i w rd (fun s u m l => PredsWritten s u m l val)

/-- A group-wide instruction that writes group-wide registers when its guard holds, and then goes on. -/
def WritesGroup (s : State) (i : Instr) (w : W0) (ws : List (Nat × Word)) : Prop :=
  (s.guardW w = false → exec i s = .next s.cont)
  ∧ (s.guardW w = true → ∃ u, exec i s = .next u.cont ∧ GroupWritten s u ws)

/-- A group-wide instruction that writes a group-wide predicate when its guard holds. -/
def WritesGroupPred (s : State) (i : Instr) (w : W0) (d : Nat) (b : Bool) : Prop :=
  (s.guardW w = false → exec i s = .next s.cont)
  ∧ (s.guardW w = true → ∃ u, exec i s = .next u.cont ∧ GroupPredWritten s u d b)

/-- One register of a value, and a pair of a 64-bit one. -/
def one (n : Nat) (x : Word) : List (Nat × Word) := [(n, x)]
def two (n : Nat) (x : DWord) : List (Nat × Word) := [(n, lo32 x), (n + 1, hi32 x)]

/-- The word whose bit `i` is `f i`. -/
def ofBits (f : Nat → Bool) : Word := BitVec.ofFnLE (fun i : Fin 32 => f i)

end Sys2Proof.Machine
end

