-- ==== Sys2Proof/Certificates/Slice0/Obligations.lean ====
section
/-!
DEFINITION. The statements made of this model, and the terms they are made in. Each says what the
named rules of spec/ say of an instruction, an event or the whole machine.
-/

namespace Sys2Proof.Machine

/-! Operands as the manual reads them (02_encoding R35; 03_groupwide R53; 05_integer R93). -/

/-- A 32-bit operand after its modifiers: absolute value, then negation, both wrapping. -/
def modified (ab ng : Bool) (x : Word) : Word :=
  let y := if ab && decide (x.toInt < 0) then -x else x
  if ng then -y else y

/-- The immediate form is selected. -/
def immForm (r : Alu) : Bool := r.opx.getLsbD 0

/-- The unsigned integer types .Z32 and .Z64, and the 64-bit ones .S64 and .Z64. -/
def zType (r : Alu) : Bool := r.ty.toNat = 12 || r.ty.toNat = 13
def wideType (r : Alu) : Bool := r.ty.toNat = 9 || r.ty.toNat = 13

/-- A value read unsigned or signed. -/
def asInt {w : Nat} (unsigned : Bool) (x : BitVec w) : Int := if unsigned then x.toNat else x.toInt

/-- The condition codes on integers: 0 EQ, 1 NE, 2 LT, 3 LE, 4 GT, 5 GE. -/
def condition (cc : Nat) (x y : Int) : Bool :=
  match cc with
  | 0 => decide (x = y)
  | 1 => decide (x ≠ y)
  | 2 => decide (x < y)
  | 3 => decide (x ≤ y)
  | 4 => decide (x > y)
  | _ => decide (x ≥ y)

/-- The three shifts by a whole 32-bit count. -/
def shiftLeft {w : Nat} (x : BitVec w) (n : Word) : BitVec w :=
  if n.toNat < w then BitVec.ofNat w (x.toNat * 2 ^ n.toNat) else 0
def shiftRight {w : Nat} (x : BitVec w) (n : Word) : BitVec w :=
  if n.toNat < w then BitVec.ofNat w (x.toNat / 2 ^ n.toNat) else 0
def shiftArith {w : Nat} (x : BitVec w) (n : Word) : BitVec w :=
  BitVec.ofInt w (x.toInt / 2 ^ min n.toNat (w - 1))

/-- The lesser and the greater of two operands, the first on equality. -/
def lesser (z : Bool) (x y : Word) : Word := if asInt z y < asInt z x then y else x
def greater (z : Bool) (x y : Word) : Word := if asInt z x < asInt z y then y else x

/-- Set bits, leading zeros, and the index of the least significant set bit of a word, 32 if none. -/
def setBits (x : Word) : Word :=
  BitVec.ofNat 32 ((List.range 32).filter (fun i => x.getLsbD i)).length
def leadingZeros (x : Word) : Word :=
  BitVec.ofNat 32 (((List.range 32).find? (fun i => x.getLsbD (31 - i))).getD 32)
def firstSet (x : Word) : Word :=
  BitVec.ofNat 32 (((List.range 32).find? (fun i => x.getLsbD i)).getD 32)

/-- A base plus a scaled index, the index sign-extended for .S32 and zero-extended otherwise. -/
def scaled (signed : Bool) (base : DWord) (idx : Word) (c : BitVec 8) (sh : Nat) : DWord :=
  BitVec.ofInt 64 (base.toNat + (asInt (!signed) idx + c.toNat) * 2 ^ sh)

/-- The bit of a three-predicate table at 4a + 2b + c. -/
def tableBit (t : BitVec 8) (a b c : Bool) : Bool := t.getLsbD (4 * a.toNat + 2 * b.toNat + c.toNat)

/-- Operand `s` of the group-wide instructions, at 32 and at 64 bits. -/
def State.gOp (s : State) (r : Alu) : Word := if immForm r then r.c.setWidth 32 else s.rdG r.b.toNat
def State.gOp64 (s : State) (r : Alu) : DWord :=
  if immForm r then r.c.setWidth 64 else s.rdG64 r.b.toNat

/-- Operands a, b and c of the integer instructions in a lane, after modifiers (05_integer R95, R96). -/
def State.aOp (s : State) (w : W0) (r : Alu) (L : Nat) : Word := modified r.aa r.na (s.rd w.a.toNat L)
def State.bOp (s : State) (r : Alu) (L : Nat) : Word :=
  modified r.ab r.nb (if immForm r then r.c.setWidth 32 else s.rd r.b.toNat L)
def State.bOp64 (s : State) (r : Alu) (L : Nat) : DWord :=
  if immForm r then r.c.setWidth 64 else s.rd64 r.b.toNat L

/-- The registers that operands A and B name, at 32 and at 64 bits. -/
def readsAB (w : W0) (r : Alu) : List Nat := w.a.toNat :: (if immForm r then [] else [r.b.toNat])
def readsAB64 (w : W0) (r : Alu) : List Nat :=
  [w.a.toNat, w.a.toNat + 1] ++ (if immForm r then [] else [r.b.toNat, r.b.toNat + 1])
def readsABC (w : W0) (r : Alu) : List Nat := [w.a.toNat, r.b.toNat, r.c.toNat]

/-- A two-source lane instruction that writes `f a b`. -/
def Binary (s : State) (i : Instr) (w : W0) (r : Alu) (f : Word → Word → Word) : Prop :=
  WritesLanes s i w (fun _ => readsAB w r) (fun L => one w.d.toNat (f (s.aOp w r L) (s.bOp r L)))

/-- A one-source lane instruction that writes `f` of operand A. -/
def Unary (s : State) (i : Instr) (w : W0) (f : Word → Word) : Prop :=
  WritesLanes s i w (fun _ => [w.a.toNat]) (fun L => one w.d.toNat (f (s.rd w.a.toNat L)))

/-- The usable width of a bit field at `p` (05_integer R100). -/
def usable (p k : Nat) : Nat := min k (32 - min p 32)

/-- The extracted and the inserted field. -/
def extracted (signed : Bool) (x : Word) (p k : Nat) : Word :=
  let k' := usable p k
  let f := x.toNat / 2 ^ p % 2 ^ k'
  BitVec.ofInt 32 (if signed && decide (0 < k') && decide (2 ^ (k' - 1) ≤ f) then (f : Int) - 2 ^ k' else f)
def inserted (d x : Word) (p k : Nat) : Word :=
  ofBits (fun i => if p ≤ i ∧ i < p + usable p k then x.getLsbD (i - p) else d.getLsbD i)

/-- The position and width operands of a bit-field instruction, and the registers that hold them. -/
def State.field (s : State) (r : Alu) (L : Nat) : Nat × Nat :=
  if immForm r then (r.b.toNat, r.c.toNat) else ((s.rd r.b.toNat L).toNat, (s.rd r.c.toNat L).toNat)
def readsField (r : Alu) : List Nat := if immForm r then [] else [r.b.toNat, r.c.toNat]

/-- The bits and the signedness of the integer types .S8 .S16 .S32 .S64 .Z8 .Z16 .Z32 .Z64, numbered
from 0 (02_encoding R35). -/
def intType (k : Nat) : Nat × Bool := (8 * 2 ^ (k % 4), k < 4)

/-- A value clamped to an integer type. -/
def saturated (t : Nat × Bool) (x : Int) : Int :=
  let lo : Int := if t.2 then -2 ^ (t.1 - 1) else 0
  let hi : Int := if t.2 then 2 ^ (t.1 - 1) - 1 else 2 ^ t.1 - 1
  max lo (min x hi)

/-- The low bits of a value read as an integer type. -/
def lowAs (t : Nat × Bool) (x : DWord) : Int := asInt (!t.2) (x.setWidth t.1)

/-- Byte `i` of a word, read signed or unsigned. -/
def byteAs (signed : Bool) (x : Word) (i : Nat) : Int := asInt (!signed) (x.extractLsb' (8 * i) 8)

/-- The sign reading of IDOT4: ss, us, su, uu (05_integer R94). -/
def dotSignedA (r : Alu) : Bool := r.opx.toNat = 0 || r.opx.toNat = 2
def dotSignedB (r : Alu) : Bool := r.opx.toNat = 0 || r.opx.toNat = 1

end Sys2Proof.Machine

open Sys2Proof Sys2Proof.Machine

/-! Group-wide instructions (03_groupwide). -/

/-- 03_groupwide R54: the group-wide arithmetic, logic, shift, minimum, maximum and count instructions
write the value their entry gives, and nothing changes but the destination and the slot's place.
03_groupwide R55, R56: GCMP and GPLOP write a group-wide predicate, GSEL a register and GLEA an
address pair, and nothing else changes but the slot's place. -/
def Obligations.GroupWideArithmeticResults : Prop :=
  (∀ (s : State) (w : W0) (r : Alu) (imm : Word),
    let d := w.d.toNat
    let a := s.rdG w.a.toNat
    let b := s.rdG r.b.toNat
    let x := s.gOp r
    WritesGroup s (.gmov w) w (one d a)
    ∧ WritesGroup s (.gmovi w imm) w (one d imm)
    ∧ WritesGroup s (.gadd w r) w (one d (a + x))
    ∧ WritesGroup s (.gsub w r) w (one d (a - x))
    ∧ WritesGroup s (.gmul w r) w (one d (a * x))
    ∧ WritesGroup s (.gmad w r) w (one d (a * b + s.rdG r.c.toNat))
    ∧ WritesGroup s (.gand w r) w (one d (a &&& x))
    ∧ WritesGroup s (.gor w r) w (one d (a ||| x))
    ∧ WritesGroup s (.gxor w r) w (one d (a ^^^ x))
    ∧ WritesGroup s (.gshl w r) w (one d (shiftLeft a x))
    ∧ WritesGroup s (.gshr w r) w (one d (shiftRight a x))
    ∧ WritesGroup s (.gsar w r) w (one d (shiftArith a x))
    ∧ WritesGroup s (.gmin w r) w (one d (lesser (zType r) a x))
    ∧ WritesGroup s (.gmax w r) w (one d (greater (zType r) a x))
    ∧ WritesGroup s (.gadd64 w r) w (two d (s.rdG64 w.a.toNat + s.gOp64 r))
    ∧ WritesGroup s (.gpopc w) w (one d (setBits a))
    ∧ WritesGroup s (.gffs w) w (one d (firstSet a)))
  ∧ (∀ (s : State) (w : W0) (r : Alu),
    let d := w.d.toNat
    let a := s.rdG w.a.toNat
    let b := s.rdG r.b.toNat
    WritesGroupPred s (.gcmp w r) w d
      (if wideType r then condition (r.opx.toNat / 2) (asInt (zType r) (s.rdG64 w.a.toNat)) (asInt (zType r) (s.gOp64 r))
       else condition (r.opx.toNat / 2) (asInt (zType r) a) (asInt (zType r) (s.gOp r)))
    ∧ WritesGroup s (.gsel w r) w (one d (if s.rdGP r.c.toNat then a else b))
    ∧ WritesGroupPred s (.gplop w r) w d
      (tableBit r.c (s.rdGP w.a.toNat) (s.rdGP r.b.toNat) (s.rdGP (r.opx.toNat % 4)))
    ∧ WritesGroup s (.glea w r) w
      (two d (scaled (r.ty.toNat = 8) (s.rdG64 w.a.toNat) b r.c r.opx.toNat)))

/-- 03_groupwide R49: gp3 reads as true, whatever has been written to it, and a write to it leaves the
group as it was. -/
def Obligations.LastGroupPredicateIsTrue : Prop :=
  ∀ (s : State) (g : Group) (n : Nat) (b : Bool),
    s.rdGP 3 = true ∧ g.gpget 3 = true ∧ g.gpput 3 b = g
    ∧ (n ≠ 3 → (g.gpput n b).gpget n = b) ∧ (∀ k, k ≠ n → (g.gpput n b).gpget k = g.gpget k)

/-! Integer instructions (05_integer). -/

/-- 05_integer R95, R96, R101, R102: the moves, sums, logic, counts, minima and maxima write each Active
lane's result, the other lanes and everything else as they were.
05_integer R97: the multiplies and IDOT4. -/
def Obligations.IntegerWordsAndProducts : Prop :=
  (∀ (s : State) (w : W0) (r : Alu) (imm : Word),
    Unary s (.mov w) w id
    ∧ WritesLanes s (.movi w imm) w (fun _ => []) (fun _ => one w.d.toNat imm)
    ∧ Binary s (.iadd w r) w r (· + ·)
    ∧ Binary s (.isub w r) w r (· - ·)
    ∧ Binary s (.iand w r) w r (· &&& ·)
    ∧ Binary s (.ior w r) w r (· ||| ·)
    ∧ Binary s (.ixor w r) w r (· ^^^ ·)
    ∧ Unary s (.inot w) w (~~~ ·)
    ∧ Unary s (.popc w) w setBits
    ∧ Unary s (.clz w) w leadingZeros
    ∧ Unary s (.brev w) w (fun x => ofBits (fun i => x.getLsbD (31 - i)))
    ∧ Binary s (.imin w r) w r (lesser (zType r))
    ∧ Binary s (.imax w r) w r (greater (zType r))
    ∧ Unary s (.iabs w) w (fun x => BitVec.ofInt 32 |x.toInt|)
    ∧ Binary s (.iadds w r) w r (fun x y =>
        BitVec.ofInt 32 (saturated (32, !zType r)
          (if r.opx.getLsbD 1 then asInt (zType r) x - asInt (zType r) y
           else asInt (zType r) x + asInt (zType r) y))))
  ∧ (∀ (s : State) (w : W0) (r : Alu),
    Binary s (.imul w r) w r (· * ·)
    ∧ Binary s (.imulh w r) w r (fun x y =>
        BitVec.ofInt 32 (asInt (zType r) x * asInt (zType r) y / 2 ^ 32))
    ∧ WritesLanes s (.imad w r) w (fun _ => readsABC w r) (fun L => one w.d.toNat
        (s.aOp w r L * modified r.ab r.nb (s.rd r.b.toNat L) + modified false r.nc (s.rd r.c.toNat L)))
    ∧ WritesLanes s (.imadw w r) w (fun _ => readsABC w r ++ [r.c.toNat + 1]) (fun L => two w.d.toNat
        (BitVec.ofInt 64 (asInt (zType r) (s.rd w.a.toNat L) * asInt (zType r) (s.rd r.b.toNat L))
          + (if r.nc then -s.rd64 r.c.toNat L else s.rd64 r.c.toNat L)))
    ∧ WritesLanes s (.idot4 w r) w (fun _ => readsABC w r) (fun L => one w.d.toNat
        (BitVec.ofInt 32 ((s.rd r.c.toNat L).toInt
          + ((List.range 4).map (fun i => byteAs (dotSignedA r) (s.rd w.a.toNat L) i
              * byteAs (dotSignedB r) (s.rd r.b.toNat L) i)).sum))))

/-- 05_integer R98, R99, R105: 64-bit sums, the shifts at both widths, and LEA. -/
def Obligations.IntegerPairsShiftsAndAddress : Prop :=
  ∀ (s : State) (w : W0) (r : Alu),
    let a64 := fun L => s.rd64 w.a.toNat L
    let a := fun L => s.rd w.a.toNat L
    let n := fun L => if immForm r then r.c.setWidth 32 else s.rd r.b.toNat L
    let rd := if immForm r then [] else [r.b.toNat]
    WritesLanes s (.iadd64 w r) w (fun _ => readsAB64 w r) (fun L => two w.d.toNat (a64 L + s.bOp64 r L))
    ∧ WritesLanes s (.isub64 w r) w (fun _ => readsAB64 w r) (fun L => two w.d.toNat (a64 L - s.bOp64 r L))
    ∧ (r.ty.toNat ≠ 4 →
        WritesLanes s (.ishl w r) w (fun _ => w.a.toNat :: rd) (fun L => one w.d.toNat (shiftLeft (a L) (n L)))
        ∧ WritesLanes s (.ishr w r) w (fun _ => w.a.toNat :: rd) (fun L => one w.d.toNat (shiftRight (a L) (n L))))
    ∧ (r.ty.toNat = 4 →
        WritesLanes s (.ishl w r) w (fun _ => w.a.toNat :: (w.a.toNat + 1) :: rd)
          (fun L => two w.d.toNat (shiftLeft (a64 L) (n L)))
        ∧ WritesLanes s (.ishr w r) w (fun _ => w.a.toNat :: (w.a.toNat + 1) :: rd)
          (fun L => two w.d.toNat (shiftRight (a64 L) (n L))))
    ∧ (r.ty.toNat ≠ 9 →
        WritesLanes s (.isar w r) w (fun _ => w.a.toNat :: rd) (fun L => one w.d.toNat (shiftArith (a L) (n L))))
    ∧ (r.ty.toNat = 9 →
        WritesLanes s (.isar w r) w (fun _ => w.a.toNat :: (w.a.toNat + 1) :: rd)
          (fun L => two w.d.toNat (shiftArith (a64 L) (n L))))
    ∧ WritesLanes s (.lea w r) w (fun _ => [r.b.toNat]) (fun L => two w.d.toNat
        (scaled (r.ty.toNat = 8) (s.rdG64 w.a.toNat) (s.rd r.b.toNat L) r.c r.opx.toNat))

/-- 05_integer R100, R103, R104, R106: bit fields, comparison, selection and conversion. -/
def Obligations.IntegerFieldsCompareSelectConvert : Prop :=
  ∀ (s : State) (w : W0) (r : Alu),
    let from_ := fun L => if inMask (s.grp.pget r.c.toNat) L then w.a.toNat else r.b.toNat
    let ts := intType r.opx.toNat
    let td := intType (r.ty.toNat - 6)
    WritesLanes s (.bfe w r) w (fun _ => w.a.toNat :: readsField r) (fun L => one w.d.toNat
        (extracted (r.ty.toNat = 8) (s.rd w.a.toNat L) (s.field r L).1 (s.field r L).2))
    ∧ WritesLanes s (.bfi w r) w (fun _ => w.d.toNat :: w.a.toNat :: readsField r) (fun L => one w.d.toNat
        (inserted (s.rd w.d.toNat L) (s.rd w.a.toNat L) (s.field r L).1 (s.field r L).2))
    ∧ (wideType r = true → WritesPreds s (.icmp w r) w (fun _ => readsAB64 w r) (fun L =>
        [(w.d.toNat, condition (r.opx.toNat / 2) (asInt (zType r) (s.rd64 w.a.toNat L))
          (asInt (zType r) (s.bOp64 r L)))]))
    ∧ (wideType r = false → WritesPreds s (.icmp w r) w (fun _ => readsAB w r) (fun L =>
        [(w.d.toNat, condition (r.opx.toNat / 2) (asInt (zType r) (s.aOp w r L)) (asInt (zType r) (s.bOp r L)))]))
    ∧ (r.ty.toNat ≠ 4 → WritesLanes s (.sel w r) w (fun L => [from_ L]) (fun L =>
        one w.d.toNat (s.rd (from_ L) L)))
    ∧ (r.ty.toNat = 4 → WritesLanes s (.sel w r) w (fun L => [from_ L, from_ L + 1]) (fun L =>
        two w.d.toNat (s.rd64 (from_ L) L)))
    ∧ (6 ≤ r.ty.toNat → r.ty.toNat ≤ 13 → r.opx.toNat ≤ 7 →
        WritesLanes s (.icvt w r) w
          (fun _ => if ts.1 = 64 then [w.a.toNat, w.a.toNat + 1] else [w.a.toNat])
          (fun L =>
            let v := lowAs ts (if ts.1 = 64 then s.rd64 w.a.toNat L else (s.rd w.a.toNat L).setWidth 64)
            let x : DWord := BitVec.ofInt 64 (saturated td v)
            if td.1 = 64 then two w.d.toNat x else one w.d.toNat (lo32 x)))

namespace Sys2Proof.Machine

/-! Lane exchange and predicates (07_lanes). -/

/-- A predicate as a source field names it, in a lane (R127). -/
def State.predOp (s : State) (n L : Nat) : Bool :=
  if n < 12 then inMask (s.grp.pget n) L else s.rdGP (n - 12)

/-- The Active lanes with a predicate, as a list. -/
def votes (m p : Word) : List Nat := (lanesOf m).filter (fun L => inMask p L)

/-- An instruction that reads the words `ws` (register, lane) of whatever lanes, under the mask `m`:
with an empty mask it only goes on; with every word clean it completes, and `P before after lapse`
says what it wrote; with one that traps, every lane of the mask traps and nothing is written (R130;
10_allocation R208, R222). -/
def CrossForm (s : State) (i : Instr) (m : Word) (ws : List (Nat × Nat))
    (P : State → State → Bool → Prop) : Prop :=
  let erx := ws.any (fun x => s.grp.rdErx s.lat.lc x.1 x.2)
  let pois := ws.any (fun x => s.grp.rdPois s.lat.lc x.1 x.2)
  (m = 0 → exec i s = .next s.cont)
  ∧ (m ≠ 0 → erx = false → pois = false →
      ∃ u, exec i s = .next u.cont ∧ P s u (ws.any (fun x => s.grp.rdLapse s.lat.lc x.1 x.2)))
  ∧ (m ≠ 0 → erx = true → exec i s = .next (s.raiseAll cERX m))
  ∧ (m ≠ 0 → erx = false → pois = true → exec i s = .next (s.raiseAll cPOIS m))

/-- Group-wide registers written by a cross-lane instruction, MEMST.LAPSE set if `lapse`. -/
def GroupWrittenL (s t : State) (lapse : Bool) (ws : List (Nat × Word)) : Prop :=
  GroupWritten (if lapse then s.setMemst 8 else s) t ws

/-- The source lane of SHFL (R136). -/
def sourceLane (mode L b : Nat) : Nat :=
  let j : Int := match mode with
    | 0 => b
    | 1 => (L : Int) - b
    | 2 => (L : Int) + b
    | _ => (L ^^^ b : Nat)
  if j < 0 ∨ 31 < j then L else j.toNat

/-- The lane index of RDLANE and WRLANE (R135). -/
def State.laneNo (s : State) (r : Alu) : Nat :=
  (if immForm r then r.c.toNat else (s.rdG r.b.toNat).toNat) % 32

/-- The words of operand A in a lane, one or a pair. -/
def laneWords (w : W0) (r : Alu) (L : Nat) : List (Nat × Nat) :=
  if r.ty.toNat = 4 then [(w.a.toNat, L), (w.a.toNat + 1, L)] else [(w.a.toNat, L)]

/-- The fixed tree of LRED over `2 ^ n` lanes from `lo` (R138). -/
def reduceTree {α : Type} (m : Word) (val : Nat → α) (op : α → α → α) : Nat → Nat → Option α
  | 0, lo => if inMask m lo then some (val lo) else none
  | n + 1, lo =>
    match reduceTree m val op n lo, reduceTree m val op n (lo + 2 ^ n) with
    | none, y => y
    | x, none => x
    | some x, some y => some (op x y)

/-- The integer operations of LRED. -/
def reduceOp (r : Alu) (x y : Word) : Word :=
  match r.opx.toNat % 8 with
  | 0 => x + y
  | 1 => lesser (r.ty.toNat = 12) x y
  | 2 => greater (r.ty.toNat = 12) x y
  | 3 => x &&& y
  | 4 => x ||| y
  | _ => x ^^^ y

/-! Floating-point forms (06_float R112, R113). -/

/-- Lanes, and FPSTAT, written: as LanesWritten, with the bits `fl` joined to FPSTAT. -/
def FloatWritten (s t : State) (m : Word) (lapse : Bool) (fl : Nat) (val : Nat → List (Nat × Word)) : Prop :=
  LanesWritten (s.orFpstat fl) t m lapse val

/-- The same for a predicate destination. -/
def FloatCompared (s t : State) (m : Word) (lapse : Bool) (fl : Nat) (val : Nat → List (Nat × Bool)) : Prop :=
  PredsWritten (s.orFpstat fl) t m lapse val

/-- The flags of all lanes of a mask. -/
def flagsOf (m : Word) (fl : Nat → Nat) : Nat := (lanesOf m).foldl (fun acc L => acc ||| fl L) 0

/-- The lanes of a mask that raise an enabled exception, and their traps. -/
def enabledLanes (s : State) (m : Word) (fl : Nat → Nat) : List LaneTrap :=
  ((lanesOf m).filter (fun L => decide (fl L &&& s.grp.fpte ≠ 0))).map
    (fun L => { lane := L, cause := cFPX, lexc := fl L })

/-- A floating-point lane instruction that reads the registers `rd`, raises the flags `fl L` in lane
`L`, and writes as `P before after lanes lapse flags` says. FPSTAT takes the flags of every lane that
computed; lanes with an enabled exception are not written and trap at NEXT; where a lane also traps
by reading, one trap is taken at the instruction itself. -/
def FloatForm (s : State) (i : Instr) (w : W0) (rd : List Nat) (fl : Nat → Nat)
    (P : State → State → Word → Bool → Nat → Prop) : Prop :=
  let m := s.activeW w
  let ts := s.readTraps m (fun _ => rd)
  let ok := without m ts
  let fx := enabledLanes s ok fl
  (ReadsClean s m (fun _ => rd) → (∀ L, L < 32 → inMask m L → fl L &&& s.grp.fpte = 0) →
    ∃ u, exec i s = .next u.cont ∧ P s u m (s.lapses m (fun _ => rd)) (flagsOf m fl))
  ∧ ∃ u, exec i s = .next
        (if fx = [] then (if ts = [] then u.cont else u.raise ts true)
         else if ts = [] then u.cont.raise fx false else u.raise (ts ++ fx) true)
      ∧ P s u (without ok fx) (s.lapses ok (fun _ => rd)) (flagsOf ok fl)

/-- One register, one pair, or one predicate written from each lane's result. -/
def FloatOne (s : State) (i : Instr) (w : W0) (rd : List Nat) (f : Nat → FRes) : Prop :=
  FloatForm s i w rd (fun L => (f L).2) (fun s u m l fl =>
    FloatWritten s u m l fl (fun L => one w.d.toNat (BitVec.ofNat 32 (f L).1)))
def FloatTwo (s : State) (i : Instr) (w : W0) (rd : List Nat) (f : Nat → FRes) : Prop :=
  FloatForm s i w rd (fun L => (f L).2) (fun s u m l fl =>
    FloatWritten s u m l fl (fun L => two w.d.toNat (BitVec.ofNat 64 (f L).1)))
def FloatPred (s : State) (i : Instr) (w : W0) (rd : List Nat) (f : Nat → Bool × Nat) : Prop :=
  FloatForm s i w rd (fun L => (f L).2) (fun s u m l fl =>
    FloatCompared s u m l fl (fun L => [(w.d.toNat, (f L).1)]))

/-- The format a type code names: .F16, .BF16, .F64, otherwise .F32. -/
def fmtOf (ty : Nat) : FFmt := if ty = 14 then f16 else if ty = 15 then bf16 else if ty = 17 then f64 else f32

/-- An operand's bits in a format after the sign modifiers (R117): AA clears the sign, NA inverts it. -/
def signed (t : FFmt) (ab ng : Bool) (x : Nat) : Nat :=
  let mag := x % t.signBit
  let neg := (if ab then false else x.testBit (t.eb + t.p - 1)) != ng
  mag + (if neg then t.signBit else 0)

/-- Operands a, b and c of the scalar forms, as numbers. -/
def State.fA (s : State) (w : W0) (r : Alu) (L : Nat) : Nat :=
  signed (fmtOf r.ty.toNat) r.aa r.na (s.rd w.a.toNat L).toNat
def State.fB (s : State) (r : Alu) (L : Nat) : Nat :=
  signed (fmtOf r.ty.toNat) r.ab r.nb (s.rd r.b.toNat L).toNat
def State.fC (s : State) (r : Alu) (L : Nat) : Nat :=
  signed (fmtOf r.ty.toNat) false r.nc (s.rd r.c.toNat L).toNat
/-- Operands of the FP64 forms. -/
def State.dA (s : State) (w : W0) (r : Alu) (L : Nat) : Nat := signed f64 r.aa r.na (s.rd64 w.a.toNat L).toNat
def State.dB (s : State) (r : Alu) (L : Nat) : Nat := signed f64 r.ab r.nb (s.rd64 r.b.toNat L).toNat
def State.dC (s : State) (r : Alu) (L : Nat) : Nat := signed f64 false r.nc (s.rd64 r.c.toNat L).toNat
/-- Element `e` of the packed operands. -/
def packFmt (r : Alu) : FFmt := if r.ty.toNat = 19 then bf16 else f16
def State.hA (s : State) (w : W0) (r : Alu) (L e : Nat) : FNum :=
  (packFmt r).decode (signed (packFmt r) r.aa r.na ((s.rd w.a.toNat L).toNat / 2 ^ (16 * e)))
def State.hB (s : State) (r : Alu) (L e : Nat) : FNum :=
  (packFmt r).decode (signed (packFmt r) r.ab r.nb ((s.rd r.b.toNat L).toNat / 2 ^ (16 * e)))
def State.hC (s : State) (r : Alu) (L e : Nat) : FNum :=
  (packFmt r).decode (signed (packFmt r) false r.nc ((s.rd r.c.toNat L).toNat / 2 ^ (16 * e)))

/-- A sum, a product and a fused multiply-add of numbers, rounded once to a format (R110, R118). -/
def rSum (t : FFmt) (rnd : Nat) (a b : FNum) : FRes := t.deliver rnd (sumNum rnd [a, b])
def rMul (t : FFmt) (rnd : Nat) (a b : FNum) : FRes := t.deliver rnd (a.mul b)
def rFma (t : FFmt) (rnd : Nat) (a b c : FNum) : FRes := t.deliver rnd (sumProducts rnd [a.mul b] [c])

/-- Two element results in one register, their flags joined (R125). -/
def joined (f : Nat → FRes) : FRes := ((f 0).1 + 2 ^ 16 * (f 1).1, (f 0).2 ||| (f 1).2)

/-- A function of one operand completes where no exception is enabled and no Active lane's operand traps:
each Active lane's D takes a word and the flags raised join FPSTAT. -/
def CompletesOne (s : State) (i : Instr) (w : W0) : Prop :=
  let m := s.activeW w
  s.grp.fpte = 0 → ReadsClean s m (fun _ => [w.a.toNat]) →
    ∃ (u : State) (x : Nat → Word) (fl : Nat), exec i s = .next u.cont
      ∧ FloatWritten s u m (s.lapses m (fun _ => [w.a.toNat])) fl (fun L => one w.d.toNat (x L))

/-- The real value of a finite number. -/
def FNum.real : FNum → ℚ
  | .fin neg x => (if neg then -1 else 1) * (x.m : ℚ) * (2 : ℚ) ^ x.e
  | _ => 0

/-- A finite number whose magnitude is given exactly. -/
def FNum.exact : FNum → Bool
  | .fin _ x => !x.st
  | _ => false

/-- A number that is not a NaN, among the reals and the two infinities. -/
def FNum.value : FNum → WithBot (WithTop ℚ)
  | .inf true => ⊥
  | .inf false => ((⊤ : WithTop ℚ) : WithBot (WithTop ℚ))
  | x => ((x.real : WithTop ℚ) : WithBot (WithTop ℚ))

/-- `n` is the integer that a magnitude `q` of a sign rounds to: 0 to nearest even, 1 towards zero, 2 up,
3 down, 4 to nearest with ties away (06_float R110, R122). -/
def RoundsTo (rnd : Nat) (neg : Bool) (q : ℚ) (n : Nat) : Prop :=
  (rnd = 0 → |q - n| ≤ 1 / 2 ∧ (|q - n| = 1 / 2 → n % 2 = 0))
  ∧ (rnd = 1 → (n : Int) = ⌊q⌋)
  ∧ (rnd = 2 → (n : Int) = if neg then ⌊q⌋ else ⌈q⌉)
  ∧ (rnd = 3 → (n : Int) = if neg then ⌈q⌉ else ⌊q⌋)
  ∧ (rnd = 4 → (n : Int) = ⌊q + 1 / 2⌋)

/-- The formats of the scalar forms, each with the exponent of its smallest normal value. -/
def scalarFormats : List (FFmt × Int) := [(f16, -14), (bf16, -126), (f32, -126), (f64, -1022)]

/-- NV for a signalling NaN among two operands. -/
def nvOf (a b : FNum) : Nat := if a = .nan true ∨ b = .nan true then 1 else 0

end Sys2Proof.Machine

/-- 07_lanes R132, R133: PLOP and the four forms of PMOV. -/
def Obligations.PredicatesCombinedAndMoved : Prop :=
  ∀ (s : State) (w : W0) (r : Alu),
    WritesPreds s (.plop w r) w (fun _ => []) (fun L => [(w.d.toNat,
      tableBit r.c (s.predOp w.a.toNat L) (s.predOp r.b.toNat L) (s.predOp r.opx.toNat L))])
    ∧ (r.opx = 0 → WritesLanes s (.pmov w r) w (fun _ => []) (fun L => one w.d.toNat
        (ofBits (fun n => decide (n < 16) && s.predOp n L))))
    ∧ (r.opx = 1 → WritesPreds s (.pmov w r) w (fun _ => [w.a.toNat]) (fun L =>
        (List.range 12).map (fun n => (n, (s.rd w.a.toNat L).getLsbD n))))
    ∧ (r.opx = 2 → WritesLanes s (.pmov w r) w (fun _ => []) (fun L => one w.d.toNat
        (if s.predOp r.c.toNat L then 1 else 0)))
    ∧ (r.opx = 3 → WritesPreds s (.pmov w r) w (fun _ => [w.a.toNat]) (fun L =>
        [(r.c.toNat, (s.rd w.a.toNat L).getLsbD 0)]))

/-- 07_lanes R131, R134: VOTE and BALLOT write the group only when Active is not empty, and PRANK counts
the Active lanes below with the predicate.
07_lanes R130, R135, R136, R137: SHFL, RDLANE, WRLANE and MATCH, each with the words it reads. -/
def Obligations.LanesVoteAndExchangeWords : Prop :=
  (∀ (s : State) (w : W0) (r : Alu),
    let m := s.activeW w
    let p := s.grp.pget w.a.toNat
    (m = 0 → exec (.vote w r) s = .next s.cont ∧ exec (.ballot w r) s = .next s.cont)
    ∧ (m ≠ 0 → ∃ u, exec (.vote w r) s = .next u.cont ∧ GroupPredWritten s u w.d.toNat
        (match r.opx.toNat with
          | 0 => decide (votes m p ≠ [])
          | 1 => decide (votes m p = lanesOf m)
          | _ => decide (votes m p = [] ∨ votes m p = lanesOf m)))
    ∧ (m ≠ 0 → ∃ u, exec (.ballot w r) s = .next u.cont ∧ GroupWritten s u (one w.d.toNat
        (ofBits (fun L => decide (L ∈ votes m p)))))
    ∧ WritesLanes s (.prank w r) w (fun _ => []) (fun L => one w.d.toNat (BitVec.ofNat 32
        ((votes m p).filter (fun K => if immForm r then decide (K ≤ L) else decide (K < L))).length)))
  ∧ (∀ (s : State) (w : W0) (r : Alu),
    let m := s.activeW w
    let wide := r.ty.toNat = 4
    let a := w.a.toNat
    let k := s.laneNo r
    let imm := r.opx.getLsbD 2
    let j := fun L => sourceLane (r.opx.toNat % 4) L (if imm then r.c.toNat else (s.rd r.b.toNat L).toNat)
    let same := fun K L => if wide then s.rd64 a K = s.rd64 a L else s.rd a K = s.rd a L
    CrossForm s (.shfl w r) m
      ((lanesOf m).flatMap (fun L => (if imm then [] else [(r.b.toNat, L)]) ++ laneWords w r (j L)))
      (fun s u l => LanesWritten s u m l (fun L =>
        if wide then two w.d.toNat (s.rd64 a (j L)) else one w.d.toNat (s.rd a (j L))))
    ∧ CrossForm s (.rdlane w r) m (laneWords w r k) (fun s u l => GroupWrittenL s u l
        (if wide then two w.d.toNat (s.rd64 a k) else one w.d.toNat (s.rd a k)))
    ∧ (∃ u, exec (.wrlane w r) s = .next u.cont
        ∧ LanesWritten s u (m &&& ofBits (fun L => decide (L = k))) false (fun _ =>
          if wide then two w.d.toNat (s.rdG64 a) else one w.d.toNat (s.rdG a)))
    ∧ CrossForm s (.matchv w r) m ((lanesOf m).flatMap (laneWords w r)) (fun s u l =>
        LanesWritten s u m l (fun L => one w.d.toNat (ofBits (fun K => inMask m K && decide (same K L))))))

/-- 07_lanes R138, R139: LRED writes the fixed tree's value to every Active lane; on binary32 the flags of
every node join FPSTAT, and an enabled one traps every Active lane at NEXT with nothing written.
The model's own choices: log entries 16 and 65. -/
def Obligations.ReductionFollowsTheFixedTree : Prop :=
  ∀ (s : State) (w : W0) (r : Alu),
    let m := s.activeW w
    let ws := (lanesOf m).map (fun L => (w.a.toNat, L))
    let val : Nat → FRes := fun L => ((s.rd w.a.toNat L).toNat, 0)
    let op : FRes → FRes → FRes := fun x y =>
      let z := match r.opx.toNat % 8 with
        | 0 => rSum f32 r.rnd.toNat (f32.decode x.1) (f32.decode y.1)
        | 1 => f32.minMax false x.1 y.1
        | _ => f32.minMax true x.1 y.1
      (z.1, z.2 ||| x.2 ||| y.2)
    let res := (reduceTree m val op 5 0).getD (0, 0)
    (r.ty.toNat ≠ 16 → CrossForm s (.lred w r) m ws (fun s u l => LanesWritten s u m l (fun _ =>
      one w.d.toNat ((reduceTree m (fun L => s.rd w.a.toNat L) (reduceOp r) 5 0).getD 0))))
    ∧ (r.ty.toNat = 16 → res.2 &&& s.grp.fpte = 0 →
        CrossForm s (.lred w r) m ws (fun s u l => FloatWritten s u m l res.2 (fun _ =>
          one w.d.toNat (BitVec.ofNat 32 res.1))))
    ∧ (r.ty.toNat = 16 → res.2 &&& s.grp.fpte ≠ 0 →
        ReadsClean s m (fun _ => [w.a.toNat]) →
        exec (.lred w r) s = .next ((((if s.lapses m (fun _ => [w.a.toNat]) then s.setMemst 8 else s).orFpstat
            res.2).cont).raise
          ((lanesOf m).map (fun L => { lane := L, cause := cFPX, lexc := res.2 })) false))

/-- 06_float R109, R112, R113, R118: the sums, products and fused forms of the scalar formats and of binary64,
with their flags and traps.
06_float R119, R120, R121, R122, R124: minima, maxima, comparison, class, rounding to an integral value and
scaling by a power of two, first as the instructions use them, then what they give: the lesser or greater number
with -0 below +0, the first on equal values, a number rather than a NaN; the comparisons of the exact values;
the ten classes; the integer of the named direction; and R(a * 2^n).
06_float R112, R113: FRCP, FRSQ, FSQRT, FEXP2, FLOG2, FSIN, FCOS and FTANH complete, with a word written in
every Active lane, wherever no exception is enabled and no operand traps. -/
def Obligations.FloatArithmeticAndCompareResults : Prop :=
  (∀ (s : State) (w : W0) (r : Alu),
    let t := fmtOf r.ty.toNat
    let rnd := r.rnd.toNat
    let ab := [w.a.toNat, r.b.toNat]
    let dab := [w.a.toNat, w.a.toNat + 1, r.b.toNat, r.b.toNat + 1]
    FloatOne s (.fadd w r) w ab (fun L => rSum t rnd (t.decode (s.fA w r L)) (t.decode (s.fB r L)))
    ∧ FloatOne s (.fsub w r) w ab (fun L =>
        rSum t rnd (t.decode (s.fA w r L)) (t.decode (signed t false true (s.fB r L))))
    ∧ FloatOne s (.fmul w r) w ab (fun L => rMul t rnd (t.decode (s.fA w r L)) (t.decode (s.fB r L)))
    ∧ FloatOne s (.ffma w r) w (readsABC w r) (fun L =>
        rFma t rnd (t.decode (s.fA w r L)) (t.decode (s.fB r L)) (t.decode (s.fC r L)))
    ∧ FloatTwo s (.dadd w r) w dab (fun L => rSum f64 rnd (f64.decode (s.dA w r L)) (f64.decode (s.dB r L)))
    ∧ FloatTwo s (.dmul w r) w dab (fun L => rMul f64 rnd (f64.decode (s.dA w r L)) (f64.decode (s.dB r L)))
    ∧ FloatTwo s (.dfma w r) w (dab ++ [r.c.toNat, r.c.toNat + 1]) (fun L =>
        rFma f64 rnd (f64.decode (s.dA w r L)) (f64.decode (s.dB r L)) (f64.decode (s.dC r L))))
  ∧ (∀ (s : State) (w : W0) (r : Alu),
    let t := fmtOf r.ty.toNat
    let ab := [w.a.toNat, r.b.toNat]
    let dab := [w.a.toNat, w.a.toNat + 1, r.b.toNat, r.b.toNat + 1]
    let cc := r.opx.toNat / 2
    FloatOne s (.fmin w r) w ab (fun L => t.minMax false (s.fA w r L) (s.fB r L))
    ∧ FloatOne s (.fmax w r) w ab (fun L => t.minMax true (s.fA w r L) (s.fB r L))
    ∧ FloatPred s (.fcmp w r) w ab (fun L => numCmp cc (t.decode (s.fA w r L)) (t.decode (s.fB r L)))
    ∧ FloatPred s (.dcmp w r) w dab (fun L => numCmp cc (f64.decode (s.dA w r L)) (f64.decode (s.dB r L)))
    ∧ (r.ty.toNat ≠ 17 → FloatOne s (.fclass w r) w [w.a.toNat] (fun L =>
        (t.classBits ((s.rd w.a.toNat L).toNat % 2 ^ (t.eb + t.p)), 0)))
    ∧ (r.ty.toNat = 17 → FloatOne s (.fclass w r) w [w.a.toNat, w.a.toNat + 1] (fun L =>
        (f64.classBits (s.rd64 w.a.toNat L).toNat, 0)))
    ∧ FloatOne s (.frnd w r) w [w.a.toNat] (fun L =>
        t.integral (if immForm r then 4 else r.rnd.toNat) (s.fA w r L))
    ∧ FloatOne s (.fscale w r) w ab (fun L => f32.deliver r.rnd.toNat
        ((f32.decode (signed f32 r.aa r.na (s.rd w.a.toNat L).toNat)).scale (s.rd r.b.toNat L).toInt)))
  ∧ (∀ f ∈ scalarFormats, ∀ (big : Bool) (x y : Nat),
    let t := f.1
    let a := t.decode x
    let b := t.decode y
    let z := (t.minMax big x y).1
    let c := t.decode z
    (t.minMax big x y).2 = nvOf a b
    ∧ (a.isNan = true → b.isNan = true → z = t.nanBits)
    ∧ (a.isNan = true → b.isNan = false → z = y)
    ∧ (a.isNan = false → b.isNan = true → z = x)
    ∧ (a.isNan = false → b.isNan = false → (z = x ∨ z = y)
        ∧ (if big then a.value ≤ c.value ∧ b.value ≤ c.value else c.value ≤ a.value ∧ c.value ≤ b.value)
        ∧ (a.value = b.value → a.neg = b.neg → z = x)
        ∧ (a.value = b.value → a.neg ≠ b.neg → c.neg = !big)))
  ∧ (∀ (cc : Nat) (a b : FNum), cc < 8 → (∀ n x, a = .fin n x ∨ b = .fin n x → x.st = false) →
    let u := a.isNan = true ∨ b.isNan = true
    ((numCmp cc a b).1 = true ↔
      (cc = 0 ∧ ¬ u ∧ a.value = b.value) ∨ (cc = 1 ∧ (u ∨ a.value ≠ b.value)) ∨ (cc = 2 ∧ ¬ u ∧ a.value < b.value)
      ∨ (cc = 3 ∧ ¬ u ∧ a.value ≤ b.value) ∨ (cc = 4 ∧ ¬ u ∧ a.value > b.value)
      ∨ (cc = 5 ∧ ¬ u ∧ a.value ≥ b.value) ∨ (cc = 6 ∧ u) ∨ (cc = 7 ∧ ¬ u))
    ∧ (2 ≤ cc → cc ≤ 5 → u → (numCmp cc a b).2 = 1)
    ∧ (¬ (2 ≤ cc ∧ cc ≤ 5 ∧ u) → (numCmp cc a b).2 = nvOf a b))
  ∧ (∀ f ∈ scalarFormats, ∀ (x : Nat) (neg : Bool) (m : Mag),
    let bits := f.1.classBits x
    let q : ℚ := (m.m : ℚ) * 2 ^ m.e
    (f.1.decode x = .nan true → bits = 2 ^ 8) ∧ (f.1.decode x = .nan false → bits = 2 ^ 9)
    ∧ (f.1.decode x = .inf neg → bits = if neg then 2 ^ 0 else 2 ^ 7)
    ∧ (f.1.decode x = .fin neg m →
        (q = 0 → bits = if neg then 2 ^ 3 else 2 ^ 4)
        ∧ (0 < q → q < 2 ^ f.2 → bits = if neg then 2 ^ 2 else 2 ^ 5)
        ∧ (2 ^ f.2 ≤ q → bits = if neg then 2 ^ 1 else 2 ^ 6)))
  ∧ (∀ f ∈ scalarFormats, ∀ (rnd x : Nat) (neg sig : Bool) (m : Mag), rnd < 5 →
    let z := f.1.integral rnd x
    (f.1.decode x = .nan sig → z = (f.1.nanBits, if sig then 1 else 0))
    ∧ (f.1.decode x = .inf neg → z = (x, 0))
    ∧ (f.1.decode x = .fin neg m → z.2 = 0 ∧ ∃ (n : Nat) (y : Mag), RoundsTo rnd neg ((m.m : ℚ) * 2 ^ m.e) n
        ∧ f.1.decode z.1 = .fin neg y ∧ (y.m : ℚ) * 2 ^ y.e = n))
  ∧ (∀ (rnd v : Nat) (n : Int) (neg sig : Bool) (m : Mag),
    let z := f32.deliver rnd ((f32.decode v).scale n)
    (f32.decode v = .nan sig → z = (0x7FC00000, if sig then 1 else 0))
    ∧ (f32.decode v = .inf neg → z = (if neg then 0xFF800000 else 0x7F800000, 0))
    ∧ (f32.decode v = .fin neg m → z = f32.round rnd neg { m with e := m.e + n }))
  ∧ (∀ (s : State) (w : W0) (r : Alu),
    CompletesOne s (.frcp w r) w ∧ CompletesOne s (.frsq w r) w ∧ CompletesOne s (.fsqrt w r) w
    ∧ CompletesOne s (.fexp2 w r) w ∧ CompletesOne s (.flog2 w r) w ∧ CompletesOne s (.fsin w r) w
    ∧ CompletesOne s (.fcos w r) w ∧ CompletesOne s (.ftanh w r) w)

/-- 06_float R123: the eight functions write the rounding of their function of the modified operand; and
their special operands give the results of R123's table.
The model's own choices: log entry 25. -/
def Obligations.FloatFunctionsAndSpecialOperands : Prop :=
  (∀ (s : State) (w : W0) (r : Alu),
    let t := fmtOf r.ty.toNat
    let of_ : (FNum → FNum × Nat) → Nat → FRes := fun f L => t.deliver r.rnd.toNat (f (t.decode (s.fA w r L)))
    FloatOne s (.frcp w r) w [w.a.toNat] (of_ frcpNum)
    ∧ FloatOne s (.frsq w r) w [w.a.toNat] (of_ frsqNum)
    ∧ FloatOne s (.fsqrt w r) w [w.a.toNat] (of_ fsqrtNum)
    ∧ FloatOne s (.fexp2 w r) w [w.a.toNat] (of_ fexp2Num)
    ∧ FloatOne s (.flog2 w r) w [w.a.toNat] (of_ flog2Num)
    ∧ FloatOne s (.fsin w r) w [w.a.toNat] (of_ fsinNum)
    ∧ FloatOne s (.fcos w r) w [w.a.toNat] (of_ fcosNum)
    ∧ FloatOne s (.ftanh w r) w [w.a.toNat] (of_ ftanhNum))
  ∧ (∀ (rnd : Nat) (neg : Bool) (m : Mag), m.m ≠ 0 →
    let del := f32.deliver rnd
    let sg : Nat := if neg then 0x80000000 else 0
    let zero : FNum := .fin neg {}
    del (frcpNum zero) = (0x7F800000 + sg, 2) ∧ del (frcpNum (.inf neg)) = (sg, 0)
    ∧ del (frsqNum zero) = (0x7F800000 + sg, 2) ∧ del (frsqNum (.inf false)) = (0, 0)
    ∧ del (fsqrtNum zero) = (sg, 0) ∧ del (fsqrtNum (.inf false)) = (0x7F800000, 0)
    ∧ del (fexp2Num (.inf true)) = (0, 0) ∧ del (fexp2Num (.inf false)) = (0x7F800000, 0)
    ∧ del (flog2Num zero) = (0xFF800000, 2) ∧ del (flog2Num (.inf false)) = (0x7F800000, 0)
    ∧ del (flog2Num (f32.decode 0x3F800000)) = (0, 0)
    ∧ del (ftanhNum zero) = (sg, 0) ∧ del (ftanhNum (.inf neg)) = (0x3F800000 + sg, 0)
    ∧ (∀ f ∈ [frsqNum, fsqrtNum, flog2Num],
        del (f (.fin true m)) = (0x7FC00000, 1) ∧ del (f (.inf true)) = (0x7FC00000, 1))
    ∧ del (fsinNum (.inf neg)) = (0x7FC00000, 1) ∧ del (fcosNum (.inf neg)) = (0x7FC00000, 1)
    ∧ del (fsinNum zero) = (sg, 0) ∧ del (fcosNum zero) = (0x3F800000, 0)
    ∧ (m.st = false → -149 ≤ m.e → m.e ≤ 127 → ∀ n : Int,
        let a := (FNum.fin neg m).real
        (a = n → del (fsinNum (.fin neg m)) = (sg, 0))
        ∧ (a = n + 1 / 2 → del (fcosNum (.fin neg m)) = (0, 0))
        ∧ (a = n → -149 ≤ n → n ≤ 127 → del (fexp2Num (.fin neg m)) =
            (if -126 ≤ n then (n + 127).toNat * 2 ^ 23 else 2 ^ (n + 149).toNat, 0)))
    ∧ (∀ f ∈ [frcpNum, frsqNum, fsqrtNum, fexp2Num, flog2Num, fsinNum, fcosNum, ftanhNum], ∀ sig : Bool,
        del (f (.nan sig)) = (0x7FC00000, if sig then 1 else 0)))

/-- 06_float R125, R126: the packed forms act on each element, and FDOT2 rounds an exact sum of two
products and a binary32 addend once. -/
def Obligations.PackedFloatResults : Prop :=
  ∀ (s : State) (w : W0) (r : Alu),
    let t := packFmt r
    let rnd := r.rnd.toNat
    FloatOne s (.hadd2 w r) w [w.a.toNat, r.b.toNat] (fun L => joined (fun e => rSum t rnd (s.hA w r L e) (s.hB r L e)))
    ∧ FloatOne s (.hmul2 w r) w [w.a.toNat, r.b.toNat] (fun L => joined (fun e => rMul t rnd (s.hA w r L e) (s.hB r L e)))
    ∧ FloatOne s (.hfma2 w r) w (readsABC w r) (fun L =>
        joined (fun e => rFma t rnd (s.hA w r L e) (s.hB r L e) (s.hC r L e)))
    ∧ FloatOne s (.fdot2 w r) w (readsABC w r) (fun L => f32.deliver rnd
        (sumProducts rnd [(s.hA w r L 0).mul (s.hB r L 0), (s.hA w r L 1).mul (s.hB r L 1)]
          [f32.decode (signed f32 false r.nc (s.rd r.c.toNat L).toNat)]))

/-- 06_float R110, R111, R118: sums and products of finite numbers are exact before they are rounded;
infinities and NaNs give what R118 says, and every NaN delivered is canonical. -/
def Obligations.FloatSumsAndProductsAreExact : Prop :=
  (∀ (rnd : Nat) (a b : FNum), a.exact = true → b.exact = true →
    ((sumNum rnd [a, b]).1.exact = true ∧ (sumNum rnd [a, b]).2 = 0
      ∧ (sumNum rnd [a, b]).1.real = a.real + b.real)
    ∧ ((a.mul b).1.exact = true ∧ (a.mul b).2 = 0 ∧ (a.mul b).1.real = a.real * b.real))
  ∧ (∀ (rnd : Nat) (n : Bool), sumNum rnd [.inf n, .inf !n] = (.nan false, 1)
      ∧ sumNum rnd [.inf n, .inf n] = (.inf n, 0))
  ∧ (∀ (n z : Bool) (x : Mag), x.m = 0 → (FNum.inf n).mul (.fin z x) = (.nan false, 1)
      ∧ (FNum.fin z x).mul (.inf n) = (.nan false, 1))
  ∧ (∀ (rnd : Nat) (sig : Bool) (b : FNum), b.isNan = false →
      sumNum rnd [.nan sig, b] = (.nan false, if sig then 1 else 0)
      ∧ (FNum.nan sig).mul b = (.nan false, if sig then 1 else 0))
  ∧ (∀ (rnd fl : Nat) (sig : Bool), f32.deliver rnd (.nan sig, fl) = (0x7FC00000, fl)
      ∧ f64.deliver rnd (.nan sig, fl) = (0x7FF8000000000000, fl)
      ∧ f16.deliver rnd (.nan sig, fl) = (0x7E00, fl) ∧ bf16.deliver rnd (.nan sig, fl) = (0x7FC0, fl))

/-- 06_float R110: rounding an exact magnitude to a multiple of 2^g takes the multiple the direction names:
the nearest with ties to even, towards zero, up, down, or the nearest with ties away from zero; and it
is inexact exactly when the magnitude is no such multiple. -/
def Obligations.RoundingTakesTheNamedNeighbour : Prop :=
  ∀ (x : Mag) (neg : Bool) (g : Int), x.st = false →
    let q : ℚ := (x.m : ℚ) * 2 ^ (x.e - g)
    let lo := ⌊q⌋
    let n := fun rnd => ((x.roundAt rnd neg g).1 : Int)
    (∀ rnd, (x.roundAt rnd neg g).2 = decide (q ≠ lo))
    ∧ n 1 = lo
    ∧ n 2 = (if neg then lo else ⌈q⌉)
    ∧ n 3 = (if neg then ⌈q⌉ else lo)
    ∧ n 4 = ⌊q + 1 / 2⌋
    ∧ |q - n 0| ≤ 1 / 2
    ∧ (|q - n 0| = 1 / 2 → n 0 % 2 = 0)

namespace Sys2Proof.Machine

/-! Conversions (08_formats). -/

/-- The registers of a run from `n` on. -/
def runOf (n : BitVec 8) (k : Nat) : List Nat := (List.range k).map (n.toNat + ·)

/-- The scale register, where the record has a scale. -/
def scaleReg (rec : DWord) (r : Alu) : List Nat := if fmSck rec = 0 then [] else [r.b.toNat]

/-- A lane's block factor under a record. -/
def State.factorOf (s : State) (rec : DWord) (r : Alu) (L : Nat) : Option Mag :=
  fmFactor rec ((s.rd r.b.toNat L).toNat % 256)

/-- Codes of `wd` bits joined in one word, the first least significant, and their flags. -/
def joinCodes (wd : Nat) : List FRes → FRes
  | [] => (0, 0)
  | x :: t => (x.1 + 2 ^ wd * (joinCodes wd t).1, x.2 ||| (joinCodes wd t).2)

/-- Element `j` of a packed register under a record, as binary32 bits and flags. -/
def State.elemOf (s : State) (rec : DWord) (w : W0) (r : Alu) (L j : Nat) : FRes :=
  fmElem rec (s.factorOf rec r L) ((s.rd w.a.toNat L).toNat / 2 ^ (fmW rec * j) % 2 ^ fmW rec)

/-- The real value of an exact magnitude. -/
def Mag.real (x : Mag) : ℚ := (x.m : ℚ) * 2 ^ x.e

/-- The largest finite magnitude code, and the largest that a level lets an instruction produce (R144,
R148). -/
def topCode (r : DWord) : Nat :=
  match fmSpec r with
  | 0 => 2 ^ (fmW r - fmS r) - 1
  | 1 => 2 ^ (fmW r - fmS r) - 2
  | 2 => 2 ^ (fmW r - fmS r) - 2 ^ fmM r - 1
  | _ => 2 ^ (fmW r - fmS r) - 1
def lastCode (r : DWord) (level1 : Bool) : Nat := if level1 ∨ fmClamp r = 0 then topCode r else fmClamp r

/-- The value of a magnitude code; the code after top stands for the extension past it (R147). -/
def codeValue (r : DWord) (k : Nat) : ℚ :=
  if k ≤ topCode r then (fmDecode r k).real
  else 2 * (fmDecode r (topCode r)).real - (fmDecode r (topCode r - 1)).real

/-- The code nearest to a magnitude, ties to the even code, the extension counting as even (R147, step 3). -/
def Nearest (r : DWord) (q : ℚ) (k : Nat) : Prop :=
  k ≤ topCode r + 1 ∧ ∀ j, j ≤ topCode r + 1 →
    |q - codeValue r k| ≤ |q - codeValue r j|
    ∧ (j ≠ k → |q - codeValue r k| = |q - codeValue r j| → k = topCode r + 1 ∨ k % 2 = 0)

/-- A number narrowed in a float mode: the code nearest to its quotient by the block's factor, bounded, with its
sign, and the flags (R147, R148). -/
def NarrowsFloat (r : DWord) (level1 neg : Bool) (q : ℚ) (z : FRes) : Prop :=
  ∃ k, Nearest r q k ∧
    let c := min k (lastCode r level1)
    let exact := k ≤ lastCode r level1 ∧ codeValue r k = q
    let least := codeValue r (if fmSubn r then 2 ^ fmM r else 1)
    z.1 = c + (if neg ∧ fmS r = 1 then 2 ^ (fmW r - 1) else 0)
    ∧ z.2.testBit 0 = false ∧ z.2.testBit 1 = false ∧ z.2 < 32
    ∧ z.2.testBit 2 = decide (lastCode r level1 < k)
    ∧ z.2.testBit 4 = decide (¬ exact)
    ∧ (fmSubn r = false ∨ 2 ^ fmM r ≤ topCode r → z.2.testBit 3 = decide (q ≠ 0 ∧ q < least ∧ ¬ exact))

/-- The range of the integer mode at a level (R148). -/
def integerRange (r : DWord) (level1 : Bool) : Int × Int :=
  if fmS r = 0 then (0, lastCode r level1)
  else if level1 ∨ fmClamp r = 0 then (-2 ^ (fmW r - 1), 2 ^ (fmW r - 1) - 1) else (-fmClamp r, fmClamp r)

/-- A number converted to an integer type (R157). -/
def ConvertsTo (wd : Nat) (sg : Bool) (rnd : Nat) (neg : Bool) (q : ℚ) (z : FRes) : Prop :=
  ∃ n, RoundsTo rnd neg q n ∧
    let y : Int := if neg then -n else n
    let lo : Int := if sg then -2 ^ (wd - 1) else 0
    let hi : Int := if sg then 2 ^ (wd - 1) - 1 else 2 ^ wd - 1
    let bits := fun v => (BitVec.ofInt wd v).toNat
    (y < lo → z = (bits lo, 1)) ∧ (hi < y → z = (bits hi, 1))
    ∧ (lo ≤ y → y ≤ hi → z = (bits y, if q = n then 0 else 16))

/-- A scale byte lets a magnitude fit within a bound (R159). -/
def ScaleFits (r : DWord) (level1 : Bool) (a : ℚ) (b : Nat) (f : Mag) : Prop :=
  b < 256 ∧ fmFactor r b = some f ∧ a ≤ codeValue r (lastCode r level1) * f.real

/-- A format register has been written with a record, its reserved bits zero. -/
def FormatWritten (s t : State) (d : Nat) (x : DWord) : Prop :=
  OnlyGroup s t
    ∧ (∀ n, t.grp.fmget n = if n = d then x &&& 0x3FFF07FFFF else s.grp.fmget n)
    ∧ t.grp = { s.grp with fm := t.grp.fm }

/-! Control (04_control). -/

/-- Nothing but the two slots of the issuing group differs: the issuing slot is `x`, the other `o`. -/
def SlotsBecome (s t : State) (x o : PcSlot) : Prop :=
  OnlyGroup s t ∧ t.slot = x ∧ t.other = o
    ∧ t.grp = { s.grp with slotA := t.grp.slotA, slotB := t.grp.slotB }

/-- The slots, the cached records and the call depth of the issuing group differ, and nothing else. -/
def PathsBecome (s t : State) (x o : PcSlot) (recs : List DivRec) (depth : Nat) : Prop :=
  OnlyGroup s t ∧ t.slot = x ∧ t.other = o ∧ t.grp.recs = recs ∧ t.grp.calldepth = depth
    ∧ t.grp = { s.grp with
        slotA := t.grp.slotA, slotB := t.grp.slotB, recs := t.grp.recs, calldepth := t.grp.calldepth }

/-- A slot that goes to a clause, and one whose mask is first restored. -/
def PcSlot.at_ (x : PcSlot) (t : BitVec 24) : PcSlot := { x with pc := t, ins := 0, only := none, again := none }
def PcSlot.restored (x : PcSlot) (t : BitVec 24) : PcSlot := { x.at_ t with act := x.own }

/-- The state once the partner of the issuing slot, if it holds a path, has left its slot: it waits for no
fault-buffer entry (04_control R65). -/
def State.partnerOut (s : State) : State := if s.other.v then s.dropWait s.cur (!s.curB) else s

/-- The issuing slot's mask restored (R62). -/
def State.unmasked (s : State) : State := s.setSlot { s.slot with act := s.slot.own }

/-- The clause that a branch offset names, counted from the branching clause; none outside the code
window (02_encoding R33; R62). -/
def target (s : State) (off : BitVec 16) : Option (BitVec 24) :=
  let a : Int := s.lat.clause.toNat + off.toInt
  if 0 ≤ a ∧ a < 16777216 then some (BitVec.ofInt 24 a) else none

/-- The clause that a code address names: none where it lies outside the 64 MiB code window or is not a
multiple of 4 (R62). Where CODEBASE has been changed under teams, the access uses its old or its new value
(15_system R327). -/
def State.clauseOf (s : State) (a : DWord) : Option (BitVec 24) :=
  let base := s.codeBase s.grp.ctx
  if base ≤ a.toNat ∧ a.toNat < base + 67108864 ∧ a.toNat % 4 = 0 then
    some (BitVec.ofNat 24 ((a.toNat - base) / 4)) else none

/-- An instruction that takes its target from a register pair or a table entry `a`: `go` for code at a
native address, BADT for the Active lanes of `r` otherwise; code of a level-1 stream apart (R62). -/
def Transfers (s r : State) (out : Out) (act : Word) (a : DWord) (go : BitVec 24 → State) : Prop :=
  (s.clauseOf a = none → out = .next (r.raiseMask cBADT act a))
  ∧ (∀ t, s.clauseOf a = some t → s.l1Object s.grp.ctx s.grp.die t = none → out = .next (go t))

/-- The partner's record when it is evicted (R70). -/
def pathRec (o : PcSlot) : DivRec :=
  { kind := .path, arr := o.arr, ins := o.ins, pc := o.pc, nj := false, ja := o.ja, mask := o.own, exm := 0 }

/-- The registers, records and depth after the stack work of a call (R82): the evicted partner's record,
then a CALL record unless the caller is at divergence depth 0 with an empty stack. -/
def callRecs (s : State) : List DivRec :=
  let x := s.slot
  let ev := if s.other.v then [pathRec s.other] else []
  let own := ({ s.grp with recs := ev ++ s.grp.recs } : Group).ownRecords
  (if own ≠ 0 ∨ !x.nj then
    [{ kind := .call, pc := s.lat.next, nj := x.nj, ja := if x.nj then 0 else x.ja, mask := x.own }]
   else []) ++ ev ++ s.grp.recs

/-- The address of a group's trap frame: the last 512 bytes of its window, the nested one below. -/
def State.framePlace (s : State) (g : Group) (nest : Bool) : Nat :=
  s.winBase g + s.winSize g.ctx - (if nest then 1024 else 512)

/-- The items that REFILL gives out: vacant lanes with the items they receive, in order (R84). -/
def given (lanes : List Nat) (items : List (Word × Nat)) : List (Nat × Word × Nat) := List.zip lanes items

end Sys2Proof.Machine

/-- 08_formats R151, R155, R157, R158, R159, R160: FCVT converts between its two types; FPACK, FUNPACK and FSCL
go through a format register, and trap every Active lane when its record is off or ill-formed; FMLD and
FMST move records. What the conversions give (R143 to R145, R147, R148): a code's value times its block's factor,
rounded to binary32; the nearest code, bounded as the level says; the least scale under which a magnitude
fits; an integer of a type, or its limit.
The model's own choices: log entry 25. -/
def Obligations.FormatConversions : Prop :=
  (∀ (s : State) (w : W0) (r : Alu),
    let m := s.activeW w
    let rec_ := s.grp.fmget r.c.toNat
    let k := 32 / fmW rec_
    let td := cvtDst r.ty.toNat
    let ts := cvtSrc r.opx.toNat
    let pairA := [w.a.toNat, w.a.toNat + 1]
    let cv := fun x => td.write r.rnd.toNat (ts.read r x)
    let fitsA := w.a.toNat + k ≤ s.grp.nreg
    let fitsD := w.d.toNat + k ≤ s.grp.nreg
    (ts.width ≠ 64 → td.width ≠ 64 →
      FloatOne s (.fcvt w r) w [w.a.toNat] (fun L => cv (s.rd w.a.toNat L).toNat))
    ∧ (ts.width = 64 → td.width ≠ 64 → FloatOne s (.fcvt w r) w pairA (fun L => cv (s.rd64 w.a.toNat L).toNat))
    ∧ (ts.width ≠ 64 → td.width = 64 → FloatTwo s (.fcvt w r) w [w.a.toNat] (fun L => cv (s.rd w.a.toNat L).toNat))
    ∧ (ts.width = 64 → td.width = 64 → FloatTwo s (.fcvt w r) w pairA (fun L => cv (s.rd64 w.a.toNat L).toNat))
    ∧ (fmOk rec_ = false → m = 0 → exec (.fpack w r) s = .next s.cont ∧ exec (.funpack w r) s = .next s.cont
        ∧ exec (.fscl w r) s = .next s.cont)
    ∧ (fmOk rec_ = false → m ≠ 0 → exec (.fpack w r) s = .next (s.raiseAll cFMTX m)
        ∧ exec (.funpack w r) s = .next (s.raiseAll cFMTX m) ∧ exec (.fscl w r) s = .next (s.raiseAll cFMTX m))
    ∧ (fmOk rec_ = true → fitsA → FloatOne s (.fpack w r) w (runOf w.a k ++ scaleReg rec_ r) (fun L =>
        joinCodes (fmW rec_) ((runOf w.a k).map (fun n =>
          fmEncode rec_ (s.level1 || r.opx.getLsbD 3) (s.factorOf rec_ r L) (f32.decode (s.rd n L).toNat)))))
    ∧ (fmOk rec_ = true → ¬ fitsA → exec (.fpack w r) s = .next (s.raiseSlot cILL))
    ∧ (fmOk rec_ = true → fitsD → FloatForm s (.funpack w r) w (w.a.toNat :: scaleReg rec_ r)
        (fun L => (List.range k).foldl (fun acc j => acc ||| (s.elemOf rec_ w r L j).2) 0)
        (fun s' u m l fl => FloatWritten s' u m l fl (fun L => (List.range k).map (fun j =>
          (w.d.toNat + j, BitVec.ofNat 32 (s.elemOf rec_ w r L j).1)))))
    ∧ (fmOk rec_ = true → ¬ fitsD → exec (.funpack w r) s = .next (s.raiseSlot cILL))
    ∧ (fmOk rec_ = true → FloatOne s (.fscl w r) w [w.a.toNat] (fun L =>
        fsclVal rec_ s.level1 (f32.decode (s.rd w.a.toNat L).toNat)))
    ∧ (s.guardW w = false → exec (.fmld w r) s = .next s.cont)
    ∧ (s.guardW w = true → r.opx = 0 →
        ∃ u, exec (.fmld w r) s = .next u.cont ∧ FormatWritten s u w.d.toNat (s.rdG64 w.a.toNat))
    ∧ (s.guardW w = true → r.opx ≠ 0 → ∀ u x,
        s.fmtRecord s.grp.ctx s.grp.die (if r.opx = 1 then (s.rdG r.b.toNat).toNat % 256 else r.c.toNat)
          = (u, .ok x) →
        ∃ t, exec (.fmld w r) s = .next t.cont ∧ FormatWritten u t w.d.toNat x)
    ∧ WritesGroup s (.fmst w r) w (two w.d.toNat (s.grp.fmget w.a.toNat)))
  ∧ (∀ (r : Alu) (f : FFmt) (wd x rnd : Nat) (sg neg sig : Bool) (m : Mag), wd = 32 ∨ wd = 64 → rnd < 4 →
    let y := asInt (!sg) (BitVec.ofNat wd x)
    (CvtTy.flt f).read r x = f.decode (signed f r.aa r.na x)
    ∧ (CvtTy.int wd sg).read r x = .fin (decide (y < 0)) { m := y.natAbs, e := 0 }
    ∧ (∀ v, (CvtTy.flt f).write rnd v = f.deliver rnd (v, if v = .nan true then 1 else 0))
    ∧ (CvtTy.int wd sg).write rnd (.nan sig) = (0, 1)
    ∧ (CvtTy.int wd sg).write rnd (.inf neg) = ((BitVec.ofInt wd (if neg then (if sg then -2 ^ (wd - 1) else 0)
        else if sg then 2 ^ (wd - 1) - 1 else 2 ^ wd - 1)).toNat, 1)
    ∧ (m.st = false → (m.m = 0 → m.e ≤ 0) →
        ConvertsTo wd sg rnd neg m.real ((CvtTy.int wd sg).write rnd (.fin neg m))))
  ∧ (∀ (r : DWord) (c : Nat), fmOk r = true → c < 2 ^ fmW r →
    let b := fmBias r
    let s := decide (fmS r = 1) && c.testBit (fmW r - 1)
    let mag := c % 2 ^ (fmW r - fmS r)
    let e := mag / 2 ^ fmM r
    let m := mag % 2 ^ fmM r
    let nan := (fmSpec r = 1 ∧ mag = 2 ^ (fmW r - fmS r) - 1) ∨ (fmSpec r = 2 ∧ e = 2 ^ fmE r - 1 ∧ m ≠ 0)
    let inf := fmSpec r = 2 ∧ e = 2 ^ fmE r - 1 ∧ m = 0
    let d := fmDecode r c
    (fmSpec r = 3 → d.exact = true ∧ d.real = (if fmS r = 1 then (BitVec.ofNat (fmW r) c).toInt else c) * 2 ^ (-b))
    ∧ (nan → d = .nan false) ∧ (inf → d = .inf s)
    ∧ (fmSpec r ≠ 3 → ¬ nan → ¬ inf → d.exact = true ∧ d.neg = s ∧ d.real = (if s then -1 else 1) *
        (if e = 0 ∧ fmSubn r = true then (m : ℚ) * 2 ^ (1 - b - fmM r) else if e = 0 ∧ m = 0 then 0
         else ((2 ^ fmM r + m : Nat) : ℚ) * 2 ^ (e - b - fmM r))))
  ∧ (∀ (r : DWord) (b : Nat), b < 256 →
    (fmSck r = 0 → fmFactor r b = some { m := 1, e := 0 })
    ∧ (fmSck r = 1 → (fmFactor r b).map Mag.real = some ((2 : ℚ) ^ (BitVec.ofNat 8 b).toInt))
    ∧ (fmSck r = 2 → (fmFactor r b).map Mag.real = if b = 0x80 then none
        else some ((4 + (b % 4 : Nat)) / 4 * (2 : ℚ) ^ (BitVec.ofNat 6 (b / 4)).toInt)))
  ∧ (∀ (r : DWord) (c : Nat) (f m : Mag) (neg sig : Bool),
    fmElem r none c = (0, 0)
    ∧ (fmDecode r c = .nan sig → f.m ≠ 0 → fmElem r (some f) c = (0x7FC00000, 0))
    ∧ (fmDecode r c = .inf neg → f.m ≠ 0 → fmElem r (some f) c = (if neg then 0xFF800000 else 0x7F800000, 0))
    ∧ (fmDecode r c = .fin neg m → f.st = false → ∃ p : Mag, p.st = false ∧ p.real = m.real * f.real
        ∧ fmElem r (some f) c = f32.round 0 neg p))
  ∧ (∀ (r : DWord) (lv neg sig : Bool) (b : Nat) (f m : Mag), fmOk r = true → fmFactor r b = some f → m.st = false →
    let enc := fmEncode r lv (some f)
    let q := m.real / f.real
    let last := lastCode r lv
    let top := 2 ^ fmE r - 1
    (∀ x : FNum, fmEncode r lv none x = (0, if x.isZero then 0 else 16))
    ∧ enc (.nan sig) = (if fmSpec r = 1 then (2 ^ (fmW r - fmS r) - 1, if sig then 1 else 0)
        else if fmSpec r = 2 ∧ fmM r ≠ 0 then (top * 2 ^ fmM r + 2 ^ (fmM r - 1), if sig then 1 else 0) else (0, 1))
    ∧ (fmS r = 0 → neg = true → enc (.inf neg) = (0, 1))
    ∧ ((fmS r = 1 ∨ neg = false) → fmSpec r = 3 → enc (.inf neg) = ((BitVec.ofInt (fmW r)
        (if neg then (integerRange r lv).1 else (integerRange r lv).2)).toNat, 1))
    ∧ ((fmS r = 1 ∨ neg = false) → fmSpec r ≠ 3 → enc (.inf neg) =
        (let sg := if neg then 2 ^ (fmW r - 1) else 0
         if lv = false ∧ fmSpec r = 2 ∧ fmClamp r = 0 then (top * 2 ^ fmM r + sg, 0) else (last + sg, 1)))
    ∧ (fmS r = 0 → neg = true → m.m ≠ 0 → (enc (.fin neg m)).1 = 0 ∧ (enc (.fin neg m)).2.testBit 4 = true
        ∧ (enc (.fin neg m)).2.testBit 0 = false)
    ∧ ((fmS r = 1 ∨ neg = false ∨ m.m = 0) → fmSpec r ≠ 3 → NarrowsFloat r lv neg q (enc (.fin neg m)))
    ∧ ((fmS r = 1 ∨ neg = false ∨ m.m = 0) → fmSpec r = 3 → ∃ n, RoundsTo 0 neg (q * 2 ^ fmBias r) n ∧
        let y : Int := if neg then -n else n
        let lim := integerRange r lv
        enc (.fin neg m) = ((BitVec.ofInt (fmW r) (max lim.1 (min y lim.2))).toNat,
          if y < lim.1 ∨ lim.2 < y then 20 else if q * 2 ^ fmBias r = n then 0 else 16)))
  ∧ (∀ (r : DWord) (lv neg sig : Bool) (m : Mag), fmOk r = true → m.st = false →
    let z := fsclVal r lv (.fin neg m)
    (fmSck r = 0 → ∀ x, fsclVal r lv x = (0, 0))
    ∧ (fmSck r ≠ 0 → fsclVal r lv (.nan sig) = (0x7F, 1) ∧ fsclVal r lv (.inf neg) = (0x7F, 1))
    ∧ (fmSck r ≠ 0 → m.m = 0 → z = (if fmSck r = 2 then 0x80 else 0, 0))
    ∧ (fmSck r ≠ 0 → m.m ≠ 0 → (∀ b f, ¬ ScaleFits r lv m.real b f) → z = (0x7F, 4))
    ∧ (fmSck r ≠ 0 → m.m ≠ 0 → ∀ b f, ScaleFits r lv m.real b f → z.2 = 0
        ∧ ∃ g, ScaleFits r lv m.real z.1 g ∧ g.real ≤ f.real))

/-- 02_encoding R33; 04_control R62, R69: BRA, BRX and TRAMP move the whole slot when their guard holds, its
mask as it is; a target outside the code window traps the Active lanes before any effect; a
trampoline index past the table's end is illegal. -/
def Obligations.JumpsMoveTheSlot : Prop :=
  ∀ (s : State) (b : Br) (w : W0) (imm : Word),
    let at_ := fun (s : State) t => s.setSlot (s.slot.at_ t)
    ((∀ k, s.cregOld.getD k 0 = 0) → s.codeBase s.grp.ctx = s.cr64 s.grp.ctx 4)
    ∧ (s.guardG b.g b.n = false → exec (.bra b) s = .next s.cont)
    ∧ (s.guardW w = false → exec (.brx w) s = .next s.cont ∧ exec (.tramp w imm) s = .next s.cont)
    ∧ (s.guardG b.g b.n = true → target s b.off = none →
        exec (.bra b) s = .next (s.raiseMask cBADT (s.active b.g b.n)))
    ∧ (s.guardG b.g b.n = true → ∀ t, target s b.off = some t →
        Runs (.bra b) s (fun u => SlotsBecome s u (s.slot.at_ t) s.other))
    ∧ (s.guardW w = true → Transfers s s (exec (.brx w) s) (s.activeW w) (s.rdG64 w.a.toNat) (at_ s))
    ∧ (∀ t, SlotsBecome s (at_ s t) (s.slot.at_ t) s.other)
    ∧ (s.guardW w = true → (s.cr s.grp.ctx 0xB).toNat ≤ imm.toNat →
        exec (.tramp w imm) s = .next (s.raiseSlot cILL))
    ∧ (s.guardW w = true → imm.toNat < (s.cr s.grp.ctx 0xB).toNat → ∀ s1 bs,
        s.groupRead s.cur (vaOf (BitVec.ofNat 64 (s.cr64 s.grp.ctx 9 + 8 * imm.toNat))) 8 4 true = (s1, .ok bs) →
        anyPois bs = false →
        let u := s1.acquireAt s.cur 4
        Transfers u u (exec (.tramp w imm) s) (u.activeW w) (BitVec.ofNat 64 (vbytesNat bs)) (at_ u))

/-- 04_control R70: BRD. With one side empty the slot moves whole, its mask restored; with both the path
splits, an old partner and the outer join going to the records; only the addresses acted on are
checked. A partner sent to the records waits for no fault-buffer entry any more (R65). -/
def Obligations.DivergentBranchSplitsThePath : Prop :=
  ∀ (s : State) (b : Br) (j : Word),
    let x := s.slot
    let o := s.other
    let t := x.own &&& s.guardMask b.g b.n
    let n := x.own &&& ~~~s.guardMask b.g b.n
    let act := s.active b.g b.n
    let jn := target s (j.extractLsb' 0 16)
    (t = 0 → Runs (.brd b j) s (fun u => SlotsBecome s u (x.restored s.lat.next) o))
    ∧ (t ≠ 0 → target s b.off = none → exec (.brd b j) s = .next (s.raiseMask cBADT act))
    ∧ (t ≠ 0 → n = 0 → ∀ tg, target s b.off = some tg →
        Runs (.brd b j) s (fun u => SlotsBecome s u (x.restored tg) o))
    ∧ (t ≠ 0 → n ≠ 0 → (target s b.off).isSome → jn = none → exec (.brd b j) s = .next (s.raiseMask cBADT act))
    ∧ (t ≠ 0 → n ≠ 0 → s.grp.recs.length ≤ 6 → s.grp.records ≤ 4094 → ∀ tg jc, target s b.off = some tg →
        jn = some jc →
        Runs (.brd b j) s (fun u => PathsBecome s.partnerOut u
          { x.at_ s.lat.next with own := n, act := n, ja := jc, nj := false }
          { v := true, pc := tg, own := t, act := t, ja := jc }
          ((if x.nj then [] else [{ kind := .join, pc := jc, ja := x.ja, mask := x.own }])
            ++ (if o.v then [pathRec o] else []) ++ s.grp.recs)
          s.grp.calldepth))
    ∧ (t ≠ 0 → n ≠ 0 → 4096 ≤ s.grp.records → (o.v = true ∨ x.nj = false) → (target s b.off).isSome → jn.isSome →
        exec (.brd b j) s = .next (s.raiseMask cDIVX act))
    ∧ (∀ gk c, let u := s.dropWait gk c
        u = { s with cores := u.cores } ∧ (u.coreAt (coreKey (s.group gk).die (s.group gk).core)).waits gk c = false)

/-- 04_control R75, R76: JOIN. At another address than the path's own it is a plain branch; at its own the
path arrives and waits for a partner that has not, or merges with one that has, in the partner's slot,
under the join record on top of the stack; with neither partner nor record it goes on alone.
04_control R78, R85: EXIT takes the Active lanes from the slot and from every record. A slot with lanes
left goes on; one without is freed, and with no path left the group stands at its refill point, or at
none. In a handler the lanes that leave join XK of its frame. A slot that is freed waits for no fault-buffer
entry (R65).
The model's own choices: log entry 21. -/
def Obligations.JoinsMergeAndExitsEndPaths : Prop :=
  (∀ (s : State) (b : Br) (t : BitVec 24), target s b.off = some t →
    let x := s.slot
    let o := s.other
    let here := x.nj = false ∧ x.ja = t
    let both := x.own ||| o.own
    (¬ here → Runs (.join b) s (fun u => SlotsBecome s u (x.restored t) o))
    ∧ (here → o.v = true → o.arr = false →
        Runs (.join b) s (fun u => SlotsBecome s u { x.restored t with arr := true } o))
    ∧ (here → o.v = true → o.arr = true → s.grp.ownRecords = 0 →
        Runs (.join b) s (fun u => SlotsBecome s u {}
          { v := true, pc := t, own := both, act := both, ja := o.ja, nj := true }))
    ∧ (here → o.v = true → o.arr = true → s.grp.ownRecords ≠ 0 → s.grp.spilled = 0 → ∀ r rest,
        s.grp.recs = r :: rest → r.kind = .join → r.mask ≠ 0 → (∀ q ∈ rest.head?, q.kind ≠ .path ∨ q.ja ≠ r.ja) →
        Runs (.join b) s (fun u => PathsBecome s u {}
          { v := true, pc := t, own := both, act := both, ja := r.ja, nj := false } rest s.grp.calldepth))
    ∧ (here → o.v = false → s.grp.ownRecords = 0 →
        Runs (.join b) s (fun u => SlotsBecome s u
          { v := true, pc := t, own := x.own, act := x.own, ja := x.ja, nj := true } {})))
  ∧ (∀ (s : State) (w : W0),
    let e := s.activeW w
    let x := s.slot
    let y := x.advance s.lat
    let gone := fun (b t : State) =>
      t.grp.recs = s.grp.recs.map (fun r => { r with mask := r.mask &&& ~~~e })
        ∧ t.grp.xs = (if s.grp.spilled = 0 then s.grp.xs else s.grp.xs ||| e)
        ∧ t.grp = { s.grp with
            slotA := t.grp.slotA, slotB := t.grp.slotB, recs := t.grp.recs, xs := t.grp.xs }
        ∧ OnlyGroup b t
    let v := s.cont.modGrp (fun g => { g with
      recs := g.recs.map (fun r => { r with mask := r.mask &&& ~~~e })
      xs := if g.spilled = 0 then g.xs else g.xs ||| e })
    let xk := vaOf (BitVec.ofNat 64 (s.framePlace s.grp false)) + 8
    (e = 0 → exec (.exit w) s = .next s.cont)
    ∧ (e ≠ 0 → ∀ k u bs t, s.grp.traps = [k] → v.groupRead s.cur xk 4 4 false = (u, .ok bs) →
        u.engineStore s.grp.ctx s.grp.die s.grp.core xk
          (wordBytes [BitVec.ofNat 32 (vbytesNat bs) ||| (k.xk ||| e)]) = (t, none) →
        t.cur = s.cur → t.curB = s.curB → t.slot.own &&& ~~~e ≠ 0 →
        Runs (.exit w) s (fun r => OnlyGroup t r ∧ r.other = t.other
          ∧ r.slot = { t.slot with own := t.slot.own &&& ~~~e, act := t.slot.act &&& ~~~e }))
    ∧ (s.grp.traps = [] → e ≠ 0 → x.own &&& ~~~e ≠ 0 → Runs (.exit w) s (fun t => gone s t ∧ t.other = s.other
        ∧ t.slot = { y with own := x.own &&& ~~~e, act := x.act &&& ~~~e }))
    ∧ (s.grp.traps = [] → e ≠ 0 → x.own &&& ~~~e = 0 → s.other.v = true → s.other.arr = false →
        Runs (.exit w) s (fun t => gone (s.dropWait s.cur s.curB) t ∧ t.slot = {} ∧ t.other = s.other))
    ∧ (s.grp.traps = [] → e ≠ 0 → x.own &&& ~~~e = 0 → s.other.v = false → s.grp.records = 0 →
        Runs (.exit w) s (fun t => gone (s.dropWait s.cur s.curB) t ∧ t.grp.slotB = (if s.curB then {} else s.other)
          ∧ t.grp.slotA = (match s.grp.rp with
              | none => if s.curB then s.other else {}
              | some r => { v := true, pc := r, nj := true }))))

/-- 04_control R82: a call seals the caller's paths in records, writes the link g62:g63, counts one call level,
and goes to its target with the mask restored; CALL takes the branch target, CALLG a register pair, CALLX a
linkage entry. The mask is restored before any check, so that an illegal index or a bad target (R62) traps the
lanes of the restored mask.
04_control R83: RET. A zero link exits the path's lanes; a return inside an unjoined divergence traps; otherwise
the slot goes to the link with its mask restored and one call level less, the caller's join address taken from a
CALL record on top.
The model's own choices: log entries 21, 24. -/
def Obligations.CallsLinkAndReturnsFollow : Prop :=
  (∀ (s : State) (b : Br) (w : W0) (imm : Word),
    (s.guardG b.g b.n = false → exec (.call b) s = .next s.cont)
    ∧ (s.guardW w = false → exec (.callg w) s = .next s.cont ∧ exec (.callx w imm) s = .next s.cont)
    ∧ (s.guardG b.g b.n = true → target s b.off = none →
        exec (.call b) s = .next (s.unmasked.raiseMask cBADT (s.unmasked.active b.g b.n)))
    ∧ (s.guardG b.g b.n = true → ∀ t, target s b.off = some t →
        exec (.call b) s = .next (s.callTo { g := b.g, n := b.n, f := false, d := 0, a := 0, h := false } t))
    ∧ (s.guardW w = true →
        Transfers s s.unmasked (exec (.callg w) s) (s.unmasked.activeW w) (s.rdG64 w.a.toNat) (s.callTo w))
    ∧ (s.guardW w = true → (s.cr s.grp.ctx 8).toNat ≤ imm.toNat →
        exec (.callx w imm) s = .next (s.unmasked.raiseSlot cILL))
    ∧ (s.guardW w = true → imm.toNat < (s.cr s.grp.ctx 8).toNat → ∀ s1 bs,
        s.groupRead s.cur (vaOf (BitVec.ofNat 64 (s.cr64 s.grp.ctx 6 + 8 * imm.toNat))) 8 4 true = (s1, .ok bs) →
        anyPois bs = false →
        let u := s1.acquireAt s.cur 4
        Transfers u u.unmasked (exec (.callx w imm) s) (u.unmasked.activeW w) (BitVec.ofNat 64 (vbytesNat bs)) (u.callTo w))
    ∧ (s.grp.recs.length ≤ 6 → s.grp.records ≤ 4094 → ∀ t,
        let u := s.callTo w t
        let link : DWord := BitVec.ofNat 64 (s.codeBase s.grp.ctx + 4 * s.lat.next.toNat)
        OnlyGroup s.partnerOut u ∧ u.slot = { s.slot.restored t with nj := true }
          ∧ u.other = (if s.other.v then {} else s.other)
          ∧ u.grp.recs = callRecs s ∧ u.grp.calldepth = s.grp.calldepth + 1
          ∧ u.grp.gget 62 = lo32 link ∧ u.grp.gget 63 = hi32 link
          ∧ (∀ n, n ≠ 62 → n ≠ 63 → u.grp.gget n = s.grp.gget n)
          ∧ u.grp = { s.grp with
              slotA := u.grp.slotA, slotB := u.grp.slotB, recs := u.grp.recs, calldepth := u.grp.calldepth
              g := u.grp.g }))
  ∧ (∀ (s : State) (w : W0),
    let link := s.rdG64 62
    let x := s.slot
    let r := s.setSlot { x with act := x.own }
    let act := r.activeW w
    (s.guardW w = false → exec (.ret w) s = .next s.cont)
    ∧ (s.guardW w = true → link = 0 → s.grp.traps = [] → x.own ≠ 0 → s.other.v = true → s.other.arr = false →
        Runs (.ret w) s (fun t => t.slot = {} ∧ t.other = s.other ∧ OnlyGroup (s.dropWait s.cur s.curB) t))
    ∧ (s.guardW w = true → link ≠ 0 → x.nj = false → exec (.ret w) s = .next (r.raiseMask cDIVR act))
    ∧ (s.guardW w = true → link ≠ 0 → x.nj = true → s.clauseOf link = none →
        exec (.ret w) s = .next (r.raiseMask cBADT act link))
    ∧ (s.guardW w = true → link ≠ 0 → x.nj = true → ∀ t, s.clauseOf link = some t →
        s.l1Object s.grp.ctx s.grp.die t = none → s.grp.ownRecords = 0 →
        Runs (.ret w) s (fun u => PathsBecome s u (x.restored t) s.other s.grp.recs (s.grp.calldepth - 1)))
    ∧ (s.guardW w = true → link ≠ 0 → x.nj = true → ∀ t, s.clauseOf link = some t →
        s.l1Object s.grp.ctx s.grp.die t = none → s.grp.ownRecords ≠ 0 → s.grp.spilled = 0 → ∀ r rest,
        s.grp.recs = r :: rest → r.kind = .call → r.mask ≠ 0 →
        (r.nj = true ∨ ∀ q ∈ rest.head?, q.kind ≠ .path ∨ q.ja ≠ r.ja) →
        Runs (.ret w) s (fun u => PathsBecome s u
          { x.restored t with ja := r.ja, nj := r.nj } s.other rest (s.grp.calldepth - 1))))

/-- 04_control R84: REFILL gives the items of its core's queue to the vacant lanes in order, at divergence
and call depth 0 outside a handler; elsewhere it only goes on; it waits for loads and atomics of vacant lanes; with no
lane and no item left the group's path ends. Native code, so that no migration stands open.
The model's own choices: log entry 23. -/
def Obligations.RefillAdmitsItems : Prop :=
  ∀ (s : State) (w : W0),
    let x := s.slot
    let acts := x.nj = true ∧ s.other.v = false ∧ s.grp.records = 0 ∧ s.grp.calldepth = 0 ∧ s.grp.traps = []
    let vacant := s.grp.populated &&& ~~~x.own
    let waits := ∃ o ∈ s.grp.pend, (∃ p ∈ o.v, inMask vacant (p.key % 32) = true)
      ∨ (∃ k ∈ o.dst, inMask vacant (k % 32) = true)
    let ck := coreKey s.grp.die s.grp.core
    let q := ((s.coreAt ck).items.getD s.grp.launch {}).items
    let got := given (lanesOf vacant) q
    let own := x.own ||| ofBits (fun L => decide (L ∈ got.map (·.1)))
    (¬ acts → exec (.refill w) s = .next s.cont)
    ∧ (acts → waits → exec (.refill w) s = .next s.holdIssue)
    ∧ (acts → ¬ waits → s.transAt s.grp.ctx s.lat.clause = none → own ≠ 0 →
        Runs (.refill w) s (fun t =>
          t.slot = { x with own := own, act := own }.advance s.lat ∧ t.other = s.other
            ∧ t.grp.rp = some s.lat.clause ∧ t.grp.gpget 0 = true
            ∧ (∀ L, L < 32 → t.grp.vget w.d.toNat L = match got.find? (fun e => e.1 = L) with
                | some e => e.2.1 | none => s.grp.vget w.d.toNat L)
            ∧ (∀ L, t.grp.workidx.getD L 0 = match got.find? (fun e => e.1 = L) with
                | some e => BitVec.ofNat 32 e.2.2 | none => s.grp.workidx.getD L 0)
            ∧ (∀ n L, n ≠ w.d.toNat → L < 32 → t.grp.vget n L = s.grp.vget n L)
            ∧ ((t.coreAt ck).items.getD s.grp.launch {}).items = q.drop got.length
            ∧ SameMem s t))
    ∧ (acts → ¬ waits → own = 0 → s.itemsDone s.grp.launch = true → q = [] →
        Runs (.refill w) s (fun t => t.slot = {} ∧ t.other = s.other ∧ t.grp.rp = none
          ∧ t.grp.gpget 0 = false ∧ OnlyGroup s t))

/-- 02_encoding R38; 04_control R80, R81, R86, R87: NOP, YIELD, SLEEP, DSTAT, MASKR and MASKW. YIELD only ends
its group's continuation at the port; a sleeping slot stands at its SLEEP until its ticks have passed.
The model's own choices: log entry 55. -/
def Obligations.MasksStatusAndSleep : Prop :=
  ∀ (s : State) (w : W0) (imm : Word),
    let x := s.slot
    let ck := coreKey s.grp.die s.grp.core
    let yields := fun (t : State) =>
      ((t.coreAt ck).ports.getD s.grp.port {}).yld = true ∧ t.slot = x.advance s.lat ∧ t.other = s.other
        ∧ t.groups = s.cont.groups ∧ t = { s.cont with cores := t.cores }
    let n := s.grp.ownRecords
    exec (.nop w) s = .next s.cont
    ∧ (s.guardW w = false → exec (.yield w) s = .next s.cont ∧ exec (.sleep w imm) s = .next s.cont
        ∧ exec (.maskw w) s = .next s.cont)
    ∧ (s.guardW w = true → Runs (.yield w) s yields)
    ∧ (s.guardW w = true → imm = 0 → Runs (.sleep w imm) s yields)
    ∧ (s.guardW w = true → imm ≠ 0 → Runs (.sleep w imm) s (fun t => SlotsBecome s t
        { x with slp := true, wake := (s.dieTime s.grp.die + imm.toNat) % 2 ^ 64, wpc := (x.advance s.lat).pc, wins := (x.advance s.lat).ins }
        s.other))
    ∧ WritesGroup s (.dstat w) w (one w.d.toNat (BitVec.ofNat 32 (n + 33554432 * min s.grp.recs.length n
        + (if x.nj then 536870912 else 0) + (if s.other.v && s.other.arr then 1073741824 else 0)
        + (if s.other.v then 2147483648 else 0))))
    ∧ WritesGroup s (.maskr w) w (one w.d.toNat x.act)
    ∧ (s.guardW w = true → Runs (.maskw w) s (fun t => SlotsBecome s t
        ({ x with act := s.rdG w.a.toNat &&& x.own }.advance s.lat) s.other))

namespace Sys2Proof.Machine

/-! Traps and parks (15_system R344 to R348). -/

/-- The lanes of a pending trap, and the trap of its lowest-numbered one. -/
def lanesIn (p : PendTrap) : Word := ofBits (fun L => p.lanes.any (fun t => decide (t.lane = L)))

/-- Word 0 of a slot in a frame: SLP, ARR, NJ, V, INS, PC. -/
def slotWord (x : PcSlot) : Word :=
  BitVec.ofNat 32 (x.pc.toNat + x.ins % 16 * 2 ^ 24 + (if x.v then 2 ^ 28 else 0) + (if x.nj then 2 ^ 29 else 0)
    + (if x.arr then 2 ^ 30 else 0) + (if x.slp then 2 ^ 31 else 0))

/-- The slot whose trap replays its instruction makes it anew for the trapping lanes alone (R347). -/
def replaying (k : TrapCtx) (b : Bool) (x : PcSlot) : PcSlot :=
  if k.replay = true ∧ b = k.slotB ∧ x.pc = k.pc ∧ x.ins = k.ins ∧ k.tlanes ≠ 0 then
    { x with only := some k.tlanes, again := none } else x

/-- The store of a trap frame answers a state without a fault. -/
def FrameStored (s : State) (g : Group) (p : PendTrap) (nest : Bool) (t : State) : Prop :=
  s.engineStore g.ctx g.die g.core (vaOf (BitVec.ofNat 64 (s.framePlace g nest)))
    (wordBytes (frameWords g p nest g.ownRecords)) = (t, none)

end Sys2Proof.Machine

/-- 15_system R344, R346: a pending trap is taken by writing its frame and entering the handler in slot A with
the trapping lanes; the nested frame serves the handler's first ERX, any other trap in a handler parks
the group with DBL at the instruction that raised it, a frame page that does not translate parks it with
that cause, and without a handler it parks with NOHND, the frame written.
15_system R345: the words of a trap frame.
The model's own choices: log entries 17, 56. -/
def Obligations.TrapEntersTheHandlerWithItsFrame : Prop :=
  (∀ (s : State) (lanes : List LaneTrap) (replay : Bool) (code : Nat), lanes ≠ [] →
    let p : PendTrap := { slotB := s.curB, lanes, code, replay, pc := s.slot.pc, ins := s.slot.ins
                          ipc := s.lat.clause, iins := s.lat.ins, word := s.lat.word }
    s.raise lanes replay code = (s.modGrp (fun g => { g with trapPend := some p })).takeTrap s.cur)
  ∧ (∀ (s : State) (gk : Nat) (p : PendTrap), (s.group gk).trapPend = some p →
    let g := s.group gk
    let first := g.traps = []
    let nested := ∃ t, g.traps = [t] ∧ t.nested = false ∧ p.code_ = cERX
    let nest := decide (g.traps ≠ [])
    let fa : DWord := BitVec.ofNat 64 (s.framePlace g nest)
    (first ∨ nested → ∀ t, FrameStored s g p nest t → ∀ vec, t.trapVec g.ctx = some vec →
      let h := (s.takeTrap gk).group gk
      let c := t.countGroup gk 0x09
      let d := if p.lanes.any (fun x => x.cause = cERX) then c.countGroup gk 0x0A else c
      s.takeTrap gk = ((d.dropWait gk false).dropWait gk true).setGroup gk h
        ∧ h.slotA = { v := true, pc := vec, own := trapLanes p.lanes, act := trapLanes p.lanes, nj := true }
        ∧ h.slotB = {} ∧ h.calldepth = 0 ∧ h.rp = none ∧ h.trapPend = none
        ∧ h.records = g.records ∧ h.ownRecords = 0 ∧ h.traps.length = g.traps.length + 1
        ∧ h.gget 56 = lo32 fa ∧ h.gget 57 = hi32 fa ∧ h.gget 58 = frameWord0 p nest
        ∧ h.gget 59 = trapLanes p.lanes ∧ h.gget 62 = 0 ∧ h.gget 63 = 0
        ∧ (∀ n, n ∉ [56, 57, 58, 59, 62, 63] → h.gget n = g.gget n)
        ∧ h = { g with
            slotA := h.slotA, slotB := h.slotB, calldepth := h.calldepth, rp := h.rp, trapPend := h.trapPend
            traps := h.traps, g := h.g })
    ∧ (first ∨ nested → ∀ t, FrameStored s g p nest t → t.trapVec g.ctx = none →
      let x : PcSlot := { g.slot p.slotB with
        pc := p.pc, ins := p.ins, only := none, again := none }
      let parked : Group := g.setSlot p.slotB x
      s.takeTrap gk = (t.setGroup gk { parked with trapPend := none }).parkWith gk
        { cause := cNOHND, slotB := p.slotB, lanes := trapLanes p.lanes, addr := (firstTrap p.lanes).addr
          word := p.word })
    ∧ (first ∨ nested → ∀ t c va, s.engineStore g.ctx g.die g.core (vaOf fa)
        (wordBytes (frameWords g p nest g.ownRecords)) = (t, some (c, va)) →
      s.takeTrap gk = t.parkWith gk
        { cause := c, slotB := p.slotB, lanes := trapLanes p.lanes, addr := BitVec.ofNat 64 va, word := p.word })
    ∧ (¬ first → ¬ nested →
      let raised : Group := g.setSlot p.slotB { g.slot p.slotB with pc := p.ipc, ins := p.iins }
      s.takeTrap gk = (s.setGroup gk { raised with trapPend := none }).parkWith gk
        { cause := cDBL, slotB := p.slotB, lanes := trapLanes p.lanes, addr := (firstTrap p.lanes).addr
          word := p.word }))
  ∧ (∀ (g : Group) (p : PendTrap) (nest : Bool) (n : Nat),
    let ws := frameWords g p nest n
    let f := fun i => ws.getD i 0
    let slot := fun b => if b = p.slotB then { g.slot b with pc := p.pc, ins := p.ins } else g.slot b
    let trap := fun L => p.lanes.find? (fun t => t.lane = L)
    ws.length = 96
    ∧ f 0 = BitVec.ofNat 32 (p.code_ + (if p.slotB then 256 else 0) + (if nest then 512 else 0) + p.code % 256 * 65536)
    ∧ f 1 = lanesIn p ∧ f 2 = 0 ∧ f 3 = 0
    ∧ f 4 = slotWord (slot false) ∧ f 5 = (slot false).own ∧ f 6 = (slot false).act
    ∧ f 7 = (slot false).ja.setWidth 32
    ∧ f 8 = slotWord (slot true) ∧ f 9 = (slot true).own ∧ f 10 = (slot true).act
    ∧ f 11 = (slot true).ja.setWidth 32
    ∧ f 12 = BitVec.ofNat 32 n ∧ f 13 = g.xs ∧ f 14 = BitVec.ofNat 32 g.calldepth
    ∧ f 15 = (match g.rp with | none => 0 | some r => 0x80000000 ||| r.setWidth 32)
    ∧ f 16 = g.fpstat ∧ f 17 = g.memst ∧ f 18 = g.csw ∧ f 19 = g.cpyst ∧ f 20 = g.mstst
    ∧ f 22 = lo32 (firstTrap p.lanes).addr ∧ f 23 = hi32 (firstTrap p.lanes).addr
    ∧ (∀ i, i < 12 → f (24 + i) = g.pget i)
    ∧ f 36 = BitVec.ofNat 32 ((g.gpget 0).toNat + 2 * (g.gpget 1).toNat + 4 * (g.gpget 2).toNat)
    ∧ f 38 = g.tlatch ∧ f 39 = 0
    ∧ (∀ i, i < 8 → f (40 + 2 * i) = lo32 (g.fmget i) ∧ f (41 + 2 * i) = hi32 (g.fmget i))
    ∧ (∀ i, i < 8 → f (56 + i) = g.gget (56 + i))
    ∧ (∀ L, L < 32 → f (64 + L) = match trap L with
        | none => 0 | some t => BitVec.ofNat 32 (t.cause % 64 + t.lexc * 64)))

/-- 04_control R88, R89, R90; 15_system R347: TRAP and BRK with lanes trap or park at the next instruction;
TRET outside a handler is illegal, from a diverged handler a double trap, and otherwise reloads the
interrupted group from its frame as the frame's words now stand, less the lanes of XK. What no frame word
holds, a slot that still stands at its instruction keeps: the lanes of a replay, a parked instruction's
Active, and its sleep; a replaying trap's slot makes its instruction anew for the trapping lanes alone.
The model's own choices: log entries 22, 56. -/
def Obligations.SoftwareTrapsAndTrapReturn : Prop :=
  ∀ (s : State) (w : W0),
    let m := s.activeW w
    let g := s.grp
    let nest := decide (1 < g.traps.length)
    (m = 0 → exec (.trap w) s = .next s.cont ∧ exec (.brk w) s = .next s.cont)
    ∧ (m ≠ 0 → exec (.trap w) s = .next (s.cont.raise
        ((lanesOf m).map (fun L => { lane := L, cause := cSWT })) false w.d.toNat))
    ∧ ((s.cr g.ctx 0).getLsbD 3 = false → exec (.brk w) s = .next s.cont)
    ∧ (m ≠ 0 → (s.cr g.ctx 0).getLsbD 3 = true → exec (.brk w) s = .next (s.cont.parkWith s.cur
        { cause := cBRK, slotB := s.curB, lanes := m, addr := 0, code := w.d.toNat, word := s.lat.word }))
    ∧ (g.traps = [] → exec (.tret w) s = .next (s.raiseSlot cILL))
    ∧ (g.traps ≠ [] → s.other.v = true ∨ s.slot.nj = false ∨ g.ownRecords ≠ 0 →
        exec (.tret w) s = .next (s.park cDBL s.slot.act 0))
    ∧ (∀ k rest u bs, g.traps = k :: rest → s.other.v = false → s.slot.nj = true → g.ownRecords = 0 →
        s.groupRead s.cur (vaOf (BitVec.ofNat 64 (s.framePlace g nest))) 384 4 false = (u, .ok bs) →
        let f := fun n => (wordsLE (bs.map (·.val)) 96).getD n 0
        let a := restoredSlot (PcSlot.ofFrame (f 4) (f 5) (f 6) (f 7)) k.keepA
        let b := restoredSlot (PcSlot.ofFrame (f 8) (f 9) (f 10) (f 11)) k.keepB
        let xk := f 2 ||| k.xk
        (slotsOk a b = false → exec (.tret w) s = .next (u.park cDBL u.slot.act 0))
        ∧ (slotsOk a b = true → a.v = true → b.v = false → a.own &&& xk ≠ 0 → a.own &&& ~~~xk ≠ 0 → u.cur = s.cur →
            Runs (.tret w) s (fun t => t.grp.slotA.own = a.own &&& ~~~xk ∧ t.grp.slotA.act = a.act &&& ~~~xk
              ∧ t.grp.slotB.v = false ∧ OnlyGroup u t))
        ∧ (slotsOk a b = true → xk = 0 → (a.v = true ∨ b.v = true) → u.cur = s.cur →
            Runs (.tret w) s (fun t => OnlyGroup u t
              ∧ t.grp.slotA = replaying k false a ∧ t.grp.slotB = replaying k true b
              ∧ t.grp.traps = u.grp.traps.tail ∧ t.grp.calldepth = (f 14).toNat
              ∧ t.grp.rp = (if (f 15).getLsbD 31 then some ((f 15).extractLsb' 0 24) else none)
              ∧ t.grp.fpstat = f 16 &&& 0x1F ∧ t.grp.memst = f 17 &&& 0xF ∧ t.grp.csw = f 18 &&& 0xFF
              ∧ t.grp.cpyst = f 19 &&& 0xF0000000 ∧ t.grp.mstst = f 20 &&& 0xF0000000
              ∧ t.grp.tlatch = f 38
              ∧ (∀ i, i < 12 → t.grp.pget i = f (24 + i)) ∧ (∀ i, i < 3 → t.grp.gpget i = (f 36).getLsbD i)
              ∧ (∀ i, i < 8 → t.grp.fmget i = pair (f (40 + 2 * i)) (f (41 + 2 * i)) &&& 0x3FFF07FFFF)
              ∧ (∀ i, i < 8 → t.grp.gget (56 + i) = f (56 + i))
              ∧ (∀ n, n < 56 → t.grp.gget n = u.grp.gget n))))
    ∧ (∀ (x keep : PcSlot),
      let y := restoredSlot x keep
      let same := keep.v = true ∧ keep.pc = x.pc ∧ keep.ins = x.ins
      y = { x with act := x.act &&& x.own, only := y.only, again := y.again, wake := y.wake, wpc := y.wpc
                   wins := y.wins }
      ∧ (same → y.only = keep.only ∧ y.again = keep.again)
      ∧ (same → x.slp = true → keep.slp = true → y.wake = keep.wake ∧ y.wpc = keep.wpc ∧ y.wins = keep.wins)
      ∧ (¬ same → y.only = none ∧ y.again = none))

/-- 15_system R348, R350; 09_memory R176, R177: a park keeps the group's state, is entered in the fault queue
for the causes R348 names, and begins the reset of a reset-class context; a translation fault takes a
fault-buffer entry, and with none free the instruction is not performed and its slot waits. The parked
instruction's Active is kept, and is what it has when it is issued again, whatever its guard then reads.
The model's own choices: log entry 17. -/
def Obligations.ParksAreReported : Prop :=
  (∀ (s : State) (gk : Nat) (p : Park),
    let g := s.group gk
    let t := s.parkWith gk p
    let causes := [32, 33, 34, 35, 36, 38, 39, 40]
    let resets := (s.cr g.ctx 0).getLsbD 2 = true ∧ p.cause ∈ [32, 34, 35, 36, 39, 40]
    t.group gk = { g with park := some p }
    ∧ (p.cause ∉ causes → t.faultQ = s.faultQ)
    ∧ (p.cause ∈ causes → t.faultQ = s.faultQ ++ [[
        BitVec.ofNat 32 (p.cause + (if p.nrep then 128 else 0) + g.ctx * 256),
        BitVec.ofNat 32 (g.die * 2 ^ 18 + g.core * 2 ^ 11 + g.port * 512 + g.gslot), p.lanes, p.word.setWidth 32,
        lo32 p.addr, hi32 p.addr, BitVec.ofNat 32 (s.dieTime g.die), BitVec.ofNat 32 (s.dieTime g.die / 2 ^ 32)]])
    ∧ (resets → t.cr g.ctx 0 = s.cr g.ctx 0 ||| 0x20) ∧ (¬ resets → t.cr g.ctx 0 = s.cr g.ctx 0)
    ∧ SameMem s t)
  ∧ (∀ (s : State) (cause : Nat) (lanes : Word) (addr : DWord),
    let g := s.grp
    let ck := coreKey g.die g.core
    let c := s.coreAt ck
    (∀ i, (c.reservedFor s.cur s.curB = some i ∨ (c.reservedFor s.cur s.curB = none ∧ c.waiters = []
        ∧ c.freeEntry = some i)) →
      ∃ u, s.parkFault cause lanes addr = u.parkWith s.cur
          { cause, slotB := s.curB, lanes, addr, entry := some i, word := s.lat.word }
        ∧ u = s.keepActive.setCore ck { c with faults := (u.coreAt ck).faults }
        ∧ (u.coreAt ck).faults.getD i {} = { used := true, grp := s.cur, cause, addr, lanes, word := s.lat.word.toNat }
        ∧ (∀ k, k ≠ i → (u.coreAt ck).faults.getD k {} = c.faults.getD k {}))
    ∧ (c.reservedFor s.cur s.curB = none → c.waiters ≠ [] ∨ c.freeEntry = none →
      (s.parkFault cause lanes addr).grp = { g with issued := g.issued - 1 }
        ∧ ((s.parkFault cause lanes addr).coreAt ck).waits s.cur s.curB = true
        ∧ SameMem s (s.parkFault cause lanes addr)))
  ∧ (∀ (s : State),
    let u := s.keepActive
    let m := s.active s.lat.gd s.lat.gn
    u.slot = { s.slot with again := some m } ∧ u.other = s.other ∧ OnlyGroup s u
    ∧ (∀ (v : State) (g : BitVec 4) (n : Bool), v.slot.again = some m →
        v.active g n = v.slot.mask &&& m ∧ v.guardG g n = true))


namespace Sys2Proof.Machine

/-! Memory (03_groupwide R57, R58; 09_memory; 11_visibility). -/

/-- A lane access passes every check of R175: the registers it reads are readable in each Active lane and
each lane's address may be accessed, the lanes at the places `accs`; `u` is the state after the walks,
with a lapse of what it read recorded. -/
def State.Clear (s : State) (w : W0) (acc : Acc) (e : Bool) (size : Nat) (regs : List Nat) (addr : Nat → DWord)
    (al : Nat → Bool) (u : State) (accs : List LaneAcc) : Prop :=
  let a := s.activeW w
  ReadsClean s a (fun _ => regs)
    ∧ (if s.lapses a (fun _ => regs) then s.setMemst memstLAPSE else s).checkLanes a [] addr al acc e size
        = .go u [] accs

/-- A lane load whose checks all pass completes: its words are those its lanes find, left to the
completion, as is its acquire. -/
def LoadRuns (s : State) (i : Instr) (w : W0) (m : MemF) (regs : List Nat) (addr : Nat → DWord)
    (al : Nat → Bool) (md : LoadMode) : Prop :=
  s.acquireOut s.cur = false → ∀ u accs, s.Clear w .r m.e (tySize m.ty.toNat) regs addr al u accs →
    let r := u.loadLanes u.cur md m.e m.ty.toNat accs
    (∀ x ∈ r.2, x.pois = false) →
    exec i s = .next (((r.1.orFpstat (r.2.foldl (fun acc x => acc ||| x.fl) 0)).issueOp w.f
      { kind := .load, acq := if md.acq then some md.scope else none, v := loadPend w.d.toNat r.2 }).cont)

/-- A lane store whose checks all pass completes: the bytes of its lanes' registers go to the places of its
lanes, and the instruction is counted. -/
def StoreRuns (s : State) (i : Instr) (w : W0) (m : MemF) (regs : List Nat) (addr : Nat → DWord)
    (al : Nat → Bool) (dflt : Nat) : Prop :=
  let size := tySize m.ty.toNat
  let ds := dataRegs w m.ty.toNat
  s.acquireOut s.cur = false → (memRel m = true → s.releaseWaits s.cur = false) →
  ∀ u accs, s.Clear w .w m.e size (regs ++ ds) addr al u accs →
    let out := accs.map (fun a => laneStore m.e size u.level1 a (ds.map (fun n => s.rd n a.lane)))
    exec i s = .next ((((u.orFpstat (out.foldl (fun acc x => acc ||| x.2) 0)).storeBytes u.cur
      (out.flatMap (·.1)) (memScope m dflt) (memRel m)).issueOp w.f {}).cont)

/-- A lane access all of whose Active lanes fail one check before translation. -/
def AddressTraps (s : State) (i : Instr) (w : W0) (regs : List Nat) (addr : Nat → DWord) (al : Nat → Bool)
    (rel : Bool) : Prop :=
  let a := s.activeW w
  let traps := fun c => (lanesOf a).map (fun L => ({ lane := L, cause := c, addr := addr L } : LaneTrap))
  let s1 := if s.lapses a (fun _ => regs) then s.setMemst memstLAPSE else s
  s.acquireOut s.cur = false → (rel = true → s.releaseWaits s.cur = false) → a ≠ 0 → ReadsClean s a (fun _ => regs) →
    ((∀ L ∈ lanesOf a, canonical (addr L) = false) → exec i s = .next (s1.raise (traps cBADA) true))
    ∧ ((∀ L ∈ lanesOf a, canonical (addr L) = true ∧ al L = true) →
        exec i s = .next (s1.raise (traps cALGN) true))

/-- The checks of R175 on a lane access: `u` is the state after the walks, `traps` those of the lanes that fail
a check, their register words first, and `accs` the places of the others. -/
def State.Splits (s : State) (w : W0) (acc : Acc) (e : Bool) (size : Nat) (regs : List Nat) (addr : Nat → DWord)
    (al : Nat → Bool) (u : State) (traps : List LaneTrap) (accs : List LaneAcc) : Prop :=
  let r := s.readSources (s.activeW w) (fun _ => regs)
  r.1.checkLanes r.2.2 r.2.1 addr al acc e size = .go u traps accs

/-- A lane load some of whose lanes fail a check or meet poison: the others' words are left to its
completion, and the failing lanes trap, each with its own cause, at the instruction itself. -/
def LoadSplits (s : State) (i : Instr) (w : W0) (m : MemF) (regs : List Nat) (addr : Nat → DWord)
    (al : Nat → Bool) (md : LoadMode) : Prop :=
  s.acquireOut s.cur = false → ∀ u traps accs, s.Splits w .r m.e (tySize m.ty.toNat) regs addr al u traps accs →
    let r := u.loadLanes u.cur md m.e m.ty.toNat accs
    let good := r.2.filter (fun x => !x.pois)
    let all := traps ++ (r.2.filter (·.pois)).map
      (fun x => ({ lane := x.lane, cause := cPOIS, addr := addr x.lane } : LaneTrap))
    let v := r.1.orFpstat (good.foldl (fun acc x => acc ||| x.fl) 0)
    all ≠ [] → exec i s = .next ((if good = [] then v else v.issueOp w.f
      { kind := .load, acq := if md.acq then some md.scope else none, v := loadPend w.d.toNat good }).raise all true)

/-- A lane store some of whose lanes fail a check: the others' bytes are stored. -/
def StoreSplits (s : State) (i : Instr) (w : W0) (m : MemF) (regs : List Nat) (addr : Nat → DWord)
    (al : Nat → Bool) (dflt : Nat) : Prop :=
  let size := tySize m.ty.toNat
  let ds := dataRegs w m.ty.toNat
  s.acquireOut s.cur = false → (memRel m = true → s.releaseWaits s.cur = false) →
  ∀ u traps accs, s.Splits w .w m.e size (regs ++ ds) addr al u traps accs →
    let out := accs.map (fun a => laneStore m.e size u.level1 a (ds.map (fun n => s.rd n a.lane)))
    let v := u.orFpstat (out.foldl (fun acc x => acc ||| x.2) 0)
    traps ≠ [] → exec i s = .next ((if accs = [] then v else
      (v.storeBytes u.cur (out.flatMap (·.1)) (memScope m dflt) (memRel m)).issueOp w.f {}).raise traps true)

/-- A group-wide access: the first check of R175 that fails traps every lane of the slot, or parks the group
on a translation fault. -/
def GroupAccessTraps (s : State) (i : Instr) (a : DWord) (size : Nat) (acc : Acc) : Prop :=
  let vas := (List.range size).map (vaOf a + ·)
  let r := s.translate s.grp.ctx s.grp.die (vaOf a) acc (some s.grp.core)
  (canonical a = false → exec i s = .next (s.raiseMask cBADA s.slot.act a))
  ∧ (canonical a = true → a.toNat % size ≠ 0 → exec i s = .next (s.raiseMask cALGN s.slot.act a))
  ∧ (canonical a = true → a.toNat % size = 0 →
    (∀ u c, r = (u, .error c) → exec i s = .next (u.parkFault c u.slot.act a))
    ∧ (∀ u x, r = (u, .ok x) → u.memLocked u.cur (decide (acc = .w)) vas = true →
        exec i s = .next (u.raiseMask cRLK u.slot.act a)))

/-- The last of the words an operation leaves to write that goes to a place. -/
def lastAt (ws : List PendWord) (k : Nat) : Option PendWord := ws.reverse.find? (fun x => x.key = k)

/-- The last byte stored at a place. -/
def storedAt (bs : List SByte) (k : Nat) : Option SByte := bs.reverse.find? (fun b => b.pk = k)

/-- The byte a group's store buffer holds at a place. -/
def Group.buffered (g : Group) (k : Nat) : BCell := cellAt (secCells g.gsb (k / 16)) (k % 16)

/-- Every die's L2 has room for the 32 lines of a Granary page and one more. -/
def State.L2Room (s : State) : Prop := ∀ d, (s.die d).lines.length + (s.die d).withdrawn + 32 < 2097152

end Sys2Proof.Machine

/-- 02_encoding R28; 03_groupwide R51: a counted instruction is recorded with the flag it names, which rises by
one; COMPLETION writes every word it left to write, in lanes, group-wide and predicate registers, poisoned
or not, lowers the flag it names by one, drops its record and keeps the group's other records; an operation
not yet ready, of a group that is away, or of a frozen core waits.
09_memory R191; 11_visibility R238, R239: the completion of a scratchpad store writes its bytes at its issue clock,
and that of an acquire performs the acquire's self-invalidation.
The model's own choices: log entries 10, 15. -/
def Obligations.CountedInstructionsComplete : Prop :=
  (∀ (s : State) (f : Bool) (o : PendOp),
    let t := s.issueOp f o
    let flag := if f then s.lat.flb else s.lat.fla
    t.grp.pend = s.grp.pend ++ [{ o with id := s.nextId, flag := flag, lc := s.lat.lc }]
    ∧ (∀ n, t.grp.flag n = if flag = some n then s.grp.flag n + 1 else s.grp.flag n)
    ∧ t.grp = { s.grp with pend := t.grp.pend, flags := t.grp.flags }
    ∧ t = { s with groups := t.groups, nextId := s.nextId + 1 })
  ∧ (∀ (s : State) (gk op : Nat),
    let g := s.group gk
    let wait := fun o : PendOp => g.live = false ∨ g.away = true ∨ s.frozenAt g.die g.core = true
      ∨ s.mayComplete gk o = false
    let left := fun (f : SMap Nat) => ({ g with pend := g.pend.filter (fun p => p.id ≠ op), flags := f } : Group)
    (g.pend.find? (fun o => o.id = op) = none → exec (.completion gk op) s = .next s)
    ∧ (∀ o, g.pend.find? (fun o => o.id = op) = some o → wait o → exec (.completion gk op) s = .next s)
    ∧ (∀ o, o.ready = false → s.mayComplete gk o = false)
    ∧ (∀ o, g.pend.find? (fun o => o.id = op) = some o → ¬ wait o → o.v = [] → o.g = [] → o.gp = none →
        (o.sts = [] → o.acq = none →
          Runs (.completion gk op) s (fun t => t = s.setGroup gk (left (t.group gk).flags)
            ∧ ∀ n, (t.group gk).flag n = if o.flag = some n then g.flag n - 1 else g.flag n))
        ∧ (∀ lvl, o.sts = [] → o.acq = some lvl → Runs (.completion gk op) s (fun t =>
            t = (s.acquireAt gk lvl).setGroup gk (left (t.group gk).flags)))
        ∧ (let a := (s.team g.team).alloc o.sh
          o.kind = .sts → o.sts ≠ [] → a.bound = true → o.acq = none → Runs (.completion gk op) s (fun t =>
            t = (s.setAlloc g.team o.sh (a.write (s.allocClock g.team a (some (gk, o.lc))) o.sts)).setGroup gk
              (left (t.group gk).flags))))
    ∧ (∀ o, g.pend.find? (fun o => o.id = op) = some o → ¬ wait o →
        Runs (.completion gk op) s (fun t =>
          let u := t.group gk
          (∀ n L, L < 32 → u.vget n L = (match lastAt o.v (n * 32 + L) with | some x => x.val | none => g.vget n L)
            ∧ u.vPoisoned n L = (match lastAt o.v (n * 32 + L) with | some x => x.pois | none => g.vPoisoned n L))
          ∧ (∀ n, u.gget n = match lastAt o.g n with | some x => x.val | none => g.gget n)
          ∧ (∀ k, u.gpget k = match o.gp with
              | some (n, b) => if k = 3 then true else if k = n then b else g.gpget k
              | none => g.gpget k)
          ∧ (∀ n, u.flag n = if o.flag = some n then g.flag n - 1 else g.flag n)
          ∧ u.pend = g.pend.filter (fun p => p.id ≠ op)
          ∧ u = { g with v := u.v, vst := u.vst, vx := u.vx, vpois := u.vpois, g := u.g, gp := u.gp
                         pend := u.pend, flags := u.flags }
          ∧ SameMem s t)))

/-- 09_memory R180, R181, R182, R186, R187, R188; 03_groupwide R57: LD, LDW, LDG and GLD complete with the
bytes their lanes find at base, offset and scaled C; the words are written at completion.
The model's own choices: log entries 10, 11, 20. -/
def Obligations.LoadsDeliverTheirWords : Prop :=
  ∀ (s : State) (w : W0) (m : MemF),
    let la := m.opx.getLsbD 0
    let size := tySize m.ty.toNat
    let unit := if m.e then 1 else size
    let off := fun L => if m.nob then (0 : DWord) else (s.rd m.b.toNat L).setWidth 64
    let goff := if m.nob then (0 : DWord) else (s.rdG m.b.toNat).setWidth 64
    let lane := fun la L =>
      (if la then s.rd64 w.a.toNat L else s.rdG64 w.a.toNat) + off L + BitVec.ofNat 64 (m.c.toNat * unit)
    let block := s.rdG64 w.a.toNat + goff + BitVec.ofNat 64 (m.c.toNat * (32 * unit))
    let group := s.rdG64 w.a.toNat + goff + BitVec.ofNat 64 (m.c.toNat * size)
    let al := fun (addr : Nat → DWord) L => !m.e && decide ((addr L).toNat % size ≠ 0)
    let regs := fun la => (if la then [w.a.toNat, w.a.toNat + 1] else []) ++ (if m.nob then [] else [m.b.toNat])
    let md := memMode m 1
    LoadRuns s (.ld w m) w m (regs la) (lane la) (al (lane la)) md
    ∧ LoadRuns s (.ldw w m) w m [] (fun L => block + BitVec.ofNat 64 (L * unit))
        (fun _ => !m.e && decide (block.toNat % (32 * size) ≠ 0)) md
    ∧ LoadRuns s (.ldg w m) w m (regs false) (lane false) (al (lane false)) (memMode m 4 true)
    ∧ (s.acquireOut s.cur = false → s.guardW w = false →
        exec (.gld w m) s = .next ((s.issueOp w.f { acq := if md.acq then some md.scope else none }).cont))
    ∧ (s.acquireOut s.cur = false → s.guardW w = true → canonical group = true → group.toNat % size = 0 →
        ∀ u x, s.translate s.grp.ctx s.grp.die (vaOf group) .r (some s.grp.core) = (u, .ok x) →
        u.memLocked u.cur false ((List.range size).map (vaOf group + ·)) = false →
        let acc : LaneAcc := { va := vaOf group, x, vas := (List.range size).map (vaOf group + ·) }
        let r := u.loadLane u.cur md false m.ty.toNat acc
        r.2.pois = false →
        exec (.gld w m) s = .next ((r.1.issueOp w.f {
            kind := .load, acq := if md.acq then some md.scope else none, g := mapI r.2.words (fun i v => { key := w.d.toNat + i, val := v }) }).cont))

/-- 09_memory R180, R181, R183, R184, R186, R187, R188; 03_groupwide R57, R58: ST, STW, STG and GST complete: the low
bytes of their data registers go to base, offset and scaled C, as the walks place it, at the store's
scope. -/
def Obligations.StoresCarryTheirBytes : Prop :=
  ∀ (s : State) (w : W0) (m : MemF),
    let la := m.opx.getLsbD 0
    let size := tySize m.ty.toNat
    let unit := if m.e then 1 else size
    let off := fun L => if m.nob then (0 : DWord) else (s.rd m.b.toNat L).setWidth 64
    let goff := if m.nob then (0 : DWord) else (s.rdG m.b.toNat).setWidth 64
    let lane := fun la L =>
      (if la then s.rd64 w.a.toNat L else s.rdG64 w.a.toNat) + off L + BitVec.ofNat 64 (m.c.toNat * unit)
    let block := s.rdG64 w.a.toNat + goff + BitVec.ofNat 64 (m.c.toNat * (32 * unit))
    let group := s.rdG64 w.a.toNat + goff + BitVec.ofNat 64 (m.c.toNat * size)
    let al := fun (addr : Nat → DWord) L => !m.e && decide ((addr L).toNat % size ≠ 0)
    let regs := fun la => (if la then [w.a.toNat, w.a.toNat + 1] else []) ++ (if m.nob then [] else [m.b.toNat])
    let scope := if m.sco = 0 then 1 else m.sco.toNat
    StoreRuns s (.st w m) w m (regs la) (lane la) (al (lane la)) 1
    ∧ StoreRuns s (.stw w m) w m [] (fun L => block + BitVec.ofNat 64 (L * unit))
        (fun _ => !m.e && decide (block.toNat % (32 * size) ≠ 0)) 1
    ∧ StoreRuns s (.stg w m) w m (regs false) (lane false) (al (lane false)) 4
    ∧ (s.acquireOut s.cur = false → (memRel m = true → s.releaseWaits s.cur = false) → s.guardW w = false →
        exec (.gst w m) s = .next (((s.storeBytes s.cur [] scope (memRel m)).issueOp w.f {}).cont))
    ∧ (s.acquireOut s.cur = false → (memRel m = true → s.releaseWaits s.cur = false) → s.guardW w = true →
        canonical group = true → group.toNat % size = 0 →
        ∀ u x, s.translate s.grp.ctx s.grp.die (vaOf group) .w (some s.grp.core) = (u, .ok x) →
        u.memLocked u.cur true ((List.range size).map (vaOf group + ·)) = false →
        let ws := (List.range (max 1 (size / 4))).map (fun i => s.rdG (w.d.toNat + i))
        let bs := (List.range size).map (fun i =>
          ({ pk := x.pk + i, attr := x.attr, val := (ws.getD (i / 4) 0).extractLsb' (8 * (i % 4)) 8 } : SByte))
        exec (.gst w m) s = .next (((u.storeBytes u.cur bs scope (memRel m)).issueOp w.f {}).cont))

/-- 09_memory R182; 11_visibility R224, R225, R226, R227, R240: a load sees the group's store buffer over the team's
write buffer over the copy of its scope; with neither buffered and no copy below DEV, a byte at home on
the group's own die reads as memory holds it. Reading changes no register and no team, and no memory
unless it acquires, goes to another die's home, or a full L2 must make room.
09_memory R183, R184; 11_visibility R225, R228: where stored bytes land. At GRP they stand in the group's store
buffer, the last of two stores to a byte, and nothing else changes; at DEV the bytes of lines at home on
the die are in memory and every other byte reads as before. Stated of whole bytes in sectors that no
buffer of the group's path holds yet, with room for them.
The model's own choices: log entries 11 to 13. -/
def Obligations.LadderServesLoadsAndTakesStores : Prop :=
  (∀ (s : State) (gk sec : Nat) (attr : PAttr) (scope : Nat) (acq ro na sieve : Bool) (i : Nat), i < 16 →
    let g := s.group gk
    let t := s.team g.team
    let r := s.readSec gk sec attr scope acq ro na sieve
    let own := cellAt (secCells g.gsb sec) i
    let team := cellAt (secCells t.twb sec) i
    let clus := cellAt (secCells (s.cluster t.cluster).merge sec) i
    let l1 := ((s.coreAt (coreKey g.die g.core)).l1.getD (sec * 64 + g.ctx) {}).have_
    let b := r.2.getD i {}
    r.2.length = 16
    ∧ (own.mask = 0xFF → b = { val := own.val, pois := own.pois })
    ∧ (own.mask = 0 → team.mask = 0xFF → b = { val := team.val, pois := team.pois })
    ∧ (own.mask = 0 → team.mask = 0 → clus.mask = 0xFF → scope ≤ 3 → l1 = false →
        b = { val := clus.val, pois := clus.pois })
    ∧ (own.mask = 0 → team.mask = 0 → (clus.mask = 0 ∨ 4 ≤ scope) → l1 = false → acq = false →
        attr.home = g.die → sec * 16 + i < 2 ^ 64 → b.val = s.memByte (sec * 16 + i))
    ∧ r.1.groups = s.groups ∧ r.1.teams = s.teams ∧ r.1.clusters = s.clusters
    ∧ (acq = false → attr.home = g.die ∨ (attr.cp ≠ 2 ∧ scope ≤ 4) → s.L2Room → SameMem s r.1))
  ∧ (∀ (s : State) (gk : Nat) (bs : List SByte),
    let g := s.group gk
    let n := (sectorsOf bs gk).length
    bs ≠ [] → (∀ b ∈ bs, b.mask = 0xFF) → g.gsb.length + n ≤ g.gsbCap →
    (let t := s.storeBytes gk bs 1 false
     t = s.setGroup gk { g with gsb := (t.group gk).gsb }
     ∧ (∀ k, (t.group gk).buffered k = match storedAt bs k with
        | some b => { val := b.val, mask := 0xFF, pois := false, by_ := gk, seq := 0, wr := gk }
        | none => g.buffered k)
     ∧ SameMem s t)
    ∧ ((∀ b ∈ bs, b.pk < 2 ^ 64 ∧ b.attr.home = g.die ∧ (findSec g.gsb (b.pk / 16)).isNone
          ∧ (findSec (s.team g.team).twb (b.pk / 16)).isNone
          ∧ (findSec (s.cluster (s.team g.team).cluster).merge (b.pk / 16)).isNone) →
      let t := s.storeBytes gk bs 4 false
      (∀ k, t.memByte k = match storedAt bs k with | some b => b.val | none => s.memByte k)
      ∧ t.grp.v = s.grp.v ∧ t.grp.g = s.grp.g ∧ (t.group gk).gsb = g.gsb))

/-- 09_memory R175, R178, R185: a lane access to addresses that are not canonical, or canonical and misaligned, has
no effect but the traps of those lanes, BADA or ALGN with the address, at the instruction itself. Where
some lanes fail a check and others pass, the others complete the instruction and the failing ones trap,
each with the cause of the first check it fails; a translation fault of any lane parks the group instead
and no lane traps. The checks, in order, of the lanes whose register words are readable.
09_memory R175; 03_groupwide R57: GLD and GST.
The model's own choices: log entry 17. -/
def Obligations.BadAddressesTrap : Prop :=
  (∀ (s : State) (w : W0) (m : MemF),
    let la := m.opx.getLsbD 0
    let size := tySize m.ty.toNat
    let mis := fun (a : DWord) n => !m.e && decide (a.toNat % n ≠ 0)
    let lane := fun la => s.laneAddr w m la (memUnit m)
    let ds := dataRegs w m.ty.toNat
    let block := s.groupAddr w m (32 * memUnit m)
    let own := fun la L => mis (lane la L) size
    let whole := fun (_ : Nat) => mis block (32 * size)
    AddressTraps s (.ld w m) w (addrRegs w m la) (lane la) (own la) false
    ∧ AddressTraps s (.st w m) w (addrRegs w m la ++ ds) (lane la) (own la) (memRel m)
    ∧ AddressTraps s (.ldw w m) w [] (s.blockAddr w m) whole false
    ∧ AddressTraps s (.stw w m) w ds (s.blockAddr w m) whole (memRel m)
    ∧ AddressTraps s (.ldg w m) w (addrRegs w m false) (lane false) (own false) false
    ∧ AddressTraps s (.stg w m) w (addrRegs w m false ++ ds) (lane false) (own false) (memRel m)
    ∧ LoadSplits s (.ld w m) w m (addrRegs w m la) (lane la) (own la) (memMode m 1)
    ∧ StoreSplits s (.st w m) w m (addrRegs w m la) (lane la) (own la) 1
    ∧ LoadSplits s (.ldw w m) w m [] (s.blockAddr w m) whole (memMode m 1)
    ∧ StoreSplits s (.stw w m) w m [] (s.blockAddr w m) whole 1
    ∧ LoadSplits s (.ldg w m) w m (addrRegs w m false) (lane false) (own false) (memMode m 4 true)
    ∧ StoreSplits s (.stg w m) w m (addrRegs w m false) (lane false) (own false) 4
    ∧ (s.guardW w = true → s.acquireOut s.cur = false →
      let a := s.groupAddr w m size
      let r := s.translate s.grp.ctx s.grp.die (vaOf a) .r (some s.grp.core)
      GroupAccessTraps s (.gld w m) a size .r
      ∧ (canonical a = true → a.toNat % size = 0 → ∀ u x, r = (u, .ok x) →
          let vas := (List.range size).map (vaOf a + ·)
          u.memLocked u.cur false vas = false →
          let l := u.loadLane u.cur (memMode m 1) false m.ty.toNat { va := vaOf a, x, vas }
          l.2.pois = true → exec (.gld w m) s = .next (l.1.raiseMask cPOIS l.1.slot.act a)))
    ∧ (s.guardW w = true → s.acquireOut s.cur = false → (memRel m = true → s.releaseWaits s.cur = false) →
      GroupAccessTraps s (.gst w m) (s.groupAddr w m size) size .w))
  ∧ (∀ (s : State) (ok : Word) (ts : List LaneTrap) (addr : Nat → DWord) (al : Nat → Bool) (acc : Acc) (e : Bool)
      (size : Nat),
    let cause := fun L => if canonical (addr L) = false then some cBADA else if al L then some cALGN else none
    let trap := fun L c => ({ lane := L, cause := c, addr := addr L } : LaneTrap)
    let good := (lanesOf ok).filter (fun L => cause L = none)
    let r := s.translateLanes acc (fun L => vaOf (addr L)) good
    let wr := decide (acc ≠ .r ∧ acc ≠ .x)
    let place := fun (x : Nat × Xl) => laneAcc e size (if wr then 1 else 0) x.1 (vaOf (addr x.1)) x.2
    let why := fun (a : LaneAcc) => if r.1.memLocked r.1.cur wr a.vas then some cRLK
      else if e = true ∧ elemBad a.x a.va wr = true then some cFMTX else none
    let accs := (placesOf r.2).map place
    r.2.map (·.1) = good
    ∧ (∀ L c rest, faultsOf r.2 = (L, c) :: rest → s.checkLanes ok ts addr al acc e size = .parked
        (r.1.parkFault c (maskOf (fun k => k = L || rest.any (fun f => f.1 = k))) (addr L)))
    ∧ (faultsOf r.2 = [] → s.checkLanes ok ts addr al acc e size = .go r.1
        (ts ++ (lanesOf ok).filterMap (fun L => (cause L).map (trap L))
          ++ accs.filterMap (fun a => (why a).map (trap a.lane)))
        (accs.filter (fun a => why a = none))))

/-- 09_memory R168, R169, R173, R174, R175: a translation that no cached copy answers takes the leaf of the walk,
or its fault; the leaf's A bit is set, and D for a write; no other byte of memory changes. A page without
a format index, its die holding no pending bytes for the walk to send home.
The model's own choices: log entries 19, 59. -/
def Obligations.TranslationTakesTheLeaf : Prop :=
  ∀ (s : State) (ctx die va : Nat) (acc : Acc) (core : Option Nat),
    let r := s.translate ctx die va acc core
    let wr := decide (acc = .w ∨ acc = .rw)
    s.heldFor ctx die core va = [] →
    (∀ c, s.walk ctx die va = .fault c →
      r.2 = .error c ∧ r.1.groups = s.groups ∧ ((s.die die).pendH = [] → SameMem s r.1))
    ∧ (∀ at_ e big, s.walk ctx die va = .leaf at_ e big → leafDenies e acc (s.privileged ctx) = true →
        r.2 = .error cTPROT ∧ r.1.groups = s.groups ∧ ((s.die die).pendH = [] → SameMem s r.1))
    ∧ (∀ at_ e big, s.walk ctx die va = .leaf at_ e big →
        leafDenies e acc (s.privileged ctx) = false → pteFmt e = 0 →
        r.2 = .ok { leafXl e big va with leaf := e ||| (if wr then 0x60 else 0x20) } ∧ r.1.groups = s.groups
        ∧ ((s.die die).pendH = [] →
          (∀ k, k < at_ ∨ at_ + 8 ≤ k → r.1.memByte k = s.memByte k)
          ∧ (e &&& 0x60 = 0x60 → SameMem s r.1)
          ∧ (e &&& 0x60 ≠ 0x60 → wr = true → r.1.memNat at_ 8 = (e ||| 0x60).toNat)
          ∧ (e &&& 0x20 = 0 → wr = false → r.1.memNat at_ 8 = (e ||| 0x20).toNat)))

namespace Sys2Proof.Machine

/-! Scratchpad, logs and special registers (09_memory R189 to R198; 03_groupwide R59; 07_lanes R140). -/

/-- The offset a lane's plain scratchpad access begins at: base and scaled C, wrapped at the size rounded up to
a power of two; its low bits are ignored (R190). -/
def State.spadPlace (s : State) (m : MemF) (a : Alloc) (L : Nat) : Nat :=
  ((if m.nob then 0 else (s.rd m.b.toNat L).toNat) + m.c.toNat * tySize m.ty.toNat) % pow2Up a.size
def spadStart (o size : Nat) : Nat := o - o % size

/-- What a plain scratchpad access at an offset records in MEMST: SPMIS and SPGAP (R190, R192). -/
def spadNote (a : Alloc) (o size : Nat) : Word :=
  (if o % size ≠ 0 then 4 else 0) ||| (if a.size < spadStart o size + size then 2 else 0)

/-- A plain allocation that no command locks and no word of which is poisoned. -/
def State.PlainAlloc (s : State) (a : Alloc) : Prop :=
  a.bound = true ∧ a.cls = 0 ∧ (s.coreAt (coreKey s.grp.die s.grp.core)).locks = [] ∧ a.pois = []

/-- The last byte written at an offset. -/
def writtenAt (bs : List (Nat × Byte)) (o : Nat) : Option Byte := (bs.reverse.find? (fun b => b.1 = o)).map (·.2)

/-- An APPEND whose `n` source bytes are `bs`, which an APSYNC of its log awaits whatever it gives: it reserves them in the log, in 16-byte steps, as many as the die's
Granary holds from there on, and leaves the offset to the completion; a log that is not bound or has no room gives all ones. -/
def AppendGives (s u : State) (w : W0) (r : RRaw) (n lk : Nat) (bs : List Byte) : Prop :=
  let gives := fun (x : DWord) (p : Option (Nat × Nat)) => ({
    kind := .append, log := some (p.getD (lk, (u.log lk).order))
    g := [{ key := w.d.toNat, val := lo32 x }, { key := w.d.toNat + 1, val := hi32 x }] } : PendOp)
  let l := u.log lk
  let len := (n + 15) / 16 * 16
  (l.bound = false ∨ l.cap < l.next + len →
    exec (.append w r) s = .next ((u.issueOp w.f (gives (BitVec.allOnes 64) none)).cont))
  ∧ (l.bound = true → l.next + len ≤ l.cap →
    let v := u.setLog lk { l with next := l.next + len, order := l.order + 1 }
    let v : State := { v with nextId := u.nextId + 1 }
    let q : Append := { live := true, grp := u.cur, log := lk, order := l.order
                        at_ := 2 ^ 64 + l.die * 2 ^ 48 + (l.base + l.next)
                        bytes := (bs ++ List.replicate (len - n) 0).take (2 ^ 42 - (l.base + l.next)) }
    exec (.append w r) s = .next (((v.setAppend u.nextId q).issueOp w.f
      (gives (BitVec.ofNat 64 l.next) (some (lk, l.order)))).cont))

/-- A group-wide instruction that counts on a flag, under its guard. -/
def CountedGroup (s : State) (i : Instr) (w : W0) (u : State) (o : PendOp) : Prop :=
  (s.guardW w = false → exec i s = .next ((s.issueOp w.f {}).cont))
  ∧ (s.guardW w = true → exec i s = .next ((u.issueOp w.f o).cont))

end Sys2Proof.Machine

/-- 09_memory R190, R192: LDS and STS on a plain allocation: each lane's offset wraps, its low bits are ignored with
SPMIS, and an access in the gap sets SPGAP, loads zero and stores nothing; an unbound handle sets SPNH.
Other forms complete with what the allocation gives each lane. A load finds the group's own earlier stores;
a store leaves its bytes to the completion.
The model's own choices: log entry 27. -/
def Obligations.ScratchpadAccesses : Prop :=
  ∀ (s : State) (w : W0) (m : MemF), s.acquireOut s.cur = false →
    let h := w.a.toNat
    let tk := s.grp.team
    let a := (s.team tk).alloc h
    let own := s.ownAlloc h
    let ty := m.ty.toNat
    let size := tySize ty
    let act := s.activeW w
    let rB := if m.nob then [] else [m.b.toNat]
    let at_ := fun L => s.spadPlace m a L
    let gap := fun L => decide (a.size < spadStart (at_ L) size + size)
    let bits := (lanesOf act).foldl (fun acc L => acc ||| spadNote a (at_ L) size) 0
    let noted := fun rd => if s.lapses act (fun _ => rd) then s.setMemst 8 else s
    let zeros := List.replicate (max 1 (size / 4)) (0 : Word)
    let data := fun L => (List.range size).map (fun i => own.data.getD (spadStart (at_ L) size + i) 0)
    let rS := rB ++ dataRegs w ty
    (ReadsClean s act (fun _ => rB) → a.bound = false → act ≠ 0 →
      exec (.lds w m) s = .next ((((noted rB).setMemst 1).issueOp w.f
        { kind := .load, v := loadPend w.d.toNat ((lanesOf act).map (fun L => { lane := L, words := zeros })) }).cont))
    ∧ (ReadsClean s act (fun _ => rB) → m.e = false → s.PlainAlloc a →
      exec (.lds w m) s = .next ((((noted rB).setMemst bits).issueOp w.f
        { kind := .load, v := loadPend w.d.toNat ((lanesOf act).map (fun L =>
            { lane := L, words := if gap L then zeros else loadWords ty (data L) })) }).cont))
    ∧ (ReadsClean s act (fun _ => rS) → a.bound = false → act ≠ 0 →
      exec (.sts w m) s = .next ((((noted rS).setMemst 1).issueOp w.f { kind := .sts }).cont))
    ∧ (ReadsClean s act (fun _ => rS) → m.e = false → s.PlainAlloc a →
      exec (.sts w m) s = .next ((((noted rS).setMemst bits).issueOp w.f
        { kind := .sts, sh := h
          sts := (lanesOf act).flatMap (fun L => if gap L then [] else
            mapI (lowBytes size ((dataRegs w ty).map (fun n => s.rd n L)))
              (fun i b => (spadStart (at_ L) size + i, b, 0xFF))) }).cont))
    ∧ (ReadsClean s act (fun _ => rB) → a.bound = true → ∀ good,
      (noted rB).spadSplit h own false ((lanesOf act).map (fun L => own.laneAt m.e size false L (s.spadOff m own L)))
        = ([], good) →
      Runs (.lds w m) s (fun t => ∃ u : State, t = (u.issueOp w.f { kind := .load, v := loadPend w.d.toNat (good.map
          (fun x => { lane := x.lane, words := ((noted rB).spadLoad own m.e ty x).1 })) }).cont
        ∧ OnlyGroup s u ∧ u.grp = { s.grp with memst := u.grp.memst, fpstat := u.grp.fpstat }))
    ∧ (ReadsClean s act (fun _ => rS) → a.bound = true → ∀ good,
      (noted rS).spadSplit h a true ((lanesOf act).map (fun L => a.laneAt m.e size true L (s.spadOff m a L)))
        = ([], good) →
      Runs (.sts w m) s (fun t => ∃ u : State, t = (u.issueOp w.f {
          kind := .sts, sh := h, sts := (good.flatMap (fun x => (spadStore s.freeCtr a m.e size s.level1
            ((dataRegs w ty).map (fun n => s.rd n x.lane)) x).1)).filter (fun b => b.1 < a.size) }).cont
        ∧ OnlyGroup s u ∧ u.grp = { s.grp with memst := u.grp.memst, fpstat := u.grp.fpstat }))
    ∧ (∀ ops o, a.cls = 0 →
        ((∀ op ∈ ops, ∀ b ∈ op.sts, b.1 ≠ o) → (s.afterSts tk s.cur h a ops).data.getD o 0 = a.data.getD o 0)
        ∧ (∀ op b, op.kind = .sts → op.sh = h → op.sts = [(o, b, 0xFF)] →
          (s.afterSts tk s.cur h a (ops ++ [op])).data.getD o 0 = b))

/-- 10_allocation R206, R207, R208, R209: a write renews its row: its stamp becomes the later of its own and the
clock, the written words are readable, and the others stay as they were at that clock, those of an
expired row unreadable. Of a register row and of an allocation's row. -/
def Obligations.WritesRenewTheirRows : Prop :=
  (∀ (s : State) (n : Nat) (m : Word) (f : Nat → Word) (L : Nat), L < 32 →
    let t := s.wr n m f
    let lc := s.lat.lc
    t.grp.unreadable lc n L = (s.grp.unreadable lc n L && !inMask m L)
    ∧ (inMask m L = true → pendFind s.grp.pend (·.v) (n * 32 + L) = none → t.rd n L = f L)
    ∧ (s.grp.clsOf n ≠ 0 → t.grp.vst.getD n 0 = if m = 0 then s.grp.vst.getD n 0 else max (s.grp.vst.getD n 0) lc)
    ∧ (∀ k, k ≠ n → t.grp.unreadable lc k L = s.grp.unreadable lc k L ∧ t.grp.vst.getD k 0 = s.grp.vst.getD k 0))
  ∧ (∀ (a : Alloc) (lc o : Nat) (b : Byte), a.cls ≠ 0 →
    let t := a.write lc [(o, b, 0xFF)]
    let row := o / 128
    t.unreadable lc o = false
    ∧ (t.read lc [o]).bytes = [b]
    ∧ t.st.getD row a.st0 = max (a.st.getD row a.st0) lc
    ∧ (∀ k, k / 4 ≠ o / 4 → t.unreadable lc k = a.unreadable lc k
        ∧ (a.unreadable lc k = false → t.data.getD k 0 = a.data.getD k 0))
    ∧ (∀ k, k / 4 = o / 4 → k ≠ o → t.data.getD k 0 = if a.unreadable lc o then 0 else a.data.getD k 0))

/-- 09_memory R189, R194, R195, R197; 11_visibility R253: APPEND reserves a place in its log in 16-byte steps and
returns the offset, or all ones; APSYNC waits for the group's earlier appends to the log, until they have
completed and are durable; CSTAT waits for the group's earlier COMMIT, ABORT, WBR and INVR; APPEND DURABLE
puts an append's bytes in flash; PREF writes no register; CSTAT reads a status word and clears it.
The model's own choices: log entries 20, 28. -/
def Obligations.LogsPrefetchAndStatus : Prop :=
  ∀ (s : State) (w : W0) (r : RRaw) (m : MemF),
    let g := s.grp
    let lk := g.ctx * 256 + r.c.toNat
    let n := (s.rdG r.b.toNat).toNat
    let a := s.rdG64 w.a.toNat
    let va := vaOf a
    let ones : PendOp := { kind := .append, log := some (lk, (s.log lk).order), g := [{ key := w.d.toNat, val := BitVec.allOnes 32 },
      { key := w.d.toNat + 1, val := BitVec.allOnes 32 }] }
    (s.acquireOut s.cur = false →
      (s.guardW w = false → exec (.append w r) s = .next ((s.issueOp w.f {}).cont))
      ∧ (s.guardW w = true → n = 0 ∨ 2 ^ 24 < n → exec (.append w r) s = .next ((s.issueOp w.f ones).cont))
      ∧ (s.guardW w = true → n ≠ 0 → n ≤ 2 ^ 24 → canonical a = false →
          AppendGives s s w r n lk ((List.range n).map (fun i => Config.freeByte s.freeCtr (2 ^ 100 + i))))
      ∧ (s.guardW w = true → n ≠ 0 → n ≤ 2 ^ 24 → rangeBad a n = none → ∀ u bs,
          s.engineRead g.ctx g.die va n (some g.core) = (u, .ok bs) → anyPois bs = false →
          AppendGives s u w r n lk (bs.map (·.val)))
      ∧ exec (.apsync w r) s = .next ((s.issueOp w.f
          { kind := .apsync, log := if s.guardW w then some (lk, (s.log lk).order) else none }).cont)
      ∧ Runs (.pref w m) s (fun t => ∃ u : State, t = (u.issueOp w.f {}).cont ∧ u.teams = s.teams
          ∧ (u.groups = s.groups ∨ u.groups = (s.setMemst 8).groups)))
    ∧ CountedGroup s (.cstat w) w
        (s.modGrp (fun g => if w.a = 0 then { g with csw := 0 } else { g with memst := 0 }))
        { kind := .cstat, g := [{ key := w.d.toNat, val := if w.a = 0 then g.csw else g.memst }] }
    ∧ (∀ gk o, let earlier := (s.group gk).pend.takeWhile (fun e => e.id ≠ o.id)
        (o.kind = .cstat → (∃ e ∈ earlier, e.kind = .ladder ∨ e.kind = .abort) → s.mayComplete gk o = false)
        ∧ (∀ l k, o.kind = .apsync → o.ready = true → o.log = some (l, k) →
          (s.mayComplete gk o = true ↔
            (∀ e ∈ earlier, ∀ p, e.kind = .append → e.log = some p → p.1 ≠ l)
            ∧ ∀ e ∈ s.appends, e.2.live = true → e.2.grp = gk → e.2.log = l → k ≤ e.2.order)))
    ∧ (∀ req, let x := s.appends.getD req {}
        (x.live = false → exec (.appendDurable req) s = .next s)
        ∧ (x.live = true → Runs (.appendDurable req) s (fun t =>
            t.appends = s.appends.set req {} {}
            ∧ (∀ k, t.memByte k = if x.at_ ≤ k then x.bytes.getD (k - x.at_) (s.memByte k) else s.memByte k)
            ∧ t.groups = s.groups)))

/-- 03_groupwide R59, R60, R61; 07_lanes R140: GSREAD and LSREAD. What is tracked is delivered at completion; a read of
TIMELO latches the high word that TIMEHI then gives, and neither is performed before an earlier acquire. -/
def Obligations.SpecialRegistersRead : Prop :=
  ∀ (s : State) (w : W0),
    let g := s.grp
    let d := w.d.toNat
    let k := w.a.toNat
    let m := s.activeW w
    let time := s.dieTime g.die
    let latched := s.modGrp (fun g => { g with tlatch := BitVec.ofNat 32 (time / 2 ^ 32) })
    let lease : Word := BitVec.ofNat 32 (if g.count then s.lat.lc else time / 64)
    let tracked := fun (u : State) (x : Word) =>
      ((u.issueOp w.f { g := [{ key := d, val := x }] }).cont : State)
    let lanes := fun (u : State) (x : Word) =>
      ((u.issueOp w.f { v := (lanesOf m).map (fun L => { key := d * 32 + L, val := x }) }).cont : State)
    let t := s.team g.team
    let c := s.cluster t.cluster
    let puts := fun (f : Nat → Word) =>
      ∃ u, exec (.lsread w) s = .next u.cont ∧ LanesWritten s u m false (fun L => one d (f L))
    (k = 0 → puts (fun L => BitVec.ofNat 32 L)) ∧ (k = 1 → puts (fun L => g.workidx.getD L 0))
    ∧ (k = 2 → puts (fun _ => if s.curB then 1 else 0)) ∧ (k = 3 → puts (fun L => ofBits (fun i => decide (i < L))))
    ∧ (k = 4 → puts (fun L => ofBits (fun i => decide (L < i))))
    ∧ (k = 5 → exec (.lsread w) s = .next (lanes s lease))
    ∧ (k = 6 → s.acquireOut s.cur = false → m ≠ 0 → exec (.lsread w) s = .next (lanes latched (BitVec.ofNat 32 time)))
    ∧ (k = 7 → s.acquireOut s.cur = false → exec (.lsread w) s = .next (lanes s g.tlatch))
    ∧ (k = 6 ∨ k = 7 → s.acquireOut s.cur = true → exec (.lsread w) s = .next s.holdIssue)
    ∧ (s.guardW w = false → k ∈ [9, 18, 19] → s.acquireOut s.cur = false →
        exec (.gsread w) s = .next ((s.issueOp w.f {}).cont))
    ∧ (s.guardW w = true → k = 9 → exec (.gsread w) s = .next (tracked s lease))
    ∧ (s.guardW w = true → k = 18 → s.acquireOut s.cur = false →
        exec (.gsread w) s = .next (tracked latched (BitVec.ofNat 32 time)))
    ∧ (s.guardW w = true → k = 19 → s.acquireOut s.cur = false → exec (.gsread w) s = .next (tracked s g.tlatch))
    ∧ (k = 18 ∨ k = 19 → s.acquireOut s.cur = true → exec (.gsread w) s = .next s.holdIssue)
    ∧ (k = 17 → WritesGroup s (.gsread w) w (two d (BitVec.ofNat 64 (s.privBase g))))
    ∧ (∀ x, (k, x) ∈ [(0, BitVec.ofNat 32 g.gidx), (1, BitVec.ofNat 32 t.idx),
          (2, BitVec.ofNat 32 (s.launch g.launch).teams), (3, BitVec.ofNat 32 t.ngrp),
          (4, BitVec.ofNat 32 (t.py * 65536 + t.px)), (5, BitVec.ofNat 32 (c.h * 65536 + c.w)),
          (6, BitVec.ofNat 32 (g.port * 4096 + g.die * 256 + g.core)), (7, if g.die < 4 then 0 else 1),
          (8, BitVec.ofNat 32 (if s.therm.wsm then 3 else s.therm.band)), (10, if s.curB then 1 else 0),
          (11, BitVec.ofNat 32 (g.ownRecords + s.other.v.toNat)), (12, BitVec.ofNat 32 g.calldepth),
          (13, t.abortGen), (14, BitVec.ofNat 32 (s.transEpoch g.ctx s.lat.clause)),
          (15, BitVec.ofNat 32 (s.codeLevel g.ctx s.lat.clause)), (16, g.fpstat)] →
        WritesGroup s (.gsread w) w (one d x))

namespace Sys2Proof.Machine

/-! Commits (11_visibility). -/

/-- A buffer holds the last stored byte of each place and nothing else. -/
def Holds (l : List SecEntry) (bs : List SByte) : Prop :=
  ∀ k, let c := cellAt (secCells l (k / 16)) (k % 16)
    match storedAt bs k with | some b => c.val = b.val ∧ c.mask = 0xFF ∧ c.pois = false | none => c.mask = 0

/-- No buffer of a group's path to DEV holds anything, and there is room for `n` sectors. -/
def State.Fresh (s : State) (gk n : Nat) : Prop :=
  let g := s.group gk
  let t := s.team g.team
  let c := s.cluster t.cluster
  g.gsb = [] ∧ t.twb = [] ∧ c.merge = [] ∧ n ≤ g.gsbCap ∧ n ≤ t.quota ∧ n ≤ 512 * (c.w * c.h)
    ∧ s.poolUsed c.die + n ≤ 65536 ∧ c.die = g.die

/-- The counted instructions of the ladder that act on a range of addresses (R245). -/
def RangeForm (s : State) (i : Instr) (w : W0) (r : RRaw) (eff : State → Xl → State) : Prop :=
  let a := s.rdG64 w.a.toNat
  let n := (s.rdG r.b.toNat).toNat
  let g := s.grp
  let va := vaOf a
  (s.guardW w = false ∨ n = 0 → exec i s = .next ((s.issueOp w.f {}).cont))
  ∧ (s.guardW w = true → n ≠ 0 → canonical a = false → exec i s = .next (s.raiseSlot cBADA a))
  ∧ (s.guardW w = true → n ≠ 0 → rangeBad a n = none → ∀ u c,
      s.translate g.ctx g.die va .r (some g.core) = (u, .error c) →
      exec i s = .next (u.parkFault c u.slot.act (BitVec.ofNat 64 va)))
  ∧ (s.guardW w = true → n ≠ 0 → rangeBad a n = none → ∀ v x,
      s.translate g.ctx g.die va .r (some g.core) = (v, .ok x) →
      (va / 128 = (va + n - 1) / 128 → exec i s = .next (((eff v x).issueOp w.f { kind := .ladder }).cont))
      ∧ (va / 128 + 1 = (va + n - 1) / 128 → ∀ u,
          let next := va / 128 * 128 + 128
          (∀ c, (eff v x).translate g.ctx g.die next .r (some g.core) = (u, .error c) →
            exec i s = .next (u.parkFault c u.slot.act (BitVec.ofNat 64 next)))
          ∧ (∀ y, (eff v x).translate g.ctx g.die next .r (some g.core) = (u, .ok y) →
            exec i s = .next (((eff u y).issueOp w.f { kind := .ladder }).cont))))

end Sys2Proof.Machine

/-- 11_visibility R229, R231, R232, R234, R253: COMMIT pushes to its level and counts; COMMIT.CHK first looks for a
sibling's byte in the window, and gp0 tells at completion whether it committed. Stored bytes committed to
a level stand there, and at DEV in memory, with every other byte of memory as before.
11_visibility R231, R235, R236: ABORT discards the unit's uncommitted bytes: the group's store buffer; at TEAM also
the team's write buffer, its ABORTGEN advancing; at CLUS also the merge area, every team of the cluster
advancing. CSW records an abort past the horizon with its level. Memory is as before.
The model's own choices: log entry 13. -/
def Obligations.CommitsRaiseAndAbortsDiscard : Prop :=
  (∀ (s : State) (w : W0) (r : RRaw),
    let lvl := bitsOf r.m16.toNat 8 3
    CountedGroup s (.commit w r) w (s.commit s.cur lvl) { kind := .ladder }
    ∧ (s.chkConflict lvl = false →
        CountedGroup s (.commitChk w r) w (s.commit s.cur lvl) { kind := .ladder, gp := some (0, true) })
    ∧ (s.chkConflict lvl = true →
        CountedGroup s (.commitChk w r) w
          ((s.countGroup s.cur 8).modGrp (fun g => { g with csw := g.csw ||| 1 })) { kind := .ladder, gp := some (0, false) }))
  ∧ (∀ (s : State) (gk : Nat) (bs : List SByte),
    let g := s.group gk
    let tk := g.team
    let ck := (s.team tk).cluster
    let u := s.storeBytes gk bs 1 false
    s.Fresh gk (sectorsOf bs gk).length → (∀ b ∈ bs, b.mask = 0xFF) →
    (let t := u.commit gk 2
     (t.group gk).gsb = [] ∧ Holds (t.team tk).twb bs ∧ (t.group gk).horizon = false ∧ SameMem s t)
    ∧ (let t := u.commit gk 3
       (t.group gk).gsb = [] ∧ (t.team tk).twb = [] ∧ Holds (t.cluster ck).merge bs ∧ (t.team tk).horizon = false
         ∧ SameMem s t)
    ∧ ((∀ b ∈ bs, b.pk < 2 ^ 64 ∧ b.attr.home = g.die) →
       let t := u.commit gk 4
       (t.group gk).gsb = [] ∧ (t.team tk).twb = [] ∧ (t.cluster ck).merge = []
         ∧ (t.cluster ck).horizon = false
         ∧ ∀ k, t.memByte k = match storedAt bs k with | some b => b.val | none => s.memByte k))
  ∧ (∀ (s : State) (lvl : Nat),
    let g := s.grp
    let t := s.team g.team
    let clash := fun (buf : List SecEntry) me win sec =>
      ∃ e ∈ secCells buf sec, e.2.mask ≠ 0 ∧ e.2.by_ ≠ me ∧ win < e.2.seq
    (lvl = 2 → (s.chkConflict lvl = true ↔ ∃ e ∈ g.gsb, clash t.twb s.cur g.winTeam e.sec))
    ∧ (lvl ≠ 2 → (s.chkConflict lvl = true ↔
        ∃ e ∈ g.gsb ++ t.twb, clash (s.cluster t.cluster).merge g.team g.winClus e.sec)))
  ∧ (∀ (s : State) (w : W0) (r : RRaw),
    let lvl := bitsOf r.m16.toNat 8 3
    let u := s.abort lvl
    let g := s.grp
    let tk := g.team
    let ck := (s.team tk).cluster
    let past := match lvl with
      | 1 => g.horizon | 2 => (s.team tk).horizon | _ => (s.cluster ck).horizon
    CountedGroup s (.abort w r) w u { kind := .abort }
    ∧ SameMem s u ∧ u.grp.gsb = []
    ∧ u.grp.csw = (if past then (g.csw &&& 0xF3) ||| 2 ||| BitVec.ofNat 32 (4 * lvl) else g.csw)
    ∧ (u.grp.v = g.v ∧ u.grp.g = g.g ∧ u.grp.p = g.p ∧ u.grp.gp = g.gp ∧ u.grp.pend = g.pend)
    ∧ (lvl = 1 → u.teams = s.teams ∧ u.clusters = s.clusters ∧ u.grp.horizon = false)
    ∧ (lvl = 2 → (s.team tk).live = true → (u.team tk).twb = [] ∧ (u.team tk).horizon = false
        ∧ (u.team tk).abortGen = (s.team tk).abortGen + 1 ∧ u.clusters = s.clusters
        ∧ ∀ k, k ≠ tk → (s.team k).live = true → u.team k = s.team k)
    ∧ (lvl = 3 → (u.team tk).twb = [] ∧ (u.cluster ck).merge = [] ∧ (u.cluster ck).horizon = false
        ∧ (∀ k, (s.team k).live = true → (u.team k).abortGen =
            (s.team k).abortGen + (if (s.team k).cluster = ck then 1 else 0))
        ∧ ∀ k, k ≠ tk → (s.team k).live = true → (u.team k).twb = (s.team k).twb))

/-- 11_visibility R238, R239, R241, R245, R246, R247, R248: FENCE releases, drains and acquires in that order,
its release waiting for the group's loads, atomics and scratchpad stores, its acquire completing after the loads
and atomics before it; WBR sends a range's lines to their homes, INVR also drops the issuing die's clean copies
of them; both check their range first.
17_cold R389: bytes of a WBR.SYS that a peer refuses set CSW.POIS of the group.
The model's own choices: log entries 13, 14, 28. -/
def Obligations.FencesAndRanges : Prop :=
  (∀ (s : State) (w : W0) (r : RRaw),
    let ord := bitsOf r.m16.toNat 6 2
    let lvl := bitsOf r.m16.toNat 8 3
    let rel := decide (2 ≤ ord)
    let acq := decide (ord % 2 = 1)
    let s1 := if rel then s.releaseAt s.cur lvl else s
    let s2 := if r.m16.getLsbD 5 && decide (4 ≤ lvl) then s1.sendAll s1.grp.die else s1
    (s.guardW w = false → exec (.fence w r) s = .next ((s.issueOp w.f {}).cont))
    ∧ (s.guardW w = true → s.acquireOut s.cur = true ∨ (rel = true ∧ s.releaseWaits s.cur = true) →
        exec (.fence w r) s = .next s.holdIssue)
    ∧ (s.guardW w = true → s.acquireOut s.cur = false → (rel = false ∨ s.releaseWaits s.cur = false) →
        exec (.fence w r) s = .next ((s2.issueOp w.f
          { kind := .fence, acq := if acq then some lvl else none }).cont))
    ∧ (∀ gk o, o.kind = .fence → o.acq ≠ none → (∃ e ∈ (s.group gk).pend.takeWhile (fun e => e.id ≠ o.id),
        e.kind = .load ∨ e.kind = .atomic) → s.mayComplete gk o = false)
    ∧ (∀ gk, (∃ o ∈ (s.group gk).pend, o.kind = .load ∨ o.kind = .atomic ∨ o.kind = .sts) →
        s.releaseWaits gk = true)
    ∧ RangeForm s (.wbr w r) w r (fun u x => u.wbrLine lvl x)
    ∧ RangeForm s (.invr w r) w r (fun u x => u.invLine u.grp.die x))
  ∧ (∀ (s : State) (gk lvl : Nat),
    let g := s.group gk
    let ck := coreKey g.die g.core
    let t := s.acquireAt gk lvl
    SameMem s t ∧ t.groups = s.groups
    ∧ (lvl ≤ 2 → t = s)
    ∧ (3 ≤ lvl → (t.team g.team).l1thr = (s.coreAt ck).fillCtr + 1 ∧ (t.coreAt ck).l1 = (s.coreAt ck).l1
        ∧ ∀ k, k ≠ g.team → t.team k = s.team k)
    ∧ (lvl ≤ 3 → t.dies = s.dies)
    ∧ (4 ≤ lvl → (t.die g.die).gthr = (s.die g.die).gfill + 1 ∧ (t.die g.die).guest = (s.die g.die).guest)
    ∧ (lvl = 5 → ∀ d sec, ((t.die d).clean.getD sec {}).have_ = true →
        ((t.die d).clean.getD sec {}).ro = true ∨ ((t.die d).clean.getD sec {}).swc = true))
  ∧ (∀ (s : State) (lvl : Nat) (x : Xl),
    let line := x.pk / 128
    let d := s.grp.die
    let t := s.wbrLine lvl x
    let u := s.invLine d x
    (t.pline d line).have_ = false ∧ (u.pline d line).have_ = false
    ∧ (∀ sec, sec / 8 = line → ((u.die d).guest.getD sec {}).have_ = false)
    ∧ (∀ core sec ctx, ctx < 64 → sec / 8 = line → core / 256 = d →
        ((u.coreAt core).l1.getD (sec * 64 + ctx) {}).have_ = false)
    ∧ (let v := s.sendOrdered d line
      let lost := lvl = 5 ∧ 2 ≤ x.attr.tier ∧ ∃ e ∈ (v.die x.attr.home).dirty, e.1 / 128 = line
        ∧ v.served .write e.1 = false
      (lost → t.groups = (s.modGrp (fun g => { g with csw := g.csw ||| 0x80 })).groups)
      ∧ (¬ lost → t.groups = s.groups))
    ∧ u.groups = s.groups ∧ t.teams = s.teams ∧ u.teams = s.teams)

namespace Sys2Proof.Machine

/-! Atomics (12_atomics_barriers R255 to R266). -/

/-- The integer operations by their codes: ADD MIN MAX AND OR XOR XCHG INCW DECW CAS (R258, R260). -/
def atomOf {n : Nat} (z : Bool) (code : Nat) (x v v2 : BitVec n) : BitVec n :=
  match code with
  | 0 => BitVec.ofNat n (x.toNat + v.toNat)
  | 1 => if asInt z v < asInt z x then v else x
  | 2 => if asInt z x < asInt z v then v else x
  | 3 => x &&& v
  | 4 => x ||| v
  | 5 => x ^^^ v
  | 6 => v
  | 7 => if v.toNat ≤ x.toNat then 0 else BitVec.ofNat n (x.toNat + 1)
  | 8 => if x = 0 ∨ v.toNat < x.toNat then v else BitVec.ofNat n (x.toNat - 1)
  | _ => if x = v then v2 else x

/-- A memory atomic whose checks all pass completes: performed in the team's write buffer at TEAM, sent to the
Millers of its lines otherwise. -/
def AtomRuns (s : State) (i : Instr) (w : W0) (m : MemF) (k : AtomKind) : Prop :=
  let size := if k.ty = 4 ∨ k.ty = 9 ∨ k.ty = 13 then 8 else 4
  let addr := s.laneAddr w m false size
  s.acquireOut s.cur = false → (memRel m = true → s.releaseWaits s.cur = false) →
  ∀ u accs, s.Clear w .rw m.e size (addrRegs w m false ++ atomRegs w k) addr
      (fun L => decide ((addr L).toNat % size ≠ 0)) u accs →
    let u' := accs.foldl (fun s a => s.meetHome a.x.attr.home (a.x.pk / 16)) u
    u'.atomTraps m k accs = [] → exec i s = .next (u'.performAtom w m k s [] accs)

/-- The words of an old value: one register, or a pair. -/
def oldWords (d L : Nat) (wide : Bool) (x : DWord) : List PendWord :=
  { key := d * 32 + L, val := lo32 x } :: (if wide then [{ key := (d + 1) * 32 + L, val := hi32 x }] else [])

/-- The group's operation has received words, and has no more to come if `last`. -/
def PendOp.answered (op : Nat) (ws : List PendWord) (last : Bool) (o : PendOp) : PendOp :=
  if o.id = op then { o with
    v := o.v ++ ws, dst := o.dst.filter (fun k => !ws.any (fun w => w.key = k)), ready := last } else o

end Sys2Proof.Machine

/-- 12_atomics_barriers R257, R258, R260, R261, R262, R263: ATOM, CAS, RED and UATOM are counted with the old
value to come, and sent one request for each line, its lanes ascending, to the home's queue; at TEAM the lane's
bytes change in the team's write buffer at once, unless an earlier atomic of the group on those bytes is still
on its way, for which it waits. ATOMS performs the group's earlier scratchpad stores, changes its allocation and
returns the old value.
The model's own choices: log entry 18. -/
def Obligations.AtomicsReachTheirTargets : Prop :=
  (∀ (s : State) (w : W0) (m : MemF),
    let op := 4 * m.hnt.toNat + m.opx.toNat
    let ty := m.ty.toNat
    let second := some (if ty = 4 ∨ ty = 9 ∨ ty = 13 then 2 else 1)
    AtomRuns s (.atom w m) w m { code := op, ty }
    ∧ AtomRuns s (.cas w m) w m { code := 9, ty, second }
    ∧ AtomRuns s (.red w m) w m { code := op, ty, reply := false }
    ∧ AtomRuns s (.uatom w m) w m { code := op, ty, user := true, second })
  ∧ (∀ (s src : State) (w : W0) (m : MemF) (k : AtomKind) (accs : List LaneAcc), accs ≠ [] → memScope m 4 ≠ 2 →
    let scope := memScope m 4
    let t := s.performAtom w m k src [] accs
    let r := if memRel m then s.releaseAt s.cur scope else s
    let far := fun (a : LaneAcc) => decide (scope = 5) && decide (2 ≤ a.x.attr.tier)
    let up := r.carry r.cur 4 false (accSecs (accs.filter (fun a => !far a))) true
    let up := up.carry up.cur 5 false (accSecs (accs.filter far)) true
    let lines := dedup (accs.map (fun a => a.x.pk / 128))
    let words := fun (a : LaneAcc) => if k.reply then
      (w.d.toNat * 32 + a.lane) :: (if atWide k.ty then [(w.d.toNat + 1) * 32 + a.lane] else []) else []
    t.nextId = up.nextId + 1 + lines.length
    ∧ t.grp.pend = up.grp.pend ++ [{ id := up.nextId, kind := .atomic, flag := up.flagOf w.f, lc := up.lat.lc
                                     acq := if memAcq m then some scope else none, ready := false
                                     dst := accs.flatMap words }]
    ∧ (∀ i, i < lines.length →
        let q := t.mill (up.nextId + 1 + i)
        let mine := accs.filter (fun a => a.x.pk / 128 = lines.getD i 0)
        q.live = true ∧ q.grp = s.cur ∧ q.op = up.nextId ∧ q.code = k.code ∧ q.ty = k.ty ∧ q.user = k.user
          ∧ q.reply = k.reply ∧ q.dest = w.d.toNat ∧ q.scope = scope ∧ q.acq = memAcq m
          ∧ q.frag = (if k.user then up.uops.getD (up.grp.ctx * 16 + k.code) {} else {})
          ∧ q.attr = (mine.headD {}).x.attr
          ∧ q.lanes = mine.map (fun a => { lane := a.lane, at_ := a.x.pk, v1 := src.atomArg w.d.toNat k.ty a.lane
                                           v2 := src.atomV2 w k a.lane })
          ∧ (up.nextId + 1 + i) ∈ (t.die q.attr.home).miller))
  ∧ (∀ (s src : State) (w : W0) (m : MemF) (k : AtomKind) (accs : List LaneAcc), memScope m 4 = 2 → memRel m = false →
      s.atomBehind s.cur (atSize k.ty) accs = true → s.performAtom w m k src [] accs = src.holdIssue)
  ∧ (∀ (s src : State) (w : W0) (m : MemF) (k : AtomKind) (a : LaneAcc), memScope m 4 = 2 → memRel m = false →
      s.atomBehind s.cur (atSize k.ty) [a] = false →
      let sec := a.x.pk / 16
      let p := s.carry s.cur 2 false (accSecs [a])
      (p.team p.grp.team).twb.length < (p.team p.grp.team).quota →
      k.ty = 8 → a.vas = [a.va, a.va + 1, a.va + 2, a.va + 3] → (∀ i, i < 4 → (a.x.at_ (a.va + i)).pk = a.x.pk + i) →
      a.x.pk % 4 = 0 →
      let t := s.performAtom w m k src [] [a]
      let read := p.readSec s.cur sec a.x.attr 2 false false false
      let bs := read.2
      read.1.spillAll = [] →
      let old : Word := BitVec.ofNat 32 (natLE ((bs.drop (a.x.pk % 16)).take 4 |>.map (·.val)))
      let new := atomOf false k.code old (lo32 (src.atomArg w.d.toNat k.ty a.lane)) (lo32 (src.atomV2 w k a.lane))
      (∀ i, i < 4 → (a.x.at_ (a.va + i)).attr = a.x.attr) → k.code ≤ 9 →
      (∃ u : State, t = (u.issueOp w.f {
          kind := .atomic, acq := if memAcq m then some 2 else none, v := if k.reply then [{ key := w.d.toNat * 32 + a.lane, val := old }] else [] }).cont)
      ∧ ∀ i, i < 4 → let c := cellAt (secCells (t.team p.grp.team).twb sec) (a.x.pk % 16 + i)
          c.val = new.extractLsb' (8 * i) 8 ∧ c.mask = 0xFF)
  ∧ (∀ (s : State) (w : W0) (m : MemF),
    let h := w.a.toNat
    let p := s.landSts h
    let a := (p.team p.grp.team).alloc h
    let ty := m.ty.toNat
    let op := 4 * m.hnt.toNat + m.opx.toNat
    let act := p.activeW w
    let rd := (if m.nob then [] else [m.b.toNat]) ++ dataRegs w 3 ++ (if op = 9 then [w.d.toNat + 1] else [])
    let noted := if p.lapses act (fun _ => rd) then p.setMemst 8 else p
    (p.acquireOut p.cur = true → exec (.atoms w m) s = .next p.holdIssue)
    ∧ (p.acquireOut p.cur = false → ty ∈ [3, 8, 12] → m.e = false → ReadsClean p act (fun _ => rd) →
      (a.bound = false → act ≠ 0 → exec (.atoms w m) s = .next (((noted.setMemst 1).issueOp w.f
        { kind := .atomic, v := (lanesOf act).map (fun L => { key := w.d.toNat * 32 + L, val := 0 }) }).cont))
      ∧ (p.PlainAlloc a → ∀ L, act = ofBits (fun i => decide (i = L)) → L < 32 → op ≤ 9 →
        let o := ((if m.nob then 0 else (p.rd m.b.toNat L).toNat) + m.c.toNat * 4) % pow2Up a.size
        let at_ := spadStart o 4
        let old : Word := BitVec.ofNat 32 (natLE ((List.range 4).map (fun i => a.data.getD (at_ + i) 0)))
        let new := atomOf (decide (ty = 12)) op old (p.rd w.d.toNat L) (p.rd (w.d.toNat + 1) L)
        let gap := decide (a.size < at_ + 4)
        ∃ a', exec (.atoms w m) s = .next ((((noted.setAlloc p.grp.team h a').setMemst (spadNote a o 4)).issueOp w.f
            { kind := .atomic, v := [{ key := w.d.toNat * 32 + L, val := if gap then 0 else old }] }).cont)
          ∧ a' = { a with data := a'.data }
          ∧ ∀ k, a'.data.getD k 0 = if gap then a.data.getD k 0 else if at_ ≤ k ∧ k < at_ + 4
              then new.extractLsb' (8 * (k - at_)) 8 else a.data.getD k 0)))

/-- 12_atomics_barriers R255, R257, R260, R261, R263, R266: MILLER ATOMIC and USER OPERATION perform a request that no
earlier one of its line holds back: the new bytes are in memory at home, the old value or the reply goes
to the group's operation, and the request is gone. Stated of one lane and a line at home in DRAM on the
requesting die, in no spill area; the operations are the table's.
The model's own choices: log entry 18. -/
def Obligations.MillersPerformRequests : Prop :=
  (∀ (code : Nat) (x v v2 : Word), code ≤ 9 → ∀ ty, ty ∈ [3, 8, 12] →
    lo32 (atNew code ty (x.setWidth 64) (v.setWidth 64) (v2.setWidth 64)) = atomOf (decide (ty = 12)) code x v v2)
  ∧ (∀ (code : Nat) (x v v2 : DWord), code ≤ 9 → ∀ ty, ty ∈ [4, 9, 13] →
    atNew code ty x v v2 = atomOf (decide (ty = 13)) code x v v2)
  ∧ (∀ (s : State) (die req : Nat),
    let r := s.mill req
    let n := if r.ty = 4 ∨ r.ty = 9 ∨ r.ty = 13 then 8 else 4
    let wide := decide (n = 8)
    let last := decide (∀ e ∈ s.mills, e.1 ≠ req → e.2.live = true → e.2.op ≠ r.op)
    let plain := fun (l : LaneOp) => r.lanes = [l] ∧ r.attr.home = die ∧ r.fromDie = die ∧ r.attr.tier = 0 ∧ r.acq = false
      ∧ r.rel = none ∧ l.at_ + n ≤ 2 ^ 64 ∧ (s.pline die (l.at_ / 128)).have_ = false
      ∧ (s.millBefore r r.line).spillAll = []
    let done := fun (t : State) (l : LaneOp) (new : DWord) (ws : List PendWord) =>
      (∀ k, t.memByte k = if l.at_ ≤ k ∧ k < l.at_ + n then new.extractLsb' (8 * (k - l.at_)) 8 else s.memByte k)
      ∧ (t.group r.grp).pend = (s.group r.grp).pend.map (PendOp.answered r.op ws last)
      ∧ (t.mill req).live = false ∧ req ∉ (t.die die).miller
    (s.millReady die req = false → exec (.millerAtomic die req) s = .next s ∧ exec (.userOperation die req) s = .next s)
    ∧ (r.user = true → exec (.millerAtomic die req) s = .next s)
    ∧ (r.user = false → exec (.userOperation die req) s = .next s)
    ∧ (s.millReady die req = true → r.user = false → ∀ l, plain l →
      let old : DWord := BitVec.ofNat 64 (s.memNat l.at_ n)
      Runs (.millerAtomic die req) s (fun t => done t l (atNew r.code r.ty old l.v1 l.v2)
        (if r.reply then oldWords r.dest l.lane wide old else [])))
    ∧ (s.millReady die req = true → r.user = true → ∀ l, plain l → ∀ new reply,
      (s.millBefore r r.line).userOp r l (BitVec.ofNat 64 (s.memNat l.at_ n)) = some (new, reply) →
      (∀ o ∈ (s.group r.grp).pend, o.id = r.op → ∀ k ∈ o.dst, k % 32 = l.lane ∧
        ∃ x ∈ (if r.reply then oldWords r.dest l.lane wide reply else []), x.key = k) →
      Runs (.userOperation die req) s (fun t => done t l new
        (if r.reply then oldWords r.dest l.lane wide reply else []))))

namespace Sys2Proof.Machine

/-! Barriers (12_atomics_barriers R267 to R276). -/

/-- A phase completes when both counts have reached their targets; counts saturate (R268). -/
def BarObj.counted (b : BarObj) (acnt bcnt btgt : Nat) : BarObj :=
  if max b.atgt 1 ≤ acnt ∧ btgt ≤ bcnt then
    { b with phase := (b.phase + 1) % 65536, acnt := 0, bcnt := 0, btgt := 0
             aovf := b.aovf || decide (max b.atgt 1 < acnt), bovf := b.bovf || decide (btgt < bcnt) }
  else { b with acnt, bcnt, btgt }
def BarObj.arrived (b : BarObj) (na nb : Nat) : BarObj :=
  b.counted (min (b.acnt + na) 65535) (min (b.bcnt + nb) 4294967295) b.btgt

/-- A plain allocation's object replaced: it reads as `b`, and no byte outside its 16 is changed, nor what is
armed at the cells of other words. -/
def ObjectBecomes (a a' : Alloc) (o : Nat) (b : BarObj) : Prop :=
  (∀ lc, a'.barrier lc o = b) ∧ (∀ k, k < o ∨ o + 16 ≤ k → a'.data.getD k 0 = a.data.getD k 0)
    ∧ a' = { a with data := a'.data, pois := a'.pois, arm := a'.arm }
    ∧ (∀ w, 4 * w + 4 ≤ o ∨ o + 16 ≤ 4 * w → a'.arm.getD w 0 = a.arm.getD w 0)

/-- An operation that reads an object meets the errors of its cells first (10_allocation R222). -/
def State.objectMet (s : State) (tk h o : Nat) (issuer : Option (Nat × Nat)) : State :=
  s.meetSpad tk h (s.allocClock tk ((s.team tk).alloc h) issuer) ((List.range 16).map (o + ·))

/-- The state in which an arrival finds its object, and the allocation it finds: of a team that is away, as
the save area holds it. -/
def State.arrivalFinds (s : State) (req : Nat) : State × Alloc :=
  let x := s.arrival req
  let o := x.off % pow2Up ((s.team x.team).alloc x.handle).size
  let p := (s.setArrival req {}).noteMemst x.grp 0
  (p.objectMet x.team x.handle o (if x.barw then none else some (x.grp, x.lc))).allocNow x.team x.handle o 16

/-- A barrier object of a plain allocation is there. -/
def Alloc.hasObject (a : Alloc) (o : Nat) : Prop := a.cls = 0 ∧ a.bound = true ∧ o + 16 ≤ a.size

end Sys2Proof.Machine

/-- 12_atomics_barriers R268, R269, R270, R271, R272, R273, R274, R275, R276: BINIT, BARV, BWAIT, BTEST, BEXP,
CHKT and TIME, and the arrivals that reach another team, of which those at a team that is swapped out change the
object as its save area holds it, but not while the Miller's core is frozen. Each performs the group's earlier
scratchpad stores to its handle first.
10_allocation R222: an operation that reads words of scratchpad meets the errors of their cells: a lasting one
poisons its word. An object that is not there is noted in MEMST and reads as zeros, and the instruction goes on.
Objects stated of plain allocations, whose words do not expire.
The model's own choices: log entry 29. -/
def Obligations.BarriersCountTheirPhases : Prop :=
  (∀ (s : State) (w : W0) (r : RRaw),
    let h := w.a.toNat
    let p := s.landSts h
    let tk := p.grp.team
    let a := (p.team tk).alloc h
    let o := 16 * r.c.toNat % pow2Up a.size
    let miss : Word := if a.bound then 2 else 1
    let gone := a.bound = false ∨ a.size < o + 16
    let b := a.barrier (p.issueClock a) o
    let phase := if r.m16.getLsbD 15 then bitsOf r.m16.toNat 0 15 else (p.rdG r.b.toNat).toNat % 65536
    let scope := if b.scl then 3 else 2
    let passed := fun (now : Nat) => let d := (now + 65536 - phase % 65536) % 65536; decide (1 ≤ d ∧ d ≤ 32768)
    let on := p.guardW w = true
    let free := p.acquireOut p.cur = false
    let noted := p.setMemst miss
    (p.guardW w = false → exec (.binit w r) s = .next p.cont ∧ exec (.bwait w r) s = .next p.cont
      ∧ exec (.btest w r) s = .next p.cont ∧ exec (.bexp w r) s = .next p.cont ∧ exec (.chkt w r) s = .next p.cont)
    ∧ (on → free → gone → exec (.binit w r) s = .next noted.cont ∧ exec (.bexp w r) s = .next noted.cont
        ∧ exec (.btest w r) s = .next (((noted.acquireAt p.cur 2).wrGP w.d.toNat (passed 0)).cont)
        ∧ (passed 0 = true → exec (.bwait w r) s = .next ((noted.acquireAt p.cur 2).cont)))
    ∧ (on → gone → passed 0 = false → exec (.bwait w r) s = .next noted.holdIssue)
    ∧ (on → free → a.hasObject o → ∃ a', exec (.binit w r) s = .next (p.setAlloc tk h a').cont
        ∧ ObjectBecomes a a' o { atgt := (p.rdG r.b.toNat).toNat % 65536, scl := r.m16.getLsbD 0 })
    ∧ (on → free → a.hasObject o → ∃ a', exec (.bexp w r) s = .next (p.setAlloc tk h a').cont
        ∧ ObjectBecomes a a' o
            (b.counted b.acnt b.bcnt (min (b.btgt + (p.rdG r.b.toNat).toNat) 4294967295)))
    ∧ (on → free → a.hasObject o → passed b.phase = true → exec (.bwait w r) s = .next (p.acquireAt p.cur scope).cont)
    ∧ (on → a.hasObject o → passed b.phase = false → exec (.bwait w r) s = .next p.holdIssue)
    ∧ (on → free → a.hasObject o →
        exec (.btest w r) s = .next ((p.acquireAt p.cur scope).wrGP w.d.toNat (passed b.phase)).cont)
    ∧ (p.acquireOut p.cur = true → on → exec (.btest w r) s = .next p.holdIssue)
    ∧ (s.acquireOut s.cur = true → exec (.time w) s = .next s.holdIssue)
    ∧ (s.acquireOut s.cur = false →
        WritesGroup s (.time w) w (two w.d.toNat (BitVec.ofNat 64 (s.dieTime s.grp.die))))
    ∧ (let at_ := 4 * r.c.toNat % pow2Up a.size
      let v : Word := BitVec.ofNat 32 (natLE ((List.range 4).map (fun i => a.data.getD (at_ + i) 0)))
      let mask := p.rdG r.b.toNat
      (on → free → a.cls = 0 → a.bound = true → at_ + 4 ≤ a.size →
        ∃ u, exec (.chkt w r) s = .next u.cont ∧ GroupPredWritten p u w.d.toNat
          (if r.m16.getLsbD 0 then decide (v &&& mask ≠ 0) else decide (v &&& mask = mask)))
      ∧ (on → free → a.bound = false ∨ a.size < at_ + 4 → exec (.chkt w r) s = .next ((noted.wrGP w.d.toNat
          (if r.m16.getLsbD 0 then false else decide (mask = 0))).cont))))
  ∧ (∀ (s : State) (w : W0) (r : RRaw),
    let h := w.a.toNat
    let p := s.landSts h
    let m := p.activeW w
    let cnt := if r.m16.getLsbD 9 then bitsOf r.m16.toNat 0 8 else (p.rdG w.d.toNat).toNat % 65536
    let na := (lanesOf m).length * cnt
    let rmt := r.m16.getLsbD 15
    let s1 := p.releaseAt p.cur (if rmt then 3 else 2)
    let tk := p.grp.team
    let a := (s1.team tk).alloc h
    let o := 16 * r.c.toNat % pow2Up a.size
    let peer := if r.m16.getLsbD 14 then (p.rdG r.b.toNat).toNat % 16 else bitsOf r.m16.toNat 10 4
    let ck := (s1.team s1.grp.team).cluster
    let counted := fun (u : State) => (u.issueOp w.f { kind := .barrier }).cont
    p.acquireOut p.cur = false → p.releaseWaits p.cur = false →
    (na = 0 → exec (.barv w r) s = .next (counted s1))
    ∧ (na ≠ 0 → rmt = false → s1.grp.team = tk → (s1.team tk).away = false → a.hasObject o → ∃ a',
        exec (.barv w r) s = .next (counted ((s1.objectMet tk h o (some (s1.cur, s1.lat.lc))).setAlloc tk h a'))
        ∧ ObjectBecomes a a' o ((a.barrier 0 o).arrived na 0))
    ∧ (na ≠ 0 → rmt = false → s1.grp.team = tk → a.bound = false ∨ a.size < o + 16 →
        exec (.barv w r) s = .next (counted (s1.setMemst (if a.bound then 2 else 1))))
    ∧ (na ≠ 0 → rmt = true → s1.clusterHas ck peer = false →
        exec (.barv w r) s = .next (counted (s1.setMemst 1)))
    ∧ (na ≠ 0 → rmt = true → s1.clusterHas ck peer = true → ∀ tq, s1.clusterTeam ck peer = some tq →
        let u := s1.issueOp w.f { kind := .barrier, ready := false }
        let x : Arrival := { live := true, team := tq, handle := h, off := 16 * r.c.toNat, lc := s1.lat.lc, na
                             grp := s1.cur, op := s1.nextId }
        exec (.barv w r) s = .next (({ u with nextId := u.nextId + 1 } : State).setArrival u.nextId x).cont))
  ∧ (∀ (s : State) (req : Nat),
    let x := s.arrival req
    let t := s.team x.team
    let a := t.alloc x.handle
    let o := x.off % pow2Up a.size
    let lands := fun (a : Alloc) (u : State) =>
      u.arrivals = s.arrivals.set req {} {} ∧ ObjectBecomes a ((u.team x.team).alloc x.handle) o
        ((a.barrier 0 o).arrived x.na x.nb)
      ∧ (u.group x.grp).pend = (s.group x.grp).pend.map (fun o => if o.id = x.op then { o with ready := true } else o)
    (x.live = false ∨ t.away = true ∨ s.frozenAt t.die t.core = true → exec (.remoteArrival req) s = .next s)
    ∧ (x.live = false ∨ t.away = false → exec (.barw req) s = .next s)
    ∧ (x.live = true → t.live = true → t.away = false → s.frozenAt t.die t.core = false → a.hasObject o →
        Runs (.remoteArrival req) s (fun u => lands a u ∧ SameMem s u))
    ∧ (s.savedFrozen x.team x.handle o = true → exec (.barw req) s = .next s)
    ∧ (x.live = true → t.live = true → t.away = true → s.savedFrozen x.team x.handle o = false → a.hasObject o →
        Runs (.barw req) s (lands (s.arrivalFinds req).2)))
  ∧ (∀ (s : State) (tk h o n : Nat),
    let t := s.team tk
    let a := t.alloc h
    let r := s.allocNow tk h o n
    let at_ := fun b => vaOf (BitVec.ofNat 64 (b + s.imageRows tk h + o))
    (t.away = false ∨ s.saved.getD tk 0 = 0 → r = (s, a))
    ∧ (∀ b u bs, t.away = true → s.saved.getD tk 0 = b + 1 → s.engineRead t.ctx t.die (at_ b) n = (u, .ok bs) →
        r.1 = u ∧ r.2 = { a with data := r.2.data }
        ∧ (∀ i, i < bs.length → r.2.data.getD (o + i) 0 = (bs.getD i {}).val)
        ∧ (∀ k, k < o ∨ o + bs.length ≤ k → r.2.data.getD k 0 = a.data.getD k 0)))
  ∧ (∀ (s : State) (tk h lc : Nat) (offs : List Nat),
    let a := (s.team tk).alloc h
    let b := ((s.meetSpad tk h lc offs).team tk).alloc h
    let meets := fun w => (∃ o ∈ offs, o / 4 = w) ∧ a.unreadable lc (4 * w) = false ∧ 4 * w < a.size
    b = { a with arm := b.arm, pois := b.pois }
    ∧ (∀ w, meets w → b.arm.getD w 0 = 0 ∧ (3 ≤ a.arm.getD w 0 → b.pois.getD w false = true))
    ∧ (∀ w, ¬ meets w → b.arm.getD w 0 = a.arm.getD w 0)
    ∧ (∀ w, ¬ meets w ∨ a.arm.getD w 0 < 3 → b.pois.getD w false = a.pois.getD w false)
    ∧ SameMem s (s.meetSpad tk h lc offs))

namespace Sys2Proof.Machine

/-! Engine commands (13_copy, 14_matrix). -/

/-- The guard of a queued command is not known yet: an outstanding instruction will write its predicate (13_copy
R287). -/
def State.guardOpen (s : State) (w : W0) : Prop :=
  w.g.toNat ≠ 15 ∧ ∃ o ∈ s.grp.pend, ∃ b, o.gp = some (w.g.toNat - 12, b)

/-- The group's outstanding operations of some kinds. -/
def Group.earlier (g : Group) (ks : List OpKind) : List Nat := (g.pend.filter (fun o => ks.contains o.kind)).map (·.id)

/-- The command as a copy instruction makes it: it follows the group's outstanding commits, fences, scratchpad
stores, atomics and barrier operations. -/
def State.copyOf (s : State) (w : W0) (kind : Nat) : CopyCmd :=
  let g := s.grp
  { live := true, kind, words := (List.range 8).map (fun i => s.rdG (w.a.toNat + i)), grp := s.cur, team := g.team
    ctx := g.ctx, die := g.die, slotB := s.curB, guard := s.pendingGuard w, word := s.lat.word.toNat
    after := g.earlier [.ladder, .fence, .sts, .atomic, .barrier] }

/-- A copy instruction: no effect under a false guard but its count; CPYX for a bad command; a wait while the queue
or the lock table is full; otherwise queued with its locks and counted. -/
def CopyQueued (s : State) (i : Instr) (w : W0) (kind : Nat) : Prop :=
  let g := s.grp
  let ck := coreKey g.die g.core
  let core := s.coreAt ck
  let c := s.copyOf w kind
  let locks := s.copyLocks s.nextId c
  let runs := s.guardOpen w ∨ s.guardW w = true
  let room := core.cpy.length < 64 ∧ core.locks.length + locks.length ≤ 32
  s.acquireOut s.cur = false →
  (¬ runs → exec i s = .next ((s.issueOp w.f {}).cont))
  ∧ (runs → s.copyBad c = true → exec i s = .next (s.raiseSlot cCPYX))
  ∧ (runs → s.copyBad c = false → ¬ room → exec i s = .next s.holdIssue)
  ∧ (runs → s.copyBad c = false → room → Runs i s (fun t =>
      (t.coreAt ck).cpy = core.cpy ++ [s.nextId] ∧ (t.coreAt ck).locks = core.locks ++ locks
      ∧ t.copy s.nextId = { c with op := s.nextId + 1, dests := s.copyDests c }
      ∧ t.grp.pend = g.pend ++ [{ id := s.nextId + 1, kind := .engine, flag := s.flagOf w.f, lc := s.lat.lc, ready := false }]
      ∧ t.grp = { g with slotA := t.grp.slotA, slotB := t.grp.slotB, pend := t.grp.pend, flags := t.grp.flags }
      ∧ t.teams = s.teams ∧ SameMem s t))

/-- A matrix command under a known false guard completes at once, in its batch (14_matrix R303, R318). -/
def MatSkips (s : State) (i : Instr) (w : W0) (tracked : Bool) : Prop :=
  ¬ s.guardOpen w → s.guardW w = false → Runs i s (fun t =>
    t.grp.unbatched = s.grp.unbatched ++ [s.nextId]
    ∧ t.grp.pend = (if tracked then s.grp.pend ++
        [{ id := s.nextId + 1, flag := s.flagOf w.f, lc := s.lat.lc }] else s.grp.pend)
    ∧ t.mats = s.mats ∧ SameMem s t)

/-- A matrix command that passes its checks is queued, or waits for room (14_matrix R302). -/
def MatQueued (s : State) (i : Instr) (w : W0) (c : MatCmd) (tracked : Bool) : Prop :=
  let g := s.grp
  let ck := coreKey g.die g.core
  let core := s.coreAt ck
  let c : MatCmd := { c with
    live := true, grp := s.cur, team := g.team, ctx := g.ctx, die := g.die, guard := s.pendingGuard w
    word := s.lat.word.toNat
    after := g.earlier (if c.kind = 2 then [] else if c.kind = 4 then [.ladder, .fence] else [.sts, .atomic, .barrier]) }
  let locks := (s.matRange s.nextId c).toList
  let room := core.mat.length < 16 ∧ core.locks.length + locks.length ≤ 32
  (¬ room → exec i s = .next s.holdIssue)
  ∧ (room → Runs i s (fun t =>
      (t.coreAt ck).mat = core.mat ++ [s.nextId] ∧ (t.coreAt ck).locks = core.locks ++ locks
      ∧ t.mat s.nextId = (if tracked then { c with op := s.nextId + 1 } else c)
      ∧ t.grp.unbatched = g.unbatched ++ [s.nextId]
      ∧ t.grp.pend = (if tracked then g.pend ++
          [{ id := s.nextId + 1, kind := .engine, flag := s.flagOf w.f, lc := s.lat.lc, ready := false }] else g.pend)
      ∧ t.teams = s.teams ∧ SameMem s t))

/-- Every word of some lane registers, each with how many of its lanes, is readable and none is poisoned. -/
def State.WholeRegs (s : State) (regs : List (Nat × Nat)) : Prop :=
  ∀ n ∈ regs, ∀ L, L < n.2 → s.grp.unreadable s.lat.lc n.1 L = false ∧ s.grp.vPoisoned n.1 L = false

/-- A command leaves its engine: it is gone from queue and table, its locks are released, and its operation may
complete. -/
def Finished (s t : State) (grp op : Nat) : Prop :=
  (t.group grp).pend = (s.group grp).pend.map (fun o => if o.id = op then { o with ready := true } else o)
def CopyGone (s t : State) (core id : Nat) : Prop :=
  (t.copy id).live = false ∧ id ∉ (t.coreAt core).cpy ∧ (∀ r ∈ (t.coreAt core).locks, r.owner ≠ id)
    ∧ Finished s t (s.copy id).grp (s.copy id).op
def MatGone (s t : State) (core id : Nat) : Prop :=
  (t.mat id).live = false ∧ id ∉ (t.coreAt core).mat ∧ (∀ r ∈ (t.coreAt core).locks, r.owner ≠ id)
    ∧ Finished s t (s.mat id).grp (s.mat id).op

/-- A drain's element: the accumulator times SCALE, formed exactly (R316). -/
def MatCmd.element (c : MatCmd) (i : Nat) : FNum :=
  ((f32.decode (c.snap.elems.getD i 0).toNat).mul (f32.decode (c.a.getD 3 0).toNat)).1

/-- The elements of a run of a drain, and the number that its bytes spell. -/
def MatCmd.runLen (c : MatCmd) : Nat := if c.pitch = 0 then 128 * c.rows else 128
def MatCmd.runValue (c : MatCmd) (q : Nat) : Nat := natLE ((c.output.1.drop (q * c.runBytes)).take c.runBytes)

/-- Where a drain's byte goes from the destination on: row after row, PITCH apart (R316). -/
def MatCmd.placeOf (c : MatCmd) (i : Nat) : Nat := i / c.runBytes * c.pitch + i % c.runBytes

/-- Element `j` of run `q` of a drain stands in the run's bytes as its type has it (R146, R147, R316). -/
def MatCmd.ElementDrained (c : MatCmd) (q j : Nat) : Prop :=
  let n := c.runLen
  let x := c.runValue q
  let y := c.element (q * n + j)
  let w := fmW c.fc
  let l := fmBlkLen c.fc
  let block := 8 * (j / l * fmBlkBytes c.fc)
  let scale := (fsclVal c.fc c.level1
    (greatest ((List.range l).map (fun i => c.element (q * n + j / l * l + i))))).1
  (c.ty = 16 → bitsOf x (32 * j) 32 = (f32.deliver 0 (y, 0)).1)
  ∧ (c.ty = 15 → bitsOf x (16 * j) 16 = (bf16.deliver 0 (y, 0)).1)
  ∧ (c.ty = 14 → bitsOf x (16 * j) 16 = (f16.deliver 0 (y, 0)).1)
  ∧ (c.ty = 0 → fmSck c.fc = 0 → bitsOf x (w * j) w = (fmEncode c.fc c.level1 (fmFactor c.fc 0) y).1)
  ∧ (c.ty = 0 → fmSck c.fc ≠ 0 → bitsOf x block 8 = scale
      ∧ bitsOf x (block + 8 + w * (j % l)) w = (fmEncode c.fc c.level1 (fmFactor c.fc scale) y).1)

/-- A plain allocation without poison. -/
def Alloc.isPlain (a : Alloc) : Prop := a.bound = true ∧ a.cls = 0 ∧ a.pois = []

end Sys2Proof.Machine

/-- 13_copy R279, R280, R284 to R289, R292, R293: the copy instructions queue their command; GUARD RESOLVE
settles a guard, COPY COMMAND START begins a command, CPYG's with its index list read, CHUNK LAND moves its
bytes, here between plain allocations of teams at their cores; CPYQ reports the queue and clears the status;
CPYC removes the team's commands it names.
The model's own choices: log entry 30. -/
def Obligations.CopyCommandsMoveBytes : Prop :=
  (∀ (s : State) (w : W0),
    CopyQueued s (.cpy w) w 0 ∧ CopyQueued s (.cpy2d w) w 1 ∧ CopyQueued s (.cpym w) w 2 ∧ CopyQueued s (.cpyg w) w 3)
  ∧ (∀ (s : State) (w : W0),
    let g := s.grp
    let ck := coreKey g.die g.core
    let q := (s.coreAt ck).cpy
    let mine := q.filter (fun i => (s.copy i).grp = s.cur)
    let tag := (s.rdG w.a.toNat).toNat % 65536
    let tagged := mine.filter (fun i => (s.copy i).tag = tag)
    let sel := s.rdG w.a.toNat
    let hit := q.filter (fun i => (s.copy i).team = g.team && (sel.getLsbD 31 || (s.copy i).tag = tag))
    (s.guardW w = false → exec (.cpyq w) s = .next s.cont ∧ exec (.cpyc w) s = .next s.cont)
    ∧ (s.guardW w = true → exec (.cpyq w) s = .next
        (((s.wrG w.d.toNat (g.cpyst ||| BitVec.ofNat 32 (tagged.length * 16384 + mine.length * 128 + (64 - q.length)))).modGrp
          (fun g => { g with cpyst := 0 })).cont))
    ∧ (s.guardW w = true → hit = [] → exec (.cpyc w) s = .next (s.wrG w.d.toNat 0).cont)
    ∧ (s.guardW w = true → Runs (.cpyc w) s (fun t =>
        t.grp.gget w.d.toNat = BitVec.ofNat 32 hit.length
        ∧ ∀ i ∈ hit, (t.copy i).live = false ∧ i ∉ (t.coreAt ck).cpy)))
  ∧ (∀ (s : State) (core cmd : Nat),
    let c := s.copy cmd
    let ready := s.copyReady core cmd
    let v := s.meetRange c.team c.ih c.ioff (4 * c.elems)
    (ready = false → exec (.copyCommandStart core cmd) s = .next s)
    ∧ (ready = true → c.kind ≠ 3 → c.chunks ≠ 0 →
        exec (.copyCommandStart core cmd) s = .next (s.setCopy cmd { c with started := true, index := [] }))
    ∧ (ready = true → c.kind = 3 → c.chunks ≠ 0 → Runs (.copyCommandStart core cmd) s (fun t =>
        t.copy cmd = { c with started := true, index := (v.readIndex c).1 } ∧ SameMem s t
        ∧ ∀ r ∈ (t.coreAt core).locks, r.owner = cmd → r.wr = true))
    ∧ (ready = true → c.kind ≠ 3 → c.chunks = 0 →
        Runs (.copyCommandStart core cmd) s (fun t => CopyGone s t core cmd ∧ SameMem s t)))
  ∧ (∀ (s : State) (core : Nat),
    let c := fun id => s.copy id
    (s.copyHead core = none → exec (.guardResolve core false) s = .next s)
    ∧ (∀ id, s.copyHead core = some id → (c id).guard = none → exec (.guardResolve core false) s = .next s)
    ∧ (∀ id n neg, s.copyHead core = some id → (c id).guard = some (n, neg) → (c id).gval = none →
        (s.group (c id).grp).gpPending n = true → exec (.guardResolve core false) s = .next s)
    ∧ (∀ id n neg, s.copyHead core = some id → (c id).guard = some (n, neg) → (c id).gval = none →
        (s.group (c id).grp).gpPending n = false → (s.group (c id).grp).gpget n ≠ neg →
        exec (.guardResolve core false) s = .next (s.setCopy id { c id with guard := none }))
    ∧ (∀ id n neg, s.copyHead core = some id → (c id).guard = some (n, neg) → (c id).gval = none →
        (s.group (c id).grp).gpPending n = false → (s.group (c id).grp).gpget n = neg →
        Runs (.guardResolve core false) s (fun t => CopyGone s t core id)))
  ∧ (∀ (s : State) (core cmd k tk : Nat),
    let c := s.copy cmd
    let a := (s.team c.team).alloc c.sh
    let b := (s.team tk).alloc c.dh
    let lo := 512 * k
    let n := min c.len (lo + 512) - lo
    let from_ := (c.w 0).toNat
    let to_ := (c.w 2).toNat
    s.chunkReady core cmd k = true → k ∉ c.landed → c.held = [] → s.teamFrozen c k tk = false →
    (s.team tk).away = false → c.kind = 0 → c.sk = 1 → c.dk = 1 → c.dests = [tk] → c.cv = false → c.bv = false →
    a.isPlain → a.arm = [] → b.isPlain → from_ + c.len ≤ a.size → to_ + c.len ≤ b.size →
    Runs (.chunkLand core cmd k) s (fun t =>
      (∀ o, ((t.team tk).alloc c.dh).data.getD o 0 = if to_ + lo ≤ o ∧ o < to_ + lo + n
        then a.data.getD (from_ + lo + (o - (to_ + lo))) 0 else b.data.getD o 0)
      ∧ SameMem s t
      ∧ (c.landed.length + 1 < c.chunks → (t.copy cmd).landed = k :: c.landed ∧ (t.copy cmd).live = true)
      ∧ (c.chunks ≤ c.landed.length + 1 → CopyGone s t core cmd)))

/-- 14_matrix R300 to R306, R308, R311, R312, R314 to R321: the matrix instructions check their operands and queue; a
command starts when nothing before it holds it back, and then MZERO clears its tile, MMA and MMAS replace
each element by the sum R311 gives, unless the residue check poisons the tile, and MDRAIN keeps the tile it will
write; CHUNK LAND writes a chunk of a drain: each element times SCALE, narrowed to the drain's type, a block
of a scaled record under the scale byte chosen for its greatest magnitude, rows PITCH apart; a poisoned
element or a destination in error fails the chunk; MFENCE closes a batch that
BATCH ARRIVAL counts; MYOKE binds and reports; MSTAT reports.
The model's own choices: log entry 53. -/
def Obligations.MatrixCommandsRun : Prop :=
  (∀ (s : State) (w : W0) (r : RRaw), s.acquireOut s.cur = false →
    let g := s.grp
    let t := s.team g.team
    let m := r.m16
    let ty := bitsOf m.toNat 11 5
    let h := bitsOf m.toNat 7 4
    let asc := m.getLsbD 3
    let b := t.alloc h
    let fa := if ty = 0 then g.fmget (bitsOf m.toNat 4 3) else 0
    let off := (s.rdG r.b.toNat).toNat
    let runs := s.guardOpen w ∨ s.guardW w = true
    let words := fun (ns : List Nat) => ns.flatMap (fun n => (List.range 32).map (fun L => s.rd n L))
    let accBad := fun mm => decide (t.nacc ≤ w.d.toNat) || s.followerBound || (mm && t.yokeMode && !s.yokeBound g.die g.core)
    let yoked := t.yokeMode && decide (t.px % 2 = 0) && s.yokeBound t.die t.core
    let multiply := fun (i : Instr) (sparse : Bool) =>
      let n := (if yoked then 32 else 16) * (if sparse then 2 else 1)
      let regs := runOf w.a n
      let sc := if asc then [r.c.toNat] else []
      let bad := mmFormatBad ty sparse asc fa b.record b.bound (b.fmtIdx = 0)
      let held := w.a.toNat + n ≤ g.nreg ∧ (asc = true → r.c.toNat < g.nreg)
      MatSkips s i w true
      ∧ (runs → ¬ held → exec i s = .next (s.raiseSlot cILL))
      ∧ (runs → held → accBad true = true → exec i s = .next (s.raiseSlot cACC))
      ∧ (runs → held → accBad true = false → bad = true → exec i s = .next (s.raiseSlot cFMTX))
      ∧ (runs → held → accBad true = false → bad = false → off % 4 ≠ 0 → exec i s = .next (s.raiseSlot cMCX))
      ∧ (runs → held → accBad true = false → bad = false → off % 4 = 0 → 
          s.WholeRegs (regs.map (·, 32) ++ sc.map (·, if yoked then 32 else 16)) →
          MatQueued s i w { kind := if sparse then 1 else 0, tile := w.d.toNat, ty, level1 := s.level1, a := words regs
                            sc := words sc, fa, fc := if b.bound then b.record else fa, asc, yoked
                            handle := h, off, span := mmSpan ty sparse fa b.record b.bound } true)
    multiply (.mma w r) false ∧ multiply (.mmas w r) true
    ∧ MatSkips s (.mzero w) w false ∧ MatSkips s (.mldc w r) w true ∧ MatSkips s (.mdrain w r) w true
    ∧ (runs → accBad false = true → exec (.mzero w) s = .next (s.raiseSlot cACC)
        ∧ exec (.mldc w r) s = .next (s.raiseSlot cACC) ∧ exec (.mdrain w r) s = .next (s.raiseSlot cACC))
    ∧ (runs → accBad false = false → MatQueued s (.mzero w) w { kind := 2, tile := w.d.toNat } false)
    ∧ (runs → accBad false = false → off % 4 ≠ 0 → exec (.mldc w r) s = .next (s.raiseSlot cMCX))
    ∧ (runs → accBad false = false → off % 4 = 0 → MatQueued s (.mldc w r) w
        { kind := 3, tile := w.d.toNat, handle := w.a.toNat, off, span := 512 * t.tileRows } true)
    ∧ (let d := (List.range 4).map (fun i => s.rdG (w.a.toNat + i))
       let fc := if ty = 0 then g.fmget r.c.toNat else 0
       let dk := m.getLsbD 10
       let c : MatCmd := {
         kind := 4, tile := w.d.toNat, ty, level1 := s.level1, a := d, fc, dk, yoked := t.yokedGrant
         handle := bitsOf (d.getD 1 0).toNat 0 4, off := (d.getD 0 0).toNat
         amx := if m.getLsbD 9 then some (s.rdG64 r.b.toNat) else none }
       (runs → accBad false = false → ty = 0 → fmOk fc = false → exec (.mdrain w r) s = .next (s.raiseSlot cFMTX))
       ∧ (runs → accBad false = false → (ty ≠ 0 ∨ fmOk fc = true) → drainBad dk ty fc d = true →
          exec (.mdrain w r) s = .next (s.raiseSlot cMCX))
       ∧ (runs → accBad false = false → (ty ≠ 0 ∨ fmOk fc = true) → drainBad dk ty fc d = false →
          MatQueued s (.mdrain w r) w
            { c with span := if c.pitch = 0 then c.bytes else c.pitch * (c.rows - 1) + c.runBytes } true)))
  ∧ (∀ (s : State) (w : W0) (r : RRaw), ¬ s.guardOpen w →
    let g := s.grp
    let t := s.team g.team
    let ck := coreKey g.die g.core
    let core := s.coreAt ck
    let on := s.guardW w = true
    let a := t.alloc w.a.toNat
    let o := 16 * r.c.toNat % pow2Up a.size
    let bound := s.yokeBound g.die g.core
    let partner := if g.core % 2 = 0 then g.core + 1 else g.core - 1
    let badYoke := t.yokeMode = false ∨ g.core % 2 = 1
    let held := s.modGrp (fun g => { g with yokeHeld := some s.curB })
    let report := (if bound then 2147483648 else 0) + (if g.core % 2 = 0 then 1073741824 else 0)
      + (if t.yokeMode then 536870912 else 0) + partner * 65536 + g.die * 256 + (2 ^ t.nacc - 1)
    let mine := (core.mat.filter (fun i => (s.mat i).grp = s.cur)).length
    let x := t.tile (w.a.toNat - 8)
    let status := if t.nacc ≤ w.a.toNat - 8 then 0 else 2147483648 + (if t.yokedGrant then 1073741824 else 0)
      + 16 * x.dof.toNat + 8 * x.dnv.toNat + 4 * x.pois.toNat + 2 * x.of_.toNat + x.nv.toNat
    (s.guardW w = false → exec (.myokeReport w) s = .next s.cont ∧ exec (.myokeBind w) s = .next s.cont
      ∧ exec (.myokeUnbind w) s = .next s.cont ∧ exec (.mstat w) s = .next s.cont
      ∧ (s.acquireOut s.cur = false → exec (.mfence w r) s = .next s.cont))
    ∧ (on → exec (.myokeReport w) s = .next (s.wrG w.d.toNat (BitVec.ofNat 32 report)).cont)
    ∧ (on → badYoke → exec (.myokeBind w) s = .next (s.raiseSlot cACC)
        ∧ exec (.myokeUnbind w) s = .next (s.raiseSlot cACC))
    ∧ (on → ¬ badYoke → (s.coreAt (coreKey g.die partner)).mat = [] →
        exec (.myokeBind w) s = .next ((s.setYoke g.die g.core true).modGrp (fun g => { g with yokeHeld := none })).cont)
    ∧ (on → ¬ badYoke → (s.coreAt (coreKey g.die partner)).mat ≠ [] → exec (.myokeBind w) s = .next held.holdIssue)
    ∧ (on → ¬ badYoke → (∀ i ∈ core.mat, (s.mat i).team ≠ g.team) →
        exec (.myokeUnbind w) s = .next ((s.setYoke g.die g.core false).modGrp (fun g => { g with yokeHeld := none })).cont)
    ∧ (on → ¬ badYoke → (∃ i ∈ core.mat, (s.mat i).team = g.team) → exec (.myokeUnbind w) s = .next held.holdIssue)
    ∧ (on → w.a = 0 → exec (.mstat w) s = .next (((s.wrG w.d.toNat (g.mstst ||| BitVec.ofNat 32
        (min g.unbatched.length 31 * 8192 + mine * 256 + (16 - core.mat.length)))).modGrp
          (fun g => { g with mstst := 0 })).cont))
    ∧ (on → w.a = 1 → exec (.mstat w) s = .next (s.wrG w.d.toNat (BitVec.ofNat 32
        (((if g.die < 4 then 4 else 2) - core.columnsUsed) * 16777216 + core.marked * 65536
          + min core.replay 65535))).cont)
    ∧ (on → 8 ≤ w.a.toNat → exec (.mstat w) s = .next (s.wrG w.d.toNat (BitVec.ofNat 32 status)).cont)
    ∧ (on → s.acquireOut s.cur = false → s.followerBound = true → exec (.mfence w r) s = .next (s.raiseSlot cACC))
    ∧ (on → s.acquireOut s.cur = false → s.followerBound = false → a.hasObject o → Runs (.mfence w r) s (fun u =>
        let ahead := (core.batches.filter (fun b => (s.batch b).team = g.team && (s.batch b).handle = w.a.toNat
          && (s.batch b).off = o)).length
        u.grp.gget w.d.toNat = BitVec.ofNat 32 (((a.barrier 0 o).phase + ahead) % 65536)
        ∧ (u.coreAt ck).batches = core.batches ++ [s.nextId] ∧ u.grp.unbatched = []
        ∧ u.batch s.nextId = { live := true, grp := s.cur, team := g.team, handle := w.a.toNat, off := o
                               cmds := g.unbatched }
        ∧ SameMem s u)))
  ∧ (∀ (c : MatCmd) (b : MatB) (t : Tile) (r n : Nat), r < (if c.yoked then 128 else 64) → n < 128 →
      ((c.multiply b t).elems.getD (128 * r + n) 0
        = match c.dElem b r n (t.elems.getD (128 * r + n) 0) with
          | none => t.elems.getD (128 * r + n) 0 | some x => BitVec.ofNat 32 x.1.1))
  ∧ (∀ (s : State) (core cmd : Nat),
    let c := s.mat cmd
    let t := s.team c.team
    let on := s.matReady core cmd = true
    let start := Instr.matrixCommandStart core cmd
    let b := s.readB c
    (s.matReady core cmd = false → exec start s = .next s)
    ∧ (on → c.kind = 2 → Runs start s (fun u => MatGone s u core cmd ∧ SameMem s u ∧ (u.team c.team).tile c.tile = {}))
    ∧ (on → c.kind = 0 ∨ c.kind = 1 → Runs start s (fun u => MatGone s u core cmd ∧ SameMem s u
        ∧ (let x := c.multiply b.2 (t.tile c.tile)
           let y := (u.team c.team).tile c.tile
           y = x ∨ y = { x with epois := y.epois, pois := true })))
    ∧ (on → c.kind = 3 → Runs start s (fun u => MatGone s u core cmd ∧ SameMem s u
        ∧ ∀ i, i < 128 * (c.span / 512) → ((u.team c.team).tile c.tile).elems.getD i 0
            = BitVec.ofNat 32 (bitsOf b.2.bits (32 * i) 32)))
    ∧ (on → c.kind = 4 → Runs start s (fun u => (u.mat cmd) = { c with started := true, snap := t.tile c.tile }
        ∧ ((u.team c.team).tile c.tile).elems = (t.tile c.tile).elems ∧ SameMem s u)))
  ∧ (∀ (l : List FNum),
    ((∀ x ∈ l, x.isNan = true) → greatest l = .nan false)
    ∧ ((∃ x ∈ l, x.isNan = false) → (∀ x ∈ l, x.isNan = true ∨ x.exact = true ∨ ∃ b, x = .inf b) →
        (∃ x ∈ l, x.isNan = false ∧ greatest l = x.mag)
        ∧ ∀ x ∈ l, x.isNan = false → x.mag.value ≤ (greatest l).value))
  ∧ (∀ (c : MatCmd), c.ty ∈ [14, 15, 16] ∨ (c.ty = 0 ∧ fmOk c.fc = true) → drainBad c.dk c.ty c.fc c.a = false →
    c.output.1.length = c.bytes
    ∧ ∀ q j, j < c.runLen → q * c.runLen + j < 128 * c.rows → c.ElementDrained q j)
  ∧ (∀ (s : State) (core cmd k : Nat),
    let c := s.mat cmd
    let b := (s.team c.team).alloc c.handle
    let out := c.output.1
    let lo := 512 * k
    let hi := min c.bytes (512 * k + 512)
    let land := exec (.chunkLand core cmd k) s
    let stored := fun (u : State) => (c.runs k).foldl (fun s r => (s.engineStore c.ctx c.die (core % 256)
      (vaOf (c.dst + BitVec.ofNat 64 (c.placeOf r.1))) ((out.drop r.1).take r.2)).1) u
    s.chunkReady core cmd k = false → s.drainReady core cmd k = true →
    (c.chunkPois k = true → land = .next ((s.matErr c.grp cPOIS).drainEnd core cmd k))
    ∧ (c.chunkPois k = false → c.dk = true → b.bound = true → b.cls = 0 → (s.team c.team).away = false →
        drainBad c.dk c.ty c.fc c.a = false → (∀ i, i < c.bytes → c.off + c.placeOf i < b.size) →
        ∃ u, land = .next (u.drainEnd core cmd k) ∧ u.mats = s.mats ∧ SameMem s u
          ∧ (∀ i, lo ≤ i → i < hi → ((u.team c.team).alloc c.handle).data.getD (c.off + c.placeOf i) 0 = out.getD i 0)
          ∧ (∀ o, (∀ i, lo ≤ i → i < hi → o ≠ c.off + c.placeOf i) →
              ((u.team c.team).alloc c.handle).data.getD o 0 = b.data.getD o 0))
    ∧ (c.chunkPois k = false → c.dk = false → ∀ u, s.drainCanWrite core c (c.runs k) = (u, none) →
        land = .next ((stored u).drainEnd core cmd k))
    ∧ (c.chunkPois k = false → ∀ u e, s.drainCanWrite core c (c.runs k) = (u, some e) →
        (engPauses e.1 = false → land = .next ((u.matErr c.grp e.1).drainEnd core cmd k))
        ∧ (engPauses e.1 = true → land = .next (u.matFail core cmd k e).1))
    ∧ (∀ r ∈ c.runs k, lo ≤ r.1 ∧ r.1 + r.2 ≤ hi ∧ 0 < r.2 ∧ (r.1 + r.2 - 1) / c.runBytes = r.1 / c.runBytes)
    ∧ (∀ i, lo ≤ i → i < hi → 0 < c.runBytes → ∃ r ∈ c.runs k, r.1 ≤ i ∧ i < r.1 + r.2))
  ∧ (∀ (s : State) (core cmd k : Nat),
    let c := s.mat cmd
    let ended := s.drainEnd core cmd k
    SameMem s ended ∧ ended.teams = s.teams
    ∧ (c.landed.length + 1 = c.chunks → c.amx = none → MatGone s ended core cmd)
    ∧ (¬ (c.landed.length + 1 = c.chunks ∧ c.amx = none) →
        ended.mat cmd = { c with landed := k :: c.landed, paused := c.paused.filter (· ≠ k) }))
  ∧ (∀ (s : State) (core batch : Nat),
    let b := s.batch batch
    let a := (s.team b.team).alloc b.handle
    let due := b.live = true ∧ (∀ i ∈ b.cmds, (s.mat i).live = false)
      ∧ (s.batchesOn core b.team b.handle b.off).head? = some batch
    (¬ due → exec (.batchArrival core batch) s = .next s)
    ∧ (due → a.hasObject b.off → Runs (.batchArrival core batch) s (fun t => (t.batch batch).live = false
        ∧ batch ∉ (t.coreAt core).batches
        ∧ ObjectBecomes a ((t.team b.team).alloc b.handle) b.off ((a.barrier 0 b.off).arrived 1 0))))
  ∧ (∀ (s : State) (core cmd : Nat) (a : DWord),
    let c := s.mat cmd
    let due := c.live = true ∧ c.started = true ∧ c.landed.length = c.chunks ∧ c.after.any (s.opOpen c.grp) = false
      ∧ s.chunkFree core true cmd amaxChunk c.paused = true
    let frozen := fun (u : State) (x : Xl) => (u.millerCore x.attr.home (x.pk / 128)).any (u.frozenAt x.attr.home)
    c.amx = some a →
    (¬ due → exec (.amax core cmd) s = .next s)
    ∧ (∀ u x, due → s.amaxPlace core c a = (u, .ok x) → frozen u x = true → exec (.amax core cmd) s = .next s)
    ∧ (∀ u x, due → s.amaxPlace core c a = (u, .ok x) → frozen u x = false →
        let r : MillReq := { fromDie := c.die, core := core % 256, ctx := c.ctx, code := 10, attr := x.attr
                             lanes := [{ at_ := x.pk, v1 := c.amax.setWidth 64 }] }
        (u.millBefore r (x.pk / 128)).spillAll = [] →
        x.attr.tier = 0 → x.attr.home = c.die → x.pk + 4 ≤ 2 ^ 64 → (u.pline c.die (x.pk / 128)).have_ = false →
        Runs (.amax core cmd) s (fun t => (t.mat cmd).live = false ∧ cmd ∉ (t.coreAt core).mat
          ∧ ∀ k, t.memByte k = if x.pk ≤ k ∧ k < x.pk + 4 then
              (BitVec.ofNat 32 (f32.minMax true (u.memNat x.pk 4) c.amax.toNat).1).extractLsb' (8 * (k - x.pk)) 8
            else u.memByte k)))

namespace Sys2Proof.Machine

/-! Allocation (10_allocation). -/

/-- The status of ALLOC: bound, size, class, format, reserve (R214). -/
def allocAnswer (t : Team) (h z k f : Nat) (rec_ : DWord) : Nat :=
  if (t.alloc h).size ≠ 0 then 1
  else if ¬ (0 < z ∧ z % 4096 = 0 ∧ z ≤ 8388608) then 3
  else if k = 3 then 4
  else if f ≠ 0 ∧ fmOk rec_ = false then 5
  else if t.reserve < z / 128 then 2 else 0

/-- A row that was expired under the old lease stays unreadable under any new one (R216). -/
def StillExpired (a a' : Alloc) (lc : Nat) : Prop :=
  ∀ o, o / 128 < a.size / 128 → a.unreadable lc o = true → a'.unreadable lc o = true

end Sys2Proof.Machine

/-- 10_allocation R202, R214 to R218, R220, R223; 14_matrix R325: ALLOC binds a handle from the team's reserve or
says why not; FREE gives it back, waiting for what still uses it; RENEW and RECLASS change lease and class
without making an expired word readable; AQRY reports; each but ALLOC performs the group's earlier
scratchpad stores to its handle first, and FREE and a RECLASS to another format those of every group of the
team; REFRESH changes no value; a row or column remap uses a spare.
10_allocation R222: an error of a word's cells, found by the refresh or by a read: a lasting one poisons the word
and queues its row.
The model's own choices: log entries 26, 66, 68. -/
def Obligations.AllocationsAndLeases : Prop :=
  (∀ (s : State) (w : W0) (r : RRaw),
    let g := s.grp
    let k := bitsOf r.m16.toNat 0 2
    let st := bitsOf r.m16.toNat 10 6
    (s.guardW w = false → exec (.alloc w r) s = .next s.cont)
    ∧ (s.guardW w = true → ∀ u c va, s.fmtCapture g.ctx g.die r.c.toNat = (u, .error (c, va)) →
        exec (.alloc w r) s = .next (u.parkFault c u.slot.act (BitVec.ofNat 64 va)))
    ∧ (s.guardW w = true → ∀ u rec_, s.fmtCapture g.ctx g.die r.c.toNat = (u, .ok rec_) →
        let t := u.team u.grp.team
        let z := (u.rdG w.a.toNat).toNat
        let x := allocAnswer t w.d.toNat z k r.c.toNat rec_
        let a : Alloc := { size := z, cls := k, fmtIdx := r.c.toNat, record := rec_, owner := u.cur
                           lease := (u.rdG r.b.toNat).toNat % 65536, st0 := u.lat.lc }
        (x ≠ 0 → exec (.alloc w r) s = .next ((u.wrG st (BitVec.ofNat 32 x)).wrGP 0 false).cont)
        ∧ (x = 0 → exec (.alloc w r) s = .next ((((u.setTeam u.grp.team { t.setAlloc w.d.toNat a with
            reserve := t.reserve - z / 128 }).wrG st 0).wrGP 0 true).cont))))
  ∧ (∀ (s : State) (w : W0),
    let h := w.a.toNat
    let p := s.landSts h
    let tk := p.grp.team
    let t := p.team tk
    let a := t.alloc h
    let hd := w.d.toNat
    let on := p.guardW w = true
    (p.guardW w = false → exec (.free w) s = .next p.cont ∧ exec (.aqry w) s = .next p.cont)
    ∧ (on → a.size = 0 → exec (.free w) s = .next p.cont)
    ∧ (on → a.size ≠ 0 → p.allocBusy tk h = true → exec (.free w) s = .next p.holdIssue)
    ∧ (on → a.size ≠ 0 → p.allocBusy tk h = false →
        let q := p.landTeamSts tk h
        let u := q.team tk
        exec (.free w) s = .next (q.setTeam tk { u.setAlloc h {} with reserve := u.reserve + a.size / 128 }).cont)
    ∧ (on → p.target h = .nothing → exec (.aqry w) s = .next ((p.wrG hd 0).wrG (hd + 1) 0).cont)
    ∧ (on → ∀ n b, p.target h = .handle n b → b.cls = 0 → exec (.aqry w) s = .next ((p.wrG hd
        (BitVec.ofNat 32 (2147483648 + b.fmtIdx % 256 * 65536 + 65535))).wrG (hd + 1)
        (BitVec.ofNat 32 (65535 * 65536 + b.size / 4096 % 65536))).cont)
    ∧ (on → ∀ i c, p.target h = .range i c → c.cls = 0 → exec (.aqry w) s = .next ((p.wrG hd
        (BitVec.ofNat 32 (2147483648 + 65535))).wrG (hd + 1)
        (BitVec.ofNat 32 (65535 * 65536 + (c.last + 1 - c.first) % 65536))).cont))
  ∧ (∀ (s : State) (w : W0) (r : RRaw),
    let hd := w.d.toNat
    let p := s.landSts hd
    let g := p.grp
    let tk := g.team
    let k := bitsOf r.m16.toNat 0 2
    let lease := (p.rdG w.a.toNat).toNat % 65536
    let on := p.guardW w = true
    (p.guardW w = false → exec (.renew w) s = .next p.cont ∧ exec (.reclass w r) s = .next p.cont)
    ∧ (on → p.target hd = .nothing → exec (.renew w) s = .next p.cont)
    ∧ (on → ∀ h a, p.target hd = .handle h a → ∃ a', exec (.renew w) s = .next (p.setAlloc tk h a').cont
        ∧ a'.lease = lease ∧ a'.cls = a.cls ∧ a'.size = a.size ∧ a'.data = a.data
        ∧ (a.cls ≠ 0 → StillExpired a a' (p.issueClock a)))
    ∧ (on → ∀ i c, p.target hd = .range i c → c.cls ≠ 0 → Runs (.renew w) s (fun u =>
        (u.grp.crs.getD i {}) = { c with lease } ∧ u.grp.v = g.v
        ∧ (∀ n, c.first ≤ n → n ≤ c.last → u.grp.vst.getD n 0 =
            if expiredAt p.lat.lc (g.vst.getD n 0) c.lease then g.vst.getD n 0 else p.lat.lc)))
    ∧ (on → r.m16.getLsbD 2 = false → p.target hd = .nothing ∨ k = 3 →
        exec (.reclass w r) s = .next (p.wrGP 0 false).cont)
    ∧ (on → r.m16.getLsbD 2 = false → k ≠ 3 → ∀ h a, p.target hd = .handle h a → ∃ a',
        exec (.reclass w r) s = .next ((p.setAlloc tk h a').wrGP 0 true).cont
        ∧ a'.cls = k ∧ a'.lease = lease ∧ a'.size = a.size ∧ a'.record = a.record
        ∧ (k ≠ 0 → a.cls ≠ 0 → a'.data = a.data ∧ StillExpired a a' (p.issueClock a))
        ∧ (k = 0 → ∀ o, a'.data.getD o 0 = if a.unreadable (p.issueClock a) o then 0 else a.data.getD o 0))
    ∧ (on → r.m16.getLsbD 2 = true → ∀ u c va, p.fmtCapture g.ctx g.die r.c.toNat = (u, .error (c, va)) →
        exec (.reclass w r) s = .next (u.parkFault c u.slot.act (BitVec.ofNat 64 va)))
    ∧ (on → r.m16.getLsbD 2 = true → ∀ u rec_, p.fmtCapture g.ctx g.die r.c.toNat = (u, .ok rec_) →
        let good := k ≠ 3 ∧ (r.c = 0 ∨ fmOk rec_ = true)
        (u.target hd = .nothing ∨ ¬ good → exec (.reclass w r) s = .next (u.wrGP 0 false).cont)
        ∧ (good → ∀ h x, u.target hd = .handle h x →
          let q := u.landTeamSts u.grp.team h
          let a := (q.team u.grp.team).alloc h
          ∃ a', exec (.reclass w r) s = .next ((q.setAlloc q.grp.team h a').wrGP 0 true).cont
            ∧ a'.cls = k ∧ a'.lease = lease ∧ a'.size = a.size ∧ a'.fmtIdx = r.c.toNat ∧ a'.record = rec_
            ∧ (k ≠ 0 → a.cls ≠ 0 → a'.data = a.data ∧ StillExpired a a' (q.issueClock a)))))
  ∧ (∀ (s : State) (tk h : Nat),
    let q := s.landTeamSts tk h
    (∀ gk ∈ s.groupsOf tk, ∀ o ∈ (q.group gk).pend, ¬ (o.kind = .sts ∧ o.sh = h))
    ∧ (∀ gk, ∀ o ∈ (q.group gk).pend, o ∈ (s.group gk).pend) ∧ SameMem s q)
  ∧ (∀ (s : State) (core row : Nat),
    let c := s.coreAt core
    let spare := if core / 256 < 4 then 4 else 2
    let idle := s.arrayIdle core = true
    ((s.keptRows core).length ≤ row → exec (.refresh core row) s = .next s)
    ∧ (∀ r, (s.keptRows core)[row]? = some r → ∃ err : Nat → Nat, (∀ w, err w < 7) ∧ exec (.refresh core row) s =
        .next ((s.keptWords r).foldl (fun t w => t.meetWord core r w (err w)) (s.countCore core 17 (s.keptCtx r) 1)))
    ∧ Runs (.refresh core row) s (fun t => SameMem s t
        ∧ (∀ gk n L, (t.group gk).vget n L = (s.group gk).vget n L)
        ∧ ∀ tk h o, ((t.team tk).alloc h).data.getD o 0 = ((s.team tk).alloc h).data.getD o 0)
    ∧ ((∀ e ∈ c.rowRemaps, s.rowHeld e.1 = true) → exec (.rowRemap core) s = .next s)
    ∧ (∀ e, c.rowRemaps.find? (fun e => !s.rowHeld e.1) = some e → c.sparesUsed < 1024 → s.repairs.length < 4096 →
        exec (.rowRemap core) s = .next { s.setCore core { c with
            rowRemaps := c.rowRemaps.erase e, sparesUsed := c.sparesUsed + 1 } with
          repairs := s.repairs ++ [{ type_ := 2, die := core / 256, unit_ := core % 256, old := e.2
                                     new := c.sparesUsed, at_ := s.time }] })
    ∧ (∀ e, c.rowRemaps.find? (fun e => !s.rowHeld e.1) = some e → 1024 ≤ c.sparesUsed →
        exec (.rowRemap core) s = .next (s.setCore core { c with
            rowRemaps := c.rowRemaps.erase e, withdrawn := c.withdrawn + 1 }))
    ∧ (c.marked = 0 ∨ ¬ idle ∨ spare ≤ c.columnsUsed → exec (.columnRemap core) s = .next s)
    ∧ (c.marked ≠ 0 → idle → c.columnsUsed < spare → s.repairs.length < 4096 →
        exec (.columnRemap core) s = .next { s.setCore core { c with
            columnsUsed := c.columnsUsed + 1, marked := c.marked - 1 } with
          repairs := s.repairs ++ [{ type_ := 3, die := core / 256, unit_ := core % 256
                                     new := c.columnsUsed, at_ := s.time }] }))
  ∧ (∀ (s : State) (core gk n w j : Nat), w < 32 →
    let t := s.meetWord core (.reg gk n) w 3
    let u := s.meetWord core (.reg gk n) w (4 + j)
    (t.group gk).vPoisoned n w = true ∧ ((s.group gk).team * 32 + 16, n) ∈ (t.coreAt core).rowRemaps
    ∧ u = s.setCore core { s.coreAt core with armed := (s.coreAt core).armed ++
        [{ site := 0, at_ := armKey gk n w, kind := j, cell := true }] })
  ∧ (∀ (s : State) (gk lc : Nat) (m : Word) (regs : List Nat),
    let g := s.group gk
    let ck := coreKey g.die g.core
    let t := s.meetRegs gk lc m regs
    let reg := fun (e : ArmedErr) => e.at_ / 32 % 256
    let met := fun (e : ArmedErr) => e.site = 0 ∧ e.at_ / 8192 = gk ∧ reg e ∈ regs ∧ inMask m (e.at_ % 32) = true
      ∧ g.unreadable lc (reg e) (e.at_ % 32) = false
    (∀ e, e ∈ (t.coreAt ck).armed ↔ e ∈ (s.coreAt ck).armed ∧ ¬ met e)
    ∧ (∀ e ∈ (s.coreAt ck).armed, met e → e.kind = 2 → (t.group gk).vPoisoned (reg e) (e.at_ % 32) = true
        ∧ (e.cell = true → (g.team * 32 + 16, reg e) ∈ (t.coreAt ck).rowRemaps))
    ∧ (∀ n L, L < 32 → (∀ e ∈ (s.coreAt ck).armed, met e → e.kind = 2 → ¬ (reg e = n ∧ e.at_ % 32 = L)) →
        (t.group gk).vPoisoned n L = g.vPoisoned n L)
    ∧ (t.group gk) = { g with vpois := (t.group gk).vpois } ∧ SameMem s t)

namespace Sys2Proof.Machine

/-! The system class (15_system). -/

/-- An instruction only privileged code may perform (R326): nothing under a false guard, PRIVT for unprivileged
code, and otherwise `u`. -/
def PrivilegedForm (s : State) (i : Instr) (w : W0) (u : State) : Prop :=
  (s.guardW w = false → exec i s = .next s.cont)
  ∧ (s.guardW w = true → (s.cr s.grp.ctx 0).getLsbD 1 = false → exec i s = .next (s.raiseSlot cPRIVT))
  ∧ (s.guardW w = true → (s.cr s.grp.ctx 0).getLsbD 1 = true → exec i s = .next u)

/-- What a system register of a unit reads (R327): a context's, a core's, a die's or the package's. -/
def State.registerAt (s : State) (i : Nat) (u : RegUnit) : Word :=
  match u with
  | .absent => 0
  | .ctx c => s.creg.getD (c * 32 + i) 0
  | .core k => if i = 0x108 then s.haltstat k else (s.coreAt k).evsel.getD (i - 0x100) 0
  | .die d => (s.die d).devsel.getD (i - 0x200) 0
  | .package => if 0x310 ≤ i then s.therm.read i else s.preg.getD i 0

/-- The target word of RESUME and KILLG names one group: scope 0, its reserved bits zero (R349). -/
def oneGroup (x : Word) : Bool := decide (bitsOf x.toNat 30 2 = 0) && decide (bitsOf x.toNat 22 8 = 0)

/-- The target word of HALTC and GOC names a core that exists (R355). -/
def State.targetCore (s : State) (x : Word) : Option Nat :=
  let n := x.toNat
  let die := bitsOf n 18 4
  let core := bitsOf n 11 7
  if bitsOf n 30 2 = 0 ∧ bitsOf n 22 8 = 0 ∧ bitsOf n 0 11 = 0 ∧ s.corePresent die core = true then
    some (die * 256 + core) else none

end Sys2Proof.Machine

/-- 15_system R326, R327, R355, R357: SRD, SWR, EVCNT, HALTC and GOC. A reserved register name is illegal; what
unprivileged code may not do is a privilege trap, and every privileged instruction of the class takes it. -/
def Obligations.RegistersAndPrivilege : Prop :=
  ∀ (s : State) (w : W0) (imm : Word) (r : RRaw),
    let g := s.grp
    let on := s.guardW w = true
    let priv := (s.cr g.ctx 0).getLsbD 1
    let d := w.d.toNat
    let i := imm.toNat % 65536
    let x := s.rdG w.a.toNat
    let ck := coreKey g.die g.core
    (s.regUnit imm = none → exec (.srd w imm) s = .next (s.raiseSlot cILL)
      ∧ exec (.swr w imm) s = .next (s.raiseSlot cILL))
    ∧ (∀ u, s.regUnit imm = some u →
        (s.guardW w = false → exec (.srd w imm) s = .next s.cont)
        ∧ (on → priv = false → (i ∉ [0x108, 0x303, 0x310, 0x311] ∨ s.ownUnit u = false) →
            exec (.srd w imm) s = .next (s.raiseSlot cPRIVT))
        ∧ (on → priv = true ∨ (i ∈ [0x108, 0x303, 0x310, 0x311] ∧ s.ownUnit u = true) →
            exec (.srd w imm) s = .next (s.wrG d (s.registerAt i u)).cont)
        ∧ PrivilegedForm s (.swr w imm) w (s.writeReg i u x).cont)
    ∧ (∀ k j, j < 8 → let t := s.writeReg (0x100 + j) (.core k) x
        (t.coreAt k).evsel.getD j 0 = x &&& 0x7F3FF ∧ (x.getLsbD 19 = true → (t.coreAt k).ctrs.getD j 0 = 0)
          ∧ t.groups = s.groups ∧ SameMem s t)
    ∧ (∀ k, s.writeReg 0x108 (.core k) x = s) ∧ (∀ j, s.writeReg j .absent x = s) ∧ s.writeReg 0x303 .package x = s
    ∧ (∀ n, w.a.toNat = n → n < 24 →
        let sel := if n < 8 then (s.coreAt ck).evsel.getD n 0 else (s.die g.die).devsel.getD (n - 8) 0
        let open_ := sel.getLsbD 9 = true ∧ (sel.getLsbD 18 = true → bitsOf sel.toNat 12 6 = g.ctx)
        let free := sel.getLsbD 8 = true ∧ bitsOf sel.toNat 0 8 ∈ [0x00, 0x0B, 0x40, 0x43, 0x44, 0x45, 0x49]
        let now := if n < 8 then (s.coreAt ck).ctrs.getD n 0 else (s.die g.die).ctrs.getD (n - 8) 0
        (s.guardW w = false → exec (.evcnt w) s = .next s.cont)
        ∧ (on → priv = false → ¬ open_ → exec (.evcnt w) s = .next (s.raiseSlot cPRIVT))
        ∧ (on → priv = true ∨ open_ → Runs (.evcnt w) s (fun t =>
            (¬ free → t.grp.gget (d + 1) = hi32 now ∧ t.grp.gget d = lo32 now)
            ∧ (∀ k, k ≠ d → k ≠ d + 1 → t.grp.gget k = g.gget k) ∧ t.grp.v = g.v ∧ SameMem s t)))
    ∧ (s.targetCore x = none → PrivilegedForm s (.haltc w r) w (s.wrG d 2).cont
        ∧ PrivilegedForm s (.goc w) w (s.wrG d 2).cont)
    ∧ (∀ k, s.targetCore x = some k →
        PrivilegedForm s (.haltc w r) w ((s.wrG d 0).cont.setCore k
          { s.coreAt k with halted := true, frozen := r.m16.getLsbD 0 })
        ∧ PrivilegedForm s (.goc w) w ((s.wrG d 0).cont.setCore k
          { s.coreAt k with halted := false, frozen := false }))

/-- 15_system R340, R341, R349, R354, R358: LAUNCH reads its record at DEV after a release and queues it with the issuing
launch as parent; IPUSH adds its lanes' items in order and waits while the queue is full, IPUSH.CLOSE
closes it; RESUME and KILLG act on the group their word names; TLBINV drops translations once no request
that used one is left in a Miller's queue; ECCI arms an error.
The model's own choices: log entries 35, 36. -/
def Obligations.SystemInstructionsAct : Prop :=
  (∀ (s : State) (w : W0),
    let g := s.grp
    let on := s.guardW w = true
    let d := w.d.toNat
    let a := s.rdG64 w.a.toNat
    let ready := s.acquireOut s.cur = false ∧ s.releaseWaits s.cur = false
    let u := s.releaseAt s.cur 4
    (s.guardW w = false → exec (.launch w) s = .next s.cont)
    ∧ (on → ¬ ready → exec (.launch w) s = .next s.holdIssue)
    ∧ (on → ready → canonical a = false → exec (.launch w) s = .next (u.raiseSlot cBADA a))
    ∧ (on → ready → canonical a = true → ∀ v bs, u.groupRead u.cur (vaOf a) 128 4 false = (v, .ok bs) →
        anyPois bs = false →
        let ws := wordsLE (bs.map (·.val)) 32
        let l : Launch := { stage := .queued, rec_ := ws, device := true, parent := v.grp.launch }
        let prio := min (bitsOf (ws.getD 22 0).toNat 22 3) (v.launch v.grp.launch).prio
        let l : Launch := { l with ctx := l.recCtx, prio }
        let full := a.toNat % 128 ≠ 0 ∨ 4096 ≤ v.deviceQueued v.grp.ctx
        let sent := v.timeMsg v.grp.die commons
        (full → exec (.launch w) s = .next (v.wrG d 1).cont)
        ∧ (¬ full → exec (.launch w) s =
            .next (((({ sent with nextId := v.nextId + 1 } : State).setLaunch v.nextId l).wrG d 0).cont)))
    ∧ (let ck := coreKey g.die g.core
       let l := s.launch g.launch
       let q := ((s.coreAt ck).items.getD g.launch {}).items
       let m := s.activeW w
       let n := (lanesOf m).length
       (l.items = false → exec (.ipush w) s = .next s.cont)
       ∧ (l.items = true → l.closed = false → 4096 < q.length + n → exec (.ipush w) s = .next s.holdIssue)
       ∧ (l.items = true → l.closed = false → q.length + n ≤ 4096 → ReadsClean s m (fun _ => [w.a.toNat]) →
          Runs (.ipush w) s (fun t =>
            ((t.coreAt ck).items.getD g.launch {}).items = q ++
              mapI ((lanesOf m).map (s.rd w.a.toNat)) (fun i x => (x, (l.w 21).toNat + l.pushed + i))
            ∧ (t.launch g.launch).pushed = l.pushed + n ∧ SameMem s t ∧ t.grp.v = g.v))
       ∧ (l.items = true → l.closed = true → ReadsClean s m (fun _ => [w.a.toNat]) → Runs (.ipush w) s (fun t =>
            (t.launch g.launch).discarded = l.discarded + n ∧ t.cores = s.cores))
       ∧ (m = 0 ∨ l.items = false → exec (.ipushClose w) s = .next s.cont)
       ∧ (m ≠ 0 → l.items = true →
            exec (.ipushClose w) s = .next (s.setLaunch g.launch { l with closed := true }).cont)))
  ∧ (∀ (s : State) (w : W0),
    let x := s.rdG w.a.toNat
    let d := w.d.toNat
    let at_ := fun away => s.groups.findIdx? (fun _ g => g.live && g.away = away && g.die = bitsOf x.toNat 18 4
      && g.core = bitsOf x.toNat 11 7 && g.slotNo = bitsOf x.toNat 0 11)
    let on := s.guardW w = true ∧ (s.cr s.grp.ctx 0).getLsbD 1 = true
    (s.guardW w = false → exec (.resume w) s = .next s.cont ∧ exec (.killg w) s = .next s.cont)
    ∧ (s.guardW w = true → (s.cr s.grp.ctx 0).getLsbD 1 = false →
        exec (.resume w) s = .next (s.raiseSlot cPRIVT) ∧ exec (.killg w) s = .next (s.raiseSlot cPRIVT))
    ∧ (on → oneGroup x = true → at_ false = none → exec (.killg w) s = .next (s.wrG d 2).cont)
    ∧ (on → oneGroup x = true → at_ false = none → at_ true = none → exec (.resume w) s = .next (s.wrG d 2).cont)
    ∧ (on → oneGroup x = true → ∀ k, at_ false = some k → (s.group k).park = none →
        exec (.resume w) s = .next (s.wrG d 1).cont)
    ∧ (on → oneGroup x = true → ∀ k p, at_ false = some k → (s.group k).park = some p → p.entry = none →
        exec (.resume w) s = .next ((s.setGroup k { s.group k with park := none }).wrG d 0).cont)
    ∧ (on → oneGroup x = true → ∀ k, at_ false = some k → Runs (.killg w) s (fun t =>
        let y := t.group k
        y.killed = true ∧ y.slotA = {} ∧ y.slotB = {} ∧ y.recs = [] ∧ y.spilled = 0 ∧ y.rp = none ∧ y.traps = []
          ∧ y.trapPend = none ∧ y.park = none ∧ (t.launch (s.group k).launch).killed = true
          ∧ (k ≠ s.cur → t.grp.gget d = 0) ∧ SameMem s t)))
  ∧ (∀ (s : State) (w : W0) (r : RRaw),
    let g := s.grp
    let ctx := if r.c = 0xFF then g.ctx else r.c.toNat
    let lo := vaOf (s.rdG64 w.a.toNat)
    let n := (s.rdG r.b.toNat).toNat
    let kind := bitsOf r.m16.toNat 0 2
    let drops := fun (e : TlbEnt) => if kind = 0 then
        n ≠ 0 ∧ e.ctx = ctx ∧ e.page * pageSize e.big < lo + n ∧ lo < (e.page + 1) * pageSize e.big
      else if kind = 1 then e.ctx = ctx else True
    let on := s.guardW w = true ∧ (s.cr g.ctx 0).getLsbD 1 = true
    let out := ¬ (kind = 0 ∧ n = 0) ∧ ∃ e ∈ s.mills, e.2.live = true ∧ (2 ≤ kind ∨ e.2.ctx = ctx)
    let die := g.die
    let y := s.rdG r.b.toNat
    let site := bitsOf r.m16.toNat 0 2
    let err := bitsOf r.m16.toNat 2 2
    let a := s.rdG64 w.a.toNat
    let ck := coreKey g.die g.core
    (s.guardW w = false → exec (.tlbinv w r) s = .next s.cont ∧ exec (.ecci w r) s = .next s.cont)
    ∧ (s.guardW w = true → (s.cr g.ctx 0).getLsbD 1 = false →
        exec (.tlbinv w r) s = .next (s.raiseSlot cPRIVT) ∧ exec (.ecci w r) s = .next (s.raiseSlot cPRIVT))
    ∧ (on → out → exec (.tlbinv w r) s = .next s.holdIssue)
    ∧ (on → ¬ out → Runs (.tlbinv w r) s (fun t =>
        (∀ d e, e ∈ (t.die d).tlb ↔ e ∈ (s.die d).tlb ∧ ¬ drops e)
        ∧ (∀ k e, e ∈ (t.coreAt k).tlb ↔ e ∈ (s.coreAt k).tlb ∧ ¬ drops e)
        ∧ SameMem s t ∧ t.grp.v = g.v ∧ t.grp.g = g.g))
    ∧ (on → site = 0 → bitsOf y.toNat 0 8 < g.nreg →
        let e0 : ArmedErr := { site := 0, kind := err, at_ := (s.cur * 256 + bitsOf y.toNat 0 8) * 32 + bitsOf y.toNat 8 5 }
        exec (.ecci w r) s = .next ((s.setCore ck { s.coreAt ck with armed := (s.coreAt ck).armed ++ [e0] }).cont))
    ∧ (on → site = 0 → g.nreg ≤ bitsOf y.toNat 0 8 → exec (.ecci w r) s = .next s.cont)
    ∧ (on → site ≠ 0 → canonical a = false → exec (.ecci w r) s = .next (s.raiseSlot cBADA a))
    ∧ (on → site ≠ 0 → canonical a = true → ∀ u x, s.translate g.ctx die (vaOf a) .r (some g.core) = (u, .ok x) →
        let e : ArmedErr := { site, at_ := x.pk, kind := err }
        let home := if site = 1 then u.grp.die else x.attr.home
        (site = 2 ∧ x.attr.tier ≠ 0 → exec (.ecci w r) s = .next u.cont)
        ∧ (¬ (site = 2 ∧ x.attr.tier ≠ 0) → exec (.ecci w r) s = .next ((u.setDie home
            { u.die home with armed := (u.die home).armed ++ [e] }).cont))))

/-! The life of groups, and what happens with no instruction asking for it. -/

/-- 04_control R65, R66 and 01_machine R11: a pick goes on with the group of the port's previous pick while
it may, and otherwise takes the ready group that has waited longest, the lowest slot first; the slot is
the one that did not issue last. Every other ready group's wait count rises by one. A pick that loses the
arbitration issues nothing: another port's choice needs the same shared resource and comes first in
round-robin order after the port that won it last.
The model's own choices: log entries 48, 69. -/
def Obligations.PortsPickReadyGroups : Prop :=
  ∀ (s : State) (die core port : Nat) (lose : Bool),
    let ck := coreKey die core
    let p := (s.coreAt ck).ports.getD port {}
    let rs := s.readyOn die core port
    (rs = [] → exec (.pick die core port lose) s = .next s)
    ∧ ((rs.map (·.gk)).Nodup → rs ≠ [] → ∃ r ∈ rs,
        let goes := p.run < 16 ∧ p.yld = false ∧ (∀ x ∈ rs, x.wait < 192) ∧ ∃ x ∈ rs, p.last = some x.gk
        let b := if r.a = true ∧ r.b = true then !(s.group r.gk).lastB else r.b
        let lost := lose = true ∧ ∃ k, (s.pickTraits r.gk b).1 = some k ∧ s.loses die core port k = true
        (goes → p.last = some r.gk)
        ∧ (¬ goes → ∀ x ∈ rs, x.wait < r.wait ∨ (x.wait = r.wait ∧ r.gslot ≤ x.gslot))
        ∧ Runs (.pick die core port lose) s (fun t =>
            (¬ lost → t.cur = r.gk ∧ t.curB = b ∧ t.picked = true)
            ∧ (lost → t.cur = s.cur ∧ t.curB = s.curB ∧ t.picked = s.picked)
            ∧ (∀ k, (t.coreAt ck).won.getD k 0 = if ¬ lost ∧ (s.pickTraits r.gk b).1 = some k then port + 1
                else (s.coreAt ck).won.getD k 0)
            ∧ (∀ x ∈ rs, (t.group x.gk).waitCnt = if x.gk = r.gk then 0 else (s.group x.gk).waitCnt + 1)
            ∧ (∀ k, k ∉ rs.map (·.gk) → t.group k = s.group k)
            ∧ (∀ k, t.group k = { s.group k with waitCnt := (t.group k).waitCnt })
            ∧ ((t.coreAt ck).ports.getD port {}).last = some r.gk
            ∧ ((t.coreAt ck).ports.getD port {}).run = (if p.last = some r.gk then p.run + 1 else 1)
            ∧ SameMem s t ∧ t.teams = s.teams))
    ∧ (∀ k, let after := fun p => (p + 4 - (s.coreAt ck).won.getD k 0 % 4) % 4
        (s.loses die core port k = true ↔ ∃ p, p < 4 ∧ p ≠ port ∧ after p < after port
          ∧ ∃ r b, s.portChoice die core p = some (r, b) ∧ (s.pickTraits r.gk b).1 = some k))

/-- 04_control R85, R87; 09_memory R162, R177; 11_visibility R229, R242, R243; 15_system R344, R348: a group
with no path and nothing outstanding retires, its bytes going to its team, and the last group of a team
and the last team of a cluster end those; a sleeping slot whose time has come wakes; a trap still to be
taken is taken; a freed fault-buffer entry is reserved for the oldest waiter; the fault queue takes the
oldest entry unless it is full; pending lines go home in release order; a line that leaves an L2 or an L1
leaves no copy there, and its place may be withdrawn with a repair record (17_cold R391).
The model's own choices: log entries 12, 14, 34, 68. -/
def Obligations.GroupsEndAndLinesMove : Prop :=
  (∀ (s : State) (k : Nat),
    let g := s.group k
    let tm := s.team g.team
    let cl := s.cluster tm.cluster
    let ended := g.live = true ∧ g.away = false ∧ g.slotA.v = false ∧ g.slotB.v = false ∧ g.recs = [] ∧ g.spilled = 0
      ∧ (g.rp = none ∨ g.killed = true) ∧ g.pend = [] ∧ g.trapPend = none ∧ g.park = none
    (¬ ended → exec (.groupRetire k) s = .next s)
    ∧ (ended → Runs (.groupRetire k) s (fun t =>
        (t.group k).live = false
        ∧ (1 < tm.leftGroups → (t.team g.team).leftGroups = tm.leftGroups - 1 ∧ (t.team g.team).live = tm.live
            ∧ (t.team g.team).twb = ((s.pushTeam k).team g.team).twb
            ∧ (∀ a, t.memByte a = (s.pushTeam k).memByte a))
        ∧ (tm.leftGroups ≤ 1 → (t.team g.team).live = false ∧ (t.team g.team).twb = []
            ∧ (t.launch tm.launch).retired = (s.launch tm.launch).retired + 1
            ∧ (1 < cl.leftTeams → (t.cluster tm.cluster).leftTeams = cl.leftTeams - 1)
            ∧ (cl.leftTeams ≤ 1 → (t.cluster tm.cluster).live = false ∧ (t.cluster tm.cluster).merge = [])))))
  ∧ (∀ (s : State) (k : Nat) (b : Bool),
    let g := s.group k
    let x := g.slot b
    let wakes := g.live = true ∧ x.v = true ∧ x.slp = true
      ∧ (s.dieTime g.die + 2 ^ 64 - x.wake % 2 ^ 64) % 2 ^ 64 < 2 ^ 63
    (¬ wakes → exec (.sleepWake k b) s = .next s)
    ∧ (wakes → exec (.sleepWake k b) s =
        .next (s.setGroup k (g.setSlot b { x with slp := false, pc := x.wpc, ins := x.wins }))))
  ∧ (∀ (s : State) (k : Nat),
    let g := s.group k
    let due := g.live = true ∧ g.away = false ∧ g.park = none ∧ g.trapPend ≠ none
    (¬ due → exec (.trapEntry k) s = .next s) ∧ (due → exec (.trapEntry k) s = .next ((s.wakeSlots k).takeTrap k)))
  ∧ (∀ (s : State) (k : Nat),
    let c := s.coreAt k
    let unused := fun i => i < 64 ∧ (c.faults.getD i {}).used = false
    (c.waiters = [] ∨ (∀ i, ¬ unused i) → Runs (.faultBufferEntryFree k) s (fun t =>
        (∀ j, t.coreAt j = s.coreAt j) ∧ SameMem s t ∧ t.groups = s.groups))
    ∧ (∀ i x l, unused i → (∀ j, j < i → ¬ unused j) → c.waiters = x :: l →
        Runs (.faultBufferEntryFree k) s (fun t =>
          let e := (t.coreAt k).faults.getD i {}
          e.used = true ∧ e.reserved = true ∧ e.engine = x.engine ∧ e.matrix = x.matrix ∧ e.grp = x.grp
          ∧ e.chunk = x.chunk ∧ e.cmd = (if x.engine then x.cmd else x.slotB.toNat)
          ∧ (t.coreAt k).waiters = l ∧ SameMem s t ∧ t.groups = s.groups)))
  ∧ (∀ (s : State),
    let head := (s.preg.getD 0x303 0).toNat
    let size := 2 ^ ((s.preg.getD 0x302 0).toNat % 32)
    let full := (head + 1) % size = (s.preg.getD 0x304 0).toNat % size
    let pa := (pair (s.preg.getD 0x300 0) (s.preg.getD 0x301 0)).toNat + 32 * head
    let at_ := if isDram pa then pa else 2 * 2 ^ 64 + pa
    (s.faultQ = [] ∨ full → exec .faultQueueEntry s = .next s)
    ∧ (∀ e l, s.faultQ = e :: l → ¬ full → Runs .faultQueueEntry s (fun t =>
        t.faultQ = l ∧ t.preg.getD 0x303 0 = BitVec.ofNat 32 ((head + 1) % size) ∧ 0 ∈ t.msix
        ∧ (∀ i, i ≠ 0x303 → t.preg.getD i 0 = s.preg.getD i 0)
        ∧ (∀ i, i < 4 * e.length → t.memByte (at_ + i) = (wordBytes e).getD i 0)
        ∧ (∀ a, (a < at_ ∨ at_ + 4 * e.length ≤ a) → t.memByte a = s.memByte a)
        ∧ t.groups = s.groups ∧ t.teams = s.teams)))
  ∧ (∀ (s : State) (die n : Nat),
    let ls := (s.pendLines die (fun _ x => !x.attr.swc)).take n
    Runs (.backgroundDrain die n) s (fun t =>
      (∀ l ∈ ls, (t.pline die l).have_ = false) ∧ (∀ l, l ∉ ls → t.pline die l = s.pline die l)
      ∧ t.groups = s.groups ∧ t.teams = s.teams ∧ t.clusters = s.clusters ∧ t.cores = s.cores
      ∧ (∀ l, ls = [l] → (s.pline die l).have_ = true → ((s.pline die l).cells.map (·.1)).Nodup → ∀ a, a < 2 ^ 64 → a / 128 = l →
          let c := cellAt (s.pline die l).cells (a % 128)
          t.memByte a = (s.memByte a &&& ~~~c.mask) ||| (c.val &&& c.mask))))
  ∧ (∀ (s : State) (die line : Nat),
    let d := s.die die
    Runs (.guestEviction die line) s (fun t =>
      (t.pline die line).have_ = false
      ∧ (∀ k, k / 8 = line → (t.die die).guest.getD k {} = {})
      ∧ (∀ k, k / 128 = line → (t.die die).dirty.getD k {} = {} ∧ (t.die die).flashOld.getD k {} = {})
      ∧ line ∉ (t.die die).flash ∧ (∀ k, k / 8 = line → (t.die die).clean.getD k {} = {})
      ∧ (∀ x, x < 8 → (t.die die).relRec.getD (line * 16 + x) 0 = 0
          ∧ (t.die die).relSum.getD x 0 = max (d.relSum.getD x 0) (d.relRec.getD (line * 16 + x) 0))
      ∧ (d.dirty.keys.Nodup → (s.pline die line).have_ = false → ∀ a, a / 128 = line → s.served .write a = true →
          let c := d.dirty.getD a {}
          t.memByte a = (s.memByte a &&& ~~~c.mask) ||| (c.val &&& c.mask))
      ∧ (((t.die die).withdrawn = d.withdrawn ∧ t.repairs = s.repairs)
        ∨ ((t.die die).withdrawn = d.withdrawn + 1 ∧ (s.repairs.length < 4096 →
            t.repairs = s.repairs ++ [{ type_ := 5, die, unit_ := d.withdrawn, at_ := s.time }])))
      ∧ t.groups = s.groups ∧ t.teams = s.teams ∧ t.clusters = s.clusters))
  ∧ (∀ (s : State) (core line : Nat),
    Runs (.l1LineDrop core line) s (fun t =>
      (∀ k, (t.coreAt core).l1.getD k {} = if k / 512 = line then {} else (s.coreAt core).l1.getD k {})
      ∧ (∀ j, j ≠ core → t.coreAt j = s.coreAt j)
      ∧ SameMem s t ∧ t.groups = s.groups ∧ t.teams = s.teams ∧ t.dies = s.dies))

namespace Sys2Proof.Machine

/-! Commands of the host (15_system R328 to R330). -/

/-- The 32 words of the command at the head of a queue, in host memory. -/
def State.headWords (s : State) (q : Nat) : List Word :=
  let x := s.queue q
  wordsLE ((List.range 128).map (fun i => s.memByte (2 * 2 ^ 64 + (x.base.toNat + 128 * x.head) + i))) 32

/-- A queue may dispatch its head command: it is enabled and not empty, the package runs, its context is not
resetting, and no earlier launch of it awaits dispatch. -/
def State.dispatches (s : State) (q : Nat) : Prop :=
  let x := s.queue q
  q < 1024 ∧ x.enable = true ∧ x.head ≠ x.tail ∧ s.therm.runs = true ∧ (s.cr x.ctx 0).getLsbD 5 = false
    ∧ ∀ e ∈ s.launches, e.2.stage = .queued → e.2.device = false → e.2.queue ≠ q

/-- The state with the head command of a queue taken from it. -/
def State.popped (s : State) (q : Nat) : State :=
  let x := s.queue q
  s.setQueue q { x with head := (x.head + 1) % x.entries, stale := x.stale - 1 }

/-- A command of type `ty` whose field is out of range when `bad` holds of its words: it is then discarded and
counted; otherwise it leaves the state of which `P` holds, beside the state with only the command taken.
Nothing happens unless it stands at the head of a queue that may dispatch it, and `now` holds. -/
def HostCommand (s : State) (q ty : Nat) (i : Instr) (now : Prop) (bad : List Word → Prop)
    (P : List Word → State → State → Prop) : Prop :=
  let ws := s.headWords q
  let here := s.dispatches q ∧ (ws.getD 0 0).toNat / 2 ^ 24 = ty ∧ now
  (¬ here → exec i s = .next s)
  ∧ (here → bad ws → Runs i s (fun t =>
      t.queue q = { (s.popped q).queue q with errs := (s.queue q).errs + 1 } ∧ 2 ∈ t.msix
      ∧ (∀ k, k ≠ q → t.queue k = s.queue k) ∧ SameMem s t ∧ t.creg = s.creg ∧ t.launches = s.launches
      ∧ t.handles = s.handles ∧ t.logs = s.logs ∧ t.uops = s.uops ∧ t.groups = s.groups))
  ∧ (here → ¬ bad ws → Runs i s (P ws (s.popped q)))

/-- Bits of word 1 of a command, and its two 64-bit fields. -/
def field1 (ws : List Word) (lo w : Nat) : Nat := (ws.getD 1 0).toNat / 2 ^ lo % 2 ^ w
def wide (ws : List Word) (n : Nat) : DWord := BitVec.ofNat 64 ((ws.getD n 0).toNat + 2 ^ 32 * (ws.getD (n + 1) 0).toNat)

end Sys2Proof.Machine

/-- 15_system R328, R329, R331; 09_memory R196; 17_cold R387: each host command when it stands at the head of a
queue that may dispatch it, and a command of a reserved type or with a field out of range. WAIT reads its word
at each look and leaves the queue once the value holds.
The model's own choices: log entry 32. -/
def Obligations.HostCommandsAct : Prop :=
  ∀ (s : State) (q : Nat),
    let none_ := fun (_ : List Word) => False
    let ty := ((s.headWords q).getD 0 0).toNat / 2 ^ 24
    let ctx := (s.queue q).ctx
    (ty ≤ 11 → HostCommand s q 0 (.hostNop q) True none_ (fun _ u t => t = u))
    ∧ (11 < ty → HostCommand s q ty (.hostNop q) True (fun _ => True) (fun _ _ _ => False))
    ∧ HostCommand s q 1 (.hostLaunch q) True none_ (fun ws u t =>
        let l : Launch := { stage := .queued, rec_ := ws, queue := q, prio := (s.queue q).prio }
        let v := ({ u with nextId := u.nextId + 1 } : State).setLaunch u.nextId
          { l with ctx := (ws.getD 22 0).toNat / 2 ^ 16 % 64 }
        t = if (s.queue q).stale = 0 then v else v.complete u.nextId 3 0)
    ∧ HostCommand s q 2 (.signal q)
        (∀ e ∈ s.launches, e.2.device = false → e.2.queue = q → e.2.stage = .complete) none_ (fun ws u t =>
        t = (u.drainDies.cpWrite ctx (wide ws 2) (bytesLE 8 (wide ws 4).toNat)).1)
    ∧ (let ws := s.headWords q
       let here := s.dispatches q ∧ ty = 3
       let holds := fun bs => if field1 ws 0 1 = 1 then vbytesNat bs = (wide ws 4).toNat
         else (wide ws 4).toNat ≤ vbytesNat bs
       (¬ here → exec (.wait q) s = .next s)
       ∧ (here → ∀ v e, s.cpRead ctx (wide ws 2) 8 = (v, .error e) → exec (.wait q) s = .next v)
       ∧ (here → ∀ v bs, s.cpRead ctx (wide ws 2) 8 = (v, .ok bs) →
          (holds bs → exec (.wait q) s = .next (v.popped q)) ∧ (¬ holds bs → exec (.wait q) s = .next v)))
    ∧ HostCommand s q 4 (.bufset q) True (fun ws => field1 ws 0 16 = 0) (fun ws u t =>
        let h := field1 ws 0 16
        t = u.setHandle h { u.handle h with set_ := true, base := wide ws 2, len := wide ws 4 })
    ∧ HostCommand s q 5 (.buffree q) True (fun ws => field1 ws 0 16 = 0) (fun ws u t =>
        t = u.setHandle (field1 ws 0 16) {})
    ∧ HostCommand s q 6 (.ctxset q) True (fun ws => q ≠ 0 ∨ ∃ p ∈ ctxPairs ws, 0x14 < p.1) (fun ws u t =>
        t = (ctxPairs ws).foldl (fun v p => v.writeCtx (field1 ws 0 6) p.1 p.2 true) u)
    ∧ (∀ c x, (s.writeCtx c 0 x true).cr c 0 = ((s.cr c 0 &&& 0x30) &&& ~~~(x &&& 0x10)) ||| (x &&& 0xF))
    ∧ HostCommand s q 7 (.qset q) True
        (fun ws => q ≠ 0 ∨ field1 ws 0 10 = 0 ∨ ¬ ∃ k, 4 ≤ k ∧ k ≤ 16 ∧ (ws.getD 4 0).toNat = 2 ^ k) (fun ws u t =>
        let k := field1 ws 0 10
        t = u.setQueue k { u.queue k with
          enable := field1 ws 19 1 = 1, ctx := field1 ws 13 6, prio := field1 ws 10 3, base := wide ws 2
          entries := (ws.getD 4 0).toNat, head := 0, tail := 0, stale := 0 })
    ∧ (let base := fun ws => (wide ws 2).toNat
       let cap := fun ws => (wide ws 4).toNat
       let unbind := fun ws => field1 ws 12 1 = 1
       HostCommand s q 8 (.logbind q) True (fun ws => ¬ unbind ws ∧
          (3 < field1 ws 8 3 ∨ base ws % 65536 ≠ 0 ∨ cap ws % 65536 ≠ 0)) (fun ws u t =>
        let k := 256 * ctx + field1 ws 0 8
        let l := u.log k
        (unbind ws → (t.log k).bound = false)
        ∧ (¬ unbind ws → l.bound = true → s.logBusy k = true →
            t = u.setLog k { l with rebind := some (4 + field1 ws 8 3, base ws, cap ws) })
        ∧ (¬ unbind ws → ¬ (l.bound = true ∧ s.logBusy k = true) → (t.log k).bound = true
            ∧ (t.log k).die = 4 + field1 ws 8 3 ∧ (t.log k).base = base ws ∧ (t.log k).cap = cap ws ∧ (t.log k).next = 0)
        ∧ (∀ j, j ≠ k → t.log j = s.log j) ∧ SameMem s t))
    ∧ (let code := s.codeBase ctx
       let at_ := fun ws => (wide ws 2).toNat
       let out := fun ws => at_ ws < code ∨ code + 2 ^ 26 ≤ at_ ws ∨ at_ ws % 4 ≠ 0
       HostCommand s q 9 (.uopset q) True (fun ws => field1 ws 4 1 ≠ 1 ∧ out ws) (fun ws u t =>
        let k := 16 * ctx + field1 ws 0 4
        t.uops.getD k {} = (if field1 ws 4 1 = 1 then {} else
          { installed := true, start := BitVec.ofNat 24 ((at_ ws - code) / 4), mem := u.homeImage, creg := u.creg })
        ∧ (∀ j, j ≠ k → t.uops.getD j {} = s.uops.getD j {}) ∧ SameMem s t ∧ t.mills = s.mills))
    ∧ HostCommand s q 10 (.preempt q) True none_ (fun ws u t =>
        let k := field1 ws 0 10
        let hold := field1 ws 16 1 = 1
        let u := u.setQueue k { u.queue k with hold := hold }
        t = if hold then (u.teamsOfQueue k).foldl State.evict u else u)
    ∧ HostCommand s q 11 (.ctxreset q) True (fun _ => q ≠ 0) (fun ws u t =>
        t = u.setCr (field1 ws 0 6) 0 (u.cr (field1 ws 0 6) 0 ||| 0x20))
    ∧ (∀ (x : Word), (q < 1024 ∧ (s.queue q).enable = true →
          s.therm.state ≠ 0 → exec (.doorbell q x) s = .next (s.setQueue q { s.queue q with tail := x.toNat % (s.queue q).entries }))
        ∧ (¬ (s.therm.state ≠ 0 ∧ q < 1024 ∧ (s.queue q).enable = true) → exec (.doorbell q x) s = .next s))
    ∧ (∀ (c n : Nat),
        let k := 256 * c + n
        ((s.log k).rebind = none ∨ s.logBusy k = true → exec (.logbindRebind c n) s = .next s)
        ∧ (∀ d b m, (s.log k).rebind = some (d, b, m) → s.logBusy k = false →
            exec (.logbindRebind c n) s = .next (s.setLog k { s.log k with
              bound := true, die := d, base := b, cap := m, next := 0, rebind := none })))

/-- 15_system R350: a reset removes every group, team and command of its context, ends its launches with status
3, lets requests accepted by a Miller be performed, reports itself and clears RESETTING; a watchdog that
expires resets a reset-class context and otherwise reports itself and sets WDX.
The model's own choices: log entry 52. -/
def Obligations.ContextsReset : Prop :=
  (∀ (s : State) (c : Nat),
    ((s.cr c 0).getLsbD 5 = false → exec (.contextReset c) s = .next s)
    ∧ ((s.cr c 0).getLsbD 5 = true → Runs (.contextReset c) s (fun t =>
        (∀ e ∈ t.groups, e.2.ctx ≠ c) ∧ (∀ e ∈ t.teams, e.2.ctx ≠ c) ∧ (∀ e ∈ t.clusters, e.2.ctx ≠ c)
        ∧ (∀ e ∈ t.copies, e.2.ctx ≠ c) ∧ (∀ e ∈ t.mats, e.2.ctx ≠ c)
        ∧ (∀ e ∈ s.groups, e.2.ctx ≠ c → e ∈ t.groups) ∧ (∀ e ∈ s.teams, e.2.ctx ≠ c → e ∈ t.teams)
        ∧ (∀ e ∈ s.launches, e.2.ctx = c → e.2.stage = .queued ∨ e.2.stage = .dispatched →
            (t.launch e.1).stage = .complete ∧ (t.launch e.1).status = 3)
        ∧ t.mills = s.mills
        ∧ (∀ q, let x := s.queue q
            t.queue q = if x.ctx = c then { x with stale := (x.tail + x.entries - x.head) % x.entries } else x)
        ∧ (∃ l now, t.faultQ = s.faultQ ++ l ++ [faultEntry cRESET false false c 0 0 0 0 now])
        ∧ (t.cr c 0).getLsbD 5 = false ∧ (∀ i, i ≠ 32 * c → t.creg.getD i 0 = s.creg.getD i 0))))
  ∧ (∀ (s : State) (k : Nat),
    let l := s.launch k
    let limit := (s.cr l.ctx 0x14).toNat
    let due := l.stage = .dispatched ∧ l.wdFired = false ∧ limit ≠ 0 ∧ l.since + 1000 * limit ≤ s.time
    let u := s.setLaunch k { l with wdFired := true }
    (¬ due → exec (.watchdogExpiry k) s = .next s)
    ∧ (due → (s.cr l.ctx 0).getLsbD 2 = true →
        exec (.watchdogExpiry k) s = .next (u.setCr l.ctx 0 (s.cr l.ctx 0 ||| 0x20)))
    ∧ (due → (s.cr l.ctx 0).getLsbD 2 = false → Runs (.watchdogExpiry k) s (fun t =>
        t.faultQ = s.faultQ ++ [faultEntry cWDOG false false l.ctx 0 0 0 0 (s.dieTime 8)]
        ∧ t.cr l.ctx 0 = s.cr l.ctx 0 ||| 0x10 ∧ (t.launch k).wdFired = true ∧ t.groups = s.groups ∧ SameMem s t)))

namespace Sys2Proof.Machine

/-- The first of checks 1 to 7 of R332 that a launch record fails, as its reason. -/
def State.firstFailure (s : State) (l : Launch) : Option Nat :=
  let ctl := s.cr l.ctx 0
  let by_ := (s.launch l.parent).ctx
  let checks : List (Bool × Nat) :=
    [(decide (l.f 0 24 8 ≠ 1 ∨ ∃ e ∈ recordReserved, l.w e.1 &&& e.2 ≠ 0), 1),
     (decide (ctl.getLsbD 0 = false ∨ l.rcl ≠ ctl.getLsbD 2
        ∨ (l.device = true ∧ l.ctx ≠ by_ ∧ (s.cr by_ 0).getLsbD 1 = false)), 6),
     (decide (l.gridX * l.gridY * l.gridZ = 0 ∨ 2 ^ 32 - 1 < l.gridX * l.gridY * l.gridZ), 2),
     (decide (l.clw * l.clh = 0 ∨ 12 < l.clw * l.clh ∨ 8 < l.clh ∨ (l.yoke = true ∧ l.clw % 2 = 1)), 3),
     (decide (8 < l.nacc ∨ 128 < l.f 5 8 8), 8),
     (decide (l.rangesBad = true ∨ ∃ k ∈ List.range 4, s.presetBad l k = true), 4),
     (decide (∃ b ∈ l.bufs, b.1 = 0 ∨ (s.handle b.1).set_ = false), 5)]
  (checks.find? (·.1)).map (·.2)

/-- A launch rests for now: its context resets, the launch that issued it has not completed, or a handle of it
awaits a launch (R330, R337). -/
def State.launchRests (s : State) (l : Launch) : Prop :=
  (s.cr l.ctx 0).getLsbD 5 = true ∨ (l.device = true ∧ l.dep = true ∧ (s.launch l.parent).stage ≠ .complete)
    ∨ ∃ b ∈ l.bufs, s.handleFree (s.handle b.1) b.2 = false

end Sys2Proof.Machine

/-- 15_system R330, R332, R333, R337, R342; 09_memory R173; 16_loading R364: a queued launch whose turn has come
is rejected with the first check that its record fails, waits, ends with a placement fault, or goes to the
distributors; it completes when its teams have retired, with its record written, at the time the Commons die
holds (12_atomics_barriers R277); a core's item queue is refilled in batches of 256, in ascending order, those
that came back from a core among them. The shape of the dies that clusters go to and the rows of a team are
checked after the placement is known. A launch keeps the format records of its presets and the code as it stood
(02_encoding R43). The walks of the format records, of the first argument and of the object's directory entry
set the accessed bit as they go; a launch of an object that is not registered fails check 6, and one of a
level-1 object waits until a translation holds its kernel. A cluster height above 8 or a shape without cores
fails check 4 (log entry 31). -/
def Obligations.LaunchesRunTheirCourse : Prop :=
  (∀ (s : State) (k : Nat),
    let l := s.launch k
    let turn := l.stage = .queued ∧ s.therm.runs = true ∧ s.firstInQueue k = true
    let v := s.touchPresets l
    let w := v.touchArg l
    let x := w.touchDir l
    let d := x.dirEntry l.ctx commons l.codeObj
    let goes := exec (.launchDispatch k) s
    (¬ turn → goes = .next s)
    ∧ (turn → ∀ r, v.firstFailure l = some r → goes = .next (v.complete k 1 r))
    ∧ (turn → v.firstFailure l = none →
        (v.launchRests l → goes = .next v)
        ∧ (¬ v.launchRests l → ∀ c, w.placement l = .error c → goes = .next (w.complete k 2 c))
        ∧ (¬ v.launchRests l → ∀ ds, w.placement l = .ok ds →
            let narrow := ∃ d ∈ ds.take l.clusters, dieCols d < l.clw
            let large := 117760 < l.rows ∨ (w.cr l.ctx 0x10).toNat / 65536 < l.ngrp
            let level1 := l.codeObj ≠ 0 ∧ d.valid = true ∧ d.l1 = true
            (narrow → goes = .next (w.complete k 1 3))
            ∧ (¬ narrow → large → goes = .next (w.complete k 1 7))
            ∧ (¬ narrow → ¬ large → l.codeObj ≠ 0 → d.valid = false → goes = .next (x.complete k 1 6))
            ∧ (¬ narrow → ¬ large → level1 → (∀ e ∈ x.trans, ¬ (e.2.live = true ∧ e.2.ctx = l.ctx ∧ e.2.obj = l.codeObj
                ∧ e.2.map.getD ((l.w 0).toNat % 2 ^ 24) 0 ≠ 0)) → goes = .next x)
            ∧ (¬ narrow → ¬ large → l.codeObj = 0 ∨ (d.valid = true ∧ d.l1 = false) →
                Runs (.launchDispatch k) s (fun t =>
                  (t.launch k).stage = .dispatched ∧ (t.launch k).dies = ds ∧ (t.launch k).since = s.time
                  ∧ (t.launch k).entry = (l.w 0).extractLsb' 0 24 ∧ (t.launch k).rec_ = l.rec_
                  ∧ (t.launch k).codeAt = some x.homeImage
                  ∧ (t.launch k).presets = (List.range 4).map (x.presetRec l)
                  ∧ (t.launch k).closed = (l.w 22).getLsbD 25
                  ∧ t.groups = s.groups ∧ t.teams = s.teams ∧ t.faultQ = s.faultQ)))))
  ∧ (∀ (s : State) (k : Nat),
    let l := s.launch k
    let ends := l.stage = .dispatched ∧ l.retired = l.gridX * l.gridY * l.gridZ
    (¬ ends → exec (.launchComplete k) s = .next s)
    ∧ (ends → exec (.launchComplete k) s = .next (s.complete k (if l.killed then 4 else 0) 0)))
  ∧ (∀ (s : State) (k st r : Nat),
    let l := s.launch k
    let l' : Launch := { l with stage := .complete, status := st, reason := r, doneAt := s.dieTime 8 }
    let u := l.ranOn.foldl (fun v d => v.sysDrain d) (s.setLaunch k l')
    let ws := [BitVec.ofNat 32 (st + r * 256), BitVec.ofNat 32 l.discarded, BitVec.ofNat 32 (u.dieTime 8),
      BitVec.ofNat 32 (u.dieTime 8 / 2 ^ 32)]
    (l.f64 28 = 0 → s.complete k st r = s.setLaunch k l')
    ∧ (l.f64 28 ≠ 0 → ∀ v, u.cpWrite l.ctx (l.f64 28) (wordBytes ws) = (v, none) → s.complete k st r = v)
    ∧ (l.f64 28 ≠ 0 → ∀ v c, u.cpWrite l.ctx (l.f64 28) (wordBytes ws) = (v, some c) →
        s.complete k st r = { v with faultQ := v.faultQ ++
          [faultEntry cCPLF false false l.ctx 0 (BitVec.ofNat 32 c) 0 (l.f64 28) (v.dieTime 8)] }))
  ∧ (∀ (s : State) (core k : Nat),
    let l := s.launch k
    let q := ((s.coreAt core).items.getD k {}).items
    let left := (l.w 21).toNat - l.itemNext
    let gives := l.stage = .dispatched ∧ l.items = true ∧ q.length < 256 ∧ ∃ e ∈ s.teams, e.2.live = true
      ∧ e.2.away = false ∧ e.2.die = core / 256 ∧ e.2.core = core % 256 ∧ e.2.launch = k
    (¬ gives → exec (.itemBatch core k) s = .next s)
    ∧ (gives → Runs (.itemBatch core k) s (fun t =>
        let low := (l.returned.filter (fun x => decide (x.2 < l.itemNext))).take 256
        let n := min (256 - low.length) left
        let high := (l.returned.filter (fun x => decide (l.itemNext ≤ x.2))).take (256 - low.length - n)
        ((t.coreAt core).items.getD k {}).items = q ++ (low
          ++ (List.range n).map (fun i => (l.w 20 + BitVec.ofNat 32 (l.itemNext + i), l.itemNext + i)) ++ high)
        ∧ (t.launch k).itemNext = l.itemNext + n
        ∧ (t.launch k).returned = l.returned.filter (fun x => decide (x ∉ low ∧ x ∉ high))
        ∧ SameMem s t ∧ t.groups = s.groups ∧ t.teams = s.teams)))
  ∧ (∀ (s : State) (lk die core : Nat),
    let k := coreKey die core
    let q := ((s.coreAt k).items.getD lk {}).items
    let t := s.returnItems lk die core
    let stays := q = [] ∨ ∃ e ∈ s.teams, e.2.live = true ∧ e.2.away = false ∧ e.2.die = die ∧ e.2.core = core ∧ e.2.launch = lk
    (stays → t = s)
    ∧ (¬ stays → ((t.coreAt k).items.getD lk {}).items = [] ∧ ((t.launch lk).returned.Perm ((s.launch lk).returned ++ q))
        ∧ (t.launch lk).returned.Pairwise (fun a b => a.2 ≤ b.2)))

namespace Sys2Proof.Machine

/-- A launch has a cluster to place on a die: the next of those that go there, in ascending order (01_machine R15,
15_system R336), and may have it placed: its queue is not held and its context does not reset. -/
def State.hasCluster (s : State) (die lk c : Nat) : Prop :=
  let l := s.launch lk
  l.stage = .dispatched ∧ (l.device = true ∨ (s.queue l.queue).hold = false) ∧ (s.cr l.ctx 0).getLsbD 5 = false
    ∧ c < l.clusters ∧ ∃ p, p < l.dies.length ∧ l.dies.getD p 0 = die ∧ (∀ j, j < p → l.dies.getD j 0 ≠ die)
      ∧ c = p + l.dies.length * l.placed.getD die 0

/-- A team that asks for so much fits on a core (R335): the core is present, and its yoke partner in yoke mode; from
some port on every port reached has the group slots; rows, write buffer and tiles are free, the tiles under one
number on both cores in yoke mode, and none on a bound follower (01_machine R18). -/
def State.teamFits (s : State) (die core : Nat) (n : Need) : Prop :=
  let on := s.teamsOn die core
  let free := fun x => x < 8 ∧ x ∉ s.tilesUsed die core ∧ (n.yoke = true → x ∉ s.tilesUsed die (core + 1))
  s.corePresent die core = true ∧ (n.yoke = true → s.corePresent die (yokePartner core) = true)
    ∧ (∃ b, b < 4 ∧ ∀ p, p < 4 → onPort n.ngrp b p ≤ (s.freeSlots die core p).length)
    ∧ (on.map (·.2.rows)).sum + n.rows ≤ s.coreRows die core ∧ (on.map (·.2.quota)).sum + n.quota ≤ 8192
    ∧ (n.tiles = 0 ∨ ((∃ xs : List Nat, xs.Nodup ∧ xs.length = n.tiles ∧ ∀ x ∈ xs, free x)
        ∧ ¬ (core % 2 = 1 ∧ s.yokeBound die core = true)))

/-- A cluster fits on the rectangle of a die whose lower-left core is `base` (R336). -/
def State.clusterFits (s : State) (l : Launch) (die c base : Nat) : Prop :=
  let cols := dieCols die
  base % cols + l.clw ≤ cols ∧ base / cols + l.clh ≤ 8 ∧ (l.yoke = true → base % cols % 2 = 0)
    ∧ ∀ i, i < l.area → c * l.area + i < l.teams →
      s.teamFits die (base + i / l.clw * cols + i % l.clw) (l.need (i % l.clw))

/-- The teams of a cluster. -/
def Launch.teamsOf (l : Launch) (c : Nat) : Nat := min l.area (l.teams - c * l.area)

/-- A launch whose cluster did not fit is marked with the time since when (R351). -/
def State.markFail (s : State) (die p : Nat) : State :=
  match s.candidate die p with
  | none => s
  | some k =>
    let l := s.launch k
    if l.failSince.getD die 0 ≠ 0 then s
    else s.setLaunch k { l with failSince := l.failSince.set die (s.time + 1) 0 }

end Sys2Proof.Machine

/-- 15_system R334 to R336, R338, R351, R352; 01_machine R15, R18; 03_groupwide R50; 04_control R64: the
distributor places the next cluster of the oldest launch of the highest priority that has one for its die, on
the first rectangle, in ascending order of its lower-left core, on which each of its teams fits, and a launch of
lower priority only when that cluster does not fit, each launch that did not fit keeping the time since when; a
group starts with the registers and the path that its launch gives it; a launch that has failed to fit for long
enough makes teams leave, each into a free slot of its context's save pool; a team that has nothing outstanding
leaves, its image written there, after the errors that saving its rows meets (10_allocation R222), and comes
back with the live register rows, divergence records, allocation rows and tiles that the image then gives, all
else as it was (R353). A team of a held queue that could not leave at once is chosen as soon as it can be.
The model's own choices: log entries 49 to 51 and 64. -/
def Obligations.TeamsComeAndGo : Prop :=
  (∀ (s : State) (die : Nat),
    let next := fun k => ((s.launch k).nextOn die).getD 0
    let stuck := fun p => ∀ k, s.candidate die p = some k → s.findRect (s.launch k) die (next k) = none
    let after := fun n => ((List.range 8).reverse.take n).foldl (fun u p => u.markFail die p) s
    (∀ p, (s.candidate die p = none ↔ ∀ e ∈ s.launches, e.2.prio = p → ∀ c, ¬ s.hasCluster die e.1 c)
      ∧ ∀ k, s.candidate die p = some k → (s.hasCluster die k (next k) ∧ ∃ l, (k, l) ∈ s.launches ∧ l.prio = p)
        ∧ (SMap.sorted s.launches = true → ∀ e ∈ s.launches, e.2.prio = p → ∀ c, s.hasCluster die e.1 c → k ≤ e.1))
    ∧ (∀ (l : Launch) (c : Nat),
        let room := l.teamsOf c * l.ngrp ≤ (s.freeWindows l.ctx).length
        (∀ b, s.findRect l die c = some b ↔ room ∧ b < dieCores die ∧ s.clusterFits l die c b
          ∧ ∀ j, j < b → ¬ s.clusterFits l die c j)
        ∧ (s.findRect l die c = none ↔ ¬ (room ∧ ∃ b, b < dieCores die ∧ s.clusterFits l die c b)))
    ∧ (s.therm.runs = false ∨ (∀ p, p < 8 → s.candidate die p = none) → exec (.clusterPlace die) s = .next s)
    ∧ (SMap.sorted s.launches = true → s.therm.runs = true → (∀ p, p < 8 → stuck p) →
        exec (.clusterPlace die) s = .next (after 8))
    ∧ (∀ p k base, SMap.sorted s.launches = true → s.therm.runs = true → p < 8 → (∀ j, p < j → j < 8 → stuck j) →
        s.candidate die p = some k → s.findRect (s.launch k) die (next k) = some base →
        exec (.clusterPlace die) s = .next ((after (7 - p)).placeCluster k die (next k) base)))
  ∧ (∀ (s : State) (lk die c base : Nat),
    let l := s.launch lk
    let t := s.placeCluster lk die c base
    let core := fun i => base + i / l.clw * dieCols die + i % l.clw
    (t.launch lk).placed.getD die 0 = l.placed.getD die 0 + 1
    ∧ (t.cluster s.nextId).launch = lk ∧ (t.cluster s.nextId).idx = c ∧ (t.cluster s.nextId).die = die
    ∧ (t.cluster s.nextId).leftTeams = l.teamsOf c
    ∧ (∀ i, i < l.area → c * l.area + i < l.teams → ∃ tk, s.nextId < tk ∧
        let u := t.team tk
        u.live = true ∧ u.away = false ∧ u.launch = lk ∧ u.idx = c * l.area + i ∧ u.cluster = s.nextId ∧ u.ctx = l.ctx
        ∧ u.die = die ∧ u.core = core i ∧ u.px = i % l.clw ∧ u.py = i / l.clw ∧ u.ngrp = l.ngrp ∧ u.rows = l.rows
        ∧ u.quota = l.quota ∧ u.nacc = (l.need (i % l.clw)).tiles ∧ u.base < 4
        ∧ ∀ g, g < l.ngrp → ∃ gk slot window clock, s.nextId < gk ∧
            t.group gk = l.newGroup u lk tk g ((u.base + g) % 4) slot window clock)
    ∧ (∀ k, k < s.nextId → t.team k = s.team k ∧ t.group k = s.group k) ∧ SameMem s t)
  ∧ (∀ (l : Launch) (t : Team) (lk tk g port slot window clock : Nat),
    let x := l.newGroup t lk tk g port slot window clock
    let first := 32 * (t.idx * l.ngrp + g)
    x.live = true ∧ x.ctx = l.ctx ∧ x.launch = lk ∧ x.team = tk ∧ x.window = window ∧ x.nreg = l.nreg
    ∧ (∀ L, L < 32 → x.vget 0 L = BitVec.ofNat 32 L
        ∧ x.vget 1 L = (if l.items then 0 else BitVec.ofNat 32 (first + L))
        ∧ inMask x.populated L = (l.items || l.lanes = 0 || first + L < l.lanes))
    ∧ (∀ n L, 2 ≤ n → L < 32 → x.vget n L = 0)
    ∧ x.gget 0 = l.w 16 ∧ x.gget 1 = l.w 17 ∧ x.gget 2 = BitVec.ofNat 32 (t.idx % l.gridX)
    ∧ x.gget 3 = BitVec.ofNat 32 (t.idx / l.gridX % l.gridY * 65536 + t.idx / l.gridX / l.gridY)
    ∧ x.gget 4 = BitVec.ofNat 32 g ∧ x.gget 5 = BitVec.ofNat 32 (t.py * 65536 + t.px)
    ∧ (∀ n, 6 ≤ n → x.gget n = 0)
    ∧ (l.items = false → x.populated ≠ 0 →
        x.slotA = { v := true, pc := l.entry, own := x.populated, act := x.populated, nj := true })
    ∧ (l.items = true → x.slotA = { v := true, pc := l.entry, nj := true })
    ∧ (l.items = false → x.populated = 0 → x.ended = true)
    ∧ x.slotB = {} ∧ x.recs = [] ∧ x.calldepth = 0 ∧ x.rp = none ∧ x.fpstat = 0 ∧ x.gp = [] ∧ x.p = []
    ∧ x.flags = [] ∧ x.fpte = l.fpte)
  ∧ (∀ (s : State) (die : Nat),
    (s.starved die = none → exec (.placementTimeout die) s = .next s)
    ∧ (∀ k, s.starved die = some k →
        let l := s.launch k
        let choice := State.enough l die ((l.nextOn die).getD 0) (s.victims die l.prio) s
        (choice = none → exec (.placementTimeout die) s = .next s)
        ∧ (∀ ts, choice = some ts → exec (.placementTimeout die) s = .next (ts.foldl State.evict s)
            ∧ ∀ tk ∈ ts, ∃ e ∈ s.teams, e.1 = tk ∧ e.2.die = die ∧ (s.launch e.2.launch).prio < l.prio)))
  ∧ (∀ (s : State) (tk : Nat),
    let t := s.team tk
    let pool := s.cr t.ctx 0x13
    let may := t.live = true ∧ t.away = false ∧ t.leaving = false
      ∧ (s.coreAt (coreKey t.die t.core)).halted = false ∧ s.imageSize tk ≤ 65536 * (pool.toNat / 65536)
    let free := fun i => i < pool.toNat % 65536 ∧ ∀ e ∈ s.teams, e.2.live = true → e.2.ctx = t.ctx →
      (e.2.away = true ∨ e.2.leaving = true) → e.2.saveSlot ≠ i
    (¬ may ∨ (∀ i, ¬ free i) → s.evict tk = s)
    ∧ (may → ∀ i, free i → (∀ j, j < i → ¬ free j) → s.evict tk = s.setTeam tk { t with leaving := true, saveSlot := i }))
  ∧ (∀ (s : State) (tk : Nat),
    let t := s.team tk
    let goes := t.live = true ∧ t.leaving = true ∧ s.drained tk = true
      ∧ (s.coreAt (coreKey t.die t.core)).halted = false
    let chosen := t.leaving = false ∧ s.queueHeld t.launch = true
    let m := s.meetTeam tk
    let s' := { m with saved := m.saved.set tk (s.saveAddr t + 1) 0 }
    (chosen → exec (.swapOut tk) s = .next (s.evict tk))
    ∧ (¬ chosen → ¬ goes → exec (.swapOut tk) s = .next s)
    ∧ (goes → Runs (.swapOut tk) s (fun u =>
        (u.team tk).away = true ∧ (u.team tk).leaving = false ∧ (u.team tk).handles = (m.team tk).handles
        ∧ (u.team tk).twb = t.twb ∧ (u.team tk).tiles = t.tiles ∧ (u.team tk).yokeBound = t.yokeBound
        ∧ (SMap.sorted s.groups = true → m.groupsOf tk = s.groupsOf tk)
        ∧ (∀ k ∈ m.groupsOf tk, u.group k =
            { m.group k with away := true, park := (m.group k).park.map (fun p => { p with entry := none }) })
        ∧ (∀ k, k ∉ s.groupsOf tk → u.group k = s.group k) ∧ u.saved = s'.saved
        ∧ (∀ a, u.memByte a = (s'.saveStore tk 0 (s'.teamImage tk)).memByte a))))
  ∧ (∀ (s : State) (tk core : Nat),
    let t := s.team tk
    let comes := t.live = true ∧ t.away = true ∧ s.therm.runs = true ∧ s.queueHeld t.launch = false
      ∧ s.settledFor tk = true ∧ s.takesBack tk core = true
    let base := (s.basePort t.die core t.ngrp).getD 0
    (¬ comes → exec (.swapIn tk core) s = .next s)
    ∧ (comes → Runs (.swapIn tk core) s (fun u =>
        (u.team tk).away = false ∧ (u.team tk).core = core ∧ (u.team tk).base = base ∧ (u.team tk).twb = t.twb
        ∧ (u.team tk).l1thr = (u.coreAt (coreKey t.die core)).fillCtr ∧ u.saved.getD tk 0 = 0
        ∧ (u.team tk).yokeBound = t.yokeBound
        ∧ ((t.handles.map (·.1)).Nodup → ∀ h, (u.team tk).alloc h = { t.alloc h with data := ((u.team tk).alloc h).data })
        ∧ (∀ n, t.nacc ≤ n → (u.team tk).tile n = t.tile n) ∧ (u.team tk).tileNos = s.grantTiles t.die core t.need
        ∧ (∀ k ∈ s.groupsOf tk, u.group k = { s.group k with
            away := false, core := core, port := (base + (s.group k).gidx) % 4, gslot := (u.group k).gslot
            v := (u.group k).v, recs := (u.group k).recs })
        ∧ (∀ k, k ∉ s.groupsOf tk → u.group k = s.group k))))
  ∧ (∀ (g : Group) (lc n L : Nat) (bs : List Byte), n < g.nreg → L < 32 →
    (g.restoreRows lc bs).vget n L = if g.unreadable lc n L then g.vget n L
      else BitVec.ofNat 32 (natLE ((bs.drop (128 * n + 4 * L)).take 4)))
  ∧ (∀ g : Group, (∀ r ∈ g.recs, r.ins < 16) → g.restoreRecs g.recBytes = g)
  ∧ (∀ (a : Alloc) (lc o : Nat) (bs : List Byte), o < a.size →
    (a.restoreRows lc bs).data.getD o 0 = if a.unreadable lc o then a.data.getD o 0 else bs.getD o 0)

/-- 16_loading R360, R362, R365, R366, R368 to R371: a first pass translates the kernel of a queued launch of an
object under epoch 1, a second pass gives the object's next epoch; a job adds its clauses to its epoch's
translation and resumes every group that parked on it. The clauses stand in the arena, in lines of no
translation that is kept, and each is judged against the object's stream, where the entry of a kernel above the
resource floor becomes one clause that raises ILL; words that are no translation of it change nothing. A
translation whose lines are taken is gone. Trampoline entries that the clauses use are set, no one for two
targets. The object's kernel table comes with the event and is kept for as long as the object stays registered
as it is.
The model's own choices: log entries 23 and 44. -/
def Obligations.TranslationsComeInEpochs : Prop :=
  (∀ (s : State) (c obj arena : Nat) (words : List Word) (map : List (Nat × Nat)),
    let hi := arena + words.length
    let pairs := map.filter (fun e => decide (e.1 < 2 ^ 24))
    let kers := kerTable map
    let ill := fun c obj => s.floorIll c obj kers
    let clauses := fun (c obj : Nat) (key : Option Nat) (out : List (Nat × TClause)) =>
      s.judge c obj arena words pairs key (ill c obj) = some out
    let installed := fun (c obj : Nat) (key : Option Nat) (epoch : Nat) (out : List (Nat × TClause)) (t : State) =>
      let old : Translation := match key with
        | some k => s.trans.getD k {}
        | none => { live := true, ctx := c, obj := obj, epoch := epoch, complete := true }
      let k := key.getD s.nextId
      let tramps := out.flatMap (fun e => s.trampsOf (s.jobOf c obj pairs key []) e.1 e.2.ins)
      let written := tramps.foldl (fun u e => u.writeTramp c e.1 e.2)
        (((s.touchObject c obj).reclaim c arena hi).writeArena c arena words)
      (t.trans.getD k {}).map = mapOver old.map pairs ∧ (t.trans.getD k {}).ranges = old.ranges ++ [(arena, hi)]
        ∧ (t.trans.getD k {}).live = old.live ∧ (t.trans.getD k {}).complete = old.complete
        ∧ (t.trans.getD k {}).ctx = old.ctx ∧ (t.trans.getD k {}).obj = old.obj ∧ (t.trans.getD k {}).epoch = old.epoch
        ∧ (∀ i, i ∈ (t.trans.getD k {}).tramps ↔ i ∈ old.tramps ∨ ∃ e ∈ tramps, e.1 = i)
        ∧ (∀ i, i ≠ k → t.trans.getD i {} = if i ∈ s.transOn c arena hi then {} else s.trans.getD i {})
        ∧ (∀ i, t.files.getD i {} = if i = fileKey c obj then s.objFile c obj kers else s.files.getD i {})
        ∧ (∀ a, t.memByte a = written.memByte a)
    (∀ key out, clauses c obj key out →
      let d := s.dirEntry c commons obj
      let j : TJob := { ctx := c, dir := d, tr := mapOver (s.mapOf key) pairs, ill := ill c obj }
      d.valid = true ∧ d.l1 = true ∧ arenaLo ≤ arena ∧ arena < hi ∧ hi ≤ arenaHi
        ∧ (∀ k ∈ s.transOn c arena hi, s.kept k = false ∧ key ≠ some k)
        ∧ out.map (fun e => (e.1, e.2.at_)) = pairs
        ∧ (∀ e ∈ out, (s.mapOf key).getD e.1 0 = 0 ∧ s.clauseGood j e.1 e.2 = true
            ∧ (e.1 ∈ ill c obj → e.2.raisesIll = true))
        ∧ (∀ e ∈ out, ∀ x ∈ s.trampsOf j e.1 e.2.ins, ∀ f ∈ out, ∀ y ∈ s.trampsOf j f.1 f.2.ins, x.1 = y.1 → x.2 = y.2))
    ∧ (let key := s.transOf c obj 1
      let passes := fun (l : Launch) (out : List (Nat × TClause)) =>
        let e := (l.w 0).toNat % 2 ^ 24
        clauses c obj key out ∧ (∃ x ∈ out, x.1 = e) ∧ (e ∈ ill c obj → out.length = 1)
          ∧ s.firstForm (s.jobOf c obj pairs key (ill c obj)) e out = true
      (s.untranslated c obj = none → exec (.firstPass c obj arena words map) s = .next s)
      ∧ (∀ l, s.untranslated c obj = some l →
          ((¬ ∃ out, passes l out) → exec (.firstPass c obj arena words map) s = .next s)
          ∧ (∀ out, passes l out → Runs (.firstPass c obj arena words map) s (fun t =>
              installed c obj key 1 out t ∧ t.groups = s.groups ∧ t.teams = s.teams))))
    ∧ (s.newest c obj = none → exec (.secondPass c obj arena words map) s = .next s)
    ∧ (∀ x, s.newest c obj = some x →
        let good := fun out => x.epoch < 65535 ∧ clauses c obj none out
        ((¬ ∃ out, good out) → exec (.secondPass c obj arena words map) s = .next s)
        ∧ (∀ out, good out → Runs (.secondPass c obj arena words map) s (fun t =>
            installed c obj none (x.epoch + 1) out t ∧ t.groups = s.groups ∧ t.teams = s.teams)))
    ∧ (∀ job,
        let j := s.jobs.getD job {}
        let key := s.jobKey j
        let there := (s.mapOf key).getD j.word 0 ≠ 0
        let fits := fun out => (∃ e ∈ pairs, e.1 = j.word) ∧ clauses j.ctx j.obj key out
        let resumed := fun (t : State) => t.jobs.getD job {} = {}
          ∧ (∀ k ∈ j.groups, ∀ p, (s.group k).park = some p → p.cause = cCNR → (t.group k).park = none)
          ∧ (∀ k, k ∉ j.groups → t.group k = s.group k)
          ∧ (∀ k, t.group k = { s.group k with park := (t.group k).park })
        (j.live = false → exec (.translationJobComplete job arena words map) s = .next s)
        ∧ (j.live = true → there → Runs (.translationJobComplete job arena words map) s (fun t =>
            resumed t ∧ t.trans = s.trans ∧ SameMem s t))
        ∧ (j.live = true → ¬ there → (¬ ∃ out, fits out) → exec (.translationJobComplete job arena words map) s = .next s)
        ∧ (j.live = true → ¬ there → ∀ out, fits out → Runs (.translationJobComplete job arena words map) s (fun t =>
            resumed t ∧ installed j.ctx j.obj key 1 out t))))
  ∧ (∀ (s : State) (c obj : Nat) (kers : List (List Word)),
    let f := s.files.getD (fileKey c obj) {}
    let d := s.dirEntry c commons obj
    let kept := f.dir = s.dirWords c obj
    (kept → s.objFile c obj kers = f) ∧ (¬ kept → s.objFile c obj kers = { dir := s.dirWords c obj, kers })
    ∧ (∀ p, p ∈ s.floorIll c obj kers ↔
        ∃ k ∈ (s.objFile c obj kers).kers, p = (d.base + (k.getD 1 0).toNat) / 4 ∧ kerAbove k = true))
  ∧ (∀ k : List Word,
    let f := fun n lo wd => (k.getD (n - 1) 0).toNat / 2 ^ lo % 2 ^ wd
    kerAbove k = true ↔ 96 < 8 * (f 4 0 5 + 1) ∨ 32 < 16 * 2 ^ f 5 5 2
      ∨ 2 ^ 20 < 4096 * (f 10 0 16 + f 11 0 16 + f 12 0 16 + f 13 0 16 + f 14 0 16)
      ∨ 32 < f 5 16 10 ∨ 16 < f 4 0 5 + 1 ∨ 4 < f 4 5 4 * f 4 9 4 ∨ 4 < f 4 14 4)
  ∧ (∀ map : List (Nat × Nat),
    let ws := (map.filter (fun e => decide (2 ^ 24 ≤ e.1))).map (fun e => BitVec.ofNat 32 e.2)
    (kerTable map).length = ws.length / 16
    ∧ ∀ n i, n < ws.length / 16 → i < 16 → ((kerTable map).getD n []).getD i 0 = ws.getD (16 * n + i) 0)

/-- 17_cold R385, R386, R388, R389, R393: the host reads and writes device memory through its windows, and
performs atomics there, and reads BAR0; what it is answered is the bytes accepted at DEV, but for those of a
spill area (04_control R72), or all ones. Peers do so through the export table, and a refused access is counted;
queue 0 is enabled from its registers; a link that is retrained counts it and is up or down; the mailbox answers
with the report or the certificate.
The model's own choices: log entries 39, 43, 58. -/
def Obligations.HostAndPeersReachTheirMemory : Prop :=
  ∀ (s : State),
    let served := 5 ≤ s.therm.state ∧ s.therm.state ≤ 11
    let base := fun k => bitsOf (s.barWord (0x30004 + 8 * k)).toNat 0 20 * 2 ^ 32
    let open_ := fun off => off / 2 ^ 32 < 16 ∧ (s.barWord (0x30000 + 8 * (off / 2 ^ 32))).getLsbD 0 = true
      ∧ base (off / 2 ^ 32) / 2 ^ 48 < 8
      ∧ base (off / 2 ^ 32) % 2 ^ 48 + 2 ^ 32 ≤ dramSize (base (off / 2 ^ 32) / 2 ^ 48)
    let placed := fun (t : State) (pa : Nat) (bs : List Byte) =>
      (∀ i, i < bs.length → t.memByte (pa + i) = bs.getD i 0)
        ∧ (∀ a, (a < pa ∨ pa + bs.length ≤ a) → t.memByte a = s.memByte a) ∧ t.groups = s.groups ∧ t.creg = s.creg
    let ones := fun n => List.replicate n (0xFF : Byte)
    let reads := fun (t : State) (pa n : Nat) => t.answer.length = n
      ∧ ∀ i, i < n → (pa + i) / 4096 ∉ s.spillAll → t.answer.getD i 0 = s.memByte (pa + i)
    (∀ off n, off < 2 ^ 36 →
        let pa := base (off / 2 ^ 32) + off % 2 ^ 32
        let goes := served ∧ open_ off ∧ off % 2 ^ 32 + n ≤ 2 ^ 32
        (¬ goes → exec (.hostRead off n) s = .next { s with answer := ones n })
        ∧ (goes → Runs (.hostRead off n) s (fun t => reads t pa n ∧ SameMem s t ∧ t.groups = s.groups)))
    ∧ (∀ off, off % 4 = 0 → exec (.hostRead (2 ^ 36 + off) 4) s =
        .next { s with answer := bytesLE 4 (s.readBar off).toNat })
    ∧ s.readBar 0 = 0x0900B009
    ∧ (s.therm.state = 0 → ∀ off, 4 ≤ off → off < 0x400 ∨ 0x900 ≤ off → s.readBar off = BitVec.allOnes 32)
    ∧ (s.therm.state ≠ 0 → (∀ k, k < 9 → s.readBar (0x100 + 4 * k) = s.therm.read (0x310 + k))
        ∧ (∀ q, q < 1024 → s.readBar (0x20000 + 4 * q) = BitVec.ofNat 32 (s.queue q).errs)
        ∧ (∀ n, n < 8 → s.readBar (0x30200 + 4 * n) = s.barWord (0x30200 + 4 * n)))
    ∧ (∀ off data,
        let pa := base (off / 2 ^ 32) + off % 2 ^ 32
        let goes := served ∧ open_ off ∧ off % 2 ^ 32 + data.length ≤ 2 ^ 32
        (¬ goes → exec (.hostWrite off data) s = .next s)
        ∧ (goes → Runs (.hostWrite off data) s (fun t => placed t pa data)))
    ∧ (∀ off op big (x y : DWord),
        let n := if big then 8 else 4
        let pa := base (off / 2 ^ 32) + off % 2 ^ 32
        let goes := served ∧ open_ off ∧ op < 3 ∧ pa % n = 0
        (¬ goes → exec (.hostAtomicop off op big x y) s = .next { s with answer := ones n })
        ∧ (goes → Runs (.hostAtomicop off op big x y) s (fun t =>
            let old := natLE t.answer
            let new : Nat := if op = 0 then old + x.toNat else if op = 1 then x.toNat
              else if old = x.toNat % 256 ^ n then y.toNat else old
            reads t pa n ∧ placed t pa (bytesLE n new))))
    ∧ (∀ port kind off data (x y : DWord),
        let up := port < 8 ∧ (s.barWord (0x30200 + 4 * port)).getLsbD 0 = true ∧ served
        let i := off / 2 ^ 26
        let at_ := (pair (s.barWord 0x304) (s.barWord 0x308)).toNat + 8 * i
        let e : DWord := BitVec.ofNat 64 (natLE ((List.range 8).map (fun b => (s.homeByte (at_ / 2 ^ 48) (at_ + b)).val)))
        let right := e.getLsbD (if kind = 0 then 1 else if kind = 1 then 2 else 3)
        let pa := (e.extractLsb' 26 26).toNat * 2 ^ 26 + off % 2 ^ 26
        let ok := i < (s.barWord 0x30C).toNat ∧ e.getLsbD 0 = true ∧ right = true
        let link := s.barWord (0x30200 + 4 * port)
        let n := if kind % 2 = 1 then 8 else 4
        (¬ up → exec (.peerAccess port kind off data x y) s = .next { s with answer := [] })
        ∧ (up → ¬ ok → Runs (.peerAccess port kind off data x y) s (fun t =>
            t.barWord (0x30200 + 4 * port) = (if link.toNat / 65536 = 65535 then link else link + 0x10000)
            ∧ t.answer = [] ∧ SameMem s t ∧ t.groups = s.groups ∧ t.dies = s.dies))
        ∧ (up → ok → isDram pa = false → exec (.peerAccess port kind off data x y) s = .next { s with answer := [] })
        ∧ (up → ok → kind = 0 → isDram pa = true → pa % 2 ^ 48 + data.length ≤ 2 ^ 48 →
            Runs (.peerAccess port kind off data x y) s (fun t =>
              reads t pa data.length ∧ SameMem s t ∧ t.groups = s.groups))
        ∧ (up → ok → 2 ≤ kind → isDram pa = true → pa % n = 0 →
            Runs (.peerAccess port kind off data x y) s (fun t => reads t pa n
              ∧ placed t pa (bytesLE n (atNew ((kind - 2) / 2) (if kind % 2 = 1 then 4 else 3)
                (BitVec.ofNat 64 (natLE t.answer)) x y).toNat)))
        ∧ (up → ok → kind = 1 → isDram pa = true → pa % 2 ^ 48 + data.length ≤ 2 ^ 48 →
            Runs (.peerAccess port kind off data x y) s (fun t => placed t pa data)))
    ∧ (let n := (s.barWord 0x208).toNat
       let enables := s.therm.state ≠ 0 ∧ (s.barWord 0x20C).getLsbD 0 = false ∧ ∃ k, 4 ≤ k ∧ k ≤ 16 ∧ n = 2 ^ k
       (¬ enables → exec .admen s = .next s)
       ∧ (enables → Runs .admen s (fun t => t.barWord 0x20C = 1 ∧ t.queue 0 = { s.queue 0 with
            enable := true, base := pair (s.barWord 0x200) (s.barWord 0x204), entries := n, head := 0, tail := 0, stale := 0 }
            ∧ (∀ q, q ≠ 0 → t.queue q = s.queue q) ∧ SameMem s t ∧ t.groups = s.groups)))
    ∧ (∀ port ok,
        let off := 0x30200 + 4 * port
        let x := s.barWord off
        (8 ≤ port → exec (.linkRetrain port ok) s = .next s)
        ∧ (port < 8 → Runs (.linkRetrain port ok) s (fun t =>
            (t.barWord off).getLsbD 0 = ok
            ∧ bitsOf (t.barWord off).toNat 8 8 = min 255 (bitsOf x.toNat 8 8 + 1)
            ∧ bitsOf (t.barWord off).toNat 16 16 = bitsOf x.toNat 16 16
            ∧ (∀ o, o / 4 ≠ off / 4 → t.barWord o = s.barWord o) ∧ SameMem s t ∧ t.groups = s.groups)))
    ∧ (∀ port, exec (.flitReplay port) s = .next s)
    ∧ Runs .attestationReport s (fun t =>
        (∀ i, i < 16 → t.barWord (0x500 + 4 * i) = s.barWord (0x400 + 4 * i))
        ∧ t.barWord 0x540 = 0x0900B009 ∧ t.barWord 0x548 = BitVec.ofNat 32 (s.dieTime 8)
        ∧ t.barWord 0x54C = BitVec.ofNat 32 (s.dieTime 8 / 2 ^ 32)
        ∧ bitsOf (t.barWord 0x544).toNat 0 12 = (s.barWord 0x300).toNat % 256 + s.therm.state % 16 * 256
        ∧ t.barWord 0x444 = 1 ∧ 3 ∈ t.msix ∧ SameMem s t ∧ t.groups = s.groups)
    ∧ Runs .identityCertificate s (fun t =>
        t.barWord 0x444 = 1 ∧ 3 ∈ t.msix ∧ (∀ i, i < 16 → t.barWord (0x400 + 4 * i) = s.barWord (0x400 + 4 * i))
        ∧ SameMem s t ∧ t.groups = s.groups)

/-- 00_scope R3; 11_visibility R251; 15_system R356; 17_cold R381, R387, R391, R392: registers written from outside
the cores, a counter zeroed, the high-water mark and the thresholds set, no UP above the image's, and a drain
started and completed. In OFF none of these is served.
The model's own choices: log entry 40. -/
def Obligations.RegistersAreWrittenFromOutside : Prop :=
  ∀ (s : State),
    (∀ i u x,
      (s.therm.state ≠ 0 → i ≤ 0x14 → u < 64 → exec (.registerWrite 0 i u x) s = .next (s.writeReg i (.ctx u) x))
      ∧ (s.therm.state ≠ 0 → 0x100 ≤ i → i ≤ 0x108 → s.corePresent (u / 256) (u % 256) = true →
          exec (.registerWrite 1 i u x) s = .next (s.writeReg i (.core u) x))
      ∧ (s.therm.state ≠ 0 → 0x200 ≤ i → i ≤ 0x20F → u < 8 → exec (.registerWrite 2 i u x) s = .next (s.writeReg i (.die u) x))
      ∧ (s.therm.state ≠ 0 → (0x300 ≤ i ∧ i ≤ 0x305) ∨ (0x310 ≤ i ∧ i ≤ 0x318) →
          exec (.registerWrite 3 i u x) s = .next (s.writeReg i .package x))
      ∧ (∀ k, 4 < k → exec (.registerWrite k i u x) s = .next s))
    ∧ (∀ (u : Nat) (x : Word),
        let bar := fun off => fun (P : State → Prop) => Runs (.registerWrite 4 off u x) s (fun t =>
          P t ∧ (∀ o, o / 4 ≠ off / 4 → t.barWord o = s.barWord o) ∧ SameMem s t ∧ t.groups = s.groups)
        let serves := s.therm.state ≠ 0
        (serves → ∀ k, k < 3 → (s.barWord 0x20C).getLsbD 0 = false →
            bar (0x200 + 4 * k) (fun t => t.barWord (0x200 + 4 * k) = x))
        ∧ (∀ k, k < 3 → (s.barWord 0x20C).getLsbD 0 = true → exec (.registerWrite 4 (0x200 + 4 * k) u x) s = .next s)
        ∧ (serves → bar 0x300 (fun t => t.barWord 0x300 = x &&& 0xFF)
          ∧ bar 0x304 (fun t => t.barWord 0x304 = x &&& 0xFFFFFFF8) ∧ bar 0x308 (fun t => t.barWord 0x308 = x)
          ∧ (x.toNat ≤ 262144 → bar 0x30C (fun t => t.barWord 0x30C = x)))
        ∧ (262144 < x.toNat → exec (.registerWrite 4 0x30C u x) s = .next s)
        ∧ (∀ k, k < 16 → bar (0x400 + 4 * k) (fun t => t.barWord (0x400 + 4 * k) = x))
        ∧ bar 0x444 (fun t => t.barWord 0x444 = s.barWord 0x444 &&& ~~~(x &&& 1))
        ∧ (serves → ∀ q, q < 1024 → (s.queue q).enable = true → exec (.registerWrite 4 (0x10000 + 8 * q) u x) s =
            .next (s.setQueue q { s.queue q with tail := x.toNat % (s.queue q).entries }))
        ∧ (serves → ∀ q, q < 1024 → exec (.registerWrite 4 (0x20000 + 4 * q) u x) s =
            .next (s.setQueue q { s.queue q with errs := x.toNat }))
        ∧ (serves → ∀ k, k < 16 → bar (0x30000 + 8 * k) (fun t => t.barWord (0x30000 + 8 * k) = x &&& 1)
            ∧ bar (0x30004 + 8 * k) (fun t => t.barWord (0x30004 + 8 * k) = x &&& 0xFFFFF))
        ∧ (serves → ∀ k, k < 64 → bar (0x30100 + 4 * k) (fun t => t.barWord (0x30100 + 4 * k) = x))
        ∧ (serves → ∀ k, k < 9 → exec (.registerWrite 4 (0x100 + 4 * k) u x) s = .next (s.writeTherm (0x310 + k) x))
        ∧ (¬ serves → ∀ off, off < 0x400 ∨ 0x900 ≤ off → 4 ≤ off →
            exec (.registerWrite 4 off u x) s = .next s))
    ∧ (∀ i k,
        (i < 8 → s.therm.state ≠ 0 → Runs (.evselClr i k) s (fun t => (t.coreAt k).ctrs.getD i 0 = 0
            ∧ (t.coreAt k).evsel.getD i 0 = (s.coreAt k).evsel.getD i 0 &&& 0x7F3FF
            ∧ (∀ j, j ≠ k → t.coreAt j = s.coreAt j) ∧ SameMem s t ∧ t.groups = s.groups))
        ∧ (8 ≤ i → i < 24 → s.therm.state ≠ 0 → Runs (.evselClr i k) s (fun t => (t.die k).ctrs.getD (i - 8) 0 = 0
            ∧ (t.die k).devsel.getD (i - 8) 0 = (s.die k).devsel.getD (i - 8) 0 &&& 0x7F3FF
            ∧ (∀ j, j ≠ k → t.die j = s.die j) ∧ SameMem s t ∧ t.groups = s.groups))
        ∧ (24 ≤ i ∨ s.therm.state = 0 → exec (.evselClr i k) s = .next s))
    ∧ (s.therm.state = 0 → exec .tempmaxClr s = .next s ∧ (∀ k x, exec (.thresholdWrite k x) s = .next s)
        ∧ (∀ x, exec (.drainStart x) s = .next s) ∧ ∀ k i u x, k < 4 → exec (.registerWrite k i u x) s = .next s)
    ∧ (s.therm.state ≠ 0 → exec .tempmaxClr s = .next { s with therm := { s.therm with high := s.therm.temp } })
    ∧ (∀ (x : Word),
        let up := fun (y : Word) top => min (x.toNat % 65536) (min (y.toNat % 65536) top)
        let both := fun (y : Word) top => BitVec.ofNat 32 (up y top + min (x.toNat / 65536) (up y top - 4) * 65536)
        (s.therm.state ≠ 0 →
          exec (.thresholdWrite 1 x) s = .next { s with therm := { s.therm with thr1 := both s.image.thr1 340 } }
          ∧ exec (.thresholdWrite 2 x) s = .next { s with therm := { s.therm with thr2 := both s.image.thr2 400 } }
          ∧ exec (.thresholdWrite 3 x) s =
              .next { s with therm := { s.therm with thr3 := BitVec.ofNat 32 (up s.image.thr3 520) } })
        ∧ (∀ k, k = 0 ∨ 3 < k → exec (.thresholdWrite k x) s = .next s))
    ∧ (∀ (x : Word),
        let old := s.preg.getD 0x305 0
        (old.getLsbD 1 = true → exec (.drainStart x) s = .next s)
        ∧ (old.getLsbD 1 = false → s.therm.state ≠ 0 → Runs (.drainStart x) s (fun t =>
            let new := t.preg.getD 0x305 0
            new.getLsbD 1 = true ∧ new.getLsbD 0 = false ∧ new.getLsbD 2 = x.getLsbD 2
            ∧ new.getLsbD 3 = x.getLsbD 3 ∧ t.drainSel = x &&& 0xC ∧ new.getLsbD 8 = (old.getLsbD 8 && !x.getLsbD 8)
            ∧ (∀ i, i ≠ 0x305 → t.preg.getD i 0 = s.preg.getD i 0) ∧ SameMem s t ∧ t.groups = s.groups)))
    ∧ (let d := s.preg.getD 0x305 0
       let own := s.therm.safeDrain = true ∧ ∀ e ∈ s.teams, ¬ (e.2.live = true ∧ e.2.leaving = true)
       let clean := fun (t : State) (n : Nat) => (t.die n).dirty = []
       let empty := fun (t : State) => ∀ n, n < 8 → clean t n ∧ ∀ l, (t.pline n l).have_ = false
       let ends := { s.therm with safeDrain := false, safeOwn := false, busy := false }
       (d.getLsbD 1 = true → Runs .drainComplete s (fun t =>
          (t.preg.getD 0x305 0).getLsbD 1 = false ∧ (t.preg.getD 0x305 0).getLsbD 8 = true
          ∧ (s.drainSel.getLsbD 3 = true → empty t) ∧ (s.drainSel.getLsbD 3 = false → SameMem s t)
          ∧ t.therm = (if s.therm.safeOwn then ends else s.therm) ∧ t.groups = s.groups ∧ t.teams = s.teams))
       ∧ (d.getLsbD 1 = false → own → Runs .drainComplete s (fun t =>
          (∀ n, n < 8 → clean t n ∧ ∀ l, (t.pline n l).have_ = true → (t.pline n l).attr.swc = true)
          ∧ (t.preg.getD 0x305 0).getLsbD 1 = true ∧ t.drainSel = 0xC
          ∧ t.therm = { s.therm with safeOwn := true } ∧ t.groups = s.groups ∧ t.teams = s.teams))
       ∧ (d.getLsbD 1 = false → ¬ own → exec .drainComplete s = .next s))

namespace Sys2Proof.Machine

/-- BAND in a state of the package (R381): 3 above THR3.UP, then as a running state gives it; in the other
states, where no hysteresis is given, by the UP thresholds, and the old one before the first sample: the model's
choice (log entry 41). -/
def Thermal.bandNow (u : Thermal) (old st : Nat) : Nat :=
  let up := fun (x : Word) => x.toNat % 65536
  if u.sensors ≠ [] ∧ up u.thr3 < u.temp then 3
  else if st = 5 ∨ st = 6 then 0
  else if st = 7 then 1
  else if st = 8 then 2
  else if u.sensors = [] then old
  else if u.temp ≤ up u.thr1 then 0
  else if u.temp ≤ up u.thr2 then 1
  else 2

/-- The package state machine has entered a state (R382): its band and WSM as the state gives them, and the
thermal interrupt raised. -/
def Entered (s t : State) (st : Nat) : Prop :=
  t.therm.state = st ∧ t.therm.stateSince = s.time ∧ t.therm.wsm = decide (9 ≤ st ∧ st ≤ 11)
    ∧ t.therm.band = t.therm.bandNow s.therm.band st ∧ 1 ∈ t.msix

/-- A command that is not valid stores code 3 and changes nothing else (R381). -/
def State.refused (s : State) : State := { s with therm := { s.therm with terrCode := 3 } }

/-- An event entered a state and touched neither registers nor memory. -/
def Enters (s : State) (i : Instr) (st : Nat) (P : State → Prop) : Prop :=
  Runs i s (fun t => Entered s t st ∧ SameMem s t ∧ t.groups = s.groups ∧ P t)

/-- A count of BANDLOG has gone up by one, or stays at 255. -/
def Counted (s t : State) (lo : Nat) : Prop :=
  bitsOf t.therm.bandlog.toNat lo 8 = min 255 (bitsOf s.therm.bandlog.toNat lo 8 + 1)

/-- A condition has held for some ticks. -/
def State.heldSince (s : State) (x : Option Nat) (n : Nat) : Prop := ∃ t0, x = some t0 ∧ t0 + n ≤ s.time

end Sys2Proof.Machine

/-- 17_cold R381 to R383, R391, R392: the five commands and the states they lead to, a command that is not valid,
one in OFF, and the triggers that are no command, from OFF to READY and back.
The model's own choices: log entry 42. -/
def Obligations.ThermalStatesChangeOnTheirTriggers : Prop :=
  ∀ (s : State),
    let th := s.therm
    let st := th.state
    let all := fun (t : State) => exec .thcmdCool s = .next t ∧ exec .thcmdGo s = .next t
      ∧ exec .thcmdResume s = .next t ∧ exec .thcmdSafe s = .next t ∧ exec .thcmdAscend s = .next t
    (st = 0 → all s)
    ∧ (st ≠ 0 → th.busy = true → all s.refused)
    ∧ (st ≠ 0 → th.busy = false →
        let dry := st = 1 ∧ s.heldSince th.dewSince 300000000000
        let empty := st = 11 ∧ (∀ e ∈ s.teams, e.2.live = false)
          ∧ ∀ e ∈ s.launches, e.2.stage ≠ .queued ∧ e.2.stage ≠ .dispatched
        let resumes := st = 9 ∧ th.safeDrain = false ∧ s.heldSince th.belowR 10000000000
        let ascends := (st = 4 ∧ th.trainFail = true) ∨ st = 5 ∨ st = 9
        (dry → Enters s .thcmdCool 2 (fun _ => True))
        ∧ (empty → Runs .thcmdCool s (fun t => Entered s t 1 ∧ (∀ e ∈ t.mem, 2 ^ 64 ≤ e.1)
            ∧ (∀ a, 2 ^ 64 ≤ a → t.memByte a = s.memByte a) ∧ t.cores = [] ∧ t.dies = [] ∧ t.creg = s.creg))
        ∧ (¬ dry → ¬ empty → exec .thcmdCool s = .next s.refused)
        ∧ (st = 5 → Enters s .thcmdGo 6 (fun t => t.teams = s.teams))
        ∧ (st ≠ 5 → exec .thcmdGo s = .next s.refused)
        ∧ (resumes → Enters s .thcmdResume 8 (fun t => Counted s t 16
            ∧ ∀ k, t.team k = { s.team k with leaving := false }))
        ∧ (¬ resumes → exec .thcmdResume s = .next s.refused)
        ∧ (st = 6 ∨ st = 7 ∨ st = 8 → Enters s .thcmdSafe 9 (fun t => Counted s t 24 ∧ t.therm.safeDrain = true ∧ t.therm.busy = true))
        ∧ (¬ (st = 6 ∨ st = 7 ∨ st = 8) → exec .thcmdSafe s = .next s.refused)
        ∧ (ascends → Enters s .thcmdAscend 10 (fun t => t.teams = s.teams))
        ∧ (¬ ascends → exec .thcmdAscend s = .next s.refused))
    ∧ (∀ (verified ok : Bool),
        (st = 0 ∧ verified = true → Enters s (.powerOn verified ok) 1 (fun t => t.therm.appendOk = ok))
        ∧ (¬ (st = 0 ∧ verified = true) → exec (.powerOn verified ok) s = .next s))
    ∧ (st ≠ 11 → exec .powerOff s = .next s)
    ∧ (st = 11 → Runs .powerOff s (fun t => t.therm.state = 0 ∧ t.groups = [] ∧ t.teams = [] ∧ t.creg = []
        ∧ (∀ e ∈ t.mem, 2 ^ 64 ≤ e.1) ∧ (∀ a, 2 ^ 64 ≤ a → t.memByte a = s.memByte a) ∧ t.repairs = s.repairs
        ∧ t.image = s.image))
    ∧ (let held := st = 1 ∧ s.heldSince th.dewSince 300000000000
       (held → exec .dewPointHold s = .next { s with therm := { th with dewOk := true, dewMet := true } })
       ∧ (¬ held → exec .dewPointHold s = .next s))
    ∧ (let late := st = 1 ∧ th.dewMet = false ∧ ¬ s.heldSince th.dewSince 300000000000 ∧ th.stateSince + 3600000000000 ≤ s.time
       (late → Enters s .purgeTimeout 0 (fun t => t.therm.terrCode = 1 ∧ t.therm.terrDie = 255)) ∧ (¬ late → exec .purgeTimeout s = .next s))
    ∧ (∀ rate,
        let fast := (st = 2 ∧ 8 < rate) ∨ (st = 10 ∧ 12 < rate)
        (fast → Runs (.rateMeasure rate) s (fun t => t.therm = { th with bandlog := th.bandlog ||| 1 } ∧ 1 ∈ t.msix
          ∧ SameMem s t ∧ t.groups = s.groups))
        ∧ (¬ fast → exec (.rateMeasure rate) s = .next s))
    ∧ (let held := st = 3 ∧ s.heldSince th.soakSince 600000000000
       (held → Enters s .soakHold 4 (fun _ => True)) ∧ (¬ held → exec .soakHold s = .next s))
    ∧ (∀ ok die bad,
        let trains := st = 4 ∧ th.trainFail = false
        let pass := ok = true ∧ s.time ≤ th.stateSince + 90000000000
        let taken := fun k => (s.inForce.filter (fun r => decide (r.type_ = 1 ∧ r.die = k / 256))).length
        (¬ trains → exec (.coldtrainComplete ok die bad) s = .next s)
        ∧ (trains → pass → Enters s (.coldtrainComplete ok die bad) 5 (fun t =>
            (∀ n, n < 8 → (t.barWord (0x30200 + 4 * n)).getLsbD 0 = true) ∧ (bad = [] → t.absent = [])
            ∧ t.therm.thr1 = clampThr s.image 1 s.image.thr1 ∧ t.therm.thr2 = clampThr s.image 2 s.image.thr2
            ∧ t.therm.thr3 = clampThr s.image 3 s.image.thr3))
        ∧ (trains → ¬ pass → Runs (.coldtrainComplete ok die bad) s (fun t =>
            t.therm = { th with trainFail := true, terrCode := 2, terrDie := die % 256, thr1 := clampThr s.image 1 s.image.thr1, thr2 := clampThr s.image 2 s.image.thr2, thr3 := clampThr s.image 3 s.image.thr3 }
            ∧ SameMem s t ∧ t.groups = s.groups))
        ∧ (trains → ∀ k, bad = [k] → k / 256 < 8 → k % 256 < dieCores (k / 256) →
            Runs (.coldtrainComplete ok die bad) s (fun t =>
              (taken k < 4 → t.sparesUsed.getD (k / 256) 0 = taken k + 1 ∧ t.absent = [])
              ∧ (4 ≤ taken k → t.absent = [k] ∧ t.sparesUsed.getD (k / 256) 0 = taken k))))

/-- 17_cold R378 to R380, R382, R383: a sample keeps 36 readings, leaves out those outside 60 to 400 K or more
than 8 K from the median of their die's four (the mean of the two in the middle), takes the highest of the
others as the package temperature, counts the samples above the thresholds, and makes the transitions that a
reading triggers, the condensation guard by the lowest of all 36; a band changes after it is due, and is due to
return when it has been cool for 10 s.
The model's own choices: log entry 41. -/
def Obligations.SamplesSetTheBand : Prop :=
  (∀ (s : State) (rs : List Nat) (dew : Nat),
    let th := s.therm
    let st := th.state
    let r := fun i => rs.getD i 0
    let two := fun d =>
      let four := (List.range 4).map (fun k => r (4 * d + k))
      four.sum - maxOf four - four.foldl min (four.headD 0)
    let good := fun i => i < 36 ∧ 240 ≤ r i ∧ r i ≤ 1600 ∧ 2 * r i ≤ two (i / 4) + 64 ∧ two (i / 4) ≤ 2 * r i + 64
    let poor := ∃ d, d < 9 ∧ ¬ ∃ i j, i < j ∧ i / 4 = d ∧ j / 4 = d ∧ good i ∧ good j
    let up := fun (x : Word) => x.toNat % 65536
    (st = 0 ∨ rs.length ≠ 36 → exec (.sensorSample rs dew) s = .next s)
    ∧ (st ≠ 0 → rs.length = 36 → Runs (.sensorSample rs dew) s (fun t =>
        let u := t.therm
        u.sensors = rs ∧ u.dew = dew ∧ SameMem s t ∧ t.groups = s.groups
        ∧ (∀ i, i < 36 → (u.valid.getD i false = true ↔ good i))
        ∧ ((∃ i, good i) → (∃ i, good i ∧ u.temp = r i ∧ u.hot = i) ∧ ∀ i, good i → r i ≤ u.temp)
        ∧ ((¬ ∃ i, good i) → u.temp = th.temp)
        ∧ u.high = max th.high u.temp
        ∧ ((∃ i, i < 36 ∧ ¬ good i) → u.bandlog.getLsbD 2 = true ∧ 1 ∈ t.msix)
        ∧ (st = 1 ∨ st = 4 ∨ st = 5 ∨ st = 11 → u.state = st)
        ∧ (st = 2 → ((∀ i, good i → r i ≤ 320) → u.state = 3) ∧ ((∃ i, good i ∧ 320 < r i) → u.state = 2))
        ∧ (st = 3 → ((∀ i, i < 36 → r i ≤ 340) → u.state = 3) ∧ ((∃ i, i < 36 ∧ 340 < r i) → u.state = 2))
        ∧ (st = 6 ∨ st = 7 ∨ st = 8 → (up th.thr3 < u.temp ∨ poor) → u.state = 9 ∧ u.safeDrain = true ∧ Counted s t 24)
        ∧ (st = 6 ∨ st = 7 ∨ st = 8 → ¬ (up th.thr3 < u.temp ∨ poor) → u.state = st
            ∧ u.over1 = (if up th.thr1 < u.temp then th.over1 + 1 else 0)
            ∧ u.over2 = (if up th.thr2 < u.temp then th.over2 + 1 else 0)
            ∧ u.bandTo = (if st = 6 ∧ 3 ≤ u.over1 then some 1 else if st = 7 ∧ 3 ≤ u.over2 then some 2 else th.bandTo))
        ∧ (st = 9 → ((∀ i, i < 36 → r i ≤ 600) → u.state = 9) ∧ ((∃ i, i < 36 ∧ 600 < r i) → u.state = 10))
        ∧ (st = 10 → ((∀ i, good i → 1132 ≤ r i) → u.state = 11) ∧ ((∃ i, good i ∧ r i < 1132) → u.state = 10)
            ∧ ((∃ i, i < 36 ∧ r i < dew + 20) → u.bandlog.getLsbD 1 = true)
            ∧ ((∀ i, i < 36 → dew + 20 ≤ r i) → u.bandlog.getLsbD 1 = th.bandlog.getLsbD 1)))))
  ∧ (∀ (s : State),
    let th := s.therm
    let runs := th.state = 6 ∨ th.state = 7 ∨ th.state = 8
    (th.bandTo = none ∨ ¬ runs → exec .bandChange s = .next s)
    ∧ (∀ b, th.bandTo = some b → b ≤ 2 → runs → Enters s .bandChange (6 + b) (fun t =>
        (b = 1 → Counted s t 8) ∧ (b = 2 → th.state < 8 → Counted s t 16)
        ∧ (b = 0 ∨ th.state = 6 + b ∧ b ≠ 1 → t.therm.bandlog = th.bandlog)
        ∧ t.therm.bandTo = (if b = 1 ∧ th.state = 6 ∧ 3 ≤ th.over2 then some 2 else none)
        ∧ t.teams = s.teams))
    ∧ (th.state = 7 → s.heldSince th.below1 10000000000 →
        exec .bandReturnHold s = .next { s with therm := { th with bandTo := some 0 } })
    ∧ (th.state = 8 → s.heldSince th.below2 10000000000 →
        exec .bandReturnHold s = .next { s with therm := { th with bandTo := some 1 } })
    ∧ (¬ (th.state = 7 ∧ s.heldSince th.below1 10000000000) → ¬ (th.state = 8 ∧ s.heldSince th.below2 10000000000) →
        exec .bandReturnHold s = .next s))

namespace Sys2Proof.Machine

/-- Word 0 fields of an instruction under the guard that is always true, and with given D and A. -/
def plainW0 (d a : BitVec 8) : W0 := { g := 15, n := false, f := false, d := d, a := a, h := false }

/-- The state in which a step performs what it performs: with its own free values. -/
def State.stepping (s : State) : State := { s with freeCtr := s.freeCtr + 1 }

/-- The state in which a picked slot looks at its next instruction: sleepers whose time has come are awake
(04_control R87). -/
def State.looking (s : State) : State := s.stepping.wakeSlots s.cur

/-- What a step makes of an instruction's outcome: when the instruction finds that it must wait, nothing but the
MEMST bits of its reads and the slot that a MYOKE holds, and otherwise its next state, with a fault-buffer
entry kept for it and not used given back. -/
def State.after (s t : State) : State :=
  if t.held then
    { s.stepping.modGroup s.cur (fun g => { g with memst := (t.group s.cur).memst, yokeHeld := (t.group s.cur).yokeHeld }) with picked := false }
  else { t.releaseReserved s.cur s.curB with picked := false }

/-- The words at a word index of the issuing group's code window: a header of an instruction's clause, and the
instruction's own words, the second only if its W bit asks for it (R24, R31). -/
def State.clauseHas (s : State) (h w0 w1 : Word) : Prop :=
  let pc := s.slot.pc
  s.codeWord s.cur pc = .ok h ∧ hdrBad h = false ∧ s.codeWord s.cur (pc + 1) = .ok w0
    ∧ (if w0.getLsbD 23 then s.codeWord s.cur (pc + 2) = .ok w1 else w1 = 0)

end Sys2Proof.Machine

/-! Encodings, the step, and the state after reset. -/

/-- 02_encoding R31 to R38: the words of a well-formed coded instruction decode to it, with every operand at every
value the encoding admits, and take as many words as its opcode says. -/
def Obligations.EncodedInstructionsDecodeBack : Prop :=
  ∀ i : Instr, i.wf = true → isEvent i = false →
    decodeWords (encode i) = some (i, (encode i).length)
    ∧ ∀ w0, encode i = [w0] → ∀ w1, decode w0 w1 = .ok i

/-- 02_encoding R31, R33, R35, R38, R39: the words that decode to an instruction are the words of its encoding, so
that no two encodings mean one instruction and no bit of a word is without meaning; the instruction is
well formed; and words whose opcode names no instruction, whose W bit disagrees with the opcode, or whose
fields the instruction does not allow, are refused by name. -/
def Obligations.DecodedWordsAreTheirEncoding : Prop :=
  ∀ w0 w1 : Word,
    (∀ i, decode w0 w1 = .ok i → i.wf = true ∧ isEvent i = false
      ∧ (w0.getLsbD 23 = true → encode i = [w0, w1]) ∧ (w0.getLsbD 23 = false → encode i = [w0]))
    ∧ (opMap (opcode w0) w0 w1 = none → (opcode w0 < 0x1D ∨ 0x1F < opcode w0) → decode w0 w1 = .error .unassigned)
    ∧ (0x1D ≤ opcode w0 → opcode w0 ≤ 0x1F → decode w0 w1 = .error .toolReserved)
    ∧ (∀ i, opMap (opcode w0) w0 w1 = some i →
        ((w0.getLsbD 23 = true ↔ opcode w0 ∈ oneWordOps) → decode w0 w1 = .error .wordCount)
        ∧ (i.wf = false → ∃ e, decode w0 w1 = .error e))

/-- The worked words of chapters 02 to 17 decode to the instructions they are given for. -/
def Obligations.WordsOfTheManualDecode : Prop :=
  decode 0x0161FFE8 0 = .ok (.bra { g := 12, n := false, off := 0xFFF4 })
  ∧ decode 0x02800012 0x18 = .ok (.brd { g := 0, n := false, off := 9 } 0x18)
  ∧ decode 0x08780000 0 = .ok (.exit (plainW0 0 0))
  ∧ decode 0x22F82828 0x00010001 = .ok (.gadd (plainW0 20 20)
      { b := 0, c := 1, ty := 0, rnd := 0, na := false, aa := false, nb := false, ab := false, nc := false, opx := 1 })
  ∧ decode 0x51F82810 0x04066001 = .ok (.bfe (plainW0 20 8)
      { b := 4, c := 6, ty := 12, rnd := 0, na := false, aa := false, nb := false, ab := false, nc := false, opx := 1 })
  ∧ decode 0x65F82A16 0x0B008040 = .ok (.fmax (plainW0 21 11)
      { b := 11, c := 0, ty := 16, rnd := 0, na := false, aa := false, nb := true, ab := false, nc := false, opx := 0 })
  ∧ decode 0x83F81802 0 = .ok (.ballot (plainW0 12 1)
      { b := 0, c := 0, ty := 0, rnd := 0, na := false, aa := false, nb := false, ab := false, nc := false, opx := 0 })
  ∧ decode 0x91F82410 0x10010000 = .ok (.fpack (plainW0 18 8)
      { b := 16, c := 1, ty := 0, rnd := 0, na := false, aa := false, nb := false, ab := false, nc := false, opx := 0 })
  ∧ decode 0xA4F81810 0x0A001800 = .ok (.ldg (plainW0 12 8)
      { b := 10, c := 0, ty := 3, sco := 0, ord := 0, hnt := 0, e := false, nob := false, opx := 0 })
  ∧ decode 0xA9F80000 0x201 = .ok (.commitChk (plainW0 0 0) { b := 0, c := 0, m16 := 0x201 })
  ∧ decode 0xC0F81810 0x0A006400 = .ok (.atom (plainW0 12 8)
      { b := 10, c := 0, ty := 12, sco := 4, ord := 0, hnt := 0, e := false, nob := false, opx := 0 })
  ∧ decode 0xC7F80004 0x1E020000 = .ok (.bwait (plainW0 0 2) { b := 30, c := 2, m16 := 0 })
  ∧ decode 0xD1780020 0 = .ok (.cpy2d (plainW0 0 16))
  ∧ decode 0xDA780000 0 = .ok (.mzero (plainW0 0 0))
  ∧ decode 0xE0F80A0E 0x08031801 = .ok (.alloc (plainW0 5 7) { b := 8, c := 3, m16 := 0x1801 })
  ∧ decode 0xF0F81400 0x0FFF0310 = .ok (.srd (plainW0 10 0) 0x0FFF0310)

/-- 02_encoding R24 to R31, R39: one step. A picked slot whose next words decode to an instruction that may
issue performs it, after the walkers' updates of its fetch and with its place, clock and count latched; one that
may not issue waits, and so does one in translated code whose source is still outstanding; words that are no
instruction, or one that may not stand where it stands, trap with ILL. What it reads, of registers and of
scratchpad, meets the errors of its cells first (10_allocation R222). With no pair picked the next event of the
input list happens after its ticks, and with no event left a port picks. The first instruction of a clause is
found after the clause's header.
The model's own choices: log entries 9, 45 to 48. -/
def Obligations.StepRunsTheDecodedInstruction : Prop :=
  (∀ (s u : State) (h : Word) (w : BitVec 24) (w0 w1 : Word),
    s.picked = true → s.looking.mayIssue s.cur s.curB = true → s.looking.place = (u, .here h w w0 w1) →
    ¬ (u.slot.ins = 0 ∧ u.grp.waitsOn h = true) →
    let v := (u.touchCode (w - u.slot.pc + wordsOf w0).toNat).latch h w w0
    let start := fun i => (v.meetRegs v.cur v.lat.lc (v.readMask (v.uses i)) (v.uses i).rd).meetScratch i
    (∀ i, decode w0 w1 = .ok i → v.illegal h w0 (v.uses i) = false → v.grp.interlocked (v.uses i) = false →
        v.grp.flagFull h (v.uses i) = false → v.levelWaits i (v.uses i) = false → ∀ t, exec i (start i) = .next t → step s = .next (s.after t))
    ∧ (∀ e, decode w0 w1 = .error e → step s = .next (s.after (v.raiseSlot cILL)))
    ∧ (∀ i, decode w0 w1 = .ok i → v.illegal h w0 (v.uses i) = true → step s = .next (s.after (v.raiseSlot cILL)))
    ∧ (∀ i, decode w0 w1 = .ok i → v.illegal h w0 (v.uses i) = false →
        v.grp.interlocked (v.uses i) = true ∨ v.grp.flagFull h (v.uses i) = true ∨ v.levelWaits i (v.uses i) = true →
        step s = .next { s.stepping with picked := false }))
  ∧ (∀ (s : State) (h : Word) (w : BitVec 24) (w0 : Word),
    let x := s.slot
    let v := s.latch h w w0
    v.lat = { clause := x.pc, next := w + wordsOf w0, word := w, ins := x.ins, last := decide (x.ins + 1 = hdrCnt h)
              lc := s.clockOf s.grp, fla := flagSel h false, flb := flagSel h true, yld := hdrYLD h
              gd := w0.extractLsb' 19 4, gn := w0.getLsbD 18 }
    ∧ v.grp = { s.grp with issued := s.grp.issued + 1, lastB := s.curB, epochs := v.grp.epochs }
    ∧ (∀ k, k ∈ v.grp.epochs ↔ k ∈ s.grp.epochs ∨ ∃ x, s.transEntry s.grp.ctx s.slot.pc = some (k, x)) ∧ SameMem s v ∧ v.held = false)
  ∧ (∀ (s : State) (h w0 w1 : Word), s.clauseHas h w0 w1 → s.slot.ins = 0 → 0 < hdrCnt h →
    s.place = (s, .here h (s.slot.pc + 1) w0 w1))
  ∧ (∀ s : State, s.picked = true → s.looking.mayIssue s.cur s.curB = false →
    step s = .next { s.stepping with picked := false })
  ∧ (∀ (s : State) (n : Nat) (i : Instr) (rest : List (Nat × Instr)), s.picked = false → s.inputs = (n, i) :: rest →
    (isEvent i = true → step s = exec i { s.stepping with inputs := rest, time := s.time + n })
    ∧ (isEvent i = false → step s = .next { s.stepping with inputs := rest, time := s.time + n }))
  ∧ (∀ s : State, s.picked = false → s.inputs = [] →
    step s = exec (.pick (s.rrCore / 384 % 8) (s.rrCore / 4 % 96) (s.rrCore % 4) false)
      { s.stepping with rrCore := s.rrCore + 1 })

/-- 15_system R343; and the model's memory: no step stops the package, and memory keeps its canonical form
through every step and every instruction and event, so that equal memories are equal data. -/
def Obligations.EveryStepGoesOnWithMemoryCanonical : Prop :=
  (∀ s : State, Memory.wf s.mem = true → ∃ t, step s = .next t ∧ Memory.wf t.mem = true)
  ∧ (∀ (i : Instr) (s : State), Memory.wf s.mem = true → ∃ t, exec i s = .next t ∧ Memory.wf t.mem = true)
  ∧ (∀ n s, Memory.wf s.mem = true → SafeRun n s)

/-- 11_visibility R251; 15_system R326, R355, R356; 17_cold R381, R382: the values the manual states for reset.
The package is OFF with its thermal registers at their reset values, every context invalid and not
privileged, no core halted, every selector and DRAINCTL zero, and no command in any queue. Memory is in its
canonical form.
The model's own choices: log entry 7. -/
def Obligations.ResetLeavesTheStatedValues : Prop :=
  let s := State.reset
  Memory.wf s.mem = true
  ∧ s.readReg 0x311 .package = 0x0000000B ∧ s.readReg 0x312 .package = 0
  ∧ s.readReg 0x313 .package = 332 * 65536 + 340 ∧ s.readReg 0x314 .package = 392 * 65536 + 400
  ∧ s.readReg 0x315 .package = 520 ∧ s.readReg 0x316 .package = 0 ∧ s.readReg 0x318 .package = 0
  ∧ s.readReg 0x305 .package = 0
  ∧ (∀ c, s.readReg 0 (.ctx c) = 0)
  ∧ (∀ k i, i < 8 → s.readReg (0x100 + i) (.core k) = 0 ∧ s.readReg 0x108 (.core k) = 0)
  ∧ (∀ d i, i < 16 → s.readReg (0x200 + i) (.die d) = 0)
  ∧ (∀ q, (s.queue q).enable = false) ∧ s.groups = [] ∧ s.teams = [] ∧ s.launches = [] ∧ s.therm.state = 0
end

