-- ==== Sys2Proof/Laws/Tables.lean ====
section
/-!
SUPPORT. The laws of sparse tables: a read after a write, and the canonical form kept by every
table operation.
-/

namespace Sys2Proof.Machine

@[simp] theorem SMap.getD_nil {α : Type} (k : Nat) (d : α) : SMap.getD [] k d = d := rfl

theorem SMap.getD_cons {α : Type} (j k : Nat) (v d : α) (t : SMap α) :
    SMap.getD ((j, v) :: t) k d = if j = k then v else SMap.getD t k d := rfl

/-- What is erased reads as the default; nothing else moves. -/
theorem SMap.getD_erase {α : Type} (m : SMap α) (k j : Nat) (d : α) :
    (m.erase k).getD j d = if j = k then d else m.getD j d := by
  induction m with
  | nil => simp [SMap.erase]
  | cons e t ih =>
    obtain ⟨i, v⟩ := e
    simp only [SMap.erase] at ih ⊢
    by_cases hik : i = k
    · subst hik
      simp only [List.filter_cons, bne_self_eq_false, Bool.false_eq_true, if_false, ih, SMap.getD_cons]
      by_cases hj : j = i
      · simp [hj]
      · simp [hj, Ne.symm hj]
    · simp only [List.filter_cons, bne_iff_ne, ne_eq, hik, not_false_eq_true, if_true, SMap.getD_cons, ih]
      by_cases hij : i = j
      · subst hij; simp [hik]
      · simp [hij]

/-- The key does not stand in the erased table. -/
theorem SMap.erase_keys {α : Type} (m : SMap α) (k : Nat) : ∀ e ∈ m.erase k, e.1 ≠ k := by
  intro e he
  simpa using (List.mem_filter.1 he).2

/-- What is put in reads back; nothing else moves. -/
theorem SMap.getD_ins {α : Type} (m : SMap α) (k j : Nat) (v d : α) (h : ∀ e ∈ m, e.1 ≠ k) :
    (m.ins k v).getD j d = if j = k then v else m.getD j d := by
  induction m with
  | nil => simp only [SMap.ins, SMap.getD_cons, SMap.getD_nil, eq_comm]
  | cons e t ih =>
    obtain ⟨i, u⟩ := e
    have hik : i ≠ k := h (i, u) (by simp)
    simp only [SMap.ins]
    split
    · simp only [SMap.getD_cons, eq_comm]
    · simp only [SMap.getD_cons, ih (fun e he => h e (by simp [he]))]
      by_cases hij : i = j
      · subst hij; simp [hik]
      · simp [hij]

/-- A read after a write of a table. -/
theorem SMap.getD_set {α : Type} [DecidableEq α] (m : SMap α) (k j : Nat) (v d : α) :
    (m.set k v d).getD j d = if j = k then v else m.getD j d := by
  unfold SMap.set
  split
  · next h => rw [SMap.getD_erase, h]
  · rw [SMap.getD_ins _ _ _ _ _ (m.erase_keys k), SMap.getD_erase]
    split <;> rfl

@[simp] theorem SMap.getD_set_same {α : Type} [DecidableEq α] (m : SMap α) (k : Nat) (v d : α) :
    (m.set k v d).getD k d = v := by rw [SMap.getD_set, if_pos rfl]

theorem SMap.getD_set_other {α : Type} [DecidableEq α] (m : SMap α) {k j : Nat} (v d : α) (h : j ≠ k) :
    (m.set k v d).getD j d = m.getD j d := by rw [SMap.getD_set, if_neg h]

/-- A read after a write whose blank value is another key's: memory's is not the same everywhere. -/
theorem SMap.getD_set_blank {α : Type} [DecidableEq α] (m : SMap α) (k j : Nat) (v : α) (b : Nat → α) :
    (m.set k v (b k)).getD j (b j) = if j = k then v else m.getD j (b j) := by
  by_cases hj : j = k
  · subst hj; simp
  · unfold SMap.set
    split
    · simp only [SMap.getD_erase, if_neg hj]
    · rw [SMap.getD_ins _ _ _ _ _ (m.erase_keys k), SMap.getD_erase]
      simp only [if_neg hj]

/-! The canonical form. -/

theorem SMap.sorted_tail {α : Type} (e : Nat × α) (t : SMap α) (h : SMap.sorted (e :: t) = true) :
    SMap.sorted t = true := by
  cases t with
  | nil => rfl
  | cons f t => simp only [SMap.sorted, Bool.and_eq_true] at h; exact h.2

/-- In a table with rising keys the first is below all others. -/
theorem SMap.sorted_lt {α : Type} (e : Nat × α) (t : SMap α) (h : SMap.sorted (e :: t) = true) :
    ∀ f ∈ t, e.1 < f.1 := by
  induction t generalizing e with
  | nil => simp
  | cons g t ih =>
    simp only [SMap.sorted, Bool.and_eq_true, decide_eq_true_eq] at h
    intro f hf
    rcases List.mem_cons.1 hf with rfl | hf
    · exact h.1
    · exact Nat.lt_trans h.1 (ih g h.2 f hf)

theorem SMap.sorted_cons {α : Type} (e : Nat × α) (t : SMap α) (h : SMap.sorted t = true)
    (hlt : ∀ f ∈ t, e.1 < f.1) : SMap.sorted (e :: t) = true := by
  cases t with
  | nil => rfl
  | cons g t =>
    simp only [SMap.sorted, Bool.and_eq_true, decide_eq_true_eq]
    exact ⟨hlt g (by simp), h⟩

theorem SMap.sorted_filter {α : Type} (m : SMap α) (p : Nat × α → Bool) (h : m.sorted = true) :
    SMap.sorted (m.filter p) = true := by
  induction m with
  | nil => rfl
  | cons e t ih =>
    have ht := ih (SMap.sorted_tail e t h)
    by_cases hp : p e
    · rw [List.filter_cons_of_pos hp]
      exact SMap.sorted_cons e _ ht (fun f hf => SMap.sorted_lt e t h f (List.mem_filter.1 hf).1)
    · rw [List.filter_cons_of_neg hp]; exact ht

theorem SMap.mem_ins {α : Type} (m : SMap α) (k : Nat) (v : α) (e : Nat × α) (h : e ∈ m.ins k v) :
    e = (k, v) ∨ e ∈ m := by
  induction m with
  | nil => simpa [SMap.ins] using h
  | cons f t ih =>
    obtain ⟨j, u⟩ := f
    simp only [SMap.ins] at h
    split at h
    · simpa using h
    · rcases List.mem_cons.1 h with rfl | h
      · simp
      · rcases ih h with h | h
        · exact .inl h
        · exact .inr (by simp [h])

theorem SMap.sorted_ins {α : Type} (m : SMap α) (k : Nat) (v : α) (h : m.sorted = true)
    (hk : ∀ e ∈ m, e.1 ≠ k) : SMap.sorted (m.ins k v) = true := by
  induction m with
  | nil => rfl
  | cons e t ih =>
    obtain ⟨j, u⟩ := e
    simp only [SMap.ins]
    split
    · next hkj =>
      refine SMap.sorted_cons _ _ h (fun f hf => ?_)
      rcases List.mem_cons.1 hf with rfl | hf
      · exact hkj
      · exact Nat.lt_trans hkj (SMap.sorted_lt (j, u) t h f hf)
    · next hkj =>
      have hjk : j ≠ k := hk (j, u) (by simp)
      refine SMap.sorted_cons _ _ (ih (SMap.sorted_tail _ _ h) (fun e he => hk e (by simp [he])))
        (fun f hf => ?_)
      rcases SMap.mem_ins t k v f hf with rfl | hf
      · show j < k; omega
      · exact SMap.sorted_lt (j, u) t h f hf

theorem SMap.wf_iff {α : Type} [DecidableEq α] (m : SMap α) (b : Nat → α) :
    m.wf b = true ↔ m.sorted = true ∧ ∀ e ∈ m, e.2 ≠ b e.1 := by
  simp [SMap.wf]

theorem SMap.wf_filter {α : Type} [DecidableEq α] (m : SMap α) (b : Nat → α) (p : Nat × α → Bool)
    (h : m.wf b = true) : SMap.wf (m.filter p) b = true := by
  rw [SMap.wf_iff] at h ⊢
  exact ⟨SMap.sorted_filter m p h.1, fun e he => h.2 e (List.mem_filter.1 he).1⟩

/-- A write keeps the canonical form. -/
theorem SMap.wf_set {α : Type} [DecidableEq α] (m : SMap α) (b : Nat → α) (k : Nat) (v : α)
    (h : m.wf b = true) : (m.set k v (b k)).wf b = true := by
  have he := SMap.wf_filter m b (fun e => e.1 != k) h
  unfold SMap.set
  split
  · exact he
  · next hv =>
    rw [SMap.wf_iff] at he ⊢
    refine ⟨SMap.sorted_ins _ k v he.1 (m.erase_keys k), fun e hm => ?_⟩
    rcases SMap.mem_ins _ k v e hm with rfl | hm
    · exact hv
    · exact he.2 e hm

/-! Values mapped. -/

/-- A table mapped reads as the map of what the table read, where the map keeps the blank. -/
theorem SMap.getD_mapV {α : Type} [DecidableEq α] (m : SMap α) (k : Nat) (d : α) (f : Nat → α → α)
    (h : f k d = d) : (m.mapV d f).getD k d = f k (m.getD k d) := by
  induction m with
  | nil => simp [SMap.mapV, SMap.getD, h]
  | cons e t ih =>
    obtain ⟨j, v⟩ := e
    have hc : SMap.mapV ((j, v) :: t) d f
        = if f j v = d then SMap.erase (SMap.mapV t d f) j else (j, f j v) :: SMap.mapV t d f := rfl
    rw [hc, SMap.getD_cons]
    by_cases hj : j = k
    · subst hj
      split
      · next hv => simp [SMap.getD_erase, hv]
      · simp [SMap.getD_cons]
    · split
      · simp [SMap.getD_erase, Ne.symm hj, ih]
      · simp [SMap.getD_cons, hj, ih]

end Sys2Proof.Machine
end

