-- ==== Sys2Proof/Laws/Group.lean ====
section
/-!
SUPPORT. What each update of a group leaves of each field, and a read after a write of each register
file. One lemma per field per update.
-/

namespace Sys2Proof.Machine

/-! gput -/

@[simp] theorem Group.gput_live (x0 : Group) (n : Nat) (x : Word) : (x0.gput n x).live = x0.live := rfl
@[simp] theorem Group.gput_away (x0 : Group) (n : Nat) (x : Word) : (x0.gput n x).away = x0.away := rfl
@[simp] theorem Group.gput_yokeHeld (x0 : Group) (n : Nat) (x : Word) : (x0.gput n x).yokeHeld = x0.yokeHeld := rfl
@[simp] theorem Group.gput_epochs (x0 : Group) (n : Nat) (x : Word) : (x0.gput n x).epochs = x0.epochs := rfl
@[simp] theorem Group.gput_launch (x0 : Group) (n : Nat) (x : Word) : (x0.gput n x).launch = x0.launch := rfl
@[simp] theorem Group.gput_team (x0 : Group) (n : Nat) (x : Word) : (x0.gput n x).team = x0.team := rfl
@[simp] theorem Group.gput_gidx (x0 : Group) (n : Nat) (x : Word) : (x0.gput n x).gidx = x0.gidx := rfl
@[simp] theorem Group.gput_ctx (x0 : Group) (n : Nat) (x : Word) : (x0.gput n x).ctx = x0.ctx := rfl
@[simp] theorem Group.gput_die (x0 : Group) (n : Nat) (x : Word) : (x0.gput n x).die = x0.die := rfl
@[simp] theorem Group.gput_core (x0 : Group) (n : Nat) (x : Word) : (x0.gput n x).core = x0.core := rfl
@[simp] theorem Group.gput_port (x0 : Group) (n : Nat) (x : Word) : (x0.gput n x).port = x0.port := rfl
@[simp] theorem Group.gput_gslot (x0 : Group) (n : Nat) (x : Word) : (x0.gput n x).gslot = x0.gslot := rfl
@[simp] theorem Group.gput_nreg (x0 : Group) (n : Nat) (x : Word) : (x0.gput n x).nreg = x0.nreg := rfl
@[simp] theorem Group.gput_populated (x0 : Group) (n : Nat) (x : Word) : (x0.gput n x).populated = x0.populated := rfl
@[simp] theorem Group.gput_count (x0 : Group) (n : Nat) (x : Word) : (x0.gput n x).count = x0.count := rfl
@[simp] theorem Group.gput_fpte (x0 : Group) (n : Nat) (x : Word) : (x0.gput n x).fpte = x0.fpte := rfl
@[simp] theorem Group.gput_window (x0 : Group) (n : Nat) (x : Word) : (x0.gput n x).window = x0.window := rfl
@[simp] theorem Group.gput_slotA (x0 : Group) (n : Nat) (x : Word) : (x0.gput n x).slotA = x0.slotA := rfl
@[simp] theorem Group.gput_slotB (x0 : Group) (n : Nat) (x : Word) : (x0.gput n x).slotB = x0.slotB := rfl
@[simp] theorem Group.gput_recs (x0 : Group) (n : Nat) (x : Word) : (x0.gput n x).recs = x0.recs := rfl
@[simp] theorem Group.gput_spilled (x0 : Group) (n : Nat) (x : Word) : (x0.gput n x).spilled = x0.spilled := rfl
@[simp] theorem Group.gput_xs (x0 : Group) (n : Nat) (x : Word) : (x0.gput n x).xs = x0.xs := rfl
@[simp] theorem Group.gput_calldepth (x0 : Group) (n : Nat) (x : Word) : (x0.gput n x).calldepth = x0.calldepth := rfl
@[simp] theorem Group.gput_rp (x0 : Group) (n : Nat) (x : Word) : (x0.gput n x).rp = x0.rp := rfl
@[simp] theorem Group.gput_flags (x0 : Group) (n : Nat) (x : Word) : (x0.gput n x).flags = x0.flags := rfl
@[simp] theorem Group.gput_gp (x0 : Group) (n : Nat) (x : Word) : (x0.gput n x).gp = x0.gp := rfl
@[simp] theorem Group.gput_v (x0 : Group) (n : Nat) (x : Word) : (x0.gput n x).v = x0.v := rfl
@[simp] theorem Group.gput_vst (x0 : Group) (n : Nat) (x : Word) : (x0.gput n x).vst = x0.vst := rfl
@[simp] theorem Group.gput_vx (x0 : Group) (n : Nat) (x : Word) : (x0.gput n x).vx = x0.vx := rfl
@[simp] theorem Group.gput_vpois (x0 : Group) (n : Nat) (x : Word) : (x0.gput n x).vpois = x0.vpois := rfl
@[simp] theorem Group.gput_crs (x0 : Group) (n : Nat) (x : Word) : (x0.gput n x).crs = x0.crs := rfl
@[simp] theorem Group.gput_p (x0 : Group) (n : Nat) (x : Word) : (x0.gput n x).p = x0.p := rfl
@[simp] theorem Group.gput_fm (x0 : Group) (n : Nat) (x : Word) : (x0.gput n x).fm = x0.fm := rfl
@[simp] theorem Group.gput_fpstat (x0 : Group) (n : Nat) (x : Word) : (x0.gput n x).fpstat = x0.fpstat := rfl
@[simp] theorem Group.gput_memst (x0 : Group) (n : Nat) (x : Word) : (x0.gput n x).memst = x0.memst := rfl
@[simp] theorem Group.gput_csw (x0 : Group) (n : Nat) (x : Word) : (x0.gput n x).csw = x0.csw := rfl
@[simp] theorem Group.gput_cpyst (x0 : Group) (n : Nat) (x : Word) : (x0.gput n x).cpyst = x0.cpyst := rfl
@[simp] theorem Group.gput_mstst (x0 : Group) (n : Nat) (x : Word) : (x0.gput n x).mstst = x0.mstst := rfl
@[simp] theorem Group.gput_tlatch (x0 : Group) (n : Nat) (x : Word) : (x0.gput n x).tlatch = x0.tlatch := rfl
@[simp] theorem Group.gput_workidx (x0 : Group) (n : Nat) (x : Word) : (x0.gput n x).workidx = x0.workidx := rfl
@[simp] theorem Group.gput_issued (x0 : Group) (n : Nat) (x : Word) : (x0.gput n x).issued = x0.issued := rfl
@[simp] theorem Group.gput_waitCnt (x0 : Group) (n : Nat) (x : Word) : (x0.gput n x).waitCnt = x0.waitCnt := rfl
@[simp] theorem Group.gput_lastB (x0 : Group) (n : Nat) (x : Word) : (x0.gput n x).lastB = x0.lastB := rfl
@[simp] theorem Group.gput_gsb (x0 : Group) (n : Nat) (x : Word) : (x0.gput n x).gsb = x0.gsb := rfl
@[simp] theorem Group.gput_gsbCap (x0 : Group) (n : Nat) (x : Word) : (x0.gput n x).gsbCap = x0.gsbCap := rfl
@[simp] theorem Group.gput_horizon (x0 : Group) (n : Nat) (x : Word) : (x0.gput n x).horizon = x0.horizon := rfl
@[simp] theorem Group.gput_winTeam (x0 : Group) (n : Nat) (x : Word) : (x0.gput n x).winTeam = x0.winTeam := rfl
@[simp] theorem Group.gput_winClus (x0 : Group) (n : Nat) (x : Word) : (x0.gput n x).winClus = x0.winClus := rfl
@[simp] theorem Group.gput_pend (x0 : Group) (n : Nat) (x : Word) : (x0.gput n x).pend = x0.pend := rfl
@[simp] theorem Group.gput_unbatched (x0 : Group) (n : Nat) (x : Word) : (x0.gput n x).unbatched = x0.unbatched := rfl
@[simp] theorem Group.gput_traps (x0 : Group) (n : Nat) (x : Word) : (x0.gput n x).traps = x0.traps := rfl
@[simp] theorem Group.gput_trapPend (x0 : Group) (n : Nat) (x : Word) : (x0.gput n x).trapPend = x0.trapPend := rfl
@[simp] theorem Group.gput_park (x0 : Group) (n : Nat) (x : Word) : (x0.gput n x).park = x0.park := rfl
@[simp] theorem Group.gput_killed (x0 : Group) (n : Nat) (x : Word) : (x0.gput n x).killed = x0.killed := rfl

/-! vput -/

@[simp] theorem Group.vput_live (x0 : Group) (n L : Nat) (x : Word) : (x0.vput n L x).live = x0.live := rfl
@[simp] theorem Group.vput_away (x0 : Group) (n L : Nat) (x : Word) : (x0.vput n L x).away = x0.away := rfl
@[simp] theorem Group.vput_yokeHeld (x0 : Group) (n L : Nat) (x : Word) : (x0.vput n L x).yokeHeld = x0.yokeHeld := rfl
@[simp] theorem Group.vput_epochs (x0 : Group) (n L : Nat) (x : Word) : (x0.vput n L x).epochs = x0.epochs := rfl
@[simp] theorem Group.vput_launch (x0 : Group) (n L : Nat) (x : Word) : (x0.vput n L x).launch = x0.launch := rfl
@[simp] theorem Group.vput_team (x0 : Group) (n L : Nat) (x : Word) : (x0.vput n L x).team = x0.team := rfl
@[simp] theorem Group.vput_gidx (x0 : Group) (n L : Nat) (x : Word) : (x0.vput n L x).gidx = x0.gidx := rfl
@[simp] theorem Group.vput_ctx (x0 : Group) (n L : Nat) (x : Word) : (x0.vput n L x).ctx = x0.ctx := rfl
@[simp] theorem Group.vput_die (x0 : Group) (n L : Nat) (x : Word) : (x0.vput n L x).die = x0.die := rfl
@[simp] theorem Group.vput_core (x0 : Group) (n L : Nat) (x : Word) : (x0.vput n L x).core = x0.core := rfl
@[simp] theorem Group.vput_port (x0 : Group) (n L : Nat) (x : Word) : (x0.vput n L x).port = x0.port := rfl
@[simp] theorem Group.vput_gslot (x0 : Group) (n L : Nat) (x : Word) : (x0.vput n L x).gslot = x0.gslot := rfl
@[simp] theorem Group.vput_nreg (x0 : Group) (n L : Nat) (x : Word) : (x0.vput n L x).nreg = x0.nreg := rfl
@[simp] theorem Group.vput_populated (x0 : Group) (n L : Nat) (x : Word) : (x0.vput n L x).populated = x0.populated := rfl
@[simp] theorem Group.vput_count (x0 : Group) (n L : Nat) (x : Word) : (x0.vput n L x).count = x0.count := rfl
@[simp] theorem Group.vput_fpte (x0 : Group) (n L : Nat) (x : Word) : (x0.vput n L x).fpte = x0.fpte := rfl
@[simp] theorem Group.vput_window (x0 : Group) (n L : Nat) (x : Word) : (x0.vput n L x).window = x0.window := rfl
@[simp] theorem Group.vput_slotA (x0 : Group) (n L : Nat) (x : Word) : (x0.vput n L x).slotA = x0.slotA := rfl
@[simp] theorem Group.vput_slotB (x0 : Group) (n L : Nat) (x : Word) : (x0.vput n L x).slotB = x0.slotB := rfl
@[simp] theorem Group.vput_recs (x0 : Group) (n L : Nat) (x : Word) : (x0.vput n L x).recs = x0.recs := rfl
@[simp] theorem Group.vput_spilled (x0 : Group) (n L : Nat) (x : Word) : (x0.vput n L x).spilled = x0.spilled := rfl
@[simp] theorem Group.vput_xs (x0 : Group) (n L : Nat) (x : Word) : (x0.vput n L x).xs = x0.xs := rfl
@[simp] theorem Group.vput_calldepth (x0 : Group) (n L : Nat) (x : Word) : (x0.vput n L x).calldepth = x0.calldepth := rfl
@[simp] theorem Group.vput_rp (x0 : Group) (n L : Nat) (x : Word) : (x0.vput n L x).rp = x0.rp := rfl
@[simp] theorem Group.vput_flags (x0 : Group) (n L : Nat) (x : Word) : (x0.vput n L x).flags = x0.flags := rfl
@[simp] theorem Group.vput_g (x0 : Group) (n L : Nat) (x : Word) : (x0.vput n L x).g = x0.g := rfl
@[simp] theorem Group.vput_gp (x0 : Group) (n L : Nat) (x : Word) : (x0.vput n L x).gp = x0.gp := rfl
@[simp] theorem Group.vput_vst (x0 : Group) (n L : Nat) (x : Word) : (x0.vput n L x).vst = x0.vst := rfl
@[simp] theorem Group.vput_vx (x0 : Group) (n L : Nat) (x : Word) : (x0.vput n L x).vx = x0.vx := rfl
@[simp] theorem Group.vput_vpois (x0 : Group) (n L : Nat) (x : Word) : (x0.vput n L x).vpois = x0.vpois := rfl
@[simp] theorem Group.vput_crs (x0 : Group) (n L : Nat) (x : Word) : (x0.vput n L x).crs = x0.crs := rfl
@[simp] theorem Group.vput_p (x0 : Group) (n L : Nat) (x : Word) : (x0.vput n L x).p = x0.p := rfl
@[simp] theorem Group.vput_fm (x0 : Group) (n L : Nat) (x : Word) : (x0.vput n L x).fm = x0.fm := rfl
@[simp] theorem Group.vput_fpstat (x0 : Group) (n L : Nat) (x : Word) : (x0.vput n L x).fpstat = x0.fpstat := rfl
@[simp] theorem Group.vput_memst (x0 : Group) (n L : Nat) (x : Word) : (x0.vput n L x).memst = x0.memst := rfl
@[simp] theorem Group.vput_csw (x0 : Group) (n L : Nat) (x : Word) : (x0.vput n L x).csw = x0.csw := rfl
@[simp] theorem Group.vput_cpyst (x0 : Group) (n L : Nat) (x : Word) : (x0.vput n L x).cpyst = x0.cpyst := rfl
@[simp] theorem Group.vput_mstst (x0 : Group) (n L : Nat) (x : Word) : (x0.vput n L x).mstst = x0.mstst := rfl
@[simp] theorem Group.vput_tlatch (x0 : Group) (n L : Nat) (x : Word) : (x0.vput n L x).tlatch = x0.tlatch := rfl
@[simp] theorem Group.vput_workidx (x0 : Group) (n L : Nat) (x : Word) : (x0.vput n L x).workidx = x0.workidx := rfl
@[simp] theorem Group.vput_issued (x0 : Group) (n L : Nat) (x : Word) : (x0.vput n L x).issued = x0.issued := rfl
@[simp] theorem Group.vput_waitCnt (x0 : Group) (n L : Nat) (x : Word) : (x0.vput n L x).waitCnt = x0.waitCnt := rfl
@[simp] theorem Group.vput_lastB (x0 : Group) (n L : Nat) (x : Word) : (x0.vput n L x).lastB = x0.lastB := rfl
@[simp] theorem Group.vput_gsb (x0 : Group) (n L : Nat) (x : Word) : (x0.vput n L x).gsb = x0.gsb := rfl
@[simp] theorem Group.vput_gsbCap (x0 : Group) (n L : Nat) (x : Word) : (x0.vput n L x).gsbCap = x0.gsbCap := rfl
@[simp] theorem Group.vput_horizon (x0 : Group) (n L : Nat) (x : Word) : (x0.vput n L x).horizon = x0.horizon := rfl
@[simp] theorem Group.vput_winTeam (x0 : Group) (n L : Nat) (x : Word) : (x0.vput n L x).winTeam = x0.winTeam := rfl
@[simp] theorem Group.vput_winClus (x0 : Group) (n L : Nat) (x : Word) : (x0.vput n L x).winClus = x0.winClus := rfl
@[simp] theorem Group.vput_pend (x0 : Group) (n L : Nat) (x : Word) : (x0.vput n L x).pend = x0.pend := rfl
@[simp] theorem Group.vput_unbatched (x0 : Group) (n L : Nat) (x : Word) : (x0.vput n L x).unbatched = x0.unbatched := rfl
@[simp] theorem Group.vput_traps (x0 : Group) (n L : Nat) (x : Word) : (x0.vput n L x).traps = x0.traps := rfl
@[simp] theorem Group.vput_trapPend (x0 : Group) (n L : Nat) (x : Word) : (x0.vput n L x).trapPend = x0.trapPend := rfl
@[simp] theorem Group.vput_park (x0 : Group) (n L : Nat) (x : Word) : (x0.vput n L x).park = x0.park := rfl
@[simp] theorem Group.vput_killed (x0 : Group) (n L : Nat) (x : Word) : (x0.vput n L x).killed = x0.killed := rfl

/-! pput -/

@[simp] theorem Group.pput_live (x0 : Group) (n : Nat) (x : Word) : (x0.pput n x).live = x0.live := rfl
@[simp] theorem Group.pput_away (x0 : Group) (n : Nat) (x : Word) : (x0.pput n x).away = x0.away := rfl
@[simp] theorem Group.pput_yokeHeld (x0 : Group) (n : Nat) (x : Word) : (x0.pput n x).yokeHeld = x0.yokeHeld := rfl
@[simp] theorem Group.pput_epochs (x0 : Group) (n : Nat) (x : Word) : (x0.pput n x).epochs = x0.epochs := rfl
@[simp] theorem Group.pput_launch (x0 : Group) (n : Nat) (x : Word) : (x0.pput n x).launch = x0.launch := rfl
@[simp] theorem Group.pput_team (x0 : Group) (n : Nat) (x : Word) : (x0.pput n x).team = x0.team := rfl
@[simp] theorem Group.pput_gidx (x0 : Group) (n : Nat) (x : Word) : (x0.pput n x).gidx = x0.gidx := rfl
@[simp] theorem Group.pput_ctx (x0 : Group) (n : Nat) (x : Word) : (x0.pput n x).ctx = x0.ctx := rfl
@[simp] theorem Group.pput_die (x0 : Group) (n : Nat) (x : Word) : (x0.pput n x).die = x0.die := rfl
@[simp] theorem Group.pput_core (x0 : Group) (n : Nat) (x : Word) : (x0.pput n x).core = x0.core := rfl
@[simp] theorem Group.pput_port (x0 : Group) (n : Nat) (x : Word) : (x0.pput n x).port = x0.port := rfl
@[simp] theorem Group.pput_gslot (x0 : Group) (n : Nat) (x : Word) : (x0.pput n x).gslot = x0.gslot := rfl
@[simp] theorem Group.pput_nreg (x0 : Group) (n : Nat) (x : Word) : (x0.pput n x).nreg = x0.nreg := rfl
@[simp] theorem Group.pput_populated (x0 : Group) (n : Nat) (x : Word) : (x0.pput n x).populated = x0.populated := rfl
@[simp] theorem Group.pput_count (x0 : Group) (n : Nat) (x : Word) : (x0.pput n x).count = x0.count := rfl
@[simp] theorem Group.pput_fpte (x0 : Group) (n : Nat) (x : Word) : (x0.pput n x).fpte = x0.fpte := rfl
@[simp] theorem Group.pput_window (x0 : Group) (n : Nat) (x : Word) : (x0.pput n x).window = x0.window := rfl
@[simp] theorem Group.pput_slotA (x0 : Group) (n : Nat) (x : Word) : (x0.pput n x).slotA = x0.slotA := rfl
@[simp] theorem Group.pput_slotB (x0 : Group) (n : Nat) (x : Word) : (x0.pput n x).slotB = x0.slotB := rfl
@[simp] theorem Group.pput_recs (x0 : Group) (n : Nat) (x : Word) : (x0.pput n x).recs = x0.recs := rfl
@[simp] theorem Group.pput_spilled (x0 : Group) (n : Nat) (x : Word) : (x0.pput n x).spilled = x0.spilled := rfl
@[simp] theorem Group.pput_xs (x0 : Group) (n : Nat) (x : Word) : (x0.pput n x).xs = x0.xs := rfl
@[simp] theorem Group.pput_calldepth (x0 : Group) (n : Nat) (x : Word) : (x0.pput n x).calldepth = x0.calldepth := rfl
@[simp] theorem Group.pput_rp (x0 : Group) (n : Nat) (x : Word) : (x0.pput n x).rp = x0.rp := rfl
@[simp] theorem Group.pput_flags (x0 : Group) (n : Nat) (x : Word) : (x0.pput n x).flags = x0.flags := rfl
@[simp] theorem Group.pput_g (x0 : Group) (n : Nat) (x : Word) : (x0.pput n x).g = x0.g := rfl
@[simp] theorem Group.pput_gp (x0 : Group) (n : Nat) (x : Word) : (x0.pput n x).gp = x0.gp := rfl
@[simp] theorem Group.pput_v (x0 : Group) (n : Nat) (x : Word) : (x0.pput n x).v = x0.v := rfl
@[simp] theorem Group.pput_vst (x0 : Group) (n : Nat) (x : Word) : (x0.pput n x).vst = x0.vst := rfl
@[simp] theorem Group.pput_vx (x0 : Group) (n : Nat) (x : Word) : (x0.pput n x).vx = x0.vx := rfl
@[simp] theorem Group.pput_vpois (x0 : Group) (n : Nat) (x : Word) : (x0.pput n x).vpois = x0.vpois := rfl
@[simp] theorem Group.pput_crs (x0 : Group) (n : Nat) (x : Word) : (x0.pput n x).crs = x0.crs := rfl
@[simp] theorem Group.pput_fm (x0 : Group) (n : Nat) (x : Word) : (x0.pput n x).fm = x0.fm := rfl
@[simp] theorem Group.pput_fpstat (x0 : Group) (n : Nat) (x : Word) : (x0.pput n x).fpstat = x0.fpstat := rfl
@[simp] theorem Group.pput_memst (x0 : Group) (n : Nat) (x : Word) : (x0.pput n x).memst = x0.memst := rfl
@[simp] theorem Group.pput_csw (x0 : Group) (n : Nat) (x : Word) : (x0.pput n x).csw = x0.csw := rfl
@[simp] theorem Group.pput_cpyst (x0 : Group) (n : Nat) (x : Word) : (x0.pput n x).cpyst = x0.cpyst := rfl
@[simp] theorem Group.pput_mstst (x0 : Group) (n : Nat) (x : Word) : (x0.pput n x).mstst = x0.mstst := rfl
@[simp] theorem Group.pput_tlatch (x0 : Group) (n : Nat) (x : Word) : (x0.pput n x).tlatch = x0.tlatch := rfl
@[simp] theorem Group.pput_workidx (x0 : Group) (n : Nat) (x : Word) : (x0.pput n x).workidx = x0.workidx := rfl
@[simp] theorem Group.pput_issued (x0 : Group) (n : Nat) (x : Word) : (x0.pput n x).issued = x0.issued := rfl
@[simp] theorem Group.pput_waitCnt (x0 : Group) (n : Nat) (x : Word) : (x0.pput n x).waitCnt = x0.waitCnt := rfl
@[simp] theorem Group.pput_lastB (x0 : Group) (n : Nat) (x : Word) : (x0.pput n x).lastB = x0.lastB := rfl
@[simp] theorem Group.pput_gsb (x0 : Group) (n : Nat) (x : Word) : (x0.pput n x).gsb = x0.gsb := rfl
@[simp] theorem Group.pput_gsbCap (x0 : Group) (n : Nat) (x : Word) : (x0.pput n x).gsbCap = x0.gsbCap := rfl
@[simp] theorem Group.pput_horizon (x0 : Group) (n : Nat) (x : Word) : (x0.pput n x).horizon = x0.horizon := rfl
@[simp] theorem Group.pput_winTeam (x0 : Group) (n : Nat) (x : Word) : (x0.pput n x).winTeam = x0.winTeam := rfl
@[simp] theorem Group.pput_winClus (x0 : Group) (n : Nat) (x : Word) : (x0.pput n x).winClus = x0.winClus := rfl
@[simp] theorem Group.pput_pend (x0 : Group) (n : Nat) (x : Word) : (x0.pput n x).pend = x0.pend := rfl
@[simp] theorem Group.pput_unbatched (x0 : Group) (n : Nat) (x : Word) : (x0.pput n x).unbatched = x0.unbatched := rfl
@[simp] theorem Group.pput_traps (x0 : Group) (n : Nat) (x : Word) : (x0.pput n x).traps = x0.traps := rfl
@[simp] theorem Group.pput_trapPend (x0 : Group) (n : Nat) (x : Word) : (x0.pput n x).trapPend = x0.trapPend := rfl
@[simp] theorem Group.pput_park (x0 : Group) (n : Nat) (x : Word) : (x0.pput n x).park = x0.park := rfl
@[simp] theorem Group.pput_killed (x0 : Group) (n : Nat) (x : Word) : (x0.pput n x).killed = x0.killed := rfl

/-! fmput -/

@[simp] theorem Group.fmput_live (x0 : Group) (n : Nat) (x : DWord) : (x0.fmput n x).live = x0.live := rfl
@[simp] theorem Group.fmput_away (x0 : Group) (n : Nat) (x : DWord) : (x0.fmput n x).away = x0.away := rfl
@[simp] theorem Group.fmput_yokeHeld (x0 : Group) (n : Nat) (x : DWord) : (x0.fmput n x).yokeHeld = x0.yokeHeld := rfl
@[simp] theorem Group.fmput_epochs (x0 : Group) (n : Nat) (x : DWord) : (x0.fmput n x).epochs = x0.epochs := rfl
@[simp] theorem Group.fmput_launch (x0 : Group) (n : Nat) (x : DWord) : (x0.fmput n x).launch = x0.launch := rfl
@[simp] theorem Group.fmput_team (x0 : Group) (n : Nat) (x : DWord) : (x0.fmput n x).team = x0.team := rfl
@[simp] theorem Group.fmput_gidx (x0 : Group) (n : Nat) (x : DWord) : (x0.fmput n x).gidx = x0.gidx := rfl
@[simp] theorem Group.fmput_ctx (x0 : Group) (n : Nat) (x : DWord) : (x0.fmput n x).ctx = x0.ctx := rfl
@[simp] theorem Group.fmput_die (x0 : Group) (n : Nat) (x : DWord) : (x0.fmput n x).die = x0.die := rfl
@[simp] theorem Group.fmput_core (x0 : Group) (n : Nat) (x : DWord) : (x0.fmput n x).core = x0.core := rfl
@[simp] theorem Group.fmput_port (x0 : Group) (n : Nat) (x : DWord) : (x0.fmput n x).port = x0.port := rfl
@[simp] theorem Group.fmput_gslot (x0 : Group) (n : Nat) (x : DWord) : (x0.fmput n x).gslot = x0.gslot := rfl
@[simp] theorem Group.fmput_nreg (x0 : Group) (n : Nat) (x : DWord) : (x0.fmput n x).nreg = x0.nreg := rfl
@[simp] theorem Group.fmput_populated (x0 : Group) (n : Nat) (x : DWord) : (x0.fmput n x).populated = x0.populated := rfl
@[simp] theorem Group.fmput_count (x0 : Group) (n : Nat) (x : DWord) : (x0.fmput n x).count = x0.count := rfl
@[simp] theorem Group.fmput_fpte (x0 : Group) (n : Nat) (x : DWord) : (x0.fmput n x).fpte = x0.fpte := rfl
@[simp] theorem Group.fmput_window (x0 : Group) (n : Nat) (x : DWord) : (x0.fmput n x).window = x0.window := rfl
@[simp] theorem Group.fmput_slotA (x0 : Group) (n : Nat) (x : DWord) : (x0.fmput n x).slotA = x0.slotA := rfl
@[simp] theorem Group.fmput_slotB (x0 : Group) (n : Nat) (x : DWord) : (x0.fmput n x).slotB = x0.slotB := rfl
@[simp] theorem Group.fmput_recs (x0 : Group) (n : Nat) (x : DWord) : (x0.fmput n x).recs = x0.recs := rfl
@[simp] theorem Group.fmput_spilled (x0 : Group) (n : Nat) (x : DWord) : (x0.fmput n x).spilled = x0.spilled := rfl
@[simp] theorem Group.fmput_xs (x0 : Group) (n : Nat) (x : DWord) : (x0.fmput n x).xs = x0.xs := rfl
@[simp] theorem Group.fmput_calldepth (x0 : Group) (n : Nat) (x : DWord) : (x0.fmput n x).calldepth = x0.calldepth := rfl
@[simp] theorem Group.fmput_rp (x0 : Group) (n : Nat) (x : DWord) : (x0.fmput n x).rp = x0.rp := rfl
@[simp] theorem Group.fmput_flags (x0 : Group) (n : Nat) (x : DWord) : (x0.fmput n x).flags = x0.flags := rfl
@[simp] theorem Group.fmput_g (x0 : Group) (n : Nat) (x : DWord) : (x0.fmput n x).g = x0.g := rfl
@[simp] theorem Group.fmput_gp (x0 : Group) (n : Nat) (x : DWord) : (x0.fmput n x).gp = x0.gp := rfl
@[simp] theorem Group.fmput_v (x0 : Group) (n : Nat) (x : DWord) : (x0.fmput n x).v = x0.v := rfl
@[simp] theorem Group.fmput_vst (x0 : Group) (n : Nat) (x : DWord) : (x0.fmput n x).vst = x0.vst := rfl
@[simp] theorem Group.fmput_vx (x0 : Group) (n : Nat) (x : DWord) : (x0.fmput n x).vx = x0.vx := rfl
@[simp] theorem Group.fmput_vpois (x0 : Group) (n : Nat) (x : DWord) : (x0.fmput n x).vpois = x0.vpois := rfl
@[simp] theorem Group.fmput_crs (x0 : Group) (n : Nat) (x : DWord) : (x0.fmput n x).crs = x0.crs := rfl
@[simp] theorem Group.fmput_p (x0 : Group) (n : Nat) (x : DWord) : (x0.fmput n x).p = x0.p := rfl
@[simp] theorem Group.fmput_fpstat (x0 : Group) (n : Nat) (x : DWord) : (x0.fmput n x).fpstat = x0.fpstat := rfl
@[simp] theorem Group.fmput_memst (x0 : Group) (n : Nat) (x : DWord) : (x0.fmput n x).memst = x0.memst := rfl
@[simp] theorem Group.fmput_csw (x0 : Group) (n : Nat) (x : DWord) : (x0.fmput n x).csw = x0.csw := rfl
@[simp] theorem Group.fmput_cpyst (x0 : Group) (n : Nat) (x : DWord) : (x0.fmput n x).cpyst = x0.cpyst := rfl
@[simp] theorem Group.fmput_mstst (x0 : Group) (n : Nat) (x : DWord) : (x0.fmput n x).mstst = x0.mstst := rfl
@[simp] theorem Group.fmput_tlatch (x0 : Group) (n : Nat) (x : DWord) : (x0.fmput n x).tlatch = x0.tlatch := rfl
@[simp] theorem Group.fmput_workidx (x0 : Group) (n : Nat) (x : DWord) : (x0.fmput n x).workidx = x0.workidx := rfl
@[simp] theorem Group.fmput_issued (x0 : Group) (n : Nat) (x : DWord) : (x0.fmput n x).issued = x0.issued := rfl
@[simp] theorem Group.fmput_waitCnt (x0 : Group) (n : Nat) (x : DWord) : (x0.fmput n x).waitCnt = x0.waitCnt := rfl
@[simp] theorem Group.fmput_lastB (x0 : Group) (n : Nat) (x : DWord) : (x0.fmput n x).lastB = x0.lastB := rfl
@[simp] theorem Group.fmput_gsb (x0 : Group) (n : Nat) (x : DWord) : (x0.fmput n x).gsb = x0.gsb := rfl
@[simp] theorem Group.fmput_gsbCap (x0 : Group) (n : Nat) (x : DWord) : (x0.fmput n x).gsbCap = x0.gsbCap := rfl
@[simp] theorem Group.fmput_horizon (x0 : Group) (n : Nat) (x : DWord) : (x0.fmput n x).horizon = x0.horizon := rfl
@[simp] theorem Group.fmput_winTeam (x0 : Group) (n : Nat) (x : DWord) : (x0.fmput n x).winTeam = x0.winTeam := rfl
@[simp] theorem Group.fmput_winClus (x0 : Group) (n : Nat) (x : DWord) : (x0.fmput n x).winClus = x0.winClus := rfl
@[simp] theorem Group.fmput_pend (x0 : Group) (n : Nat) (x : DWord) : (x0.fmput n x).pend = x0.pend := rfl
@[simp] theorem Group.fmput_unbatched (x0 : Group) (n : Nat) (x : DWord) : (x0.fmput n x).unbatched = x0.unbatched := rfl
@[simp] theorem Group.fmput_traps (x0 : Group) (n : Nat) (x : DWord) : (x0.fmput n x).traps = x0.traps := rfl
@[simp] theorem Group.fmput_trapPend (x0 : Group) (n : Nat) (x : DWord) : (x0.fmput n x).trapPend = x0.trapPend := rfl
@[simp] theorem Group.fmput_park (x0 : Group) (n : Nat) (x : DWord) : (x0.fmput n x).park = x0.park := rfl
@[simp] theorem Group.fmput_killed (x0 : Group) (n : Nat) (x : DWord) : (x0.fmput n x).killed = x0.killed := rfl

/-! setFlag -/

@[simp] theorem Group.setFlag_live (x0 : Group) (n k : Nat) : (x0.setFlag n k).live = x0.live := rfl
@[simp] theorem Group.setFlag_away (x0 : Group) (n k : Nat) : (x0.setFlag n k).away = x0.away := rfl
@[simp] theorem Group.setFlag_yokeHeld (x0 : Group) (n k : Nat) : (x0.setFlag n k).yokeHeld = x0.yokeHeld := rfl
@[simp] theorem Group.setFlag_epochs (x0 : Group) (n k : Nat) : (x0.setFlag n k).epochs = x0.epochs := rfl
@[simp] theorem Group.setFlag_launch (x0 : Group) (n k : Nat) : (x0.setFlag n k).launch = x0.launch := rfl
@[simp] theorem Group.setFlag_team (x0 : Group) (n k : Nat) : (x0.setFlag n k).team = x0.team := rfl
@[simp] theorem Group.setFlag_gidx (x0 : Group) (n k : Nat) : (x0.setFlag n k).gidx = x0.gidx := rfl
@[simp] theorem Group.setFlag_ctx (x0 : Group) (n k : Nat) : (x0.setFlag n k).ctx = x0.ctx := rfl
@[simp] theorem Group.setFlag_die (x0 : Group) (n k : Nat) : (x0.setFlag n k).die = x0.die := rfl
@[simp] theorem Group.setFlag_core (x0 : Group) (n k : Nat) : (x0.setFlag n k).core = x0.core := rfl
@[simp] theorem Group.setFlag_port (x0 : Group) (n k : Nat) : (x0.setFlag n k).port = x0.port := rfl
@[simp] theorem Group.setFlag_gslot (x0 : Group) (n k : Nat) : (x0.setFlag n k).gslot = x0.gslot := rfl
@[simp] theorem Group.setFlag_nreg (x0 : Group) (n k : Nat) : (x0.setFlag n k).nreg = x0.nreg := rfl
@[simp] theorem Group.setFlag_populated (x0 : Group) (n k : Nat) : (x0.setFlag n k).populated = x0.populated := rfl
@[simp] theorem Group.setFlag_count (x0 : Group) (n k : Nat) : (x0.setFlag n k).count = x0.count := rfl
@[simp] theorem Group.setFlag_fpte (x0 : Group) (n k : Nat) : (x0.setFlag n k).fpte = x0.fpte := rfl
@[simp] theorem Group.setFlag_window (x0 : Group) (n k : Nat) : (x0.setFlag n k).window = x0.window := rfl
@[simp] theorem Group.setFlag_slotA (x0 : Group) (n k : Nat) : (x0.setFlag n k).slotA = x0.slotA := rfl
@[simp] theorem Group.setFlag_slotB (x0 : Group) (n k : Nat) : (x0.setFlag n k).slotB = x0.slotB := rfl
@[simp] theorem Group.setFlag_recs (x0 : Group) (n k : Nat) : (x0.setFlag n k).recs = x0.recs := rfl
@[simp] theorem Group.setFlag_spilled (x0 : Group) (n k : Nat) : (x0.setFlag n k).spilled = x0.spilled := rfl
@[simp] theorem Group.setFlag_xs (x0 : Group) (n k : Nat) : (x0.setFlag n k).xs = x0.xs := rfl
@[simp] theorem Group.setFlag_calldepth (x0 : Group) (n k : Nat) : (x0.setFlag n k).calldepth = x0.calldepth := rfl
@[simp] theorem Group.setFlag_rp (x0 : Group) (n k : Nat) : (x0.setFlag n k).rp = x0.rp := rfl
@[simp] theorem Group.setFlag_g (x0 : Group) (n k : Nat) : (x0.setFlag n k).g = x0.g := rfl
@[simp] theorem Group.setFlag_gp (x0 : Group) (n k : Nat) : (x0.setFlag n k).gp = x0.gp := rfl
@[simp] theorem Group.setFlag_v (x0 : Group) (n k : Nat) : (x0.setFlag n k).v = x0.v := rfl
@[simp] theorem Group.setFlag_vst (x0 : Group) (n k : Nat) : (x0.setFlag n k).vst = x0.vst := rfl
@[simp] theorem Group.setFlag_vx (x0 : Group) (n k : Nat) : (x0.setFlag n k).vx = x0.vx := rfl
@[simp] theorem Group.setFlag_vpois (x0 : Group) (n k : Nat) : (x0.setFlag n k).vpois = x0.vpois := rfl
@[simp] theorem Group.setFlag_crs (x0 : Group) (n k : Nat) : (x0.setFlag n k).crs = x0.crs := rfl
@[simp] theorem Group.setFlag_p (x0 : Group) (n k : Nat) : (x0.setFlag n k).p = x0.p := rfl
@[simp] theorem Group.setFlag_fm (x0 : Group) (n k : Nat) : (x0.setFlag n k).fm = x0.fm := rfl
@[simp] theorem Group.setFlag_fpstat (x0 : Group) (n k : Nat) : (x0.setFlag n k).fpstat = x0.fpstat := rfl
@[simp] theorem Group.setFlag_memst (x0 : Group) (n k : Nat) : (x0.setFlag n k).memst = x0.memst := rfl
@[simp] theorem Group.setFlag_csw (x0 : Group) (n k : Nat) : (x0.setFlag n k).csw = x0.csw := rfl
@[simp] theorem Group.setFlag_cpyst (x0 : Group) (n k : Nat) : (x0.setFlag n k).cpyst = x0.cpyst := rfl
@[simp] theorem Group.setFlag_mstst (x0 : Group) (n k : Nat) : (x0.setFlag n k).mstst = x0.mstst := rfl
@[simp] theorem Group.setFlag_tlatch (x0 : Group) (n k : Nat) : (x0.setFlag n k).tlatch = x0.tlatch := rfl
@[simp] theorem Group.setFlag_workidx (x0 : Group) (n k : Nat) : (x0.setFlag n k).workidx = x0.workidx := rfl
@[simp] theorem Group.setFlag_issued (x0 : Group) (n k : Nat) : (x0.setFlag n k).issued = x0.issued := rfl
@[simp] theorem Group.setFlag_waitCnt (x0 : Group) (n k : Nat) : (x0.setFlag n k).waitCnt = x0.waitCnt := rfl
@[simp] theorem Group.setFlag_lastB (x0 : Group) (n k : Nat) : (x0.setFlag n k).lastB = x0.lastB := rfl
@[simp] theorem Group.setFlag_gsb (x0 : Group) (n k : Nat) : (x0.setFlag n k).gsb = x0.gsb := rfl
@[simp] theorem Group.setFlag_gsbCap (x0 : Group) (n k : Nat) : (x0.setFlag n k).gsbCap = x0.gsbCap := rfl
@[simp] theorem Group.setFlag_horizon (x0 : Group) (n k : Nat) : (x0.setFlag n k).horizon = x0.horizon := rfl
@[simp] theorem Group.setFlag_winTeam (x0 : Group) (n k : Nat) : (x0.setFlag n k).winTeam = x0.winTeam := rfl
@[simp] theorem Group.setFlag_winClus (x0 : Group) (n k : Nat) : (x0.setFlag n k).winClus = x0.winClus := rfl
@[simp] theorem Group.setFlag_pend (x0 : Group) (n k : Nat) : (x0.setFlag n k).pend = x0.pend := rfl
@[simp] theorem Group.setFlag_unbatched (x0 : Group) (n k : Nat) : (x0.setFlag n k).unbatched = x0.unbatched := rfl
@[simp] theorem Group.setFlag_traps (x0 : Group) (n k : Nat) : (x0.setFlag n k).traps = x0.traps := rfl
@[simp] theorem Group.setFlag_trapPend (x0 : Group) (n k : Nat) : (x0.setFlag n k).trapPend = x0.trapPend := rfl
@[simp] theorem Group.setFlag_park (x0 : Group) (n k : Nat) : (x0.setFlag n k).park = x0.park := rfl
@[simp] theorem Group.setFlag_killed (x0 : Group) (n k : Nat) : (x0.setFlag n k).killed = x0.killed := rfl

/-! setSlot and gpput -/

@[simp] theorem Group.setSlot_live (x0 : Group) (b : Bool) (x : PcSlot) : (x0.setSlot b x).live = x0.live := by cases b <;> rfl
@[simp] theorem Group.gpput_live (x0 : Group) (n : Nat) (b : Bool) : (x0.gpput n b).live = x0.live := by unfold Group.gpput; split <;> rfl
@[simp] theorem Group.setSlot_away (x0 : Group) (b : Bool) (x : PcSlot) : (x0.setSlot b x).away = x0.away := by cases b <;> rfl
@[simp] theorem Group.setSlot_yokeHeld (x0 : Group) (b : Bool) (x : PcSlot) : (x0.setSlot b x).yokeHeld = x0.yokeHeld := by cases b <;> rfl
@[simp] theorem Group.setSlot_epochs (x0 : Group) (b : Bool) (x : PcSlot) : (x0.setSlot b x).epochs = x0.epochs := by cases b <;> rfl
@[simp] theorem Group.gpput_away (x0 : Group) (n : Nat) (b : Bool) : (x0.gpput n b).away = x0.away := by unfold Group.gpput; split <;> rfl
@[simp] theorem Group.gpput_yokeHeld (x0 : Group) (n : Nat) (b : Bool) : (x0.gpput n b).yokeHeld = x0.yokeHeld := by unfold Group.gpput; split <;> rfl
@[simp] theorem Group.gpput_epochs (x0 : Group) (n : Nat) (b : Bool) : (x0.gpput n b).epochs = x0.epochs := by unfold Group.gpput; split <;> rfl
@[simp] theorem Group.setSlot_launch (x0 : Group) (b : Bool) (x : PcSlot) : (x0.setSlot b x).launch = x0.launch := by cases b <;> rfl
@[simp] theorem Group.gpput_launch (x0 : Group) (n : Nat) (b : Bool) : (x0.gpput n b).launch = x0.launch := by unfold Group.gpput; split <;> rfl
@[simp] theorem Group.setSlot_team (x0 : Group) (b : Bool) (x : PcSlot) : (x0.setSlot b x).team = x0.team := by cases b <;> rfl
@[simp] theorem Group.gpput_team (x0 : Group) (n : Nat) (b : Bool) : (x0.gpput n b).team = x0.team := by unfold Group.gpput; split <;> rfl
@[simp] theorem Group.setSlot_gidx (x0 : Group) (b : Bool) (x : PcSlot) : (x0.setSlot b x).gidx = x0.gidx := by cases b <;> rfl
@[simp] theorem Group.gpput_gidx (x0 : Group) (n : Nat) (b : Bool) : (x0.gpput n b).gidx = x0.gidx := by unfold Group.gpput; split <;> rfl
@[simp] theorem Group.setSlot_ctx (x0 : Group) (b : Bool) (x : PcSlot) : (x0.setSlot b x).ctx = x0.ctx := by cases b <;> rfl
@[simp] theorem Group.gpput_ctx (x0 : Group) (n : Nat) (b : Bool) : (x0.gpput n b).ctx = x0.ctx := by unfold Group.gpput; split <;> rfl
@[simp] theorem Group.setSlot_die (x0 : Group) (b : Bool) (x : PcSlot) : (x0.setSlot b x).die = x0.die := by cases b <;> rfl
@[simp] theorem Group.gpput_die (x0 : Group) (n : Nat) (b : Bool) : (x0.gpput n b).die = x0.die := by unfold Group.gpput; split <;> rfl
@[simp] theorem Group.setSlot_core (x0 : Group) (b : Bool) (x : PcSlot) : (x0.setSlot b x).core = x0.core := by cases b <;> rfl
@[simp] theorem Group.gpput_core (x0 : Group) (n : Nat) (b : Bool) : (x0.gpput n b).core = x0.core := by unfold Group.gpput; split <;> rfl
@[simp] theorem Group.setSlot_port (x0 : Group) (b : Bool) (x : PcSlot) : (x0.setSlot b x).port = x0.port := by cases b <;> rfl
@[simp] theorem Group.gpput_port (x0 : Group) (n : Nat) (b : Bool) : (x0.gpput n b).port = x0.port := by unfold Group.gpput; split <;> rfl
@[simp] theorem Group.setSlot_gslot (x0 : Group) (b : Bool) (x : PcSlot) : (x0.setSlot b x).gslot = x0.gslot := by cases b <;> rfl
@[simp] theorem Group.gpput_gslot (x0 : Group) (n : Nat) (b : Bool) : (x0.gpput n b).gslot = x0.gslot := by unfold Group.gpput; split <;> rfl
@[simp] theorem Group.setSlot_nreg (x0 : Group) (b : Bool) (x : PcSlot) : (x0.setSlot b x).nreg = x0.nreg := by cases b <;> rfl
@[simp] theorem Group.gpput_nreg (x0 : Group) (n : Nat) (b : Bool) : (x0.gpput n b).nreg = x0.nreg := by unfold Group.gpput; split <;> rfl
@[simp] theorem Group.setSlot_populated (x0 : Group) (b : Bool) (x : PcSlot) : (x0.setSlot b x).populated = x0.populated := by cases b <;> rfl
@[simp] theorem Group.gpput_populated (x0 : Group) (n : Nat) (b : Bool) : (x0.gpput n b).populated = x0.populated := by unfold Group.gpput; split <;> rfl
@[simp] theorem Group.setSlot_count (x0 : Group) (b : Bool) (x : PcSlot) : (x0.setSlot b x).count = x0.count := by cases b <;> rfl
@[simp] theorem Group.gpput_count (x0 : Group) (n : Nat) (b : Bool) : (x0.gpput n b).count = x0.count := by unfold Group.gpput; split <;> rfl
@[simp] theorem Group.setSlot_fpte (x0 : Group) (b : Bool) (x : PcSlot) : (x0.setSlot b x).fpte = x0.fpte := by cases b <;> rfl
@[simp] theorem Group.gpput_fpte (x0 : Group) (n : Nat) (b : Bool) : (x0.gpput n b).fpte = x0.fpte := by unfold Group.gpput; split <;> rfl
@[simp] theorem Group.setSlot_window (x0 : Group) (b : Bool) (x : PcSlot) : (x0.setSlot b x).window = x0.window := by cases b <;> rfl
@[simp] theorem Group.gpput_window (x0 : Group) (n : Nat) (b : Bool) : (x0.gpput n b).window = x0.window := by unfold Group.gpput; split <;> rfl
@[simp] theorem Group.gpput_slotA (x0 : Group) (n : Nat) (b : Bool) : (x0.gpput n b).slotA = x0.slotA := by unfold Group.gpput; split <;> rfl
@[simp] theorem Group.gpput_slotB (x0 : Group) (n : Nat) (b : Bool) : (x0.gpput n b).slotB = x0.slotB := by unfold Group.gpput; split <;> rfl
@[simp] theorem Group.setSlot_recs (x0 : Group) (b : Bool) (x : PcSlot) : (x0.setSlot b x).recs = x0.recs := by cases b <;> rfl
@[simp] theorem Group.gpput_recs (x0 : Group) (n : Nat) (b : Bool) : (x0.gpput n b).recs = x0.recs := by unfold Group.gpput; split <;> rfl
@[simp] theorem Group.setSlot_spilled (x0 : Group) (b : Bool) (x : PcSlot) : (x0.setSlot b x).spilled = x0.spilled := by cases b <;> rfl
@[simp] theorem Group.gpput_spilled (x0 : Group) (n : Nat) (b : Bool) : (x0.gpput n b).spilled = x0.spilled := by unfold Group.gpput; split <;> rfl
@[simp] theorem Group.setSlot_xs (x0 : Group) (b : Bool) (x : PcSlot) : (x0.setSlot b x).xs = x0.xs := by cases b <;> rfl
@[simp] theorem Group.gpput_xs (x0 : Group) (n : Nat) (b : Bool) : (x0.gpput n b).xs = x0.xs := by unfold Group.gpput; split <;> rfl
@[simp] theorem Group.setSlot_calldepth (x0 : Group) (b : Bool) (x : PcSlot) : (x0.setSlot b x).calldepth = x0.calldepth := by cases b <;> rfl
@[simp] theorem Group.gpput_calldepth (x0 : Group) (n : Nat) (b : Bool) : (x0.gpput n b).calldepth = x0.calldepth := by unfold Group.gpput; split <;> rfl
@[simp] theorem Group.setSlot_rp (x0 : Group) (b : Bool) (x : PcSlot) : (x0.setSlot b x).rp = x0.rp := by cases b <;> rfl
@[simp] theorem Group.gpput_rp (x0 : Group) (n : Nat) (b : Bool) : (x0.gpput n b).rp = x0.rp := by unfold Group.gpput; split <;> rfl
@[simp] theorem Group.setSlot_flags (x0 : Group) (b : Bool) (x : PcSlot) : (x0.setSlot b x).flags = x0.flags := by cases b <;> rfl
@[simp] theorem Group.gpput_flags (x0 : Group) (n : Nat) (b : Bool) : (x0.gpput n b).flags = x0.flags := by unfold Group.gpput; split <;> rfl
@[simp] theorem Group.setSlot_g (x0 : Group) (b : Bool) (x : PcSlot) : (x0.setSlot b x).g = x0.g := by cases b <;> rfl
@[simp] theorem Group.gpput_g (x0 : Group) (n : Nat) (b : Bool) : (x0.gpput n b).g = x0.g := by unfold Group.gpput; split <;> rfl
@[simp] theorem Group.setSlot_gp (x0 : Group) (b : Bool) (x : PcSlot) : (x0.setSlot b x).gp = x0.gp := by cases b <;> rfl
@[simp] theorem Group.setSlot_v (x0 : Group) (b : Bool) (x : PcSlot) : (x0.setSlot b x).v = x0.v := by cases b <;> rfl
@[simp] theorem Group.gpput_v (x0 : Group) (n : Nat) (b : Bool) : (x0.gpput n b).v = x0.v := by unfold Group.gpput; split <;> rfl
@[simp] theorem Group.setSlot_vst (x0 : Group) (b : Bool) (x : PcSlot) : (x0.setSlot b x).vst = x0.vst := by cases b <;> rfl
@[simp] theorem Group.gpput_vst (x0 : Group) (n : Nat) (b : Bool) : (x0.gpput n b).vst = x0.vst := by unfold Group.gpput; split <;> rfl
@[simp] theorem Group.setSlot_vx (x0 : Group) (b : Bool) (x : PcSlot) : (x0.setSlot b x).vx = x0.vx := by cases b <;> rfl
@[simp] theorem Group.gpput_vx (x0 : Group) (n : Nat) (b : Bool) : (x0.gpput n b).vx = x0.vx := by unfold Group.gpput; split <;> rfl
@[simp] theorem Group.setSlot_vpois (x0 : Group) (b : Bool) (x : PcSlot) : (x0.setSlot b x).vpois = x0.vpois := by cases b <;> rfl
@[simp] theorem Group.gpput_vpois (x0 : Group) (n : Nat) (b : Bool) : (x0.gpput n b).vpois = x0.vpois := by unfold Group.gpput; split <;> rfl
@[simp] theorem Group.setSlot_crs (x0 : Group) (b : Bool) (x : PcSlot) : (x0.setSlot b x).crs = x0.crs := by cases b <;> rfl
@[simp] theorem Group.gpput_crs (x0 : Group) (n : Nat) (b : Bool) : (x0.gpput n b).crs = x0.crs := by unfold Group.gpput; split <;> rfl
@[simp] theorem Group.setSlot_p (x0 : Group) (b : Bool) (x : PcSlot) : (x0.setSlot b x).p = x0.p := by cases b <;> rfl
@[simp] theorem Group.gpput_p (x0 : Group) (n : Nat) (b : Bool) : (x0.gpput n b).p = x0.p := by unfold Group.gpput; split <;> rfl
@[simp] theorem Group.setSlot_fm (x0 : Group) (b : Bool) (x : PcSlot) : (x0.setSlot b x).fm = x0.fm := by cases b <;> rfl
@[simp] theorem Group.gpput_fm (x0 : Group) (n : Nat) (b : Bool) : (x0.gpput n b).fm = x0.fm := by unfold Group.gpput; split <;> rfl
@[simp] theorem Group.setSlot_fpstat (x0 : Group) (b : Bool) (x : PcSlot) : (x0.setSlot b x).fpstat = x0.fpstat := by cases b <;> rfl
@[simp] theorem Group.gpput_fpstat (x0 : Group) (n : Nat) (b : Bool) : (x0.gpput n b).fpstat = x0.fpstat := by unfold Group.gpput; split <;> rfl
@[simp] theorem Group.setSlot_memst (x0 : Group) (b : Bool) (x : PcSlot) : (x0.setSlot b x).memst = x0.memst := by cases b <;> rfl
@[simp] theorem Group.gpput_memst (x0 : Group) (n : Nat) (b : Bool) : (x0.gpput n b).memst = x0.memst := by unfold Group.gpput; split <;> rfl
@[simp] theorem Group.setSlot_csw (x0 : Group) (b : Bool) (x : PcSlot) : (x0.setSlot b x).csw = x0.csw := by cases b <;> rfl
@[simp] theorem Group.gpput_csw (x0 : Group) (n : Nat) (b : Bool) : (x0.gpput n b).csw = x0.csw := by unfold Group.gpput; split <;> rfl
@[simp] theorem Group.setSlot_cpyst (x0 : Group) (b : Bool) (x : PcSlot) : (x0.setSlot b x).cpyst = x0.cpyst := by cases b <;> rfl
@[simp] theorem Group.gpput_cpyst (x0 : Group) (n : Nat) (b : Bool) : (x0.gpput n b).cpyst = x0.cpyst := by unfold Group.gpput; split <;> rfl
@[simp] theorem Group.setSlot_mstst (x0 : Group) (b : Bool) (x : PcSlot) : (x0.setSlot b x).mstst = x0.mstst := by cases b <;> rfl
@[simp] theorem Group.gpput_mstst (x0 : Group) (n : Nat) (b : Bool) : (x0.gpput n b).mstst = x0.mstst := by unfold Group.gpput; split <;> rfl
@[simp] theorem Group.setSlot_tlatch (x0 : Group) (b : Bool) (x : PcSlot) : (x0.setSlot b x).tlatch = x0.tlatch := by cases b <;> rfl
@[simp] theorem Group.gpput_tlatch (x0 : Group) (n : Nat) (b : Bool) : (x0.gpput n b).tlatch = x0.tlatch := by unfold Group.gpput; split <;> rfl
@[simp] theorem Group.setSlot_workidx (x0 : Group) (b : Bool) (x : PcSlot) : (x0.setSlot b x).workidx = x0.workidx := by cases b <;> rfl
@[simp] theorem Group.gpput_workidx (x0 : Group) (n : Nat) (b : Bool) : (x0.gpput n b).workidx = x0.workidx := by unfold Group.gpput; split <;> rfl
@[simp] theorem Group.setSlot_issued (x0 : Group) (b : Bool) (x : PcSlot) : (x0.setSlot b x).issued = x0.issued := by cases b <;> rfl
@[simp] theorem Group.gpput_issued (x0 : Group) (n : Nat) (b : Bool) : (x0.gpput n b).issued = x0.issued := by unfold Group.gpput; split <;> rfl
@[simp] theorem Group.setSlot_waitCnt (x0 : Group) (b : Bool) (x : PcSlot) : (x0.setSlot b x).waitCnt = x0.waitCnt := by cases b <;> rfl
@[simp] theorem Group.gpput_waitCnt (x0 : Group) (n : Nat) (b : Bool) : (x0.gpput n b).waitCnt = x0.waitCnt := by unfold Group.gpput; split <;> rfl
@[simp] theorem Group.setSlot_lastB (x0 : Group) (b : Bool) (x : PcSlot) : (x0.setSlot b x).lastB = x0.lastB := by cases b <;> rfl
@[simp] theorem Group.gpput_lastB (x0 : Group) (n : Nat) (b : Bool) : (x0.gpput n b).lastB = x0.lastB := by unfold Group.gpput; split <;> rfl
@[simp] theorem Group.setSlot_gsb (x0 : Group) (b : Bool) (x : PcSlot) : (x0.setSlot b x).gsb = x0.gsb := by cases b <;> rfl
@[simp] theorem Group.gpput_gsb (x0 : Group) (n : Nat) (b : Bool) : (x0.gpput n b).gsb = x0.gsb := by unfold Group.gpput; split <;> rfl
@[simp] theorem Group.setSlot_gsbCap (x0 : Group) (b : Bool) (x : PcSlot) : (x0.setSlot b x).gsbCap = x0.gsbCap := by cases b <;> rfl
@[simp] theorem Group.gpput_gsbCap (x0 : Group) (n : Nat) (b : Bool) : (x0.gpput n b).gsbCap = x0.gsbCap := by unfold Group.gpput; split <;> rfl
@[simp] theorem Group.setSlot_horizon (x0 : Group) (b : Bool) (x : PcSlot) : (x0.setSlot b x).horizon = x0.horizon := by cases b <;> rfl
@[simp] theorem Group.gpput_horizon (x0 : Group) (n : Nat) (b : Bool) : (x0.gpput n b).horizon = x0.horizon := by unfold Group.gpput; split <;> rfl
@[simp] theorem Group.setSlot_winTeam (x0 : Group) (b : Bool) (x : PcSlot) : (x0.setSlot b x).winTeam = x0.winTeam := by cases b <;> rfl
@[simp] theorem Group.gpput_winTeam (x0 : Group) (n : Nat) (b : Bool) : (x0.gpput n b).winTeam = x0.winTeam := by unfold Group.gpput; split <;> rfl
@[simp] theorem Group.setSlot_winClus (x0 : Group) (b : Bool) (x : PcSlot) : (x0.setSlot b x).winClus = x0.winClus := by cases b <;> rfl
@[simp] theorem Group.gpput_winClus (x0 : Group) (n : Nat) (b : Bool) : (x0.gpput n b).winClus = x0.winClus := by unfold Group.gpput; split <;> rfl
@[simp] theorem Group.setSlot_pend (x0 : Group) (b : Bool) (x : PcSlot) : (x0.setSlot b x).pend = x0.pend := by cases b <;> rfl
@[simp] theorem Group.gpput_pend (x0 : Group) (n : Nat) (b : Bool) : (x0.gpput n b).pend = x0.pend := by unfold Group.gpput; split <;> rfl
@[simp] theorem Group.setSlot_unbatched (x0 : Group) (b : Bool) (x : PcSlot) : (x0.setSlot b x).unbatched = x0.unbatched := by cases b <;> rfl
@[simp] theorem Group.gpput_unbatched (x0 : Group) (n : Nat) (b : Bool) : (x0.gpput n b).unbatched = x0.unbatched := by unfold Group.gpput; split <;> rfl
@[simp] theorem Group.setSlot_traps (x0 : Group) (b : Bool) (x : PcSlot) : (x0.setSlot b x).traps = x0.traps := by cases b <;> rfl
@[simp] theorem Group.gpput_traps (x0 : Group) (n : Nat) (b : Bool) : (x0.gpput n b).traps = x0.traps := by unfold Group.gpput; split <;> rfl
@[simp] theorem Group.setSlot_trapPend (x0 : Group) (b : Bool) (x : PcSlot) : (x0.setSlot b x).trapPend = x0.trapPend := by cases b <;> rfl
@[simp] theorem Group.gpput_trapPend (x0 : Group) (n : Nat) (b : Bool) : (x0.gpput n b).trapPend = x0.trapPend := by unfold Group.gpput; split <;> rfl
@[simp] theorem Group.setSlot_park (x0 : Group) (b : Bool) (x : PcSlot) : (x0.setSlot b x).park = x0.park := by cases b <;> rfl
@[simp] theorem Group.gpput_park (x0 : Group) (n : Nat) (b : Bool) : (x0.gpput n b).park = x0.park := by unfold Group.gpput; split <;> rfl
@[simp] theorem Group.setSlot_killed (x0 : Group) (b : Bool) (x : PcSlot) : (x0.setSlot b x).killed = x0.killed := by cases b <;> rfl
@[simp] theorem Group.gpput_killed (x0 : Group) (n : Nat) (b : Bool) : (x0.gpput n b).killed = x0.killed := by unfold Group.gpput; split <;> rfl

/-! Reads after writes. -/

theorem Group.gput_gget (x0 : Group) (n j : Nat) (x : Word) :
    (x0.gput n x).gget j = if j = n then x else x0.gget j := SMap.getD_set _ _ _ _ _

theorem Group.pput_pget (x0 : Group) (n j : Nat) (x : Word) :
    (x0.pput n x).pget j = if j = n then x else x0.pget j := SMap.getD_set _ _ _ _ _

theorem Group.fmput_fmget (x0 : Group) (n j : Nat) (x : DWord) :
    (x0.fmput n x).fmget j = if j = n then x &&& 0x3FFF07FFFF else x0.fmget j := SMap.getD_set _ _ _ _ _

theorem Group.setFlag_flag (x0 : Group) (n j k : Nat) :
    (x0.setFlag n k).flag j = if j = n then k else x0.flag j := SMap.getD_set _ _ _ _ _

/-- gp3 reads as true whatever is written, and no other predicate moves (03_groupwide R49). -/
theorem Group.gpput_gpget (x0 : Group) (n j : Nat) (b : Bool) :
    (x0.gpput n b).gpget j = if j = 3 then true else if j = n then b else x0.gpget j := by
  unfold Group.gpput Group.gpget
  split
  · rfl
  · next hj =>
    split
    · next hn => subst hn; simp [hj]
    · simp only [SMap.getD_set]

theorem Group.vput_vget (x0 : Group) {n L j K : Nat} (x : Word) (hL : L < 32) (hK : K < 32) :
    (x0.vput n L x).vget j K = if j = n ∧ K = L then x else x0.vget j K := by
  unfold Group.vput Group.vget
  rw [SMap.getD_set]
  by_cases h : j = n ∧ K = L
  · rw [if_pos h, if_pos (by omega)]
  · rw [if_neg h, if_neg (by omega)]

@[simp] theorem Group.setSlot_slot_same (x0 : Group) (b : Bool) (x : PcSlot) : (x0.setSlot b x).slot b = x := by
  cases b <;> rfl

@[simp] theorem Group.setSlot_slot_other (x0 : Group) (b : Bool) (x : PcSlot) :
    (x0.setSlot b x).slot (!b) = x0.slot (!b) := by cases b <;> rfl

end Sys2Proof.Machine
end

