-- ==== Sys2Proof/Laws/State.lean ====
section
/-!
SUPPORT. What each update of the state leaves of each field, and a read after a write of each table.
One lemma per field per update, true by definition.
-/

namespace Sys2Proof.Machine

/-! setGroup -/

@[simp] theorem State.setGroup_mem (s : State) (k : Nat) (x : Group) : (s.setGroup k x).mem = s.mem := rfl
@[simp] theorem State.setGroup_mpois (s : State) (k : Nat) (x : Group) : (s.setGroup k x).mpois = s.mpois := rfl
@[simp] theorem State.setGroup_creg (s : State) (k : Nat) (x : Group) : (s.setGroup k x).creg = s.creg := rfl
@[simp] theorem State.setGroup_preg (s : State) (k : Nat) (x : Group) : (s.setGroup k x).preg = s.preg := rfl
@[simp] theorem State.setGroup_bar (s : State) (k : Nat) (x : Group) : (s.setGroup k x).bar = s.bar := rfl
@[simp] theorem State.setGroup_msix (s : State) (k : Nat) (x : Group) : (s.setGroup k x).msix = s.msix := rfl
@[simp] theorem State.setGroup_therm (s : State) (k : Nat) (x : Group) : (s.setGroup k x).therm = s.therm := rfl
@[simp] theorem State.setGroup_teams (s : State) (k : Nat) (x : Group) : (s.setGroup k x).teams = s.teams := rfl
@[simp] theorem State.setGroup_clusters (s : State) (k : Nat) (x : Group) : (s.setGroup k x).clusters = s.clusters := rfl
@[simp] theorem State.setGroup_cores (s : State) (k : Nat) (x : Group) : (s.setGroup k x).cores = s.cores := rfl
@[simp] theorem State.setGroup_dies (s : State) (k : Nat) (x : Group) : (s.setGroup k x).dies = s.dies := rfl
@[simp] theorem State.setGroup_copies (s : State) (k : Nat) (x : Group) : (s.setGroup k x).copies = s.copies := rfl
@[simp] theorem State.setGroup_mats (s : State) (k : Nat) (x : Group) : (s.setGroup k x).mats = s.mats := rfl
@[simp] theorem State.setGroup_batches (s : State) (k : Nat) (x : Group) : (s.setGroup k x).batches = s.batches := rfl
@[simp] theorem State.setGroup_mills (s : State) (k : Nat) (x : Group) : (s.setGroup k x).mills = s.mills := rfl
@[simp] theorem State.setGroup_arrivals (s : State) (k : Nat) (x : Group) : (s.setGroup k x).arrivals = s.arrivals := rfl
@[simp] theorem State.setGroup_queues (s : State) (k : Nat) (x : Group) : (s.setGroup k x).queues = s.queues := rfl
@[simp] theorem State.setGroup_handles (s : State) (k : Nat) (x : Group) : (s.setGroup k x).handles = s.handles := rfl
@[simp] theorem State.setGroup_launches (s : State) (k : Nat) (x : Group) : (s.setGroup k x).launches = s.launches := rfl
@[simp] theorem State.setGroup_faultQ (s : State) (k : Nat) (x : Group) : (s.setGroup k x).faultQ = s.faultQ := rfl
@[simp] theorem State.setGroup_uops (s : State) (k : Nat) (x : Group) : (s.setGroup k x).uops = s.uops := rfl
@[simp] theorem State.setGroup_logs (s : State) (k : Nat) (x : Group) : (s.setGroup k x).logs = s.logs := rfl
@[simp] theorem State.setGroup_appends (s : State) (k : Nat) (x : Group) : (s.setGroup k x).appends = s.appends := rfl
@[simp] theorem State.setGroup_trans (s : State) (k : Nat) (x : Group) : (s.setGroup k x).trans = s.trans := rfl
@[simp] theorem State.setGroup_saved (s : State) (k : Nat) (x : Group) : (s.setGroup k x).saved = s.saved := rfl
@[simp] theorem State.setGroup_jobs (s : State) (k : Nat) (x : Group) : (s.setGroup k x).jobs = s.jobs := rfl
@[simp] theorem State.setGroup_files (s : State) (k : Nat) (x : Group) : (s.setGroup k x).files = s.files := rfl
@[simp] theorem State.setGroup_repairs (s : State) (k : Nat) (x : Group) : (s.setGroup k x).repairs = s.repairs := rfl
@[simp] theorem State.setGroup_absent (s : State) (k : Nat) (x : Group) : (s.setGroup k x).absent = s.absent := rfl
@[simp] theorem State.setGroup_sparesUsed (s : State) (k : Nat) (x : Group) : (s.setGroup k x).sparesUsed = s.sparesUsed := rfl
@[simp] theorem State.setGroup_time (s : State) (k : Nat) (x : Group) : (s.setGroup k x).time = s.time := rfl
@[simp] theorem State.setGroup_cur (s : State) (k : Nat) (x : Group) : (s.setGroup k x).cur = s.cur := rfl
@[simp] theorem State.setGroup_curB (s : State) (k : Nat) (x : Group) : (s.setGroup k x).curB = s.curB := rfl
@[simp] theorem State.setGroup_lat (s : State) (k : Nat) (x : Group) : (s.setGroup k x).lat = s.lat := rfl
@[simp] theorem State.setGroup_picked (s : State) (k : Nat) (x : Group) : (s.setGroup k x).picked = s.picked := rfl
@[simp] theorem State.setGroup_held (s : State) (k : Nat) (x : Group) : (s.setGroup k x).held = s.held := rfl
@[simp] theorem State.setGroup_inputs (s : State) (k : Nat) (x : Group) : (s.setGroup k x).inputs = s.inputs := rfl
@[simp] theorem State.setGroup_freeCtr (s : State) (k : Nat) (x : Group) : (s.setGroup k x).freeCtr = s.freeCtr := rfl
@[simp] theorem State.setGroup_seq (s : State) (k : Nat) (x : Group) : (s.setGroup k x).seq = s.seq := rfl
@[simp] theorem State.setGroup_nextId (s : State) (k : Nat) (x : Group) : (s.setGroup k x).nextId = s.nextId := rfl
@[simp] theorem State.setGroup_rrCore (s : State) (k : Nat) (x : Group) : (s.setGroup k x).rrCore = s.rrCore := rfl
@[simp] theorem State.setGroup_cregOld (s : State) (k : Nat) (x : Group) : (s.setGroup k x).cregOld = s.cregOld := rfl
@[simp] theorem State.setGroup_image (s : State) (k : Nat) (x : Group) : (s.setGroup k x).image = s.image := rfl
@[simp] theorem State.setGroup_draws (s : State) (k : Nat) (x : Group) : (s.setGroup k x).draws = s.draws := rfl
@[simp] theorem State.setGroup_drainSel (s : State) (k : Nat) (x : Group) : (s.setGroup k x).drainSel = s.drainSel := rfl
@[simp] theorem State.setGroup_answer (s : State) (k : Nat) (x : Group) : (s.setGroup k x).answer = s.answer := rfl

/-! setTeam -/

@[simp] theorem State.setTeam_mem (s : State) (k : Nat) (x : Team) : (s.setTeam k x).mem = s.mem := rfl
@[simp] theorem State.setTeam_mpois (s : State) (k : Nat) (x : Team) : (s.setTeam k x).mpois = s.mpois := rfl
@[simp] theorem State.setTeam_creg (s : State) (k : Nat) (x : Team) : (s.setTeam k x).creg = s.creg := rfl
@[simp] theorem State.setTeam_preg (s : State) (k : Nat) (x : Team) : (s.setTeam k x).preg = s.preg := rfl
@[simp] theorem State.setTeam_bar (s : State) (k : Nat) (x : Team) : (s.setTeam k x).bar = s.bar := rfl
@[simp] theorem State.setTeam_msix (s : State) (k : Nat) (x : Team) : (s.setTeam k x).msix = s.msix := rfl
@[simp] theorem State.setTeam_therm (s : State) (k : Nat) (x : Team) : (s.setTeam k x).therm = s.therm := rfl
@[simp] theorem State.setTeam_groups (s : State) (k : Nat) (x : Team) : (s.setTeam k x).groups = s.groups := rfl
@[simp] theorem State.setTeam_clusters (s : State) (k : Nat) (x : Team) : (s.setTeam k x).clusters = s.clusters := rfl
@[simp] theorem State.setTeam_cores (s : State) (k : Nat) (x : Team) : (s.setTeam k x).cores = s.cores := rfl
@[simp] theorem State.setTeam_dies (s : State) (k : Nat) (x : Team) : (s.setTeam k x).dies = s.dies := rfl
@[simp] theorem State.setTeam_copies (s : State) (k : Nat) (x : Team) : (s.setTeam k x).copies = s.copies := rfl
@[simp] theorem State.setTeam_mats (s : State) (k : Nat) (x : Team) : (s.setTeam k x).mats = s.mats := rfl
@[simp] theorem State.setTeam_batches (s : State) (k : Nat) (x : Team) : (s.setTeam k x).batches = s.batches := rfl
@[simp] theorem State.setTeam_mills (s : State) (k : Nat) (x : Team) : (s.setTeam k x).mills = s.mills := rfl
@[simp] theorem State.setTeam_arrivals (s : State) (k : Nat) (x : Team) : (s.setTeam k x).arrivals = s.arrivals := rfl
@[simp] theorem State.setTeam_queues (s : State) (k : Nat) (x : Team) : (s.setTeam k x).queues = s.queues := rfl
@[simp] theorem State.setTeam_handles (s : State) (k : Nat) (x : Team) : (s.setTeam k x).handles = s.handles := rfl
@[simp] theorem State.setTeam_launches (s : State) (k : Nat) (x : Team) : (s.setTeam k x).launches = s.launches := rfl
@[simp] theorem State.setTeam_faultQ (s : State) (k : Nat) (x : Team) : (s.setTeam k x).faultQ = s.faultQ := rfl
@[simp] theorem State.setTeam_uops (s : State) (k : Nat) (x : Team) : (s.setTeam k x).uops = s.uops := rfl
@[simp] theorem State.setTeam_logs (s : State) (k : Nat) (x : Team) : (s.setTeam k x).logs = s.logs := rfl
@[simp] theorem State.setTeam_appends (s : State) (k : Nat) (x : Team) : (s.setTeam k x).appends = s.appends := rfl
@[simp] theorem State.setTeam_trans (s : State) (k : Nat) (x : Team) : (s.setTeam k x).trans = s.trans := rfl
@[simp] theorem State.setTeam_saved (s : State) (k : Nat) (x : Team) : (s.setTeam k x).saved = s.saved := rfl
@[simp] theorem State.setTeam_jobs (s : State) (k : Nat) (x : Team) : (s.setTeam k x).jobs = s.jobs := rfl
@[simp] theorem State.setTeam_files (s : State) (k : Nat) (x : Team) : (s.setTeam k x).files = s.files := rfl
@[simp] theorem State.setTeam_repairs (s : State) (k : Nat) (x : Team) : (s.setTeam k x).repairs = s.repairs := rfl
@[simp] theorem State.setTeam_absent (s : State) (k : Nat) (x : Team) : (s.setTeam k x).absent = s.absent := rfl
@[simp] theorem State.setTeam_sparesUsed (s : State) (k : Nat) (x : Team) : (s.setTeam k x).sparesUsed = s.sparesUsed := rfl
@[simp] theorem State.setTeam_time (s : State) (k : Nat) (x : Team) : (s.setTeam k x).time = s.time := rfl
@[simp] theorem State.setTeam_cur (s : State) (k : Nat) (x : Team) : (s.setTeam k x).cur = s.cur := rfl
@[simp] theorem State.setTeam_curB (s : State) (k : Nat) (x : Team) : (s.setTeam k x).curB = s.curB := rfl
@[simp] theorem State.setTeam_lat (s : State) (k : Nat) (x : Team) : (s.setTeam k x).lat = s.lat := rfl
@[simp] theorem State.setTeam_picked (s : State) (k : Nat) (x : Team) : (s.setTeam k x).picked = s.picked := rfl
@[simp] theorem State.setTeam_held (s : State) (k : Nat) (x : Team) : (s.setTeam k x).held = s.held := rfl
@[simp] theorem State.setTeam_inputs (s : State) (k : Nat) (x : Team) : (s.setTeam k x).inputs = s.inputs := rfl
@[simp] theorem State.setTeam_freeCtr (s : State) (k : Nat) (x : Team) : (s.setTeam k x).freeCtr = s.freeCtr := rfl
@[simp] theorem State.setTeam_seq (s : State) (k : Nat) (x : Team) : (s.setTeam k x).seq = s.seq := rfl
@[simp] theorem State.setTeam_nextId (s : State) (k : Nat) (x : Team) : (s.setTeam k x).nextId = s.nextId := rfl
@[simp] theorem State.setTeam_rrCore (s : State) (k : Nat) (x : Team) : (s.setTeam k x).rrCore = s.rrCore := rfl
@[simp] theorem State.setTeam_cregOld (s : State) (k : Nat) (x : Team) : (s.setTeam k x).cregOld = s.cregOld := rfl
@[simp] theorem State.setTeam_image (s : State) (k : Nat) (x : Team) : (s.setTeam k x).image = s.image := rfl
@[simp] theorem State.setTeam_draws (s : State) (k : Nat) (x : Team) : (s.setTeam k x).draws = s.draws := rfl
@[simp] theorem State.setTeam_drainSel (s : State) (k : Nat) (x : Team) : (s.setTeam k x).drainSel = s.drainSel := rfl
@[simp] theorem State.setTeam_answer (s : State) (k : Nat) (x : Team) : (s.setTeam k x).answer = s.answer := rfl

/-! setCluster -/

@[simp] theorem State.setCluster_mem (s : State) (k : Nat) (x : Cluster) : (s.setCluster k x).mem = s.mem := rfl
@[simp] theorem State.setCluster_mpois (s : State) (k : Nat) (x : Cluster) : (s.setCluster k x).mpois = s.mpois := rfl
@[simp] theorem State.setCluster_creg (s : State) (k : Nat) (x : Cluster) : (s.setCluster k x).creg = s.creg := rfl
@[simp] theorem State.setCluster_preg (s : State) (k : Nat) (x : Cluster) : (s.setCluster k x).preg = s.preg := rfl
@[simp] theorem State.setCluster_bar (s : State) (k : Nat) (x : Cluster) : (s.setCluster k x).bar = s.bar := rfl
@[simp] theorem State.setCluster_msix (s : State) (k : Nat) (x : Cluster) : (s.setCluster k x).msix = s.msix := rfl
@[simp] theorem State.setCluster_therm (s : State) (k : Nat) (x : Cluster) : (s.setCluster k x).therm = s.therm := rfl
@[simp] theorem State.setCluster_groups (s : State) (k : Nat) (x : Cluster) : (s.setCluster k x).groups = s.groups := rfl
@[simp] theorem State.setCluster_teams (s : State) (k : Nat) (x : Cluster) : (s.setCluster k x).teams = s.teams := rfl
@[simp] theorem State.setCluster_cores (s : State) (k : Nat) (x : Cluster) : (s.setCluster k x).cores = s.cores := rfl
@[simp] theorem State.setCluster_dies (s : State) (k : Nat) (x : Cluster) : (s.setCluster k x).dies = s.dies := rfl
@[simp] theorem State.setCluster_copies (s : State) (k : Nat) (x : Cluster) : (s.setCluster k x).copies = s.copies := rfl
@[simp] theorem State.setCluster_mats (s : State) (k : Nat) (x : Cluster) : (s.setCluster k x).mats = s.mats := rfl
@[simp] theorem State.setCluster_batches (s : State) (k : Nat) (x : Cluster) : (s.setCluster k x).batches = s.batches := rfl
@[simp] theorem State.setCluster_mills (s : State) (k : Nat) (x : Cluster) : (s.setCluster k x).mills = s.mills := rfl
@[simp] theorem State.setCluster_arrivals (s : State) (k : Nat) (x : Cluster) : (s.setCluster k x).arrivals = s.arrivals := rfl
@[simp] theorem State.setCluster_queues (s : State) (k : Nat) (x : Cluster) : (s.setCluster k x).queues = s.queues := rfl
@[simp] theorem State.setCluster_handles (s : State) (k : Nat) (x : Cluster) : (s.setCluster k x).handles = s.handles := rfl
@[simp] theorem State.setCluster_launches (s : State) (k : Nat) (x : Cluster) : (s.setCluster k x).launches = s.launches := rfl
@[simp] theorem State.setCluster_faultQ (s : State) (k : Nat) (x : Cluster) : (s.setCluster k x).faultQ = s.faultQ := rfl
@[simp] theorem State.setCluster_uops (s : State) (k : Nat) (x : Cluster) : (s.setCluster k x).uops = s.uops := rfl
@[simp] theorem State.setCluster_logs (s : State) (k : Nat) (x : Cluster) : (s.setCluster k x).logs = s.logs := rfl
@[simp] theorem State.setCluster_appends (s : State) (k : Nat) (x : Cluster) : (s.setCluster k x).appends = s.appends := rfl
@[simp] theorem State.setCluster_trans (s : State) (k : Nat) (x : Cluster) : (s.setCluster k x).trans = s.trans := rfl
@[simp] theorem State.setCluster_saved (s : State) (k : Nat) (x : Cluster) : (s.setCluster k x).saved = s.saved := rfl
@[simp] theorem State.setCluster_jobs (s : State) (k : Nat) (x : Cluster) : (s.setCluster k x).jobs = s.jobs := rfl
@[simp] theorem State.setCluster_files (s : State) (k : Nat) (x : Cluster) : (s.setCluster k x).files = s.files := rfl
@[simp] theorem State.setCluster_repairs (s : State) (k : Nat) (x : Cluster) : (s.setCluster k x).repairs = s.repairs := rfl
@[simp] theorem State.setCluster_absent (s : State) (k : Nat) (x : Cluster) : (s.setCluster k x).absent = s.absent := rfl
@[simp] theorem State.setCluster_sparesUsed (s : State) (k : Nat) (x : Cluster) : (s.setCluster k x).sparesUsed = s.sparesUsed := rfl
@[simp] theorem State.setCluster_time (s : State) (k : Nat) (x : Cluster) : (s.setCluster k x).time = s.time := rfl
@[simp] theorem State.setCluster_cur (s : State) (k : Nat) (x : Cluster) : (s.setCluster k x).cur = s.cur := rfl
@[simp] theorem State.setCluster_curB (s : State) (k : Nat) (x : Cluster) : (s.setCluster k x).curB = s.curB := rfl
@[simp] theorem State.setCluster_lat (s : State) (k : Nat) (x : Cluster) : (s.setCluster k x).lat = s.lat := rfl
@[simp] theorem State.setCluster_picked (s : State) (k : Nat) (x : Cluster) : (s.setCluster k x).picked = s.picked := rfl
@[simp] theorem State.setCluster_held (s : State) (k : Nat) (x : Cluster) : (s.setCluster k x).held = s.held := rfl
@[simp] theorem State.setCluster_inputs (s : State) (k : Nat) (x : Cluster) : (s.setCluster k x).inputs = s.inputs := rfl
@[simp] theorem State.setCluster_freeCtr (s : State) (k : Nat) (x : Cluster) : (s.setCluster k x).freeCtr = s.freeCtr := rfl
@[simp] theorem State.setCluster_seq (s : State) (k : Nat) (x : Cluster) : (s.setCluster k x).seq = s.seq := rfl
@[simp] theorem State.setCluster_nextId (s : State) (k : Nat) (x : Cluster) : (s.setCluster k x).nextId = s.nextId := rfl
@[simp] theorem State.setCluster_rrCore (s : State) (k : Nat) (x : Cluster) : (s.setCluster k x).rrCore = s.rrCore := rfl
@[simp] theorem State.setCluster_cregOld (s : State) (k : Nat) (x : Cluster) : (s.setCluster k x).cregOld = s.cregOld := rfl
@[simp] theorem State.setCluster_image (s : State) (k : Nat) (x : Cluster) : (s.setCluster k x).image = s.image := rfl
@[simp] theorem State.setCluster_draws (s : State) (k : Nat) (x : Cluster) : (s.setCluster k x).draws = s.draws := rfl
@[simp] theorem State.setCluster_drainSel (s : State) (k : Nat) (x : Cluster) : (s.setCluster k x).drainSel = s.drainSel := rfl
@[simp] theorem State.setCluster_answer (s : State) (k : Nat) (x : Cluster) : (s.setCluster k x).answer = s.answer := rfl

/-! setCore -/

@[simp] theorem State.setCore_mem (s : State) (k : Nat) (x : Core) : (s.setCore k x).mem = s.mem := rfl
@[simp] theorem State.setCore_mpois (s : State) (k : Nat) (x : Core) : (s.setCore k x).mpois = s.mpois := rfl
@[simp] theorem State.setCore_creg (s : State) (k : Nat) (x : Core) : (s.setCore k x).creg = s.creg := rfl
@[simp] theorem State.setCore_preg (s : State) (k : Nat) (x : Core) : (s.setCore k x).preg = s.preg := rfl
@[simp] theorem State.setCore_bar (s : State) (k : Nat) (x : Core) : (s.setCore k x).bar = s.bar := rfl
@[simp] theorem State.setCore_msix (s : State) (k : Nat) (x : Core) : (s.setCore k x).msix = s.msix := rfl
@[simp] theorem State.setCore_therm (s : State) (k : Nat) (x : Core) : (s.setCore k x).therm = s.therm := rfl
@[simp] theorem State.setCore_groups (s : State) (k : Nat) (x : Core) : (s.setCore k x).groups = s.groups := rfl
@[simp] theorem State.setCore_teams (s : State) (k : Nat) (x : Core) : (s.setCore k x).teams = s.teams := rfl
@[simp] theorem State.setCore_clusters (s : State) (k : Nat) (x : Core) : (s.setCore k x).clusters = s.clusters := rfl
@[simp] theorem State.setCore_dies (s : State) (k : Nat) (x : Core) : (s.setCore k x).dies = s.dies := rfl
@[simp] theorem State.setCore_copies (s : State) (k : Nat) (x : Core) : (s.setCore k x).copies = s.copies := rfl
@[simp] theorem State.setCore_mats (s : State) (k : Nat) (x : Core) : (s.setCore k x).mats = s.mats := rfl
@[simp] theorem State.setCore_batches (s : State) (k : Nat) (x : Core) : (s.setCore k x).batches = s.batches := rfl
@[simp] theorem State.setCore_mills (s : State) (k : Nat) (x : Core) : (s.setCore k x).mills = s.mills := rfl
@[simp] theorem State.setCore_arrivals (s : State) (k : Nat) (x : Core) : (s.setCore k x).arrivals = s.arrivals := rfl
@[simp] theorem State.setCore_queues (s : State) (k : Nat) (x : Core) : (s.setCore k x).queues = s.queues := rfl
@[simp] theorem State.setCore_handles (s : State) (k : Nat) (x : Core) : (s.setCore k x).handles = s.handles := rfl
@[simp] theorem State.setCore_launches (s : State) (k : Nat) (x : Core) : (s.setCore k x).launches = s.launches := rfl
@[simp] theorem State.setCore_faultQ (s : State) (k : Nat) (x : Core) : (s.setCore k x).faultQ = s.faultQ := rfl
@[simp] theorem State.setCore_uops (s : State) (k : Nat) (x : Core) : (s.setCore k x).uops = s.uops := rfl
@[simp] theorem State.setCore_logs (s : State) (k : Nat) (x : Core) : (s.setCore k x).logs = s.logs := rfl
@[simp] theorem State.setCore_appends (s : State) (k : Nat) (x : Core) : (s.setCore k x).appends = s.appends := rfl
@[simp] theorem State.setCore_trans (s : State) (k : Nat) (x : Core) : (s.setCore k x).trans = s.trans := rfl
@[simp] theorem State.setCore_saved (s : State) (k : Nat) (x : Core) : (s.setCore k x).saved = s.saved := rfl
@[simp] theorem State.setCore_jobs (s : State) (k : Nat) (x : Core) : (s.setCore k x).jobs = s.jobs := rfl
@[simp] theorem State.setCore_files (s : State) (k : Nat) (x : Core) : (s.setCore k x).files = s.files := rfl
@[simp] theorem State.setCore_repairs (s : State) (k : Nat) (x : Core) : (s.setCore k x).repairs = s.repairs := rfl
@[simp] theorem State.setCore_absent (s : State) (k : Nat) (x : Core) : (s.setCore k x).absent = s.absent := rfl
@[simp] theorem State.setCore_sparesUsed (s : State) (k : Nat) (x : Core) : (s.setCore k x).sparesUsed = s.sparesUsed := rfl
@[simp] theorem State.setCore_time (s : State) (k : Nat) (x : Core) : (s.setCore k x).time = s.time := rfl
@[simp] theorem State.setCore_cur (s : State) (k : Nat) (x : Core) : (s.setCore k x).cur = s.cur := rfl
@[simp] theorem State.setCore_curB (s : State) (k : Nat) (x : Core) : (s.setCore k x).curB = s.curB := rfl
@[simp] theorem State.setCore_lat (s : State) (k : Nat) (x : Core) : (s.setCore k x).lat = s.lat := rfl
@[simp] theorem State.setCore_picked (s : State) (k : Nat) (x : Core) : (s.setCore k x).picked = s.picked := rfl
@[simp] theorem State.setCore_held (s : State) (k : Nat) (x : Core) : (s.setCore k x).held = s.held := rfl
@[simp] theorem State.setCore_inputs (s : State) (k : Nat) (x : Core) : (s.setCore k x).inputs = s.inputs := rfl
@[simp] theorem State.setCore_freeCtr (s : State) (k : Nat) (x : Core) : (s.setCore k x).freeCtr = s.freeCtr := rfl
@[simp] theorem State.setCore_seq (s : State) (k : Nat) (x : Core) : (s.setCore k x).seq = s.seq := rfl
@[simp] theorem State.setCore_nextId (s : State) (k : Nat) (x : Core) : (s.setCore k x).nextId = s.nextId := rfl
@[simp] theorem State.setCore_rrCore (s : State) (k : Nat) (x : Core) : (s.setCore k x).rrCore = s.rrCore := rfl
@[simp] theorem State.setCore_cregOld (s : State) (k : Nat) (x : Core) : (s.setCore k x).cregOld = s.cregOld := rfl
@[simp] theorem State.setCore_image (s : State) (k : Nat) (x : Core) : (s.setCore k x).image = s.image := rfl
@[simp] theorem State.setCore_draws (s : State) (k : Nat) (x : Core) : (s.setCore k x).draws = s.draws := rfl
@[simp] theorem State.setCore_drainSel (s : State) (k : Nat) (x : Core) : (s.setCore k x).drainSel = s.drainSel := rfl
@[simp] theorem State.setCore_answer (s : State) (k : Nat) (x : Core) : (s.setCore k x).answer = s.answer := rfl

/-! setDie -/

@[simp] theorem State.setDie_mem (s : State) (k : Nat) (x : Die) : (s.setDie k x).mem = s.mem := rfl
@[simp] theorem State.setDie_mpois (s : State) (k : Nat) (x : Die) : (s.setDie k x).mpois = s.mpois := rfl
@[simp] theorem State.setDie_creg (s : State) (k : Nat) (x : Die) : (s.setDie k x).creg = s.creg := rfl
@[simp] theorem State.setDie_preg (s : State) (k : Nat) (x : Die) : (s.setDie k x).preg = s.preg := rfl
@[simp] theorem State.setDie_bar (s : State) (k : Nat) (x : Die) : (s.setDie k x).bar = s.bar := rfl
@[simp] theorem State.setDie_msix (s : State) (k : Nat) (x : Die) : (s.setDie k x).msix = s.msix := rfl
@[simp] theorem State.setDie_therm (s : State) (k : Nat) (x : Die) : (s.setDie k x).therm = s.therm := rfl
@[simp] theorem State.setDie_groups (s : State) (k : Nat) (x : Die) : (s.setDie k x).groups = s.groups := rfl
@[simp] theorem State.setDie_teams (s : State) (k : Nat) (x : Die) : (s.setDie k x).teams = s.teams := rfl
@[simp] theorem State.setDie_clusters (s : State) (k : Nat) (x : Die) : (s.setDie k x).clusters = s.clusters := rfl
@[simp] theorem State.setDie_cores (s : State) (k : Nat) (x : Die) : (s.setDie k x).cores = s.cores := rfl
@[simp] theorem State.setDie_copies (s : State) (k : Nat) (x : Die) : (s.setDie k x).copies = s.copies := rfl
@[simp] theorem State.setDie_mats (s : State) (k : Nat) (x : Die) : (s.setDie k x).mats = s.mats := rfl
@[simp] theorem State.setDie_batches (s : State) (k : Nat) (x : Die) : (s.setDie k x).batches = s.batches := rfl
@[simp] theorem State.setDie_mills (s : State) (k : Nat) (x : Die) : (s.setDie k x).mills = s.mills := rfl
@[simp] theorem State.setDie_arrivals (s : State) (k : Nat) (x : Die) : (s.setDie k x).arrivals = s.arrivals := rfl
@[simp] theorem State.setDie_queues (s : State) (k : Nat) (x : Die) : (s.setDie k x).queues = s.queues := rfl
@[simp] theorem State.setDie_handles (s : State) (k : Nat) (x : Die) : (s.setDie k x).handles = s.handles := rfl
@[simp] theorem State.setDie_launches (s : State) (k : Nat) (x : Die) : (s.setDie k x).launches = s.launches := rfl
@[simp] theorem State.setDie_faultQ (s : State) (k : Nat) (x : Die) : (s.setDie k x).faultQ = s.faultQ := rfl
@[simp] theorem State.setDie_uops (s : State) (k : Nat) (x : Die) : (s.setDie k x).uops = s.uops := rfl
@[simp] theorem State.setDie_logs (s : State) (k : Nat) (x : Die) : (s.setDie k x).logs = s.logs := rfl
@[simp] theorem State.setDie_appends (s : State) (k : Nat) (x : Die) : (s.setDie k x).appends = s.appends := rfl
@[simp] theorem State.setDie_trans (s : State) (k : Nat) (x : Die) : (s.setDie k x).trans = s.trans := rfl
@[simp] theorem State.setDie_saved (s : State) (k : Nat) (x : Die) : (s.setDie k x).saved = s.saved := rfl
@[simp] theorem State.setDie_jobs (s : State) (k : Nat) (x : Die) : (s.setDie k x).jobs = s.jobs := rfl
@[simp] theorem State.setDie_files (s : State) (k : Nat) (x : Die) : (s.setDie k x).files = s.files := rfl
@[simp] theorem State.setDie_repairs (s : State) (k : Nat) (x : Die) : (s.setDie k x).repairs = s.repairs := rfl
@[simp] theorem State.setDie_absent (s : State) (k : Nat) (x : Die) : (s.setDie k x).absent = s.absent := rfl
@[simp] theorem State.setDie_sparesUsed (s : State) (k : Nat) (x : Die) : (s.setDie k x).sparesUsed = s.sparesUsed := rfl
@[simp] theorem State.setDie_time (s : State) (k : Nat) (x : Die) : (s.setDie k x).time = s.time := rfl
@[simp] theorem State.setDie_cur (s : State) (k : Nat) (x : Die) : (s.setDie k x).cur = s.cur := rfl
@[simp] theorem State.setDie_curB (s : State) (k : Nat) (x : Die) : (s.setDie k x).curB = s.curB := rfl
@[simp] theorem State.setDie_lat (s : State) (k : Nat) (x : Die) : (s.setDie k x).lat = s.lat := rfl
@[simp] theorem State.setDie_picked (s : State) (k : Nat) (x : Die) : (s.setDie k x).picked = s.picked := rfl
@[simp] theorem State.setDie_held (s : State) (k : Nat) (x : Die) : (s.setDie k x).held = s.held := rfl
@[simp] theorem State.setDie_inputs (s : State) (k : Nat) (x : Die) : (s.setDie k x).inputs = s.inputs := rfl
@[simp] theorem State.setDie_freeCtr (s : State) (k : Nat) (x : Die) : (s.setDie k x).freeCtr = s.freeCtr := rfl
@[simp] theorem State.setDie_seq (s : State) (k : Nat) (x : Die) : (s.setDie k x).seq = s.seq := rfl
@[simp] theorem State.setDie_nextId (s : State) (k : Nat) (x : Die) : (s.setDie k x).nextId = s.nextId := rfl
@[simp] theorem State.setDie_rrCore (s : State) (k : Nat) (x : Die) : (s.setDie k x).rrCore = s.rrCore := rfl
@[simp] theorem State.setDie_cregOld (s : State) (k : Nat) (x : Die) : (s.setDie k x).cregOld = s.cregOld := rfl
@[simp] theorem State.setDie_image (s : State) (k : Nat) (x : Die) : (s.setDie k x).image = s.image := rfl
@[simp] theorem State.setDie_draws (s : State) (k : Nat) (x : Die) : (s.setDie k x).draws = s.draws := rfl
@[simp] theorem State.setDie_drainSel (s : State) (k : Nat) (x : Die) : (s.setDie k x).drainSel = s.drainSel := rfl
@[simp] theorem State.setDie_answer (s : State) (k : Nat) (x : Die) : (s.setDie k x).answer = s.answer := rfl

/-! setCopy -/

@[simp] theorem State.setCopy_mem (s : State) (k : Nat) (x : CopyCmd) : (s.setCopy k x).mem = s.mem := rfl
@[simp] theorem State.setCopy_mpois (s : State) (k : Nat) (x : CopyCmd) : (s.setCopy k x).mpois = s.mpois := rfl
@[simp] theorem State.setCopy_creg (s : State) (k : Nat) (x : CopyCmd) : (s.setCopy k x).creg = s.creg := rfl
@[simp] theorem State.setCopy_preg (s : State) (k : Nat) (x : CopyCmd) : (s.setCopy k x).preg = s.preg := rfl
@[simp] theorem State.setCopy_bar (s : State) (k : Nat) (x : CopyCmd) : (s.setCopy k x).bar = s.bar := rfl
@[simp] theorem State.setCopy_msix (s : State) (k : Nat) (x : CopyCmd) : (s.setCopy k x).msix = s.msix := rfl
@[simp] theorem State.setCopy_therm (s : State) (k : Nat) (x : CopyCmd) : (s.setCopy k x).therm = s.therm := rfl
@[simp] theorem State.setCopy_groups (s : State) (k : Nat) (x : CopyCmd) : (s.setCopy k x).groups = s.groups := rfl
@[simp] theorem State.setCopy_teams (s : State) (k : Nat) (x : CopyCmd) : (s.setCopy k x).teams = s.teams := rfl
@[simp] theorem State.setCopy_clusters (s : State) (k : Nat) (x : CopyCmd) : (s.setCopy k x).clusters = s.clusters := rfl
@[simp] theorem State.setCopy_cores (s : State) (k : Nat) (x : CopyCmd) : (s.setCopy k x).cores = s.cores := rfl
@[simp] theorem State.setCopy_dies (s : State) (k : Nat) (x : CopyCmd) : (s.setCopy k x).dies = s.dies := rfl
@[simp] theorem State.setCopy_mats (s : State) (k : Nat) (x : CopyCmd) : (s.setCopy k x).mats = s.mats := rfl
@[simp] theorem State.setCopy_batches (s : State) (k : Nat) (x : CopyCmd) : (s.setCopy k x).batches = s.batches := rfl
@[simp] theorem State.setCopy_mills (s : State) (k : Nat) (x : CopyCmd) : (s.setCopy k x).mills = s.mills := rfl
@[simp] theorem State.setCopy_arrivals (s : State) (k : Nat) (x : CopyCmd) : (s.setCopy k x).arrivals = s.arrivals := rfl
@[simp] theorem State.setCopy_queues (s : State) (k : Nat) (x : CopyCmd) : (s.setCopy k x).queues = s.queues := rfl
@[simp] theorem State.setCopy_handles (s : State) (k : Nat) (x : CopyCmd) : (s.setCopy k x).handles = s.handles := rfl
@[simp] theorem State.setCopy_launches (s : State) (k : Nat) (x : CopyCmd) : (s.setCopy k x).launches = s.launches := rfl
@[simp] theorem State.setCopy_faultQ (s : State) (k : Nat) (x : CopyCmd) : (s.setCopy k x).faultQ = s.faultQ := rfl
@[simp] theorem State.setCopy_uops (s : State) (k : Nat) (x : CopyCmd) : (s.setCopy k x).uops = s.uops := rfl
@[simp] theorem State.setCopy_logs (s : State) (k : Nat) (x : CopyCmd) : (s.setCopy k x).logs = s.logs := rfl
@[simp] theorem State.setCopy_appends (s : State) (k : Nat) (x : CopyCmd) : (s.setCopy k x).appends = s.appends := rfl
@[simp] theorem State.setCopy_trans (s : State) (k : Nat) (x : CopyCmd) : (s.setCopy k x).trans = s.trans := rfl
@[simp] theorem State.setCopy_saved (s : State) (k : Nat) (x : CopyCmd) : (s.setCopy k x).saved = s.saved := rfl
@[simp] theorem State.setCopy_jobs (s : State) (k : Nat) (x : CopyCmd) : (s.setCopy k x).jobs = s.jobs := rfl
@[simp] theorem State.setCopy_files (s : State) (k : Nat) (x : CopyCmd) : (s.setCopy k x).files = s.files := rfl
@[simp] theorem State.setCopy_repairs (s : State) (k : Nat) (x : CopyCmd) : (s.setCopy k x).repairs = s.repairs := rfl
@[simp] theorem State.setCopy_absent (s : State) (k : Nat) (x : CopyCmd) : (s.setCopy k x).absent = s.absent := rfl
@[simp] theorem State.setCopy_sparesUsed (s : State) (k : Nat) (x : CopyCmd) : (s.setCopy k x).sparesUsed = s.sparesUsed := rfl
@[simp] theorem State.setCopy_time (s : State) (k : Nat) (x : CopyCmd) : (s.setCopy k x).time = s.time := rfl
@[simp] theorem State.setCopy_cur (s : State) (k : Nat) (x : CopyCmd) : (s.setCopy k x).cur = s.cur := rfl
@[simp] theorem State.setCopy_curB (s : State) (k : Nat) (x : CopyCmd) : (s.setCopy k x).curB = s.curB := rfl
@[simp] theorem State.setCopy_lat (s : State) (k : Nat) (x : CopyCmd) : (s.setCopy k x).lat = s.lat := rfl
@[simp] theorem State.setCopy_picked (s : State) (k : Nat) (x : CopyCmd) : (s.setCopy k x).picked = s.picked := rfl
@[simp] theorem State.setCopy_held (s : State) (k : Nat) (x : CopyCmd) : (s.setCopy k x).held = s.held := rfl
@[simp] theorem State.setCopy_inputs (s : State) (k : Nat) (x : CopyCmd) : (s.setCopy k x).inputs = s.inputs := rfl
@[simp] theorem State.setCopy_freeCtr (s : State) (k : Nat) (x : CopyCmd) : (s.setCopy k x).freeCtr = s.freeCtr := rfl
@[simp] theorem State.setCopy_seq (s : State) (k : Nat) (x : CopyCmd) : (s.setCopy k x).seq = s.seq := rfl
@[simp] theorem State.setCopy_nextId (s : State) (k : Nat) (x : CopyCmd) : (s.setCopy k x).nextId = s.nextId := rfl
@[simp] theorem State.setCopy_rrCore (s : State) (k : Nat) (x : CopyCmd) : (s.setCopy k x).rrCore = s.rrCore := rfl
@[simp] theorem State.setCopy_cregOld (s : State) (k : Nat) (x : CopyCmd) : (s.setCopy k x).cregOld = s.cregOld := rfl
@[simp] theorem State.setCopy_image (s : State) (k : Nat) (x : CopyCmd) : (s.setCopy k x).image = s.image := rfl
@[simp] theorem State.setCopy_draws (s : State) (k : Nat) (x : CopyCmd) : (s.setCopy k x).draws = s.draws := rfl
@[simp] theorem State.setCopy_drainSel (s : State) (k : Nat) (x : CopyCmd) : (s.setCopy k x).drainSel = s.drainSel := rfl
@[simp] theorem State.setCopy_answer (s : State) (k : Nat) (x : CopyCmd) : (s.setCopy k x).answer = s.answer := rfl

/-! setMat -/

@[simp] theorem State.setMat_mem (s : State) (k : Nat) (x : MatCmd) : (s.setMat k x).mem = s.mem := rfl
@[simp] theorem State.setMat_mpois (s : State) (k : Nat) (x : MatCmd) : (s.setMat k x).mpois = s.mpois := rfl
@[simp] theorem State.setMat_creg (s : State) (k : Nat) (x : MatCmd) : (s.setMat k x).creg = s.creg := rfl
@[simp] theorem State.setMat_preg (s : State) (k : Nat) (x : MatCmd) : (s.setMat k x).preg = s.preg := rfl
@[simp] theorem State.setMat_bar (s : State) (k : Nat) (x : MatCmd) : (s.setMat k x).bar = s.bar := rfl
@[simp] theorem State.setMat_msix (s : State) (k : Nat) (x : MatCmd) : (s.setMat k x).msix = s.msix := rfl
@[simp] theorem State.setMat_therm (s : State) (k : Nat) (x : MatCmd) : (s.setMat k x).therm = s.therm := rfl
@[simp] theorem State.setMat_groups (s : State) (k : Nat) (x : MatCmd) : (s.setMat k x).groups = s.groups := rfl
@[simp] theorem State.setMat_teams (s : State) (k : Nat) (x : MatCmd) : (s.setMat k x).teams = s.teams := rfl
@[simp] theorem State.setMat_clusters (s : State) (k : Nat) (x : MatCmd) : (s.setMat k x).clusters = s.clusters := rfl
@[simp] theorem State.setMat_cores (s : State) (k : Nat) (x : MatCmd) : (s.setMat k x).cores = s.cores := rfl
@[simp] theorem State.setMat_dies (s : State) (k : Nat) (x : MatCmd) : (s.setMat k x).dies = s.dies := rfl
@[simp] theorem State.setMat_copies (s : State) (k : Nat) (x : MatCmd) : (s.setMat k x).copies = s.copies := rfl
@[simp] theorem State.setMat_batches (s : State) (k : Nat) (x : MatCmd) : (s.setMat k x).batches = s.batches := rfl
@[simp] theorem State.setMat_mills (s : State) (k : Nat) (x : MatCmd) : (s.setMat k x).mills = s.mills := rfl
@[simp] theorem State.setMat_arrivals (s : State) (k : Nat) (x : MatCmd) : (s.setMat k x).arrivals = s.arrivals := rfl
@[simp] theorem State.setMat_queues (s : State) (k : Nat) (x : MatCmd) : (s.setMat k x).queues = s.queues := rfl
@[simp] theorem State.setMat_handles (s : State) (k : Nat) (x : MatCmd) : (s.setMat k x).handles = s.handles := rfl
@[simp] theorem State.setMat_launches (s : State) (k : Nat) (x : MatCmd) : (s.setMat k x).launches = s.launches := rfl
@[simp] theorem State.setMat_faultQ (s : State) (k : Nat) (x : MatCmd) : (s.setMat k x).faultQ = s.faultQ := rfl
@[simp] theorem State.setMat_uops (s : State) (k : Nat) (x : MatCmd) : (s.setMat k x).uops = s.uops := rfl
@[simp] theorem State.setMat_logs (s : State) (k : Nat) (x : MatCmd) : (s.setMat k x).logs = s.logs := rfl
@[simp] theorem State.setMat_appends (s : State) (k : Nat) (x : MatCmd) : (s.setMat k x).appends = s.appends := rfl
@[simp] theorem State.setMat_trans (s : State) (k : Nat) (x : MatCmd) : (s.setMat k x).trans = s.trans := rfl
@[simp] theorem State.setMat_saved (s : State) (k : Nat) (x : MatCmd) : (s.setMat k x).saved = s.saved := rfl
@[simp] theorem State.setMat_jobs (s : State) (k : Nat) (x : MatCmd) : (s.setMat k x).jobs = s.jobs := rfl
@[simp] theorem State.setMat_files (s : State) (k : Nat) (x : MatCmd) : (s.setMat k x).files = s.files := rfl
@[simp] theorem State.setMat_repairs (s : State) (k : Nat) (x : MatCmd) : (s.setMat k x).repairs = s.repairs := rfl
@[simp] theorem State.setMat_absent (s : State) (k : Nat) (x : MatCmd) : (s.setMat k x).absent = s.absent := rfl
@[simp] theorem State.setMat_sparesUsed (s : State) (k : Nat) (x : MatCmd) : (s.setMat k x).sparesUsed = s.sparesUsed := rfl
@[simp] theorem State.setMat_time (s : State) (k : Nat) (x : MatCmd) : (s.setMat k x).time = s.time := rfl
@[simp] theorem State.setMat_cur (s : State) (k : Nat) (x : MatCmd) : (s.setMat k x).cur = s.cur := rfl
@[simp] theorem State.setMat_curB (s : State) (k : Nat) (x : MatCmd) : (s.setMat k x).curB = s.curB := rfl
@[simp] theorem State.setMat_lat (s : State) (k : Nat) (x : MatCmd) : (s.setMat k x).lat = s.lat := rfl
@[simp] theorem State.setMat_picked (s : State) (k : Nat) (x : MatCmd) : (s.setMat k x).picked = s.picked := rfl
@[simp] theorem State.setMat_held (s : State) (k : Nat) (x : MatCmd) : (s.setMat k x).held = s.held := rfl
@[simp] theorem State.setMat_inputs (s : State) (k : Nat) (x : MatCmd) : (s.setMat k x).inputs = s.inputs := rfl
@[simp] theorem State.setMat_freeCtr (s : State) (k : Nat) (x : MatCmd) : (s.setMat k x).freeCtr = s.freeCtr := rfl
@[simp] theorem State.setMat_seq (s : State) (k : Nat) (x : MatCmd) : (s.setMat k x).seq = s.seq := rfl
@[simp] theorem State.setMat_nextId (s : State) (k : Nat) (x : MatCmd) : (s.setMat k x).nextId = s.nextId := rfl
@[simp] theorem State.setMat_rrCore (s : State) (k : Nat) (x : MatCmd) : (s.setMat k x).rrCore = s.rrCore := rfl
@[simp] theorem State.setMat_cregOld (s : State) (k : Nat) (x : MatCmd) : (s.setMat k x).cregOld = s.cregOld := rfl
@[simp] theorem State.setMat_image (s : State) (k : Nat) (x : MatCmd) : (s.setMat k x).image = s.image := rfl
@[simp] theorem State.setMat_draws (s : State) (k : Nat) (x : MatCmd) : (s.setMat k x).draws = s.draws := rfl
@[simp] theorem State.setMat_drainSel (s : State) (k : Nat) (x : MatCmd) : (s.setMat k x).drainSel = s.drainSel := rfl
@[simp] theorem State.setMat_answer (s : State) (k : Nat) (x : MatCmd) : (s.setMat k x).answer = s.answer := rfl

/-! setBatch -/

@[simp] theorem State.setBatch_mem (s : State) (k : Nat) (x : Batch) : (s.setBatch k x).mem = s.mem := rfl
@[simp] theorem State.setBatch_mpois (s : State) (k : Nat) (x : Batch) : (s.setBatch k x).mpois = s.mpois := rfl
@[simp] theorem State.setBatch_creg (s : State) (k : Nat) (x : Batch) : (s.setBatch k x).creg = s.creg := rfl
@[simp] theorem State.setBatch_preg (s : State) (k : Nat) (x : Batch) : (s.setBatch k x).preg = s.preg := rfl
@[simp] theorem State.setBatch_bar (s : State) (k : Nat) (x : Batch) : (s.setBatch k x).bar = s.bar := rfl
@[simp] theorem State.setBatch_msix (s : State) (k : Nat) (x : Batch) : (s.setBatch k x).msix = s.msix := rfl
@[simp] theorem State.setBatch_therm (s : State) (k : Nat) (x : Batch) : (s.setBatch k x).therm = s.therm := rfl
@[simp] theorem State.setBatch_groups (s : State) (k : Nat) (x : Batch) : (s.setBatch k x).groups = s.groups := rfl
@[simp] theorem State.setBatch_teams (s : State) (k : Nat) (x : Batch) : (s.setBatch k x).teams = s.teams := rfl
@[simp] theorem State.setBatch_clusters (s : State) (k : Nat) (x : Batch) : (s.setBatch k x).clusters = s.clusters := rfl
@[simp] theorem State.setBatch_cores (s : State) (k : Nat) (x : Batch) : (s.setBatch k x).cores = s.cores := rfl
@[simp] theorem State.setBatch_dies (s : State) (k : Nat) (x : Batch) : (s.setBatch k x).dies = s.dies := rfl
@[simp] theorem State.setBatch_copies (s : State) (k : Nat) (x : Batch) : (s.setBatch k x).copies = s.copies := rfl
@[simp] theorem State.setBatch_mats (s : State) (k : Nat) (x : Batch) : (s.setBatch k x).mats = s.mats := rfl
@[simp] theorem State.setBatch_mills (s : State) (k : Nat) (x : Batch) : (s.setBatch k x).mills = s.mills := rfl
@[simp] theorem State.setBatch_arrivals (s : State) (k : Nat) (x : Batch) : (s.setBatch k x).arrivals = s.arrivals := rfl
@[simp] theorem State.setBatch_queues (s : State) (k : Nat) (x : Batch) : (s.setBatch k x).queues = s.queues := rfl
@[simp] theorem State.setBatch_handles (s : State) (k : Nat) (x : Batch) : (s.setBatch k x).handles = s.handles := rfl
@[simp] theorem State.setBatch_launches (s : State) (k : Nat) (x : Batch) : (s.setBatch k x).launches = s.launches := rfl
@[simp] theorem State.setBatch_faultQ (s : State) (k : Nat) (x : Batch) : (s.setBatch k x).faultQ = s.faultQ := rfl
@[simp] theorem State.setBatch_uops (s : State) (k : Nat) (x : Batch) : (s.setBatch k x).uops = s.uops := rfl
@[simp] theorem State.setBatch_logs (s : State) (k : Nat) (x : Batch) : (s.setBatch k x).logs = s.logs := rfl
@[simp] theorem State.setBatch_appends (s : State) (k : Nat) (x : Batch) : (s.setBatch k x).appends = s.appends := rfl
@[simp] theorem State.setBatch_trans (s : State) (k : Nat) (x : Batch) : (s.setBatch k x).trans = s.trans := rfl
@[simp] theorem State.setBatch_saved (s : State) (k : Nat) (x : Batch) : (s.setBatch k x).saved = s.saved := rfl
@[simp] theorem State.setBatch_jobs (s : State) (k : Nat) (x : Batch) : (s.setBatch k x).jobs = s.jobs := rfl
@[simp] theorem State.setBatch_files (s : State) (k : Nat) (x : Batch) : (s.setBatch k x).files = s.files := rfl
@[simp] theorem State.setBatch_repairs (s : State) (k : Nat) (x : Batch) : (s.setBatch k x).repairs = s.repairs := rfl
@[simp] theorem State.setBatch_absent (s : State) (k : Nat) (x : Batch) : (s.setBatch k x).absent = s.absent := rfl
@[simp] theorem State.setBatch_sparesUsed (s : State) (k : Nat) (x : Batch) : (s.setBatch k x).sparesUsed = s.sparesUsed := rfl
@[simp] theorem State.setBatch_time (s : State) (k : Nat) (x : Batch) : (s.setBatch k x).time = s.time := rfl
@[simp] theorem State.setBatch_cur (s : State) (k : Nat) (x : Batch) : (s.setBatch k x).cur = s.cur := rfl
@[simp] theorem State.setBatch_curB (s : State) (k : Nat) (x : Batch) : (s.setBatch k x).curB = s.curB := rfl
@[simp] theorem State.setBatch_lat (s : State) (k : Nat) (x : Batch) : (s.setBatch k x).lat = s.lat := rfl
@[simp] theorem State.setBatch_picked (s : State) (k : Nat) (x : Batch) : (s.setBatch k x).picked = s.picked := rfl
@[simp] theorem State.setBatch_held (s : State) (k : Nat) (x : Batch) : (s.setBatch k x).held = s.held := rfl
@[simp] theorem State.setBatch_inputs (s : State) (k : Nat) (x : Batch) : (s.setBatch k x).inputs = s.inputs := rfl
@[simp] theorem State.setBatch_freeCtr (s : State) (k : Nat) (x : Batch) : (s.setBatch k x).freeCtr = s.freeCtr := rfl
@[simp] theorem State.setBatch_seq (s : State) (k : Nat) (x : Batch) : (s.setBatch k x).seq = s.seq := rfl
@[simp] theorem State.setBatch_nextId (s : State) (k : Nat) (x : Batch) : (s.setBatch k x).nextId = s.nextId := rfl
@[simp] theorem State.setBatch_rrCore (s : State) (k : Nat) (x : Batch) : (s.setBatch k x).rrCore = s.rrCore := rfl
@[simp] theorem State.setBatch_cregOld (s : State) (k : Nat) (x : Batch) : (s.setBatch k x).cregOld = s.cregOld := rfl
@[simp] theorem State.setBatch_image (s : State) (k : Nat) (x : Batch) : (s.setBatch k x).image = s.image := rfl
@[simp] theorem State.setBatch_draws (s : State) (k : Nat) (x : Batch) : (s.setBatch k x).draws = s.draws := rfl
@[simp] theorem State.setBatch_drainSel (s : State) (k : Nat) (x : Batch) : (s.setBatch k x).drainSel = s.drainSel := rfl
@[simp] theorem State.setBatch_answer (s : State) (k : Nat) (x : Batch) : (s.setBatch k x).answer = s.answer := rfl

/-! setMill -/

@[simp] theorem State.setMill_mem (s : State) (k : Nat) (x : MillReq) : (s.setMill k x).mem = s.mem := rfl
@[simp] theorem State.setMill_mpois (s : State) (k : Nat) (x : MillReq) : (s.setMill k x).mpois = s.mpois := rfl
@[simp] theorem State.setMill_creg (s : State) (k : Nat) (x : MillReq) : (s.setMill k x).creg = s.creg := rfl
@[simp] theorem State.setMill_preg (s : State) (k : Nat) (x : MillReq) : (s.setMill k x).preg = s.preg := rfl
@[simp] theorem State.setMill_bar (s : State) (k : Nat) (x : MillReq) : (s.setMill k x).bar = s.bar := rfl
@[simp] theorem State.setMill_msix (s : State) (k : Nat) (x : MillReq) : (s.setMill k x).msix = s.msix := rfl
@[simp] theorem State.setMill_therm (s : State) (k : Nat) (x : MillReq) : (s.setMill k x).therm = s.therm := rfl
@[simp] theorem State.setMill_groups (s : State) (k : Nat) (x : MillReq) : (s.setMill k x).groups = s.groups := rfl
@[simp] theorem State.setMill_teams (s : State) (k : Nat) (x : MillReq) : (s.setMill k x).teams = s.teams := rfl
@[simp] theorem State.setMill_clusters (s : State) (k : Nat) (x : MillReq) : (s.setMill k x).clusters = s.clusters := rfl
@[simp] theorem State.setMill_cores (s : State) (k : Nat) (x : MillReq) : (s.setMill k x).cores = s.cores := rfl
@[simp] theorem State.setMill_dies (s : State) (k : Nat) (x : MillReq) : (s.setMill k x).dies = s.dies := rfl
@[simp] theorem State.setMill_copies (s : State) (k : Nat) (x : MillReq) : (s.setMill k x).copies = s.copies := rfl
@[simp] theorem State.setMill_mats (s : State) (k : Nat) (x : MillReq) : (s.setMill k x).mats = s.mats := rfl
@[simp] theorem State.setMill_batches (s : State) (k : Nat) (x : MillReq) : (s.setMill k x).batches = s.batches := rfl
@[simp] theorem State.setMill_arrivals (s : State) (k : Nat) (x : MillReq) : (s.setMill k x).arrivals = s.arrivals := rfl
@[simp] theorem State.setMill_queues (s : State) (k : Nat) (x : MillReq) : (s.setMill k x).queues = s.queues := rfl
@[simp] theorem State.setMill_handles (s : State) (k : Nat) (x : MillReq) : (s.setMill k x).handles = s.handles := rfl
@[simp] theorem State.setMill_launches (s : State) (k : Nat) (x : MillReq) : (s.setMill k x).launches = s.launches := rfl
@[simp] theorem State.setMill_faultQ (s : State) (k : Nat) (x : MillReq) : (s.setMill k x).faultQ = s.faultQ := rfl
@[simp] theorem State.setMill_uops (s : State) (k : Nat) (x : MillReq) : (s.setMill k x).uops = s.uops := rfl
@[simp] theorem State.setMill_logs (s : State) (k : Nat) (x : MillReq) : (s.setMill k x).logs = s.logs := rfl
@[simp] theorem State.setMill_appends (s : State) (k : Nat) (x : MillReq) : (s.setMill k x).appends = s.appends := rfl
@[simp] theorem State.setMill_trans (s : State) (k : Nat) (x : MillReq) : (s.setMill k x).trans = s.trans := rfl
@[simp] theorem State.setMill_saved (s : State) (k : Nat) (x : MillReq) : (s.setMill k x).saved = s.saved := rfl
@[simp] theorem State.setMill_jobs (s : State) (k : Nat) (x : MillReq) : (s.setMill k x).jobs = s.jobs := rfl
@[simp] theorem State.setMill_files (s : State) (k : Nat) (x : MillReq) : (s.setMill k x).files = s.files := rfl
@[simp] theorem State.setMill_repairs (s : State) (k : Nat) (x : MillReq) : (s.setMill k x).repairs = s.repairs := rfl
@[simp] theorem State.setMill_absent (s : State) (k : Nat) (x : MillReq) : (s.setMill k x).absent = s.absent := rfl
@[simp] theorem State.setMill_sparesUsed (s : State) (k : Nat) (x : MillReq) : (s.setMill k x).sparesUsed = s.sparesUsed := rfl
@[simp] theorem State.setMill_time (s : State) (k : Nat) (x : MillReq) : (s.setMill k x).time = s.time := rfl
@[simp] theorem State.setMill_cur (s : State) (k : Nat) (x : MillReq) : (s.setMill k x).cur = s.cur := rfl
@[simp] theorem State.setMill_curB (s : State) (k : Nat) (x : MillReq) : (s.setMill k x).curB = s.curB := rfl
@[simp] theorem State.setMill_lat (s : State) (k : Nat) (x : MillReq) : (s.setMill k x).lat = s.lat := rfl
@[simp] theorem State.setMill_picked (s : State) (k : Nat) (x : MillReq) : (s.setMill k x).picked = s.picked := rfl
@[simp] theorem State.setMill_held (s : State) (k : Nat) (x : MillReq) : (s.setMill k x).held = s.held := rfl
@[simp] theorem State.setMill_inputs (s : State) (k : Nat) (x : MillReq) : (s.setMill k x).inputs = s.inputs := rfl
@[simp] theorem State.setMill_freeCtr (s : State) (k : Nat) (x : MillReq) : (s.setMill k x).freeCtr = s.freeCtr := rfl
@[simp] theorem State.setMill_seq (s : State) (k : Nat) (x : MillReq) : (s.setMill k x).seq = s.seq := rfl
@[simp] theorem State.setMill_nextId (s : State) (k : Nat) (x : MillReq) : (s.setMill k x).nextId = s.nextId := rfl
@[simp] theorem State.setMill_rrCore (s : State) (k : Nat) (x : MillReq) : (s.setMill k x).rrCore = s.rrCore := rfl
@[simp] theorem State.setMill_cregOld (s : State) (k : Nat) (x : MillReq) : (s.setMill k x).cregOld = s.cregOld := rfl
@[simp] theorem State.setMill_image (s : State) (k : Nat) (x : MillReq) : (s.setMill k x).image = s.image := rfl
@[simp] theorem State.setMill_draws (s : State) (k : Nat) (x : MillReq) : (s.setMill k x).draws = s.draws := rfl
@[simp] theorem State.setMill_drainSel (s : State) (k : Nat) (x : MillReq) : (s.setMill k x).drainSel = s.drainSel := rfl
@[simp] theorem State.setMill_answer (s : State) (k : Nat) (x : MillReq) : (s.setMill k x).answer = s.answer := rfl

/-! setArrival -/

@[simp] theorem State.setArrival_mem (s : State) (k : Nat) (x : Arrival) : (s.setArrival k x).mem = s.mem := rfl
@[simp] theorem State.setArrival_mpois (s : State) (k : Nat) (x : Arrival) : (s.setArrival k x).mpois = s.mpois := rfl
@[simp] theorem State.setArrival_creg (s : State) (k : Nat) (x : Arrival) : (s.setArrival k x).creg = s.creg := rfl
@[simp] theorem State.setArrival_preg (s : State) (k : Nat) (x : Arrival) : (s.setArrival k x).preg = s.preg := rfl
@[simp] theorem State.setArrival_bar (s : State) (k : Nat) (x : Arrival) : (s.setArrival k x).bar = s.bar := rfl
@[simp] theorem State.setArrival_msix (s : State) (k : Nat) (x : Arrival) : (s.setArrival k x).msix = s.msix := rfl
@[simp] theorem State.setArrival_therm (s : State) (k : Nat) (x : Arrival) : (s.setArrival k x).therm = s.therm := rfl
@[simp] theorem State.setArrival_groups (s : State) (k : Nat) (x : Arrival) : (s.setArrival k x).groups = s.groups := rfl
@[simp] theorem State.setArrival_teams (s : State) (k : Nat) (x : Arrival) : (s.setArrival k x).teams = s.teams := rfl
@[simp] theorem State.setArrival_clusters (s : State) (k : Nat) (x : Arrival) : (s.setArrival k x).clusters = s.clusters := rfl
@[simp] theorem State.setArrival_cores (s : State) (k : Nat) (x : Arrival) : (s.setArrival k x).cores = s.cores := rfl
@[simp] theorem State.setArrival_dies (s : State) (k : Nat) (x : Arrival) : (s.setArrival k x).dies = s.dies := rfl
@[simp] theorem State.setArrival_copies (s : State) (k : Nat) (x : Arrival) : (s.setArrival k x).copies = s.copies := rfl
@[simp] theorem State.setArrival_mats (s : State) (k : Nat) (x : Arrival) : (s.setArrival k x).mats = s.mats := rfl
@[simp] theorem State.setArrival_batches (s : State) (k : Nat) (x : Arrival) : (s.setArrival k x).batches = s.batches := rfl
@[simp] theorem State.setArrival_mills (s : State) (k : Nat) (x : Arrival) : (s.setArrival k x).mills = s.mills := rfl
@[simp] theorem State.setArrival_queues (s : State) (k : Nat) (x : Arrival) : (s.setArrival k x).queues = s.queues := rfl
@[simp] theorem State.setArrival_handles (s : State) (k : Nat) (x : Arrival) : (s.setArrival k x).handles = s.handles := rfl
@[simp] theorem State.setArrival_launches (s : State) (k : Nat) (x : Arrival) : (s.setArrival k x).launches = s.launches := rfl
@[simp] theorem State.setArrival_faultQ (s : State) (k : Nat) (x : Arrival) : (s.setArrival k x).faultQ = s.faultQ := rfl
@[simp] theorem State.setArrival_uops (s : State) (k : Nat) (x : Arrival) : (s.setArrival k x).uops = s.uops := rfl
@[simp] theorem State.setArrival_logs (s : State) (k : Nat) (x : Arrival) : (s.setArrival k x).logs = s.logs := rfl
@[simp] theorem State.setArrival_appends (s : State) (k : Nat) (x : Arrival) : (s.setArrival k x).appends = s.appends := rfl
@[simp] theorem State.setArrival_trans (s : State) (k : Nat) (x : Arrival) : (s.setArrival k x).trans = s.trans := rfl
@[simp] theorem State.setArrival_saved (s : State) (k : Nat) (x : Arrival) : (s.setArrival k x).saved = s.saved := rfl
@[simp] theorem State.setArrival_jobs (s : State) (k : Nat) (x : Arrival) : (s.setArrival k x).jobs = s.jobs := rfl
@[simp] theorem State.setArrival_files (s : State) (k : Nat) (x : Arrival) : (s.setArrival k x).files = s.files := rfl
@[simp] theorem State.setArrival_repairs (s : State) (k : Nat) (x : Arrival) : (s.setArrival k x).repairs = s.repairs := rfl
@[simp] theorem State.setArrival_absent (s : State) (k : Nat) (x : Arrival) : (s.setArrival k x).absent = s.absent := rfl
@[simp] theorem State.setArrival_sparesUsed (s : State) (k : Nat) (x : Arrival) : (s.setArrival k x).sparesUsed = s.sparesUsed := rfl
@[simp] theorem State.setArrival_time (s : State) (k : Nat) (x : Arrival) : (s.setArrival k x).time = s.time := rfl
@[simp] theorem State.setArrival_cur (s : State) (k : Nat) (x : Arrival) : (s.setArrival k x).cur = s.cur := rfl
@[simp] theorem State.setArrival_curB (s : State) (k : Nat) (x : Arrival) : (s.setArrival k x).curB = s.curB := rfl
@[simp] theorem State.setArrival_lat (s : State) (k : Nat) (x : Arrival) : (s.setArrival k x).lat = s.lat := rfl
@[simp] theorem State.setArrival_picked (s : State) (k : Nat) (x : Arrival) : (s.setArrival k x).picked = s.picked := rfl
@[simp] theorem State.setArrival_held (s : State) (k : Nat) (x : Arrival) : (s.setArrival k x).held = s.held := rfl
@[simp] theorem State.setArrival_inputs (s : State) (k : Nat) (x : Arrival) : (s.setArrival k x).inputs = s.inputs := rfl
@[simp] theorem State.setArrival_freeCtr (s : State) (k : Nat) (x : Arrival) : (s.setArrival k x).freeCtr = s.freeCtr := rfl
@[simp] theorem State.setArrival_seq (s : State) (k : Nat) (x : Arrival) : (s.setArrival k x).seq = s.seq := rfl
@[simp] theorem State.setArrival_nextId (s : State) (k : Nat) (x : Arrival) : (s.setArrival k x).nextId = s.nextId := rfl
@[simp] theorem State.setArrival_rrCore (s : State) (k : Nat) (x : Arrival) : (s.setArrival k x).rrCore = s.rrCore := rfl
@[simp] theorem State.setArrival_cregOld (s : State) (k : Nat) (x : Arrival) : (s.setArrival k x).cregOld = s.cregOld := rfl
@[simp] theorem State.setArrival_image (s : State) (k : Nat) (x : Arrival) : (s.setArrival k x).image = s.image := rfl
@[simp] theorem State.setArrival_draws (s : State) (k : Nat) (x : Arrival) : (s.setArrival k x).draws = s.draws := rfl
@[simp] theorem State.setArrival_drainSel (s : State) (k : Nat) (x : Arrival) : (s.setArrival k x).drainSel = s.drainSel := rfl
@[simp] theorem State.setArrival_answer (s : State) (k : Nat) (x : Arrival) : (s.setArrival k x).answer = s.answer := rfl

/-! setQueue -/

@[simp] theorem State.setQueue_mem (s : State) (k : Nat) (x : Queue) : (s.setQueue k x).mem = s.mem := rfl
@[simp] theorem State.setQueue_mpois (s : State) (k : Nat) (x : Queue) : (s.setQueue k x).mpois = s.mpois := rfl
@[simp] theorem State.setQueue_creg (s : State) (k : Nat) (x : Queue) : (s.setQueue k x).creg = s.creg := rfl
@[simp] theorem State.setQueue_preg (s : State) (k : Nat) (x : Queue) : (s.setQueue k x).preg = s.preg := rfl
@[simp] theorem State.setQueue_bar (s : State) (k : Nat) (x : Queue) : (s.setQueue k x).bar = s.bar := rfl
@[simp] theorem State.setQueue_msix (s : State) (k : Nat) (x : Queue) : (s.setQueue k x).msix = s.msix := rfl
@[simp] theorem State.setQueue_therm (s : State) (k : Nat) (x : Queue) : (s.setQueue k x).therm = s.therm := rfl
@[simp] theorem State.setQueue_groups (s : State) (k : Nat) (x : Queue) : (s.setQueue k x).groups = s.groups := rfl
@[simp] theorem State.setQueue_teams (s : State) (k : Nat) (x : Queue) : (s.setQueue k x).teams = s.teams := rfl
@[simp] theorem State.setQueue_clusters (s : State) (k : Nat) (x : Queue) : (s.setQueue k x).clusters = s.clusters := rfl
@[simp] theorem State.setQueue_cores (s : State) (k : Nat) (x : Queue) : (s.setQueue k x).cores = s.cores := rfl
@[simp] theorem State.setQueue_dies (s : State) (k : Nat) (x : Queue) : (s.setQueue k x).dies = s.dies := rfl
@[simp] theorem State.setQueue_copies (s : State) (k : Nat) (x : Queue) : (s.setQueue k x).copies = s.copies := rfl
@[simp] theorem State.setQueue_mats (s : State) (k : Nat) (x : Queue) : (s.setQueue k x).mats = s.mats := rfl
@[simp] theorem State.setQueue_batches (s : State) (k : Nat) (x : Queue) : (s.setQueue k x).batches = s.batches := rfl
@[simp] theorem State.setQueue_mills (s : State) (k : Nat) (x : Queue) : (s.setQueue k x).mills = s.mills := rfl
@[simp] theorem State.setQueue_arrivals (s : State) (k : Nat) (x : Queue) : (s.setQueue k x).arrivals = s.arrivals := rfl
@[simp] theorem State.setQueue_handles (s : State) (k : Nat) (x : Queue) : (s.setQueue k x).handles = s.handles := rfl
@[simp] theorem State.setQueue_launches (s : State) (k : Nat) (x : Queue) : (s.setQueue k x).launches = s.launches := rfl
@[simp] theorem State.setQueue_faultQ (s : State) (k : Nat) (x : Queue) : (s.setQueue k x).faultQ = s.faultQ := rfl
@[simp] theorem State.setQueue_uops (s : State) (k : Nat) (x : Queue) : (s.setQueue k x).uops = s.uops := rfl
@[simp] theorem State.setQueue_logs (s : State) (k : Nat) (x : Queue) : (s.setQueue k x).logs = s.logs := rfl
@[simp] theorem State.setQueue_appends (s : State) (k : Nat) (x : Queue) : (s.setQueue k x).appends = s.appends := rfl
@[simp] theorem State.setQueue_trans (s : State) (k : Nat) (x : Queue) : (s.setQueue k x).trans = s.trans := rfl
@[simp] theorem State.setQueue_saved (s : State) (k : Nat) (x : Queue) : (s.setQueue k x).saved = s.saved := rfl
@[simp] theorem State.setQueue_jobs (s : State) (k : Nat) (x : Queue) : (s.setQueue k x).jobs = s.jobs := rfl
@[simp] theorem State.setQueue_files (s : State) (k : Nat) (x : Queue) : (s.setQueue k x).files = s.files := rfl
@[simp] theorem State.setQueue_repairs (s : State) (k : Nat) (x : Queue) : (s.setQueue k x).repairs = s.repairs := rfl
@[simp] theorem State.setQueue_absent (s : State) (k : Nat) (x : Queue) : (s.setQueue k x).absent = s.absent := rfl
@[simp] theorem State.setQueue_sparesUsed (s : State) (k : Nat) (x : Queue) : (s.setQueue k x).sparesUsed = s.sparesUsed := rfl
@[simp] theorem State.setQueue_time (s : State) (k : Nat) (x : Queue) : (s.setQueue k x).time = s.time := rfl
@[simp] theorem State.setQueue_cur (s : State) (k : Nat) (x : Queue) : (s.setQueue k x).cur = s.cur := rfl
@[simp] theorem State.setQueue_curB (s : State) (k : Nat) (x : Queue) : (s.setQueue k x).curB = s.curB := rfl
@[simp] theorem State.setQueue_lat (s : State) (k : Nat) (x : Queue) : (s.setQueue k x).lat = s.lat := rfl
@[simp] theorem State.setQueue_picked (s : State) (k : Nat) (x : Queue) : (s.setQueue k x).picked = s.picked := rfl
@[simp] theorem State.setQueue_held (s : State) (k : Nat) (x : Queue) : (s.setQueue k x).held = s.held := rfl
@[simp] theorem State.setQueue_inputs (s : State) (k : Nat) (x : Queue) : (s.setQueue k x).inputs = s.inputs := rfl
@[simp] theorem State.setQueue_freeCtr (s : State) (k : Nat) (x : Queue) : (s.setQueue k x).freeCtr = s.freeCtr := rfl
@[simp] theorem State.setQueue_seq (s : State) (k : Nat) (x : Queue) : (s.setQueue k x).seq = s.seq := rfl
@[simp] theorem State.setQueue_nextId (s : State) (k : Nat) (x : Queue) : (s.setQueue k x).nextId = s.nextId := rfl
@[simp] theorem State.setQueue_rrCore (s : State) (k : Nat) (x : Queue) : (s.setQueue k x).rrCore = s.rrCore := rfl
@[simp] theorem State.setQueue_cregOld (s : State) (k : Nat) (x : Queue) : (s.setQueue k x).cregOld = s.cregOld := rfl
@[simp] theorem State.setQueue_image (s : State) (k : Nat) (x : Queue) : (s.setQueue k x).image = s.image := rfl
@[simp] theorem State.setQueue_draws (s : State) (k : Nat) (x : Queue) : (s.setQueue k x).draws = s.draws := rfl
@[simp] theorem State.setQueue_drainSel (s : State) (k : Nat) (x : Queue) : (s.setQueue k x).drainSel = s.drainSel := rfl
@[simp] theorem State.setQueue_answer (s : State) (k : Nat) (x : Queue) : (s.setQueue k x).answer = s.answer := rfl

/-! setHandle -/

@[simp] theorem State.setHandle_mem (s : State) (k : Nat) (x : Handle) : (s.setHandle k x).mem = s.mem := rfl
@[simp] theorem State.setHandle_mpois (s : State) (k : Nat) (x : Handle) : (s.setHandle k x).mpois = s.mpois := rfl
@[simp] theorem State.setHandle_creg (s : State) (k : Nat) (x : Handle) : (s.setHandle k x).creg = s.creg := rfl
@[simp] theorem State.setHandle_preg (s : State) (k : Nat) (x : Handle) : (s.setHandle k x).preg = s.preg := rfl
@[simp] theorem State.setHandle_bar (s : State) (k : Nat) (x : Handle) : (s.setHandle k x).bar = s.bar := rfl
@[simp] theorem State.setHandle_msix (s : State) (k : Nat) (x : Handle) : (s.setHandle k x).msix = s.msix := rfl
@[simp] theorem State.setHandle_therm (s : State) (k : Nat) (x : Handle) : (s.setHandle k x).therm = s.therm := rfl
@[simp] theorem State.setHandle_groups (s : State) (k : Nat) (x : Handle) : (s.setHandle k x).groups = s.groups := rfl
@[simp] theorem State.setHandle_teams (s : State) (k : Nat) (x : Handle) : (s.setHandle k x).teams = s.teams := rfl
@[simp] theorem State.setHandle_clusters (s : State) (k : Nat) (x : Handle) : (s.setHandle k x).clusters = s.clusters := rfl
@[simp] theorem State.setHandle_cores (s : State) (k : Nat) (x : Handle) : (s.setHandle k x).cores = s.cores := rfl
@[simp] theorem State.setHandle_dies (s : State) (k : Nat) (x : Handle) : (s.setHandle k x).dies = s.dies := rfl
@[simp] theorem State.setHandle_copies (s : State) (k : Nat) (x : Handle) : (s.setHandle k x).copies = s.copies := rfl
@[simp] theorem State.setHandle_mats (s : State) (k : Nat) (x : Handle) : (s.setHandle k x).mats = s.mats := rfl
@[simp] theorem State.setHandle_batches (s : State) (k : Nat) (x : Handle) : (s.setHandle k x).batches = s.batches := rfl
@[simp] theorem State.setHandle_mills (s : State) (k : Nat) (x : Handle) : (s.setHandle k x).mills = s.mills := rfl
@[simp] theorem State.setHandle_arrivals (s : State) (k : Nat) (x : Handle) : (s.setHandle k x).arrivals = s.arrivals := rfl
@[simp] theorem State.setHandle_queues (s : State) (k : Nat) (x : Handle) : (s.setHandle k x).queues = s.queues := rfl
@[simp] theorem State.setHandle_launches (s : State) (k : Nat) (x : Handle) : (s.setHandle k x).launches = s.launches := rfl
@[simp] theorem State.setHandle_faultQ (s : State) (k : Nat) (x : Handle) : (s.setHandle k x).faultQ = s.faultQ := rfl
@[simp] theorem State.setHandle_uops (s : State) (k : Nat) (x : Handle) : (s.setHandle k x).uops = s.uops := rfl
@[simp] theorem State.setHandle_logs (s : State) (k : Nat) (x : Handle) : (s.setHandle k x).logs = s.logs := rfl
@[simp] theorem State.setHandle_appends (s : State) (k : Nat) (x : Handle) : (s.setHandle k x).appends = s.appends := rfl
@[simp] theorem State.setHandle_trans (s : State) (k : Nat) (x : Handle) : (s.setHandle k x).trans = s.trans := rfl
@[simp] theorem State.setHandle_saved (s : State) (k : Nat) (x : Handle) : (s.setHandle k x).saved = s.saved := rfl
@[simp] theorem State.setHandle_jobs (s : State) (k : Nat) (x : Handle) : (s.setHandle k x).jobs = s.jobs := rfl
@[simp] theorem State.setHandle_files (s : State) (k : Nat) (x : Handle) : (s.setHandle k x).files = s.files := rfl
@[simp] theorem State.setHandle_repairs (s : State) (k : Nat) (x : Handle) : (s.setHandle k x).repairs = s.repairs := rfl
@[simp] theorem State.setHandle_absent (s : State) (k : Nat) (x : Handle) : (s.setHandle k x).absent = s.absent := rfl
@[simp] theorem State.setHandle_sparesUsed (s : State) (k : Nat) (x : Handle) : (s.setHandle k x).sparesUsed = s.sparesUsed := rfl
@[simp] theorem State.setHandle_time (s : State) (k : Nat) (x : Handle) : (s.setHandle k x).time = s.time := rfl
@[simp] theorem State.setHandle_cur (s : State) (k : Nat) (x : Handle) : (s.setHandle k x).cur = s.cur := rfl
@[simp] theorem State.setHandle_curB (s : State) (k : Nat) (x : Handle) : (s.setHandle k x).curB = s.curB := rfl
@[simp] theorem State.setHandle_lat (s : State) (k : Nat) (x : Handle) : (s.setHandle k x).lat = s.lat := rfl
@[simp] theorem State.setHandle_picked (s : State) (k : Nat) (x : Handle) : (s.setHandle k x).picked = s.picked := rfl
@[simp] theorem State.setHandle_held (s : State) (k : Nat) (x : Handle) : (s.setHandle k x).held = s.held := rfl
@[simp] theorem State.setHandle_inputs (s : State) (k : Nat) (x : Handle) : (s.setHandle k x).inputs = s.inputs := rfl
@[simp] theorem State.setHandle_freeCtr (s : State) (k : Nat) (x : Handle) : (s.setHandle k x).freeCtr = s.freeCtr := rfl
@[simp] theorem State.setHandle_seq (s : State) (k : Nat) (x : Handle) : (s.setHandle k x).seq = s.seq := rfl
@[simp] theorem State.setHandle_nextId (s : State) (k : Nat) (x : Handle) : (s.setHandle k x).nextId = s.nextId := rfl
@[simp] theorem State.setHandle_rrCore (s : State) (k : Nat) (x : Handle) : (s.setHandle k x).rrCore = s.rrCore := rfl
@[simp] theorem State.setHandle_cregOld (s : State) (k : Nat) (x : Handle) : (s.setHandle k x).cregOld = s.cregOld := rfl
@[simp] theorem State.setHandle_image (s : State) (k : Nat) (x : Handle) : (s.setHandle k x).image = s.image := rfl
@[simp] theorem State.setHandle_draws (s : State) (k : Nat) (x : Handle) : (s.setHandle k x).draws = s.draws := rfl
@[simp] theorem State.setHandle_drainSel (s : State) (k : Nat) (x : Handle) : (s.setHandle k x).drainSel = s.drainSel := rfl
@[simp] theorem State.setHandle_answer (s : State) (k : Nat) (x : Handle) : (s.setHandle k x).answer = s.answer := rfl

/-! setLaunch -/

@[simp] theorem State.setLaunch_mem (s : State) (k : Nat) (x : Launch) : (s.setLaunch k x).mem = s.mem := rfl
@[simp] theorem State.setLaunch_mpois (s : State) (k : Nat) (x : Launch) : (s.setLaunch k x).mpois = s.mpois := rfl
@[simp] theorem State.setLaunch_creg (s : State) (k : Nat) (x : Launch) : (s.setLaunch k x).creg = s.creg := rfl
@[simp] theorem State.setLaunch_preg (s : State) (k : Nat) (x : Launch) : (s.setLaunch k x).preg = s.preg := rfl
@[simp] theorem State.setLaunch_bar (s : State) (k : Nat) (x : Launch) : (s.setLaunch k x).bar = s.bar := rfl
@[simp] theorem State.setLaunch_msix (s : State) (k : Nat) (x : Launch) : (s.setLaunch k x).msix = s.msix := rfl
@[simp] theorem State.setLaunch_therm (s : State) (k : Nat) (x : Launch) : (s.setLaunch k x).therm = s.therm := rfl
@[simp] theorem State.setLaunch_groups (s : State) (k : Nat) (x : Launch) : (s.setLaunch k x).groups = s.groups := rfl
@[simp] theorem State.setLaunch_teams (s : State) (k : Nat) (x : Launch) : (s.setLaunch k x).teams = s.teams := rfl
@[simp] theorem State.setLaunch_clusters (s : State) (k : Nat) (x : Launch) : (s.setLaunch k x).clusters = s.clusters := rfl
@[simp] theorem State.setLaunch_cores (s : State) (k : Nat) (x : Launch) : (s.setLaunch k x).cores = s.cores := rfl
@[simp] theorem State.setLaunch_dies (s : State) (k : Nat) (x : Launch) : (s.setLaunch k x).dies = s.dies := rfl
@[simp] theorem State.setLaunch_copies (s : State) (k : Nat) (x : Launch) : (s.setLaunch k x).copies = s.copies := rfl
@[simp] theorem State.setLaunch_mats (s : State) (k : Nat) (x : Launch) : (s.setLaunch k x).mats = s.mats := rfl
@[simp] theorem State.setLaunch_batches (s : State) (k : Nat) (x : Launch) : (s.setLaunch k x).batches = s.batches := rfl
@[simp] theorem State.setLaunch_mills (s : State) (k : Nat) (x : Launch) : (s.setLaunch k x).mills = s.mills := rfl
@[simp] theorem State.setLaunch_arrivals (s : State) (k : Nat) (x : Launch) : (s.setLaunch k x).arrivals = s.arrivals := rfl
@[simp] theorem State.setLaunch_queues (s : State) (k : Nat) (x : Launch) : (s.setLaunch k x).queues = s.queues := rfl
@[simp] theorem State.setLaunch_handles (s : State) (k : Nat) (x : Launch) : (s.setLaunch k x).handles = s.handles := rfl
@[simp] theorem State.setLaunch_faultQ (s : State) (k : Nat) (x : Launch) : (s.setLaunch k x).faultQ = s.faultQ := rfl
@[simp] theorem State.setLaunch_uops (s : State) (k : Nat) (x : Launch) : (s.setLaunch k x).uops = s.uops := rfl
@[simp] theorem State.setLaunch_logs (s : State) (k : Nat) (x : Launch) : (s.setLaunch k x).logs = s.logs := rfl
@[simp] theorem State.setLaunch_appends (s : State) (k : Nat) (x : Launch) : (s.setLaunch k x).appends = s.appends := rfl
@[simp] theorem State.setLaunch_trans (s : State) (k : Nat) (x : Launch) : (s.setLaunch k x).trans = s.trans := rfl
@[simp] theorem State.setLaunch_saved (s : State) (k : Nat) (x : Launch) : (s.setLaunch k x).saved = s.saved := rfl
@[simp] theorem State.setLaunch_jobs (s : State) (k : Nat) (x : Launch) : (s.setLaunch k x).jobs = s.jobs := rfl
@[simp] theorem State.setLaunch_files (s : State) (k : Nat) (x : Launch) : (s.setLaunch k x).files = s.files := rfl
@[simp] theorem State.setLaunch_repairs (s : State) (k : Nat) (x : Launch) : (s.setLaunch k x).repairs = s.repairs := rfl
@[simp] theorem State.setLaunch_absent (s : State) (k : Nat) (x : Launch) : (s.setLaunch k x).absent = s.absent := rfl
@[simp] theorem State.setLaunch_sparesUsed (s : State) (k : Nat) (x : Launch) : (s.setLaunch k x).sparesUsed = s.sparesUsed := rfl
@[simp] theorem State.setLaunch_time (s : State) (k : Nat) (x : Launch) : (s.setLaunch k x).time = s.time := rfl
@[simp] theorem State.setLaunch_cur (s : State) (k : Nat) (x : Launch) : (s.setLaunch k x).cur = s.cur := rfl
@[simp] theorem State.setLaunch_curB (s : State) (k : Nat) (x : Launch) : (s.setLaunch k x).curB = s.curB := rfl
@[simp] theorem State.setLaunch_lat (s : State) (k : Nat) (x : Launch) : (s.setLaunch k x).lat = s.lat := rfl
@[simp] theorem State.setLaunch_picked (s : State) (k : Nat) (x : Launch) : (s.setLaunch k x).picked = s.picked := rfl
@[simp] theorem State.setLaunch_held (s : State) (k : Nat) (x : Launch) : (s.setLaunch k x).held = s.held := rfl
@[simp] theorem State.setLaunch_inputs (s : State) (k : Nat) (x : Launch) : (s.setLaunch k x).inputs = s.inputs := rfl
@[simp] theorem State.setLaunch_freeCtr (s : State) (k : Nat) (x : Launch) : (s.setLaunch k x).freeCtr = s.freeCtr := rfl
@[simp] theorem State.setLaunch_seq (s : State) (k : Nat) (x : Launch) : (s.setLaunch k x).seq = s.seq := rfl
@[simp] theorem State.setLaunch_nextId (s : State) (k : Nat) (x : Launch) : (s.setLaunch k x).nextId = s.nextId := rfl
@[simp] theorem State.setLaunch_rrCore (s : State) (k : Nat) (x : Launch) : (s.setLaunch k x).rrCore = s.rrCore := rfl
@[simp] theorem State.setLaunch_cregOld (s : State) (k : Nat) (x : Launch) : (s.setLaunch k x).cregOld = s.cregOld := rfl
@[simp] theorem State.setLaunch_image (s : State) (k : Nat) (x : Launch) : (s.setLaunch k x).image = s.image := rfl
@[simp] theorem State.setLaunch_draws (s : State) (k : Nat) (x : Launch) : (s.setLaunch k x).draws = s.draws := rfl
@[simp] theorem State.setLaunch_drainSel (s : State) (k : Nat) (x : Launch) : (s.setLaunch k x).drainSel = s.drainSel := rfl
@[simp] theorem State.setLaunch_answer (s : State) (k : Nat) (x : Launch) : (s.setLaunch k x).answer = s.answer := rfl

/-! setLog -/

@[simp] theorem State.setLog_mem (s : State) (k : Nat) (x : Log) : (s.setLog k x).mem = s.mem := rfl
@[simp] theorem State.setLog_mpois (s : State) (k : Nat) (x : Log) : (s.setLog k x).mpois = s.mpois := rfl
@[simp] theorem State.setLog_creg (s : State) (k : Nat) (x : Log) : (s.setLog k x).creg = s.creg := rfl
@[simp] theorem State.setLog_preg (s : State) (k : Nat) (x : Log) : (s.setLog k x).preg = s.preg := rfl
@[simp] theorem State.setLog_bar (s : State) (k : Nat) (x : Log) : (s.setLog k x).bar = s.bar := rfl
@[simp] theorem State.setLog_msix (s : State) (k : Nat) (x : Log) : (s.setLog k x).msix = s.msix := rfl
@[simp] theorem State.setLog_therm (s : State) (k : Nat) (x : Log) : (s.setLog k x).therm = s.therm := rfl
@[simp] theorem State.setLog_groups (s : State) (k : Nat) (x : Log) : (s.setLog k x).groups = s.groups := rfl
@[simp] theorem State.setLog_teams (s : State) (k : Nat) (x : Log) : (s.setLog k x).teams = s.teams := rfl
@[simp] theorem State.setLog_clusters (s : State) (k : Nat) (x : Log) : (s.setLog k x).clusters = s.clusters := rfl
@[simp] theorem State.setLog_cores (s : State) (k : Nat) (x : Log) : (s.setLog k x).cores = s.cores := rfl
@[simp] theorem State.setLog_dies (s : State) (k : Nat) (x : Log) : (s.setLog k x).dies = s.dies := rfl
@[simp] theorem State.setLog_copies (s : State) (k : Nat) (x : Log) : (s.setLog k x).copies = s.copies := rfl
@[simp] theorem State.setLog_mats (s : State) (k : Nat) (x : Log) : (s.setLog k x).mats = s.mats := rfl
@[simp] theorem State.setLog_batches (s : State) (k : Nat) (x : Log) : (s.setLog k x).batches = s.batches := rfl
@[simp] theorem State.setLog_mills (s : State) (k : Nat) (x : Log) : (s.setLog k x).mills = s.mills := rfl
@[simp] theorem State.setLog_arrivals (s : State) (k : Nat) (x : Log) : (s.setLog k x).arrivals = s.arrivals := rfl
@[simp] theorem State.setLog_queues (s : State) (k : Nat) (x : Log) : (s.setLog k x).queues = s.queues := rfl
@[simp] theorem State.setLog_handles (s : State) (k : Nat) (x : Log) : (s.setLog k x).handles = s.handles := rfl
@[simp] theorem State.setLog_launches (s : State) (k : Nat) (x : Log) : (s.setLog k x).launches = s.launches := rfl
@[simp] theorem State.setLog_faultQ (s : State) (k : Nat) (x : Log) : (s.setLog k x).faultQ = s.faultQ := rfl
@[simp] theorem State.setLog_uops (s : State) (k : Nat) (x : Log) : (s.setLog k x).uops = s.uops := rfl
@[simp] theorem State.setLog_appends (s : State) (k : Nat) (x : Log) : (s.setLog k x).appends = s.appends := rfl
@[simp] theorem State.setLog_trans (s : State) (k : Nat) (x : Log) : (s.setLog k x).trans = s.trans := rfl
@[simp] theorem State.setLog_saved (s : State) (k : Nat) (x : Log) : (s.setLog k x).saved = s.saved := rfl
@[simp] theorem State.setLog_jobs (s : State) (k : Nat) (x : Log) : (s.setLog k x).jobs = s.jobs := rfl
@[simp] theorem State.setLog_files (s : State) (k : Nat) (x : Log) : (s.setLog k x).files = s.files := rfl
@[simp] theorem State.setLog_repairs (s : State) (k : Nat) (x : Log) : (s.setLog k x).repairs = s.repairs := rfl
@[simp] theorem State.setLog_absent (s : State) (k : Nat) (x : Log) : (s.setLog k x).absent = s.absent := rfl
@[simp] theorem State.setLog_sparesUsed (s : State) (k : Nat) (x : Log) : (s.setLog k x).sparesUsed = s.sparesUsed := rfl
@[simp] theorem State.setLog_time (s : State) (k : Nat) (x : Log) : (s.setLog k x).time = s.time := rfl
@[simp] theorem State.setLog_cur (s : State) (k : Nat) (x : Log) : (s.setLog k x).cur = s.cur := rfl
@[simp] theorem State.setLog_curB (s : State) (k : Nat) (x : Log) : (s.setLog k x).curB = s.curB := rfl
@[simp] theorem State.setLog_lat (s : State) (k : Nat) (x : Log) : (s.setLog k x).lat = s.lat := rfl
@[simp] theorem State.setLog_picked (s : State) (k : Nat) (x : Log) : (s.setLog k x).picked = s.picked := rfl
@[simp] theorem State.setLog_held (s : State) (k : Nat) (x : Log) : (s.setLog k x).held = s.held := rfl
@[simp] theorem State.setLog_inputs (s : State) (k : Nat) (x : Log) : (s.setLog k x).inputs = s.inputs := rfl
@[simp] theorem State.setLog_freeCtr (s : State) (k : Nat) (x : Log) : (s.setLog k x).freeCtr = s.freeCtr := rfl
@[simp] theorem State.setLog_seq (s : State) (k : Nat) (x : Log) : (s.setLog k x).seq = s.seq := rfl
@[simp] theorem State.setLog_nextId (s : State) (k : Nat) (x : Log) : (s.setLog k x).nextId = s.nextId := rfl
@[simp] theorem State.setLog_rrCore (s : State) (k : Nat) (x : Log) : (s.setLog k x).rrCore = s.rrCore := rfl
@[simp] theorem State.setLog_cregOld (s : State) (k : Nat) (x : Log) : (s.setLog k x).cregOld = s.cregOld := rfl
@[simp] theorem State.setLog_image (s : State) (k : Nat) (x : Log) : (s.setLog k x).image = s.image := rfl
@[simp] theorem State.setLog_draws (s : State) (k : Nat) (x : Log) : (s.setLog k x).draws = s.draws := rfl
@[simp] theorem State.setLog_drainSel (s : State) (k : Nat) (x : Log) : (s.setLog k x).drainSel = s.drainSel := rfl
@[simp] theorem State.setLog_answer (s : State) (k : Nat) (x : Log) : (s.setLog k x).answer = s.answer := rfl

/-! setAppend -/

@[simp] theorem State.setAppend_mem (s : State) (k : Nat) (x : Append) : (s.setAppend k x).mem = s.mem := rfl
@[simp] theorem State.setAppend_mpois (s : State) (k : Nat) (x : Append) : (s.setAppend k x).mpois = s.mpois := rfl
@[simp] theorem State.setAppend_creg (s : State) (k : Nat) (x : Append) : (s.setAppend k x).creg = s.creg := rfl
@[simp] theorem State.setAppend_preg (s : State) (k : Nat) (x : Append) : (s.setAppend k x).preg = s.preg := rfl
@[simp] theorem State.setAppend_bar (s : State) (k : Nat) (x : Append) : (s.setAppend k x).bar = s.bar := rfl
@[simp] theorem State.setAppend_msix (s : State) (k : Nat) (x : Append) : (s.setAppend k x).msix = s.msix := rfl
@[simp] theorem State.setAppend_therm (s : State) (k : Nat) (x : Append) : (s.setAppend k x).therm = s.therm := rfl
@[simp] theorem State.setAppend_groups (s : State) (k : Nat) (x : Append) : (s.setAppend k x).groups = s.groups := rfl
@[simp] theorem State.setAppend_teams (s : State) (k : Nat) (x : Append) : (s.setAppend k x).teams = s.teams := rfl
@[simp] theorem State.setAppend_clusters (s : State) (k : Nat) (x : Append) : (s.setAppend k x).clusters = s.clusters := rfl
@[simp] theorem State.setAppend_cores (s : State) (k : Nat) (x : Append) : (s.setAppend k x).cores = s.cores := rfl
@[simp] theorem State.setAppend_dies (s : State) (k : Nat) (x : Append) : (s.setAppend k x).dies = s.dies := rfl
@[simp] theorem State.setAppend_copies (s : State) (k : Nat) (x : Append) : (s.setAppend k x).copies = s.copies := rfl
@[simp] theorem State.setAppend_mats (s : State) (k : Nat) (x : Append) : (s.setAppend k x).mats = s.mats := rfl
@[simp] theorem State.setAppend_batches (s : State) (k : Nat) (x : Append) : (s.setAppend k x).batches = s.batches := rfl
@[simp] theorem State.setAppend_mills (s : State) (k : Nat) (x : Append) : (s.setAppend k x).mills = s.mills := rfl
@[simp] theorem State.setAppend_arrivals (s : State) (k : Nat) (x : Append) : (s.setAppend k x).arrivals = s.arrivals := rfl
@[simp] theorem State.setAppend_queues (s : State) (k : Nat) (x : Append) : (s.setAppend k x).queues = s.queues := rfl
@[simp] theorem State.setAppend_handles (s : State) (k : Nat) (x : Append) : (s.setAppend k x).handles = s.handles := rfl
@[simp] theorem State.setAppend_launches (s : State) (k : Nat) (x : Append) : (s.setAppend k x).launches = s.launches := rfl
@[simp] theorem State.setAppend_faultQ (s : State) (k : Nat) (x : Append) : (s.setAppend k x).faultQ = s.faultQ := rfl
@[simp] theorem State.setAppend_uops (s : State) (k : Nat) (x : Append) : (s.setAppend k x).uops = s.uops := rfl
@[simp] theorem State.setAppend_logs (s : State) (k : Nat) (x : Append) : (s.setAppend k x).logs = s.logs := rfl
@[simp] theorem State.setAppend_trans (s : State) (k : Nat) (x : Append) : (s.setAppend k x).trans = s.trans := rfl
@[simp] theorem State.setAppend_saved (s : State) (k : Nat) (x : Append) : (s.setAppend k x).saved = s.saved := rfl
@[simp] theorem State.setAppend_jobs (s : State) (k : Nat) (x : Append) : (s.setAppend k x).jobs = s.jobs := rfl
@[simp] theorem State.setAppend_files (s : State) (k : Nat) (x : Append) : (s.setAppend k x).files = s.files := rfl
@[simp] theorem State.setAppend_repairs (s : State) (k : Nat) (x : Append) : (s.setAppend k x).repairs = s.repairs := rfl
@[simp] theorem State.setAppend_absent (s : State) (k : Nat) (x : Append) : (s.setAppend k x).absent = s.absent := rfl
@[simp] theorem State.setAppend_sparesUsed (s : State) (k : Nat) (x : Append) : (s.setAppend k x).sparesUsed = s.sparesUsed := rfl
@[simp] theorem State.setAppend_time (s : State) (k : Nat) (x : Append) : (s.setAppend k x).time = s.time := rfl
@[simp] theorem State.setAppend_cur (s : State) (k : Nat) (x : Append) : (s.setAppend k x).cur = s.cur := rfl
@[simp] theorem State.setAppend_curB (s : State) (k : Nat) (x : Append) : (s.setAppend k x).curB = s.curB := rfl
@[simp] theorem State.setAppend_lat (s : State) (k : Nat) (x : Append) : (s.setAppend k x).lat = s.lat := rfl
@[simp] theorem State.setAppend_picked (s : State) (k : Nat) (x : Append) : (s.setAppend k x).picked = s.picked := rfl
@[simp] theorem State.setAppend_held (s : State) (k : Nat) (x : Append) : (s.setAppend k x).held = s.held := rfl
@[simp] theorem State.setAppend_inputs (s : State) (k : Nat) (x : Append) : (s.setAppend k x).inputs = s.inputs := rfl
@[simp] theorem State.setAppend_freeCtr (s : State) (k : Nat) (x : Append) : (s.setAppend k x).freeCtr = s.freeCtr := rfl
@[simp] theorem State.setAppend_seq (s : State) (k : Nat) (x : Append) : (s.setAppend k x).seq = s.seq := rfl
@[simp] theorem State.setAppend_nextId (s : State) (k : Nat) (x : Append) : (s.setAppend k x).nextId = s.nextId := rfl
@[simp] theorem State.setAppend_rrCore (s : State) (k : Nat) (x : Append) : (s.setAppend k x).rrCore = s.rrCore := rfl
@[simp] theorem State.setAppend_cregOld (s : State) (k : Nat) (x : Append) : (s.setAppend k x).cregOld = s.cregOld := rfl
@[simp] theorem State.setAppend_image (s : State) (k : Nat) (x : Append) : (s.setAppend k x).image = s.image := rfl
@[simp] theorem State.setAppend_draws (s : State) (k : Nat) (x : Append) : (s.setAppend k x).draws = s.draws := rfl
@[simp] theorem State.setAppend_drainSel (s : State) (k : Nat) (x : Append) : (s.setAppend k x).drainSel = s.drainSel := rfl
@[simp] theorem State.setAppend_answer (s : State) (k : Nat) (x : Append) : (s.setAppend k x).answer = s.answer := rfl

/-! setCr -/

@[simp] theorem State.setCr_mem (s : State) (c i : Nat) (x : Word) : (s.setCr c i x).mem = s.mem := rfl
@[simp] theorem State.setCr_mpois (s : State) (c i : Nat) (x : Word) : (s.setCr c i x).mpois = s.mpois := rfl
@[simp] theorem State.setCr_preg (s : State) (c i : Nat) (x : Word) : (s.setCr c i x).preg = s.preg := rfl
@[simp] theorem State.setCr_bar (s : State) (c i : Nat) (x : Word) : (s.setCr c i x).bar = s.bar := rfl
@[simp] theorem State.setCr_msix (s : State) (c i : Nat) (x : Word) : (s.setCr c i x).msix = s.msix := rfl
@[simp] theorem State.setCr_therm (s : State) (c i : Nat) (x : Word) : (s.setCr c i x).therm = s.therm := rfl
@[simp] theorem State.setCr_groups (s : State) (c i : Nat) (x : Word) : (s.setCr c i x).groups = s.groups := rfl
@[simp] theorem State.setCr_teams (s : State) (c i : Nat) (x : Word) : (s.setCr c i x).teams = s.teams := rfl
@[simp] theorem State.setCr_clusters (s : State) (c i : Nat) (x : Word) : (s.setCr c i x).clusters = s.clusters := rfl
@[simp] theorem State.setCr_cores (s : State) (c i : Nat) (x : Word) : (s.setCr c i x).cores = s.cores := rfl
@[simp] theorem State.setCr_dies (s : State) (c i : Nat) (x : Word) : (s.setCr c i x).dies = s.dies := rfl
@[simp] theorem State.setCr_copies (s : State) (c i : Nat) (x : Word) : (s.setCr c i x).copies = s.copies := rfl
@[simp] theorem State.setCr_mats (s : State) (c i : Nat) (x : Word) : (s.setCr c i x).mats = s.mats := rfl
@[simp] theorem State.setCr_batches (s : State) (c i : Nat) (x : Word) : (s.setCr c i x).batches = s.batches := rfl
@[simp] theorem State.setCr_mills (s : State) (c i : Nat) (x : Word) : (s.setCr c i x).mills = s.mills := rfl
@[simp] theorem State.setCr_arrivals (s : State) (c i : Nat) (x : Word) : (s.setCr c i x).arrivals = s.arrivals := rfl
@[simp] theorem State.setCr_queues (s : State) (c i : Nat) (x : Word) : (s.setCr c i x).queues = s.queues := rfl
@[simp] theorem State.setCr_handles (s : State) (c i : Nat) (x : Word) : (s.setCr c i x).handles = s.handles := rfl
@[simp] theorem State.setCr_launches (s : State) (c i : Nat) (x : Word) : (s.setCr c i x).launches = s.launches := rfl
@[simp] theorem State.setCr_faultQ (s : State) (c i : Nat) (x : Word) : (s.setCr c i x).faultQ = s.faultQ := rfl
@[simp] theorem State.setCr_uops (s : State) (c i : Nat) (x : Word) : (s.setCr c i x).uops = s.uops := rfl
@[simp] theorem State.setCr_logs (s : State) (c i : Nat) (x : Word) : (s.setCr c i x).logs = s.logs := rfl
@[simp] theorem State.setCr_appends (s : State) (c i : Nat) (x : Word) : (s.setCr c i x).appends = s.appends := rfl
@[simp] theorem State.setCr_trans (s : State) (c i : Nat) (x : Word) : (s.setCr c i x).trans = s.trans := rfl
@[simp] theorem State.setCr_saved (s : State) (c i : Nat) (x : Word) : (s.setCr c i x).saved = s.saved := rfl
@[simp] theorem State.setCr_jobs (s : State) (c i : Nat) (x : Word) : (s.setCr c i x).jobs = s.jobs := rfl
@[simp] theorem State.setCr_files (s : State) (c i : Nat) (x : Word) : (s.setCr c i x).files = s.files := rfl
@[simp] theorem State.setCr_repairs (s : State) (c i : Nat) (x : Word) : (s.setCr c i x).repairs = s.repairs := rfl
@[simp] theorem State.setCr_absent (s : State) (c i : Nat) (x : Word) : (s.setCr c i x).absent = s.absent := rfl
@[simp] theorem State.setCr_sparesUsed (s : State) (c i : Nat) (x : Word) : (s.setCr c i x).sparesUsed = s.sparesUsed := rfl
@[simp] theorem State.setCr_time (s : State) (c i : Nat) (x : Word) : (s.setCr c i x).time = s.time := rfl
@[simp] theorem State.setCr_cur (s : State) (c i : Nat) (x : Word) : (s.setCr c i x).cur = s.cur := rfl
@[simp] theorem State.setCr_curB (s : State) (c i : Nat) (x : Word) : (s.setCr c i x).curB = s.curB := rfl
@[simp] theorem State.setCr_lat (s : State) (c i : Nat) (x : Word) : (s.setCr c i x).lat = s.lat := rfl
@[simp] theorem State.setCr_picked (s : State) (c i : Nat) (x : Word) : (s.setCr c i x).picked = s.picked := rfl
@[simp] theorem State.setCr_held (s : State) (c i : Nat) (x : Word) : (s.setCr c i x).held = s.held := rfl
@[simp] theorem State.setCr_inputs (s : State) (c i : Nat) (x : Word) : (s.setCr c i x).inputs = s.inputs := rfl
@[simp] theorem State.setCr_freeCtr (s : State) (c i : Nat) (x : Word) : (s.setCr c i x).freeCtr = s.freeCtr := rfl
@[simp] theorem State.setCr_seq (s : State) (c i : Nat) (x : Word) : (s.setCr c i x).seq = s.seq := rfl
@[simp] theorem State.setCr_nextId (s : State) (c i : Nat) (x : Word) : (s.setCr c i x).nextId = s.nextId := rfl
@[simp] theorem State.setCr_rrCore (s : State) (c i : Nat) (x : Word) : (s.setCr c i x).rrCore = s.rrCore := rfl
@[simp] theorem State.setCr_cregOld (s : State) (c i : Nat) (x : Word) : (s.setCr c i x).cregOld = s.cregOld := rfl
@[simp] theorem State.setCr_image (s : State) (c i : Nat) (x : Word) : (s.setCr c i x).image = s.image := rfl
@[simp] theorem State.setCr_draws (s : State) (c i : Nat) (x : Word) : (s.setCr c i x).draws = s.draws := rfl
@[simp] theorem State.setCr_drainSel (s : State) (c i : Nat) (x : Word) : (s.setCr c i x).drainSel = s.drainSel := rfl
@[simp] theorem State.setCr_answer (s : State) (c i : Nat) (x : Word) : (s.setCr c i x).answer = s.answer := rfl

/-! setMemByte -/

@[simp] theorem State.setMemByte_mpois (s : State) (k : Nat) (x : Byte) : (s.setMemByte k x).mpois = s.mpois := rfl
@[simp] theorem State.setMemByte_creg (s : State) (k : Nat) (x : Byte) : (s.setMemByte k x).creg = s.creg := rfl
@[simp] theorem State.setMemByte_preg (s : State) (k : Nat) (x : Byte) : (s.setMemByte k x).preg = s.preg := rfl
@[simp] theorem State.setMemByte_bar (s : State) (k : Nat) (x : Byte) : (s.setMemByte k x).bar = s.bar := rfl
@[simp] theorem State.setMemByte_msix (s : State) (k : Nat) (x : Byte) : (s.setMemByte k x).msix = s.msix := rfl
@[simp] theorem State.setMemByte_therm (s : State) (k : Nat) (x : Byte) : (s.setMemByte k x).therm = s.therm := rfl
@[simp] theorem State.setMemByte_groups (s : State) (k : Nat) (x : Byte) : (s.setMemByte k x).groups = s.groups := rfl
@[simp] theorem State.setMemByte_teams (s : State) (k : Nat) (x : Byte) : (s.setMemByte k x).teams = s.teams := rfl
@[simp] theorem State.setMemByte_clusters (s : State) (k : Nat) (x : Byte) : (s.setMemByte k x).clusters = s.clusters := rfl
@[simp] theorem State.setMemByte_cores (s : State) (k : Nat) (x : Byte) : (s.setMemByte k x).cores = s.cores := rfl
@[simp] theorem State.setMemByte_dies (s : State) (k : Nat) (x : Byte) : (s.setMemByte k x).dies = s.dies := rfl
@[simp] theorem State.setMemByte_copies (s : State) (k : Nat) (x : Byte) : (s.setMemByte k x).copies = s.copies := rfl
@[simp] theorem State.setMemByte_mats (s : State) (k : Nat) (x : Byte) : (s.setMemByte k x).mats = s.mats := rfl
@[simp] theorem State.setMemByte_batches (s : State) (k : Nat) (x : Byte) : (s.setMemByte k x).batches = s.batches := rfl
@[simp] theorem State.setMemByte_mills (s : State) (k : Nat) (x : Byte) : (s.setMemByte k x).mills = s.mills := rfl
@[simp] theorem State.setMemByte_arrivals (s : State) (k : Nat) (x : Byte) : (s.setMemByte k x).arrivals = s.arrivals := rfl
@[simp] theorem State.setMemByte_queues (s : State) (k : Nat) (x : Byte) : (s.setMemByte k x).queues = s.queues := rfl
@[simp] theorem State.setMemByte_handles (s : State) (k : Nat) (x : Byte) : (s.setMemByte k x).handles = s.handles := rfl
@[simp] theorem State.setMemByte_launches (s : State) (k : Nat) (x : Byte) : (s.setMemByte k x).launches = s.launches := rfl
@[simp] theorem State.setMemByte_faultQ (s : State) (k : Nat) (x : Byte) : (s.setMemByte k x).faultQ = s.faultQ := rfl
@[simp] theorem State.setMemByte_uops (s : State) (k : Nat) (x : Byte) : (s.setMemByte k x).uops = s.uops := rfl
@[simp] theorem State.setMemByte_logs (s : State) (k : Nat) (x : Byte) : (s.setMemByte k x).logs = s.logs := rfl
@[simp] theorem State.setMemByte_appends (s : State) (k : Nat) (x : Byte) : (s.setMemByte k x).appends = s.appends := rfl
@[simp] theorem State.setMemByte_trans (s : State) (k : Nat) (x : Byte) : (s.setMemByte k x).trans = s.trans := rfl
@[simp] theorem State.setMemByte_saved (s : State) (k : Nat) (x : Byte) : (s.setMemByte k x).saved = s.saved := rfl
@[simp] theorem State.setMemByte_jobs (s : State) (k : Nat) (x : Byte) : (s.setMemByte k x).jobs = s.jobs := rfl
@[simp] theorem State.setMemByte_files (s : State) (k : Nat) (x : Byte) : (s.setMemByte k x).files = s.files := rfl
@[simp] theorem State.setMemByte_repairs (s : State) (k : Nat) (x : Byte) : (s.setMemByte k x).repairs = s.repairs := rfl
@[simp] theorem State.setMemByte_absent (s : State) (k : Nat) (x : Byte) : (s.setMemByte k x).absent = s.absent := rfl
@[simp] theorem State.setMemByte_sparesUsed (s : State) (k : Nat) (x : Byte) : (s.setMemByte k x).sparesUsed = s.sparesUsed := rfl
@[simp] theorem State.setMemByte_time (s : State) (k : Nat) (x : Byte) : (s.setMemByte k x).time = s.time := rfl
@[simp] theorem State.setMemByte_cur (s : State) (k : Nat) (x : Byte) : (s.setMemByte k x).cur = s.cur := rfl
@[simp] theorem State.setMemByte_curB (s : State) (k : Nat) (x : Byte) : (s.setMemByte k x).curB = s.curB := rfl
@[simp] theorem State.setMemByte_lat (s : State) (k : Nat) (x : Byte) : (s.setMemByte k x).lat = s.lat := rfl
@[simp] theorem State.setMemByte_picked (s : State) (k : Nat) (x : Byte) : (s.setMemByte k x).picked = s.picked := rfl
@[simp] theorem State.setMemByte_held (s : State) (k : Nat) (x : Byte) : (s.setMemByte k x).held = s.held := rfl
@[simp] theorem State.setMemByte_inputs (s : State) (k : Nat) (x : Byte) : (s.setMemByte k x).inputs = s.inputs := rfl
@[simp] theorem State.setMemByte_freeCtr (s : State) (k : Nat) (x : Byte) : (s.setMemByte k x).freeCtr = s.freeCtr := rfl
@[simp] theorem State.setMemByte_seq (s : State) (k : Nat) (x : Byte) : (s.setMemByte k x).seq = s.seq := rfl
@[simp] theorem State.setMemByte_nextId (s : State) (k : Nat) (x : Byte) : (s.setMemByte k x).nextId = s.nextId := rfl
@[simp] theorem State.setMemByte_rrCore (s : State) (k : Nat) (x : Byte) : (s.setMemByte k x).rrCore = s.rrCore := rfl
@[simp] theorem State.setMemByte_cregOld (s : State) (k : Nat) (x : Byte) : (s.setMemByte k x).cregOld = s.cregOld := rfl
@[simp] theorem State.setMemByte_image (s : State) (k : Nat) (x : Byte) : (s.setMemByte k x).image = s.image := rfl
@[simp] theorem State.setMemByte_draws (s : State) (k : Nat) (x : Byte) : (s.setMemByte k x).draws = s.draws := rfl
@[simp] theorem State.setMemByte_drainSel (s : State) (k : Nat) (x : Byte) : (s.setMemByte k x).drainSel = s.drainSel := rfl
@[simp] theorem State.setMemByte_answer (s : State) (k : Nat) (x : Byte) : (s.setMemByte k x).answer = s.answer := rfl

/-! Reads of the tables after their updates. -/

theorem State.setGroup_group (s : State) (k j : Nat) (x : Group) :
    (s.setGroup k x).group j = if j = k then x else s.group j := SMap.getD_set _ _ _ _ _
@[simp] theorem State.setGroup_group_same (s : State) (k : Nat) (x : Group) : (s.setGroup k x).group k = x :=
  SMap.getD_set_same _ _ _ _
@[simp] theorem State.setGroup_team_read (s : State) (k : Nat) (x : Group) (j : Nat) : (s.setGroup k x).team j = s.team j := rfl
@[simp] theorem State.setGroup_cluster_read (s : State) (k : Nat) (x : Group) (j : Nat) : (s.setGroup k x).cluster j = s.cluster j := rfl
@[simp] theorem State.setGroup_coreAt_read (s : State) (k : Nat) (x : Group) (j : Nat) : (s.setGroup k x).coreAt j = s.coreAt j := rfl
@[simp] theorem State.setGroup_die_read (s : State) (k : Nat) (x : Group) (j : Nat) : (s.setGroup k x).die j = s.die j := rfl
@[simp] theorem State.setGroup_copy_read (s : State) (k : Nat) (x : Group) (j : Nat) : (s.setGroup k x).copy j = s.copy j := rfl
@[simp] theorem State.setGroup_mat_read (s : State) (k : Nat) (x : Group) (j : Nat) : (s.setGroup k x).mat j = s.mat j := rfl
@[simp] theorem State.setGroup_batch_read (s : State) (k : Nat) (x : Group) (j : Nat) : (s.setGroup k x).batch j = s.batch j := rfl
@[simp] theorem State.setGroup_mill_read (s : State) (k : Nat) (x : Group) (j : Nat) : (s.setGroup k x).mill j = s.mill j := rfl
@[simp] theorem State.setGroup_arrival_read (s : State) (k : Nat) (x : Group) (j : Nat) : (s.setGroup k x).arrival j = s.arrival j := rfl
@[simp] theorem State.setGroup_queue_read (s : State) (k : Nat) (x : Group) (j : Nat) : (s.setGroup k x).queue j = s.queue j := rfl
@[simp] theorem State.setGroup_handle_read (s : State) (k : Nat) (x : Group) (j : Nat) : (s.setGroup k x).handle j = s.handle j := rfl
@[simp] theorem State.setGroup_launch_read (s : State) (k : Nat) (x : Group) (j : Nat) : (s.setGroup k x).launch j = s.launch j := rfl
@[simp] theorem State.setGroup_log_read (s : State) (k : Nat) (x : Group) (j : Nat) : (s.setGroup k x).log j = s.log j := rfl
theorem State.setTeam_team (s : State) (k j : Nat) (x : Team) :
    (s.setTeam k x).team j = if j = k then x else s.team j := SMap.getD_set _ _ _ _ _
@[simp] theorem State.setTeam_team_same (s : State) (k : Nat) (x : Team) : (s.setTeam k x).team k = x :=
  SMap.getD_set_same _ _ _ _
@[simp] theorem State.setTeam_group_read (s : State) (k : Nat) (x : Team) (j : Nat) : (s.setTeam k x).group j = s.group j := rfl
@[simp] theorem State.setTeam_cluster_read (s : State) (k : Nat) (x : Team) (j : Nat) : (s.setTeam k x).cluster j = s.cluster j := rfl
@[simp] theorem State.setTeam_coreAt_read (s : State) (k : Nat) (x : Team) (j : Nat) : (s.setTeam k x).coreAt j = s.coreAt j := rfl
@[simp] theorem State.setTeam_die_read (s : State) (k : Nat) (x : Team) (j : Nat) : (s.setTeam k x).die j = s.die j := rfl
@[simp] theorem State.setTeam_copy_read (s : State) (k : Nat) (x : Team) (j : Nat) : (s.setTeam k x).copy j = s.copy j := rfl
@[simp] theorem State.setTeam_mat_read (s : State) (k : Nat) (x : Team) (j : Nat) : (s.setTeam k x).mat j = s.mat j := rfl
@[simp] theorem State.setTeam_batch_read (s : State) (k : Nat) (x : Team) (j : Nat) : (s.setTeam k x).batch j = s.batch j := rfl
@[simp] theorem State.setTeam_mill_read (s : State) (k : Nat) (x : Team) (j : Nat) : (s.setTeam k x).mill j = s.mill j := rfl
@[simp] theorem State.setTeam_arrival_read (s : State) (k : Nat) (x : Team) (j : Nat) : (s.setTeam k x).arrival j = s.arrival j := rfl
@[simp] theorem State.setTeam_queue_read (s : State) (k : Nat) (x : Team) (j : Nat) : (s.setTeam k x).queue j = s.queue j := rfl
@[simp] theorem State.setTeam_handle_read (s : State) (k : Nat) (x : Team) (j : Nat) : (s.setTeam k x).handle j = s.handle j := rfl
@[simp] theorem State.setTeam_launch_read (s : State) (k : Nat) (x : Team) (j : Nat) : (s.setTeam k x).launch j = s.launch j := rfl
@[simp] theorem State.setTeam_log_read (s : State) (k : Nat) (x : Team) (j : Nat) : (s.setTeam k x).log j = s.log j := rfl
theorem State.setCluster_cluster (s : State) (k j : Nat) (x : Cluster) :
    (s.setCluster k x).cluster j = if j = k then x else s.cluster j := SMap.getD_set _ _ _ _ _
@[simp] theorem State.setCluster_cluster_same (s : State) (k : Nat) (x : Cluster) : (s.setCluster k x).cluster k = x :=
  SMap.getD_set_same _ _ _ _
@[simp] theorem State.setCluster_group_read (s : State) (k : Nat) (x : Cluster) (j : Nat) : (s.setCluster k x).group j = s.group j := rfl
@[simp] theorem State.setCluster_team_read (s : State) (k : Nat) (x : Cluster) (j : Nat) : (s.setCluster k x).team j = s.team j := rfl
@[simp] theorem State.setCluster_coreAt_read (s : State) (k : Nat) (x : Cluster) (j : Nat) : (s.setCluster k x).coreAt j = s.coreAt j := rfl
@[simp] theorem State.setCluster_die_read (s : State) (k : Nat) (x : Cluster) (j : Nat) : (s.setCluster k x).die j = s.die j := rfl
@[simp] theorem State.setCluster_copy_read (s : State) (k : Nat) (x : Cluster) (j : Nat) : (s.setCluster k x).copy j = s.copy j := rfl
@[simp] theorem State.setCluster_mat_read (s : State) (k : Nat) (x : Cluster) (j : Nat) : (s.setCluster k x).mat j = s.mat j := rfl
@[simp] theorem State.setCluster_batch_read (s : State) (k : Nat) (x : Cluster) (j : Nat) : (s.setCluster k x).batch j = s.batch j := rfl
@[simp] theorem State.setCluster_mill_read (s : State) (k : Nat) (x : Cluster) (j : Nat) : (s.setCluster k x).mill j = s.mill j := rfl
@[simp] theorem State.setCluster_arrival_read (s : State) (k : Nat) (x : Cluster) (j : Nat) : (s.setCluster k x).arrival j = s.arrival j := rfl
@[simp] theorem State.setCluster_queue_read (s : State) (k : Nat) (x : Cluster) (j : Nat) : (s.setCluster k x).queue j = s.queue j := rfl
@[simp] theorem State.setCluster_handle_read (s : State) (k : Nat) (x : Cluster) (j : Nat) : (s.setCluster k x).handle j = s.handle j := rfl
@[simp] theorem State.setCluster_launch_read (s : State) (k : Nat) (x : Cluster) (j : Nat) : (s.setCluster k x).launch j = s.launch j := rfl
@[simp] theorem State.setCluster_log_read (s : State) (k : Nat) (x : Cluster) (j : Nat) : (s.setCluster k x).log j = s.log j := rfl
theorem State.setCore_coreAt (s : State) (k j : Nat) (x : Core) :
    (s.setCore k x).coreAt j = if j = k then x else s.coreAt j := SMap.getD_set _ _ _ _ _
@[simp] theorem State.setCore_coreAt_same (s : State) (k : Nat) (x : Core) : (s.setCore k x).coreAt k = x :=
  SMap.getD_set_same _ _ _ _
@[simp] theorem State.setCore_group_read (s : State) (k : Nat) (x : Core) (j : Nat) : (s.setCore k x).group j = s.group j := rfl
@[simp] theorem State.setCore_team_read (s : State) (k : Nat) (x : Core) (j : Nat) : (s.setCore k x).team j = s.team j := rfl
@[simp] theorem State.setCore_cluster_read (s : State) (k : Nat) (x : Core) (j : Nat) : (s.setCore k x).cluster j = s.cluster j := rfl
@[simp] theorem State.setCore_die_read (s : State) (k : Nat) (x : Core) (j : Nat) : (s.setCore k x).die j = s.die j := rfl
@[simp] theorem State.setCore_copy_read (s : State) (k : Nat) (x : Core) (j : Nat) : (s.setCore k x).copy j = s.copy j := rfl
@[simp] theorem State.setCore_mat_read (s : State) (k : Nat) (x : Core) (j : Nat) : (s.setCore k x).mat j = s.mat j := rfl
@[simp] theorem State.setCore_batch_read (s : State) (k : Nat) (x : Core) (j : Nat) : (s.setCore k x).batch j = s.batch j := rfl
@[simp] theorem State.setCore_mill_read (s : State) (k : Nat) (x : Core) (j : Nat) : (s.setCore k x).mill j = s.mill j := rfl
@[simp] theorem State.setCore_arrival_read (s : State) (k : Nat) (x : Core) (j : Nat) : (s.setCore k x).arrival j = s.arrival j := rfl
@[simp] theorem State.setCore_queue_read (s : State) (k : Nat) (x : Core) (j : Nat) : (s.setCore k x).queue j = s.queue j := rfl
@[simp] theorem State.setCore_handle_read (s : State) (k : Nat) (x : Core) (j : Nat) : (s.setCore k x).handle j = s.handle j := rfl
@[simp] theorem State.setCore_launch_read (s : State) (k : Nat) (x : Core) (j : Nat) : (s.setCore k x).launch j = s.launch j := rfl
@[simp] theorem State.setCore_log_read (s : State) (k : Nat) (x : Core) (j : Nat) : (s.setCore k x).log j = s.log j := rfl
theorem State.setDie_die (s : State) (k j : Nat) (x : Die) :
    (s.setDie k x).die j = if j = k then x else s.die j := SMap.getD_set _ _ _ _ _
@[simp] theorem State.setDie_die_same (s : State) (k : Nat) (x : Die) : (s.setDie k x).die k = x :=
  SMap.getD_set_same _ _ _ _
@[simp] theorem State.setDie_group_read (s : State) (k : Nat) (x : Die) (j : Nat) : (s.setDie k x).group j = s.group j := rfl
@[simp] theorem State.setDie_team_read (s : State) (k : Nat) (x : Die) (j : Nat) : (s.setDie k x).team j = s.team j := rfl
@[simp] theorem State.setDie_cluster_read (s : State) (k : Nat) (x : Die) (j : Nat) : (s.setDie k x).cluster j = s.cluster j := rfl
@[simp] theorem State.setDie_coreAt_read (s : State) (k : Nat) (x : Die) (j : Nat) : (s.setDie k x).coreAt j = s.coreAt j := rfl
@[simp] theorem State.setDie_copy_read (s : State) (k : Nat) (x : Die) (j : Nat) : (s.setDie k x).copy j = s.copy j := rfl
@[simp] theorem State.setDie_mat_read (s : State) (k : Nat) (x : Die) (j : Nat) : (s.setDie k x).mat j = s.mat j := rfl
@[simp] theorem State.setDie_batch_read (s : State) (k : Nat) (x : Die) (j : Nat) : (s.setDie k x).batch j = s.batch j := rfl
@[simp] theorem State.setDie_mill_read (s : State) (k : Nat) (x : Die) (j : Nat) : (s.setDie k x).mill j = s.mill j := rfl
@[simp] theorem State.setDie_arrival_read (s : State) (k : Nat) (x : Die) (j : Nat) : (s.setDie k x).arrival j = s.arrival j := rfl
@[simp] theorem State.setDie_queue_read (s : State) (k : Nat) (x : Die) (j : Nat) : (s.setDie k x).queue j = s.queue j := rfl
@[simp] theorem State.setDie_handle_read (s : State) (k : Nat) (x : Die) (j : Nat) : (s.setDie k x).handle j = s.handle j := rfl
@[simp] theorem State.setDie_launch_read (s : State) (k : Nat) (x : Die) (j : Nat) : (s.setDie k x).launch j = s.launch j := rfl
@[simp] theorem State.setDie_log_read (s : State) (k : Nat) (x : Die) (j : Nat) : (s.setDie k x).log j = s.log j := rfl
theorem State.setCopy_copy (s : State) (k j : Nat) (x : CopyCmd) :
    (s.setCopy k x).copy j = if j = k then x else s.copy j := SMap.getD_set _ _ _ _ _
@[simp] theorem State.setCopy_copy_same (s : State) (k : Nat) (x : CopyCmd) : (s.setCopy k x).copy k = x :=
  SMap.getD_set_same _ _ _ _
@[simp] theorem State.setCopy_group_read (s : State) (k : Nat) (x : CopyCmd) (j : Nat) : (s.setCopy k x).group j = s.group j := rfl
@[simp] theorem State.setCopy_team_read (s : State) (k : Nat) (x : CopyCmd) (j : Nat) : (s.setCopy k x).team j = s.team j := rfl
@[simp] theorem State.setCopy_cluster_read (s : State) (k : Nat) (x : CopyCmd) (j : Nat) : (s.setCopy k x).cluster j = s.cluster j := rfl
@[simp] theorem State.setCopy_coreAt_read (s : State) (k : Nat) (x : CopyCmd) (j : Nat) : (s.setCopy k x).coreAt j = s.coreAt j := rfl
@[simp] theorem State.setCopy_die_read (s : State) (k : Nat) (x : CopyCmd) (j : Nat) : (s.setCopy k x).die j = s.die j := rfl
@[simp] theorem State.setCopy_mat_read (s : State) (k : Nat) (x : CopyCmd) (j : Nat) : (s.setCopy k x).mat j = s.mat j := rfl
@[simp] theorem State.setCopy_batch_read (s : State) (k : Nat) (x : CopyCmd) (j : Nat) : (s.setCopy k x).batch j = s.batch j := rfl
@[simp] theorem State.setCopy_mill_read (s : State) (k : Nat) (x : CopyCmd) (j : Nat) : (s.setCopy k x).mill j = s.mill j := rfl
@[simp] theorem State.setCopy_arrival_read (s : State) (k : Nat) (x : CopyCmd) (j : Nat) : (s.setCopy k x).arrival j = s.arrival j := rfl
@[simp] theorem State.setCopy_queue_read (s : State) (k : Nat) (x : CopyCmd) (j : Nat) : (s.setCopy k x).queue j = s.queue j := rfl
@[simp] theorem State.setCopy_handle_read (s : State) (k : Nat) (x : CopyCmd) (j : Nat) : (s.setCopy k x).handle j = s.handle j := rfl
@[simp] theorem State.setCopy_launch_read (s : State) (k : Nat) (x : CopyCmd) (j : Nat) : (s.setCopy k x).launch j = s.launch j := rfl
@[simp] theorem State.setCopy_log_read (s : State) (k : Nat) (x : CopyCmd) (j : Nat) : (s.setCopy k x).log j = s.log j := rfl
theorem State.setMat_mat (s : State) (k j : Nat) (x : MatCmd) :
    (s.setMat k x).mat j = if j = k then x else s.mat j := SMap.getD_set _ _ _ _ _
@[simp] theorem State.setMat_mat_same (s : State) (k : Nat) (x : MatCmd) : (s.setMat k x).mat k = x :=
  SMap.getD_set_same _ _ _ _
@[simp] theorem State.setMat_group_read (s : State) (k : Nat) (x : MatCmd) (j : Nat) : (s.setMat k x).group j = s.group j := rfl
@[simp] theorem State.setMat_team_read (s : State) (k : Nat) (x : MatCmd) (j : Nat) : (s.setMat k x).team j = s.team j := rfl
@[simp] theorem State.setMat_cluster_read (s : State) (k : Nat) (x : MatCmd) (j : Nat) : (s.setMat k x).cluster j = s.cluster j := rfl
@[simp] theorem State.setMat_coreAt_read (s : State) (k : Nat) (x : MatCmd) (j : Nat) : (s.setMat k x).coreAt j = s.coreAt j := rfl
@[simp] theorem State.setMat_die_read (s : State) (k : Nat) (x : MatCmd) (j : Nat) : (s.setMat k x).die j = s.die j := rfl
@[simp] theorem State.setMat_copy_read (s : State) (k : Nat) (x : MatCmd) (j : Nat) : (s.setMat k x).copy j = s.copy j := rfl
@[simp] theorem State.setMat_batch_read (s : State) (k : Nat) (x : MatCmd) (j : Nat) : (s.setMat k x).batch j = s.batch j := rfl
@[simp] theorem State.setMat_mill_read (s : State) (k : Nat) (x : MatCmd) (j : Nat) : (s.setMat k x).mill j = s.mill j := rfl
@[simp] theorem State.setMat_arrival_read (s : State) (k : Nat) (x : MatCmd) (j : Nat) : (s.setMat k x).arrival j = s.arrival j := rfl
@[simp] theorem State.setMat_queue_read (s : State) (k : Nat) (x : MatCmd) (j : Nat) : (s.setMat k x).queue j = s.queue j := rfl
@[simp] theorem State.setMat_handle_read (s : State) (k : Nat) (x : MatCmd) (j : Nat) : (s.setMat k x).handle j = s.handle j := rfl
@[simp] theorem State.setMat_launch_read (s : State) (k : Nat) (x : MatCmd) (j : Nat) : (s.setMat k x).launch j = s.launch j := rfl
@[simp] theorem State.setMat_log_read (s : State) (k : Nat) (x : MatCmd) (j : Nat) : (s.setMat k x).log j = s.log j := rfl
theorem State.setBatch_batch (s : State) (k j : Nat) (x : Batch) :
    (s.setBatch k x).batch j = if j = k then x else s.batch j := SMap.getD_set _ _ _ _ _
@[simp] theorem State.setBatch_batch_same (s : State) (k : Nat) (x : Batch) : (s.setBatch k x).batch k = x :=
  SMap.getD_set_same _ _ _ _
@[simp] theorem State.setBatch_group_read (s : State) (k : Nat) (x : Batch) (j : Nat) : (s.setBatch k x).group j = s.group j := rfl
@[simp] theorem State.setBatch_team_read (s : State) (k : Nat) (x : Batch) (j : Nat) : (s.setBatch k x).team j = s.team j := rfl
@[simp] theorem State.setBatch_cluster_read (s : State) (k : Nat) (x : Batch) (j : Nat) : (s.setBatch k x).cluster j = s.cluster j := rfl
@[simp] theorem State.setBatch_coreAt_read (s : State) (k : Nat) (x : Batch) (j : Nat) : (s.setBatch k x).coreAt j = s.coreAt j := rfl
@[simp] theorem State.setBatch_die_read (s : State) (k : Nat) (x : Batch) (j : Nat) : (s.setBatch k x).die j = s.die j := rfl
@[simp] theorem State.setBatch_copy_read (s : State) (k : Nat) (x : Batch) (j : Nat) : (s.setBatch k x).copy j = s.copy j := rfl
@[simp] theorem State.setBatch_mat_read (s : State) (k : Nat) (x : Batch) (j : Nat) : (s.setBatch k x).mat j = s.mat j := rfl
@[simp] theorem State.setBatch_mill_read (s : State) (k : Nat) (x : Batch) (j : Nat) : (s.setBatch k x).mill j = s.mill j := rfl
@[simp] theorem State.setBatch_arrival_read (s : State) (k : Nat) (x : Batch) (j : Nat) : (s.setBatch k x).arrival j = s.arrival j := rfl
@[simp] theorem State.setBatch_queue_read (s : State) (k : Nat) (x : Batch) (j : Nat) : (s.setBatch k x).queue j = s.queue j := rfl
@[simp] theorem State.setBatch_handle_read (s : State) (k : Nat) (x : Batch) (j : Nat) : (s.setBatch k x).handle j = s.handle j := rfl
@[simp] theorem State.setBatch_launch_read (s : State) (k : Nat) (x : Batch) (j : Nat) : (s.setBatch k x).launch j = s.launch j := rfl
@[simp] theorem State.setBatch_log_read (s : State) (k : Nat) (x : Batch) (j : Nat) : (s.setBatch k x).log j = s.log j := rfl
theorem State.setMill_mill (s : State) (k j : Nat) (x : MillReq) :
    (s.setMill k x).mill j = if j = k then x else s.mill j := SMap.getD_set _ _ _ _ _
@[simp] theorem State.setMill_mill_same (s : State) (k : Nat) (x : MillReq) : (s.setMill k x).mill k = x :=
  SMap.getD_set_same _ _ _ _
@[simp] theorem State.setMill_group_read (s : State) (k : Nat) (x : MillReq) (j : Nat) : (s.setMill k x).group j = s.group j := rfl
@[simp] theorem State.setMill_team_read (s : State) (k : Nat) (x : MillReq) (j : Nat) : (s.setMill k x).team j = s.team j := rfl
@[simp] theorem State.setMill_cluster_read (s : State) (k : Nat) (x : MillReq) (j : Nat) : (s.setMill k x).cluster j = s.cluster j := rfl
@[simp] theorem State.setMill_coreAt_read (s : State) (k : Nat) (x : MillReq) (j : Nat) : (s.setMill k x).coreAt j = s.coreAt j := rfl
@[simp] theorem State.setMill_die_read (s : State) (k : Nat) (x : MillReq) (j : Nat) : (s.setMill k x).die j = s.die j := rfl
@[simp] theorem State.setMill_copy_read (s : State) (k : Nat) (x : MillReq) (j : Nat) : (s.setMill k x).copy j = s.copy j := rfl
@[simp] theorem State.setMill_mat_read (s : State) (k : Nat) (x : MillReq) (j : Nat) : (s.setMill k x).mat j = s.mat j := rfl
@[simp] theorem State.setMill_batch_read (s : State) (k : Nat) (x : MillReq) (j : Nat) : (s.setMill k x).batch j = s.batch j := rfl
@[simp] theorem State.setMill_arrival_read (s : State) (k : Nat) (x : MillReq) (j : Nat) : (s.setMill k x).arrival j = s.arrival j := rfl
@[simp] theorem State.setMill_queue_read (s : State) (k : Nat) (x : MillReq) (j : Nat) : (s.setMill k x).queue j = s.queue j := rfl
@[simp] theorem State.setMill_handle_read (s : State) (k : Nat) (x : MillReq) (j : Nat) : (s.setMill k x).handle j = s.handle j := rfl
@[simp] theorem State.setMill_launch_read (s : State) (k : Nat) (x : MillReq) (j : Nat) : (s.setMill k x).launch j = s.launch j := rfl
@[simp] theorem State.setMill_log_read (s : State) (k : Nat) (x : MillReq) (j : Nat) : (s.setMill k x).log j = s.log j := rfl
theorem State.setArrival_arrival (s : State) (k j : Nat) (x : Arrival) :
    (s.setArrival k x).arrival j = if j = k then x else s.arrival j := SMap.getD_set _ _ _ _ _
@[simp] theorem State.setArrival_arrival_same (s : State) (k : Nat) (x : Arrival) : (s.setArrival k x).arrival k = x :=
  SMap.getD_set_same _ _ _ _
@[simp] theorem State.setArrival_group_read (s : State) (k : Nat) (x : Arrival) (j : Nat) : (s.setArrival k x).group j = s.group j := rfl
@[simp] theorem State.setArrival_team_read (s : State) (k : Nat) (x : Arrival) (j : Nat) : (s.setArrival k x).team j = s.team j := rfl
@[simp] theorem State.setArrival_cluster_read (s : State) (k : Nat) (x : Arrival) (j : Nat) : (s.setArrival k x).cluster j = s.cluster j := rfl
@[simp] theorem State.setArrival_coreAt_read (s : State) (k : Nat) (x : Arrival) (j : Nat) : (s.setArrival k x).coreAt j = s.coreAt j := rfl
@[simp] theorem State.setArrival_die_read (s : State) (k : Nat) (x : Arrival) (j : Nat) : (s.setArrival k x).die j = s.die j := rfl
@[simp] theorem State.setArrival_copy_read (s : State) (k : Nat) (x : Arrival) (j : Nat) : (s.setArrival k x).copy j = s.copy j := rfl
@[simp] theorem State.setArrival_mat_read (s : State) (k : Nat) (x : Arrival) (j : Nat) : (s.setArrival k x).mat j = s.mat j := rfl
@[simp] theorem State.setArrival_batch_read (s : State) (k : Nat) (x : Arrival) (j : Nat) : (s.setArrival k x).batch j = s.batch j := rfl
@[simp] theorem State.setArrival_mill_read (s : State) (k : Nat) (x : Arrival) (j : Nat) : (s.setArrival k x).mill j = s.mill j := rfl
@[simp] theorem State.setArrival_queue_read (s : State) (k : Nat) (x : Arrival) (j : Nat) : (s.setArrival k x).queue j = s.queue j := rfl
@[simp] theorem State.setArrival_handle_read (s : State) (k : Nat) (x : Arrival) (j : Nat) : (s.setArrival k x).handle j = s.handle j := rfl
@[simp] theorem State.setArrival_launch_read (s : State) (k : Nat) (x : Arrival) (j : Nat) : (s.setArrival k x).launch j = s.launch j := rfl
@[simp] theorem State.setArrival_log_read (s : State) (k : Nat) (x : Arrival) (j : Nat) : (s.setArrival k x).log j = s.log j := rfl
theorem State.setQueue_queue (s : State) (k j : Nat) (x : Queue) :
    (s.setQueue k x).queue j = if j = k then x else s.queue j := SMap.getD_set _ _ _ _ _
@[simp] theorem State.setQueue_queue_same (s : State) (k : Nat) (x : Queue) : (s.setQueue k x).queue k = x :=
  SMap.getD_set_same _ _ _ _
@[simp] theorem State.setQueue_group_read (s : State) (k : Nat) (x : Queue) (j : Nat) : (s.setQueue k x).group j = s.group j := rfl
@[simp] theorem State.setQueue_team_read (s : State) (k : Nat) (x : Queue) (j : Nat) : (s.setQueue k x).team j = s.team j := rfl
@[simp] theorem State.setQueue_cluster_read (s : State) (k : Nat) (x : Queue) (j : Nat) : (s.setQueue k x).cluster j = s.cluster j := rfl
@[simp] theorem State.setQueue_coreAt_read (s : State) (k : Nat) (x : Queue) (j : Nat) : (s.setQueue k x).coreAt j = s.coreAt j := rfl
@[simp] theorem State.setQueue_die_read (s : State) (k : Nat) (x : Queue) (j : Nat) : (s.setQueue k x).die j = s.die j := rfl
@[simp] theorem State.setQueue_copy_read (s : State) (k : Nat) (x : Queue) (j : Nat) : (s.setQueue k x).copy j = s.copy j := rfl
@[simp] theorem State.setQueue_mat_read (s : State) (k : Nat) (x : Queue) (j : Nat) : (s.setQueue k x).mat j = s.mat j := rfl
@[simp] theorem State.setQueue_batch_read (s : State) (k : Nat) (x : Queue) (j : Nat) : (s.setQueue k x).batch j = s.batch j := rfl
@[simp] theorem State.setQueue_mill_read (s : State) (k : Nat) (x : Queue) (j : Nat) : (s.setQueue k x).mill j = s.mill j := rfl
@[simp] theorem State.setQueue_arrival_read (s : State) (k : Nat) (x : Queue) (j : Nat) : (s.setQueue k x).arrival j = s.arrival j := rfl
@[simp] theorem State.setQueue_handle_read (s : State) (k : Nat) (x : Queue) (j : Nat) : (s.setQueue k x).handle j = s.handle j := rfl
@[simp] theorem State.setQueue_launch_read (s : State) (k : Nat) (x : Queue) (j : Nat) : (s.setQueue k x).launch j = s.launch j := rfl
@[simp] theorem State.setQueue_log_read (s : State) (k : Nat) (x : Queue) (j : Nat) : (s.setQueue k x).log j = s.log j := rfl
theorem State.setHandle_handle (s : State) (k j : Nat) (x : Handle) :
    (s.setHandle k x).handle j = if j = k then x else s.handle j := SMap.getD_set _ _ _ _ _
@[simp] theorem State.setHandle_handle_same (s : State) (k : Nat) (x : Handle) : (s.setHandle k x).handle k = x :=
  SMap.getD_set_same _ _ _ _
@[simp] theorem State.setHandle_group_read (s : State) (k : Nat) (x : Handle) (j : Nat) : (s.setHandle k x).group j = s.group j := rfl
@[simp] theorem State.setHandle_team_read (s : State) (k : Nat) (x : Handle) (j : Nat) : (s.setHandle k x).team j = s.team j := rfl
@[simp] theorem State.setHandle_cluster_read (s : State) (k : Nat) (x : Handle) (j : Nat) : (s.setHandle k x).cluster j = s.cluster j := rfl
@[simp] theorem State.setHandle_coreAt_read (s : State) (k : Nat) (x : Handle) (j : Nat) : (s.setHandle k x).coreAt j = s.coreAt j := rfl
@[simp] theorem State.setHandle_die_read (s : State) (k : Nat) (x : Handle) (j : Nat) : (s.setHandle k x).die j = s.die j := rfl
@[simp] theorem State.setHandle_copy_read (s : State) (k : Nat) (x : Handle) (j : Nat) : (s.setHandle k x).copy j = s.copy j := rfl
@[simp] theorem State.setHandle_mat_read (s : State) (k : Nat) (x : Handle) (j : Nat) : (s.setHandle k x).mat j = s.mat j := rfl
@[simp] theorem State.setHandle_batch_read (s : State) (k : Nat) (x : Handle) (j : Nat) : (s.setHandle k x).batch j = s.batch j := rfl
@[simp] theorem State.setHandle_mill_read (s : State) (k : Nat) (x : Handle) (j : Nat) : (s.setHandle k x).mill j = s.mill j := rfl
@[simp] theorem State.setHandle_arrival_read (s : State) (k : Nat) (x : Handle) (j : Nat) : (s.setHandle k x).arrival j = s.arrival j := rfl
@[simp] theorem State.setHandle_queue_read (s : State) (k : Nat) (x : Handle) (j : Nat) : (s.setHandle k x).queue j = s.queue j := rfl
@[simp] theorem State.setHandle_launch_read (s : State) (k : Nat) (x : Handle) (j : Nat) : (s.setHandle k x).launch j = s.launch j := rfl
@[simp] theorem State.setHandle_log_read (s : State) (k : Nat) (x : Handle) (j : Nat) : (s.setHandle k x).log j = s.log j := rfl
theorem State.setLaunch_launch (s : State) (k j : Nat) (x : Launch) :
    (s.setLaunch k x).launch j = if j = k then x else s.launch j := SMap.getD_set _ _ _ _ _
@[simp] theorem State.setLaunch_launch_same (s : State) (k : Nat) (x : Launch) : (s.setLaunch k x).launch k = x :=
  SMap.getD_set_same _ _ _ _
@[simp] theorem State.setLaunch_group_read (s : State) (k : Nat) (x : Launch) (j : Nat) : (s.setLaunch k x).group j = s.group j := rfl
@[simp] theorem State.setLaunch_team_read (s : State) (k : Nat) (x : Launch) (j : Nat) : (s.setLaunch k x).team j = s.team j := rfl
@[simp] theorem State.setLaunch_cluster_read (s : State) (k : Nat) (x : Launch) (j : Nat) : (s.setLaunch k x).cluster j = s.cluster j := rfl
@[simp] theorem State.setLaunch_coreAt_read (s : State) (k : Nat) (x : Launch) (j : Nat) : (s.setLaunch k x).coreAt j = s.coreAt j := rfl
@[simp] theorem State.setLaunch_die_read (s : State) (k : Nat) (x : Launch) (j : Nat) : (s.setLaunch k x).die j = s.die j := rfl
@[simp] theorem State.setLaunch_copy_read (s : State) (k : Nat) (x : Launch) (j : Nat) : (s.setLaunch k x).copy j = s.copy j := rfl
@[simp] theorem State.setLaunch_mat_read (s : State) (k : Nat) (x : Launch) (j : Nat) : (s.setLaunch k x).mat j = s.mat j := rfl
@[simp] theorem State.setLaunch_batch_read (s : State) (k : Nat) (x : Launch) (j : Nat) : (s.setLaunch k x).batch j = s.batch j := rfl
@[simp] theorem State.setLaunch_mill_read (s : State) (k : Nat) (x : Launch) (j : Nat) : (s.setLaunch k x).mill j = s.mill j := rfl
@[simp] theorem State.setLaunch_arrival_read (s : State) (k : Nat) (x : Launch) (j : Nat) : (s.setLaunch k x).arrival j = s.arrival j := rfl
@[simp] theorem State.setLaunch_queue_read (s : State) (k : Nat) (x : Launch) (j : Nat) : (s.setLaunch k x).queue j = s.queue j := rfl
@[simp] theorem State.setLaunch_handle_read (s : State) (k : Nat) (x : Launch) (j : Nat) : (s.setLaunch k x).handle j = s.handle j := rfl
@[simp] theorem State.setLaunch_log_read (s : State) (k : Nat) (x : Launch) (j : Nat) : (s.setLaunch k x).log j = s.log j := rfl
theorem State.setLog_log (s : State) (k j : Nat) (x : Log) :
    (s.setLog k x).log j = if j = k then x else s.log j := SMap.getD_set _ _ _ _ _
@[simp] theorem State.setLog_log_same (s : State) (k : Nat) (x : Log) : (s.setLog k x).log k = x :=
  SMap.getD_set_same _ _ _ _
@[simp] theorem State.setLog_group_read (s : State) (k : Nat) (x : Log) (j : Nat) : (s.setLog k x).group j = s.group j := rfl
@[simp] theorem State.setLog_team_read (s : State) (k : Nat) (x : Log) (j : Nat) : (s.setLog k x).team j = s.team j := rfl
@[simp] theorem State.setLog_cluster_read (s : State) (k : Nat) (x : Log) (j : Nat) : (s.setLog k x).cluster j = s.cluster j := rfl
@[simp] theorem State.setLog_coreAt_read (s : State) (k : Nat) (x : Log) (j : Nat) : (s.setLog k x).coreAt j = s.coreAt j := rfl
@[simp] theorem State.setLog_die_read (s : State) (k : Nat) (x : Log) (j : Nat) : (s.setLog k x).die j = s.die j := rfl
@[simp] theorem State.setLog_copy_read (s : State) (k : Nat) (x : Log) (j : Nat) : (s.setLog k x).copy j = s.copy j := rfl
@[simp] theorem State.setLog_mat_read (s : State) (k : Nat) (x : Log) (j : Nat) : (s.setLog k x).mat j = s.mat j := rfl
@[simp] theorem State.setLog_batch_read (s : State) (k : Nat) (x : Log) (j : Nat) : (s.setLog k x).batch j = s.batch j := rfl
@[simp] theorem State.setLog_mill_read (s : State) (k : Nat) (x : Log) (j : Nat) : (s.setLog k x).mill j = s.mill j := rfl
@[simp] theorem State.setLog_arrival_read (s : State) (k : Nat) (x : Log) (j : Nat) : (s.setLog k x).arrival j = s.arrival j := rfl
@[simp] theorem State.setLog_queue_read (s : State) (k : Nat) (x : Log) (j : Nat) : (s.setLog k x).queue j = s.queue j := rfl
@[simp] theorem State.setLog_handle_read (s : State) (k : Nat) (x : Log) (j : Nat) : (s.setLog k x).handle j = s.handle j := rfl
@[simp] theorem State.setLog_launch_read (s : State) (k : Nat) (x : Log) (j : Nat) : (s.setLog k x).launch j = s.launch j := rfl
@[simp] theorem State.setAppend_group_read (s : State) (k : Nat) (x : Append) (j : Nat) : (s.setAppend k x).group j = s.group j := rfl
@[simp] theorem State.setAppend_team_read (s : State) (k : Nat) (x : Append) (j : Nat) : (s.setAppend k x).team j = s.team j := rfl
@[simp] theorem State.setAppend_cluster_read (s : State) (k : Nat) (x : Append) (j : Nat) : (s.setAppend k x).cluster j = s.cluster j := rfl
@[simp] theorem State.setAppend_coreAt_read (s : State) (k : Nat) (x : Append) (j : Nat) : (s.setAppend k x).coreAt j = s.coreAt j := rfl
@[simp] theorem State.setAppend_die_read (s : State) (k : Nat) (x : Append) (j : Nat) : (s.setAppend k x).die j = s.die j := rfl
@[simp] theorem State.setAppend_copy_read (s : State) (k : Nat) (x : Append) (j : Nat) : (s.setAppend k x).copy j = s.copy j := rfl
@[simp] theorem State.setAppend_mat_read (s : State) (k : Nat) (x : Append) (j : Nat) : (s.setAppend k x).mat j = s.mat j := rfl
@[simp] theorem State.setAppend_batch_read (s : State) (k : Nat) (x : Append) (j : Nat) : (s.setAppend k x).batch j = s.batch j := rfl
@[simp] theorem State.setAppend_mill_read (s : State) (k : Nat) (x : Append) (j : Nat) : (s.setAppend k x).mill j = s.mill j := rfl
@[simp] theorem State.setAppend_arrival_read (s : State) (k : Nat) (x : Append) (j : Nat) : (s.setAppend k x).arrival j = s.arrival j := rfl
@[simp] theorem State.setAppend_queue_read (s : State) (k : Nat) (x : Append) (j : Nat) : (s.setAppend k x).queue j = s.queue j := rfl
@[simp] theorem State.setAppend_handle_read (s : State) (k : Nat) (x : Append) (j : Nat) : (s.setAppend k x).handle j = s.handle j := rfl
@[simp] theorem State.setAppend_launch_read (s : State) (k : Nat) (x : Append) (j : Nat) : (s.setAppend k x).launch j = s.launch j := rfl
@[simp] theorem State.setAppend_log_read (s : State) (k : Nat) (x : Append) (j : Nat) : (s.setAppend k x).log j = s.log j := rfl
@[simp] theorem State.setCr_group_read (s : State) (c i : Nat) (x : Word) (j : Nat) : (s.setCr c i x).group j = s.group j := rfl
@[simp] theorem State.setCr_team_read (s : State) (c i : Nat) (x : Word) (j : Nat) : (s.setCr c i x).team j = s.team j := rfl
@[simp] theorem State.setCr_cluster_read (s : State) (c i : Nat) (x : Word) (j : Nat) : (s.setCr c i x).cluster j = s.cluster j := rfl
@[simp] theorem State.setCr_coreAt_read (s : State) (c i : Nat) (x : Word) (j : Nat) : (s.setCr c i x).coreAt j = s.coreAt j := rfl
@[simp] theorem State.setCr_die_read (s : State) (c i : Nat) (x : Word) (j : Nat) : (s.setCr c i x).die j = s.die j := rfl
@[simp] theorem State.setCr_copy_read (s : State) (c i : Nat) (x : Word) (j : Nat) : (s.setCr c i x).copy j = s.copy j := rfl
@[simp] theorem State.setCr_mat_read (s : State) (c i : Nat) (x : Word) (j : Nat) : (s.setCr c i x).mat j = s.mat j := rfl
@[simp] theorem State.setCr_batch_read (s : State) (c i : Nat) (x : Word) (j : Nat) : (s.setCr c i x).batch j = s.batch j := rfl
@[simp] theorem State.setCr_mill_read (s : State) (c i : Nat) (x : Word) (j : Nat) : (s.setCr c i x).mill j = s.mill j := rfl
@[simp] theorem State.setCr_arrival_read (s : State) (c i : Nat) (x : Word) (j : Nat) : (s.setCr c i x).arrival j = s.arrival j := rfl
@[simp] theorem State.setCr_queue_read (s : State) (c i : Nat) (x : Word) (j : Nat) : (s.setCr c i x).queue j = s.queue j := rfl
@[simp] theorem State.setCr_handle_read (s : State) (c i : Nat) (x : Word) (j : Nat) : (s.setCr c i x).handle j = s.handle j := rfl
@[simp] theorem State.setCr_launch_read (s : State) (c i : Nat) (x : Word) (j : Nat) : (s.setCr c i x).launch j = s.launch j := rfl
@[simp] theorem State.setCr_log_read (s : State) (c i : Nat) (x : Word) (j : Nat) : (s.setCr c i x).log j = s.log j := rfl
@[simp] theorem State.setMemByte_group_read (s : State) (k : Nat) (x : Byte) (j : Nat) : (s.setMemByte k x).group j = s.group j := rfl
@[simp] theorem State.setMemByte_team_read (s : State) (k : Nat) (x : Byte) (j : Nat) : (s.setMemByte k x).team j = s.team j := rfl
@[simp] theorem State.setMemByte_cluster_read (s : State) (k : Nat) (x : Byte) (j : Nat) : (s.setMemByte k x).cluster j = s.cluster j := rfl
@[simp] theorem State.setMemByte_coreAt_read (s : State) (k : Nat) (x : Byte) (j : Nat) : (s.setMemByte k x).coreAt j = s.coreAt j := rfl
@[simp] theorem State.setMemByte_die_read (s : State) (k : Nat) (x : Byte) (j : Nat) : (s.setMemByte k x).die j = s.die j := rfl
@[simp] theorem State.setMemByte_copy_read (s : State) (k : Nat) (x : Byte) (j : Nat) : (s.setMemByte k x).copy j = s.copy j := rfl
@[simp] theorem State.setMemByte_mat_read (s : State) (k : Nat) (x : Byte) (j : Nat) : (s.setMemByte k x).mat j = s.mat j := rfl
@[simp] theorem State.setMemByte_batch_read (s : State) (k : Nat) (x : Byte) (j : Nat) : (s.setMemByte k x).batch j = s.batch j := rfl
@[simp] theorem State.setMemByte_mill_read (s : State) (k : Nat) (x : Byte) (j : Nat) : (s.setMemByte k x).mill j = s.mill j := rfl
@[simp] theorem State.setMemByte_arrival_read (s : State) (k : Nat) (x : Byte) (j : Nat) : (s.setMemByte k x).arrival j = s.arrival j := rfl
@[simp] theorem State.setMemByte_queue_read (s : State) (k : Nat) (x : Byte) (j : Nat) : (s.setMemByte k x).queue j = s.queue j := rfl
@[simp] theorem State.setMemByte_handle_read (s : State) (k : Nat) (x : Byte) (j : Nat) : (s.setMemByte k x).handle j = s.handle j := rfl
@[simp] theorem State.setMemByte_launch_read (s : State) (k : Nat) (x : Byte) (j : Nat) : (s.setMemByte k x).launch j = s.launch j := rfl
@[simp] theorem State.setMemByte_log_read (s : State) (k : Nat) (x : Byte) (j : Nat) : (s.setMemByte k x).log j = s.log j := rfl

end Sys2Proof.Machine
end

