-- ==== Sys2Proof/Laws/Memory.lean ====
section
/-!
SUPPORT. Memory: the canonical form, kept by every write, and a read after a write.
-/

namespace Sys2Proof.Machine

theorem State.memByte_setMemByte (s : State) (k j : Nat) (b : Byte) :
    (s.setMemByte k b).memByte j = if j = k then b else s.memByte j :=
  SMap.getD_set_blank _ _ _ _ _

theorem State.setMemByte_wf (s : State) (k : Nat) (b : Byte) (h : Memory.wf s.mem = true) :
    Memory.wf (s.setMemByte k b).mem = true := SMap.wf_set _ _ _ _ h

theorem State.setMemBytes_wf (s : State) (k : Nat) (bs : List Byte) (h : Memory.wf s.mem = true) :
    Memory.wf (s.setMemBytes k bs).mem = true := by
  induction bs generalizing s k with
  | nil => exact h
  | cons b t ih => exact ih _ _ (s.setMemByte_wf k b h)

/-- Bytes outside a written range keep their values; those in it read back. -/
theorem State.memByte_setMemBytes (s : State) (k j : Nat) (bs : List Byte) :
    (s.setMemBytes k bs).memByte j = if k ≤ j ∧ j < k + bs.length then bs.getD (j - k) 0 else s.memByte j := by
  induction bs generalizing s k with
  | nil => simp [State.setMemBytes]
  | cons b t ih =>
    simp only [State.setMemBytes, ih, State.memByte_setMemByte, List.length_cons]
    by_cases h : j = k
    · subst h; simp
    · by_cases h2 : k + 1 ≤ j ∧ j < k + 1 + t.length
      · have e : j - k = (j - (k + 1)) + 1 := by omega
        rw [if_pos h2, if_pos (by omega), e, List.getD_cons_succ]
      · rw [if_neg h2, if_neg h, if_neg (by omega)]

@[simp] theorem State.reset_memByte (k : Nat) : State.reset.memByte k = memBlank k := rfl

/-- Memory at reset has its canonical form. -/
theorem State.reset_wf : Memory.wf State.reset.mem = true := rfl

end Sys2Proof.Machine
end

