-- ==== Sys2Proof/Laws/Lanes.lean ====
section
/-!
SUPPORT. What the shared operations of lane and group-wide instructions do: a group replaced, a slot
that goes on, lane registers and predicates written under a guard, and the traps of reading.
-/

namespace Sys2Proof.Machine

/-! The issuing group replaced. -/

@[simp] theorem State.setGrp_grp (s : State) (g : Group) : (s.setGrp g).grp = g :=
  SMap.getD_set_same _ _ _ _

@[simp] theorem State.setGrp_cur (s : State) (g : Group) : (s.setGrp g).cur = s.cur := rfl
@[simp] theorem State.setGrp_curB (s : State) (g : Group) : (s.setGrp g).curB = s.curB := rfl
@[simp] theorem State.setGrp_lat (s : State) (g : Group) : (s.setGrp g).lat = s.lat := rfl
@[simp] theorem State.setGrp_freeCtr (s : State) (g : Group) : (s.setGrp g).freeCtr = s.freeCtr := rfl
@[simp] theorem State.setGrp_memByte (s : State) (g : Group) (k : Nat) : (s.setGrp g).memByte k = s.memByte k := rfl
@[simp] theorem State.modGrp_grp (s : State) (f : Group → Group) : (s.modGrp f).grp = f s.grp :=
  SMap.getD_set_same _ _ _ _

/-- A change of the issuing group alone changes nothing else. -/
theorem onlyGroup_modGrp (s : State) (f : Group → Group) : OnlyGroup s (s.modGrp f) :=
  ⟨by simp [State.modGrp], fun _ => rfl⟩

theorem onlyGroup_refl_setGrp (s : State) (g : Group) : OnlyGroup s (s.setGrp g) :=
  ⟨by simp, fun _ => rfl⟩

/-! A second write of a table entry replaces the first. -/

theorem SMap.erase_ins_same {α : Type} (m : SMap α) (k : Nat) (v : α) (h : ∀ e ∈ m, e.1 ≠ k) :
    SMap.erase (m.ins k v) k = m := by
  induction m with
  | nil => simp [SMap.ins, SMap.erase]
  | cons e t ih =>
    obtain ⟨j, u⟩ := e
    have hj : j ≠ k := h (j, u) (by simp)
    have ht : ∀ e ∈ t, e.1 ≠ k := fun e he => h e (by simp [he])
    have hid : SMap.erase t k = t := by
      simp only [SMap.erase, List.filter_eq_self]
      intro e he; simpa using ht e he
    simp only [SMap.ins]
    split
    · simp only [SMap.erase, List.filter_cons, bne_self_eq_false, Bool.false_eq_true, if_false, bne_iff_ne, ne_eq, hj,
        not_false_eq_true, if_true]
      rw [show List.filter (fun e => e.1 != k) t = t from hid]
    · have := ih ht
      simp only [SMap.erase] at this ⊢
      simp [hj, this]

theorem SMap.set_set {α : Type} [DecidableEq α] (m : SMap α) (k : Nat) (u v d : α) :
    SMap.set (SMap.set m k u d) k v d = SMap.set m k v d := by
  have h : SMap.erase (SMap.set m k u d) k = m.erase k := by
    unfold SMap.set
    split
    · simp [SMap.erase, List.filter_filter]
    · exact SMap.erase_ins_same _ _ _ (m.erase_keys k)
  rw [SMap.set.eq_def (SMap.set m k u d), h]
  rfl

@[simp] theorem State.setGroup_setGroup (s : State) (k : Nat) (g h : Group) :
    (s.setGroup k g).setGroup k h = s.setGroup k h := by simp [State.setGroup, SMap.set_set]

@[simp] theorem State.setGrp_setGrp (s : State) (g h : Group) : (s.setGrp g).setGrp h = s.setGrp h := by
  simp only [State.setGrp, State.setGroup_cur, State.setGroup_setGroup]

@[simp] theorem State.modGrp_modGrp (s : State) (f h : Group → Group) :
    (s.modGrp f).modGrp h = s.modGrp (fun g => h (f g)) := by
  simp [State.modGrp]

/-! Rows written. -/

theorem Group.putLanes_vget (g : Group) (n : Nat) (f : Nat → Word) (ls : List Nat) (hls : ∀ L ∈ ls, L < 32)
    (k L : Nat) (hL : L < 32) :
    (g.putLanes n f ls).vget k L = if k = n ∧ L ∈ ls then f L else g.vget k L := by
  induction ls generalizing g with
  | nil => simp [Group.putLanes]
  | cons a t ih =>
    rw [Group.putLanes, ih _ (fun L h => hls L (by simp [h])), Group.vput_vget _ _ (hls a (by simp)) hL]
    by_cases h1 : k = n <;> by_cases h2 : L ∈ t <;> by_cases h3 : L = a <;> simp_all

theorem Group.putLanes_frame (g : Group) (n : Nat) (f : Nat → Word) (ls : List Nat) :
    g.putLanes n f ls = { g with v := (g.putLanes n f ls).v } := by
  induction ls generalizing g with
  | nil => rfl
  | cons a t ih => rw [Group.putLanes, ih]; rfl

theorem Group.renewRow_vget (g : Group) (lc n : Nat) (m : Word) (k L : Nat) :
    (g.renewRow lc n m).vget k L = g.vget k L := by
  unfold Group.renewRow Group.rangeOf
  dsimp only
  split
  · rfl
  · split
    · rfl
    · split <;> rfl

theorem Group.renewRow_frame (g : Group) (lc n : Nat) (m : Word) :
    g.renewRow lc n m = { g with
      vst := (g.renewRow lc n m).vst, vx := (g.renewRow lc n m).vx, vpois := (g.renewRow lc n m).vpois } := by
  unfold Group.renewRow Group.rangeOf
  dsimp only
  split
  · rfl
  · split
    · rfl
    · split <;> rfl

theorem mem_lanesOf (m : Word) (L : Nat) : L ∈ lanesOf m ↔ L < 32 ∧ inMask m L = true := by
  simp [lanesOf, inMask]

theorem lanesOf_lt (m : Word) (L : Nat) (h : L ∈ lanesOf m) : L < 32 := ((mem_lanesOf m L).1 h).1

/-- What a row's write leaves in every register word. -/
theorem Group.writeRow_vget (g : Group) (lc n : Nat) (m : Word) (f : Nat → Word) (k L : Nat) (hL : L < 32) :
    (g.writeRow lc n m f).vget k L = if k = n ∧ inMask m L = true then f L else g.vget k L := by
  rw [Group.writeRow, Group.putLanes_vget _ _ _ _ (lanesOf_lt m) _ _ hL, Group.renewRow_vget]
  simp [mem_lanesOf, hL]

/-- A row's write changes the words and the state of rows only. -/
theorem Group.writeRow_frame (g : Group) (lc n : Nat) (m : Word) (f : Nat → Word) :
    g.writeRow lc n m f = { g with
      v := (g.writeRow lc n m f).v, vst := (g.writeRow lc n m f).vst
      vx := (g.writeRow lc n m f).vx, vpois := (g.writeRow lc n m f).vpois } := by
  unfold Group.writeRow
  generalize hr : g.renewRow lc n m = r
  have h1 : r = { g with vst := r.vst, vx := r.vx, vpois := r.vpois } := by
    rw [← hr]; exact g.renewRow_frame lc n m
  have h2 := r.putLanes_frame n f (lanesOf m)
  generalize r.putLanes n f (lanesOf m) = q at h2 ⊢
  rw [h2, h1]

/-! Errors armed at a register's words, dropped (15_system R358). -/

theorem State.disarmReg_cases (s : State) (gk n : Nat) (m : Word) :
    s.disarmReg gk n m = s ∨ ∃ f, s.disarmReg gk n m = s.modCore (coreKey (s.group gk).die (s.group gk).core) f := by
  unfold State.disarmReg
  dsimp only
  split
  · exact .inl rfl
  · exact .inr ⟨_, rfl⟩

@[simp] theorem State.disarmReg_groups (s : State) (gk n : Nat) (m : Word) :
    (s.disarmReg gk n m).groups = s.groups := by
  rcases s.disarmReg_cases gk n m with h | ⟨f, h⟩
  · rw [h]
  · rw [h]; rfl

@[simp] theorem State.disarmReg_mem (s : State) (gk n : Nat) (m : Word) :
    (s.disarmReg gk n m).mem = s.mem := by
  rcases s.disarmReg_cases gk n m with h | ⟨f, h⟩
  · rw [h]
  · rw [h]; rfl

@[simp] theorem State.disarmReg_lat (s : State) (gk n : Nat) (m : Word) :
    (s.disarmReg gk n m).lat = s.lat := by
  rcases s.disarmReg_cases gk n m with h | ⟨f, h⟩
  · rw [h]
  · rw [h]; rfl

@[simp] theorem State.disarmReg_cur (s : State) (gk n : Nat) (m : Word) :
    (s.disarmReg gk n m).cur = s.cur := by
  rcases s.disarmReg_cases gk n m with h | ⟨f, h⟩
  · rw [h]
  · rw [h]; rfl

@[simp] theorem State.disarmReg_grp (s : State) (gk n : Nat) (m : Word) :
    (s.disarmReg gk n m).grp = s.grp := by
  simp [State.grp, State.group]

/-- A change of the issuing group commutes with dropping armed errors of its core. -/
theorem State.modGrp_disarmReg (s : State) (f : Group → Group) (n : Nat) (m : Word)
    (hf : (f s.grp).die = s.grp.die ∧ (f s.grp).core = s.grp.core) :
    (s.modGrp f).disarmReg s.cur n m = (s.disarmReg s.cur n m).modGrp f := by
  have hd : ((s.modGrp f).group s.cur).die = (s.group s.cur).die := by
    have : (s.modGrp f).group s.cur = f s.grp := SMap.getD_set_same _ _ _ _
    rw [this]; exact hf.1
  have hc : ((s.modGrp f).group s.cur).core = (s.group s.cur).core := by
    have : (s.modGrp f).group s.cur = f s.grp := SMap.getD_set_same _ _ _ _
    rw [this]; exact hf.2
  unfold State.disarmReg
  dsimp only
  rw [hd, hc]
  have hk : ∀ k, (s.modGrp f).coreAt k = s.coreAt k := fun _ => rfl
  rw [hk]
  split
  · rfl
  · rfl

theorem State.disarmRegs_one (s : State) (n : Nat) (m : Word) :
    s.disarmRegs [n] m = s.disarmReg s.cur n m := rfl
theorem State.disarmRegs_two (s : State) (n : Nat) (m : Word) :
    s.disarmRegs [n, n + 1] m = (s.disarmReg s.cur n m).disarmReg s.cur (n + 1) m := by
  simp [State.disarmRegs]

/-- The same for the errors of several registers. -/
theorem State.modGrp_disarmRegs (s : State) (f : Group → Group) (ns : List Nat) (m : Word)
    (hf : ∀ g, (f g).die = g.die ∧ (f g).core = g.core) :
    (s.modGrp f).disarmRegs ns m = (s.disarmRegs ns m).modGrp f := by
  induction ns generalizing s with
  | nil => rfl
  | cons n t ih =>
    have h := s.modGrp_disarmReg f n m (hf s.grp)
    simp only [State.disarmRegs, List.foldl_cons] at ih ⊢
    rw [show (s.modGrp f).cur = s.cur from rfl, h]
    exact ih (s.disarmReg s.cur n m)

@[simp] theorem State.disarmRegs_mem (s : State) (ns : List Nat) (m : Word) :
    (s.disarmRegs ns m).mem = s.mem := by
  induction ns generalizing s with
  | nil => rfl
  | cons n t ih => simp only [State.disarmRegs, List.foldl_cons] at ih ⊢; rw [ih]; simp

theorem State.wr_written (s : State) (n : Nat) (m : Word) (f : Nat → Word) :
    LanesWritten s (s.wr n m f) m false (fun L => one n (f L)) := by
  refine ⟨onlyGroup_modGrp (s.disarmReg s.cur n m) _, fun k L hL => ?_, ?_⟩
  · simp only [State.wr, State.modGrp_grp, State.disarmReg_grp, Group.writeRow_vget _ _ _ _ _ _ _ hL, one, List.lookup]
    by_cases h1 : k = n
    · subst h1; simp
    · have : (k == n) = false := by simpa using h1
      simp [h1, this]
  · simpa [State.wr] using s.grp.writeRow_frame s.lat.lc n m f

theorem State.wr64_written (s : State) (n : Nat) (m : Word) (f : Nat → DWord) :
    LanesWritten s (s.wr64 n m f) m false (fun L => two n (f L)) := by
  refine ⟨?_, fun k L hL => ?_, ?_⟩
  · have h : (two n (f 0)).map (·.1) = [n, n + 1] := rfl
    rw [h, s.disarmRegs_two]
    exact onlyGroup_modGrp ((s.disarmReg s.cur n m).disarmReg s.cur (n + 1) m) _
  · simp only [State.wr64, State.modGrp_grp, State.disarmReg_grp, Group.writeRow64, Group.writeRow_vget _ _ _ _ _ _ _ hL, two, List.lookup]
    by_cases h1 : k = n
    · subst h1; simp
    · by_cases h2 : k = n + 1
      · subst h2
        have e1 : (n + 1 == n) = false := by simp
        simp [e1]
      · have e1 : (k == n) = false := by simpa using h1
        have e2 : (k == n + 1) = false := by simpa using h2
        simp [h1, h2, e1, e2]
  · simp only [State.wr64, State.modGrp_grp, State.disarmReg_grp, Group.writeRow64]
    generalize hr : s.grp.writeRow s.lat.lc n m (fun L => lo32 (f L)) = r
    have h1 : r = { s.grp with v := r.v, vst := r.vst, vx := r.vx, vpois := r.vpois } := by
      rw [← hr]; exact s.grp.writeRow_frame _ _ _ _
    have h2 := r.writeRow_frame s.lat.lc (n + 1) m (fun L => hi32 (f L))
    generalize r.writeRow s.lat.lc (n + 1) m (fun L => hi32 (f L)) = q at h2 ⊢
    rw [h2, h1]; rfl

theorem inMask_maskOf (f : Nat → Bool) (L : Nat) : inMask (maskOf f) L = (decide (L < 32) && f L) := by
  simp only [inMask, maskOf, BitVec.getLsbD_setWidth, BitVec.getLsbD_ofBoolListLE]
  by_cases h : L < 32
  · simp [h, List.getD]
  · simp [h]

theorem State.wrP_written (s : State) (n : Nat) (m : Word) (f : Nat → Bool) :
    PredsWritten s (s.wrP n m f) m false (fun L => [(n, f L)]) := by
  refine ⟨onlyGroup_modGrp _ _, fun k L hL => ?_, ?_⟩
  · simp only [State.wrP, State.modGrp_grp, Group.pput_pget, List.lookup]
    by_cases h1 : k = n
    · subst h1
      have := inMask_maskOf f L
      simp only [hL, decide_true, Bool.true_and] at this
      simp only [inMask, BitVec.getLsbD_or, BitVec.getLsbD_and, BitVec.getLsbD_not, if_true, beq_self_eq_true,
        Option.getD_some, hL, decide_true, Bool.true_and] at this ⊢
      rw [this]
      cases m.getLsbD L <;> simp
    · have e1 : (k == n) = false := by simpa using h1
      simp [h1, e1]
  · simp [State.wrP, Group.pput]

/-! The lapse of a range recorded before the write. -/

theorem State.setMemst_written (s u : State) (m : Word) (val : Nat → List (Nat × Word))
    (h : LanesWritten (s.setMemst memstLAPSE) u m false val) : LanesWritten s u m true val := by
  obtain ⟨⟨h1, h2⟩, h3, h4⟩ := h
  have hd : (s.setMemst memstLAPSE).disarmRegs ((val 0).map (·.1)) m
      = (s.disarmRegs ((val 0).map (·.1)) m).modGrp (fun g => { g with memst := g.memst ||| memstLAPSE }) :=
    s.modGrp_disarmRegs _ _ _ (fun _ => ⟨rfl, rfl⟩)
  rw [hd] at h1 h2
  refine ⟨⟨?_, h2⟩, fun k L hL => ?_, ?_⟩
  · rw [h1]; simp [State.modGrp]
  · rw [h3 k L hL]; simp [State.setMemst, Group.vget]
  · rw [h4]; simp [State.setMemst, memstLAPSE]

theorem State.setMemst_predsWritten (s u : State) (m : Word) (val : Nat → List (Nat × Bool))
    (h : PredsWritten (s.setMemst memstLAPSE) u m false val) : PredsWritten s u m true val := by
  obtain ⟨⟨h1, h2⟩, h3, h4⟩ := h
  refine ⟨⟨?_, h2⟩, fun k L hL => ?_, ?_⟩
  · rw [h1]; simp [State.setMemst, State.modGrp]
  · rw [h3 k L hL]; simp [State.setMemst, Group.pget]
  · rw [h4]; simp [State.setMemst, memstLAPSE]

/-! The traps of reading. -/

/-- Reading traps nowhere exactly when every word read is readable and clean. -/
theorem readTraps_nil_iff (s : State) (m : Word) (rd : Nat → List Nat) :
    s.readTraps m rd = [] ↔ ReadsClean s m rd := by
  simp only [State.readTraps, List.map_eq_nil_iff, List.filter_eq_nil_iff, mem_lanesOf, ReadsClean]
  have key : ∀ L, L < 32 → (inMask (s.erxLanes m rd) L || inMask (s.poisLanes m rd &&& ~~~s.erxLanes m rd) L)
      = (inMask m L && (rd L).any (fun n => s.grp.rdErx s.lat.lc n L || s.grp.rdPois s.lat.lc n L)) := by
    intro L hL
    have e1 := inMask_maskOf (fun L => (rd L).any (fun n => s.grp.rdErx s.lat.lc n L)) L
    have e2 := inMask_maskOf (fun L => (rd L).any (fun n => s.grp.rdPois s.lat.lc n L)) L
    simp only [inMask, State.erxLanes, State.poisLanes, BitVec.getLsbD_and, BitVec.getLsbD_not, hL,
      decide_true, Bool.true_and] at e1 e2 ⊢
    rw [e1, e2]
    have hany : (rd L).any (fun n => s.grp.rdErx s.lat.lc n L || s.grp.rdPois s.lat.lc n L)
        = ((rd L).any (fun n => s.grp.rdErx s.lat.lc n L) || (rd L).any (fun n => s.grp.rdPois s.lat.lc n L)) := by
      induction rd L with
      | nil => rfl
      | cons a t ih => simp only [List.any_cons, ih]; cases s.grp.rdErx s.lat.lc a L <;> cases s.grp.rdPois s.lat.lc a L <;> simp
    rw [hany]
    cases m.getLsbD L <;> cases (rd L).any (fun n => s.grp.rdErx s.lat.lc n L) <;> simp
  constructor
  · intro h L hL hm n hn
    have := h L ⟨hL, hm⟩
    rw [key L hL] at this
    simp only [hm, Bool.true_and, Bool.not_eq_true, List.any_eq_false, Bool.or_eq_false_iff] at this
    have := this n hn
    simpa using this
  · intro h L ⟨hL, hm⟩
    rw [key L hL]
    simp only [hm, Bool.true_and, Bool.not_eq_true, List.any_eq_false]
    intro n hn
    simpa using h L hL hm n hn

theorem without_nil (m : Word) : without m [] = m := by
  apply BitVec.eq_of_getLsbD_eq
  intro i hi
  have := inMask_maskOf (fun L => ([] : List LaneTrap).any (fun t => t.lane = L)) i
  simp only [inMask, List.any_nil, Bool.and_false] at this
  simp only [without, trapLanes, BitVec.getLsbD_and, BitVec.getLsbD_not, List.any_nil, this, hi, decide_true,
    Bool.not_false, Bool.and_true]

/-- A lane instruction in the common form: what it does with and without traps of reading. -/
theorem laneExecL_form (s : State) (i : Instr) (w : W0) (rd : Nat → List Nat) (eff : State → Word → State)
    (P : State → State → Word → Bool → Prop) (he : exec i s = .next (s.laneExecL (s.activeW w) rd eff))
    (h0 : ∀ m, P s (eff s m) m false)
    (h1 : ∀ m, P s (eff (s.setMemst memstLAPSE) m) m true) : LaneForm s i w rd P := by
  have hP : ∀ m, P s (eff (if s.lapses m rd then s.setMemst memstLAPSE else s) m) m (s.lapses m rd) := by
    intro m
    by_cases h : s.lapses m rd
    · rw [if_pos h, h]; exact h1 m
    · rw [if_neg h, show s.lapses m rd = false by simpa using h]; exact h0 m
  constructor
  · intro hc
    have ht := (readTraps_nil_iff s (s.activeW w) rd).2 hc
    refine ⟨_, ?_, hP (s.activeW w)⟩
    rw [he, State.laneExecL, State.readSources]
    simp [ht, without_nil, State.finish]
  · intro hc
    have ht : s.readTraps (s.activeW w) rd ≠ [] := fun h => hc ((readTraps_nil_iff s (s.activeW w) rd).1 h)
    refine ⟨_, ?_, hP _⟩
    rw [he, State.laneExecL, State.readSources]
    simp [State.finish, ht]

/-- One lane register written. -/
theorem laneExecL_writes (s : State) (i : Instr) (w : W0) (rd : Nat → List Nat) (n : Nat) (f : Nat → Word)
    (he : exec i s = .next (s.laneExecL (s.activeW w) rd (fun s' ok => s'.wr n ok f))) :
    WritesLanes s i w rd (fun L => one n (f L)) :=
  laneExecL_form s i w rd _ _ he (fun m => s.wr_written n m f)
    (fun m => State.setMemst_written s _ m _ ((s.setMemst memstLAPSE).wr_written n m f))

/-- A pair of lane registers written. -/
theorem laneExecL_writes64 (s : State) (i : Instr) (w : W0) (rd : Nat → List Nat) (n : Nat) (f : Nat → DWord)
    (he : exec i s = .next (s.laneExecL (s.activeW w) rd (fun s' ok => s'.wr64 n ok f))) :
    WritesLanes s i w rd (fun L => two n (f L)) :=
  laneExecL_form s i w rd _ _ he (fun m => s.wr64_written n m f)
    (fun m => State.setMemst_written s _ m _ ((s.setMemst memstLAPSE).wr64_written n m f))

/-- A lane predicate written. -/
theorem laneExecL_writesP (s : State) (i : Instr) (w : W0) (rd : Nat → List Nat) (n : Nat) (f : Nat → Bool)
    (he : exec i s = .next (s.laneExecL (s.activeW w) rd (fun s' ok => s'.wrP n ok f))) :
    WritesPreds s i w rd (fun L => [(n, f L)]) :=
  laneExecL_form s i w rd _ _ he (fun m => s.wrP_written n m f)
    (fun m => State.setMemst_predsWritten s _ m _ ((s.setMemst memstLAPSE).wrP_written n m f))

/-! Group-wide registers and predicates. -/

theorem State.wrG_written (s : State) (n : Nat) (x : Word) : GroupWritten s (s.wrG n x) (one n x) := by
  refine ⟨onlyGroup_modGrp _ _, fun k => ?_, ?_⟩
  · simp only [State.wrG, State.modGrp_grp, Group.gput_gget, one, List.lookup]
    by_cases h : k = n
    · subst h; simp
    · have : (k == n) = false := by simpa using h
      simp [h, this]
  · simp [State.wrG, Group.gput]

theorem State.wrG64_written (s : State) (n : Nat) (x : DWord) : GroupWritten s (s.wrG64 n x) (two n x) := by
  refine ⟨onlyGroup_modGrp _ _, fun k => ?_, ?_⟩
  · simp only [State.wrG64, State.modGrp_grp, Group.gput64, Group.gput_gget, two, List.lookup]
    by_cases h : k = n
    · subst h; simp
    · by_cases h2 : k = n + 1
      · subst h2
        have e1 : (n + 1 == n) = false := by simp
        simp [e1]
      · have e1 : (k == n) = false := by simpa using h
        have e2 : (k == n + 1) = false := by simpa using h2
        simp [h, h2, e1, e2]
  · simp [State.wrG64, Group.gput64, Group.gput]

theorem State.wrGP_written (s : State) (n : Nat) (b : Bool) : GroupPredWritten s (s.wrGP n b) n b := by
  refine ⟨onlyGroup_modGrp _ _, fun k => ?_, ?_⟩
  · simp only [State.wrGP, State.modGrp_grp, Group.gpput_gpget]
  · simp only [State.wrGP, State.modGrp_grp, Group.gpput]; split <;> rfl

/-- A group-wide instruction in the common form, one register written. -/
theorem groupExec_writes (s : State) (i : Instr) (w : W0) (n : Nat) (x : State → Word)
    (he : exec i s = .next (s.groupExec w (fun s => s.wrG n (x s)))) : WritesGroup s i w (one n (x s)) :=
  ⟨fun h => by rw [he]; simp [State.groupExec, h],
   fun h => ⟨_, by rw [he]; simp only [State.groupExec, h, if_true], s.wrG_written n (x s)⟩⟩

theorem groupExec_writes64 (s : State) (i : Instr) (w : W0) (n : Nat) (x : State → DWord)
    (he : exec i s = .next (s.groupExec w (fun s => s.wrG64 n (x s)))) : WritesGroup s i w (two n (x s)) :=
  ⟨fun h => by rw [he]; simp [State.groupExec, h],
   fun h => ⟨_, by rw [he]; simp only [State.groupExec, h, if_true], s.wrG64_written n (x s)⟩⟩

theorem groupExec_writesP (s : State) (i : Instr) (w : W0) (n : Nat) (x : State → Bool)
    (he : exec i s = .next (s.groupExec w (fun s => s.wrGP n (x s)))) : WritesGroupPred s i w n (x s) :=
  ⟨fun h => by rw [he]; simp [State.groupExec, h],
   fun h => ⟨_, by rw [he]; simp only [State.groupExec, h, if_true], s.wrGP_written n (x s)⟩⟩

end Sys2Proof.Machine
end

