-- ==== Sys2Proof/Laws/Shared.lean ====
section
/-!
SUPPORT. What the shared operations on dies and cores can change at all: messages between dies, their dies; a slot that
leaves its place in a core's queue of waiters, the cores.
-/

namespace Sys2Proof.Machine

/-- Counting on dies changes the dies alone. -/
theorem State.countDies_dies (f : State → Nat → Nat) (code : Nat) (l : List Nat) (s : State) :
    l.foldl (fun s d => s.countDie d code none (f s d)) s
      = { s with dies := (l.foldl (fun s d => s.countDie d code none (f s d)) s).dies } := by
  induction l generalizing s with
  | nil => rfl
  | cons d t ih => rw [List.foldl_cons, ih]; rfl

theorem State.countRoute_dies (s : State) (a b : Nat) :
    s.countRoute a b = { s with dies := (s.countRoute a b).dies } := by
  unfold State.countRoute
  split
  · rfl
  · exact State.countDies_dies _ _ _ _
  · rfl

/-- A message between dies changes the dies alone (12_atomics_barriers R277). -/
theorem State.timeMsg_dies (s : State) (a b : Nat) : s.timeMsg a b = { s with dies := (s.timeMsg a b).dies } := by
  unfold State.timeMsg
  split
  · rfl
  · rw [State.countRoute_dies]
    dsimp only
    split <;> rfl

@[simp] theorem State.timeMsg_mem (s : State) (a b : Nat) : (s.timeMsg a b).mem = s.mem := by rw [State.timeMsg_dies]
@[simp] theorem State.timeMsg_groups (s : State) (a b : Nat) : (s.timeMsg a b).groups = s.groups := by
  rw [State.timeMsg_dies]
@[simp] theorem State.timeMsg_teams (s : State) (a b : Nat) : (s.timeMsg a b).teams = s.teams := by
  rw [State.timeMsg_dies]
@[simp] theorem State.timeMsg_cores (s : State) (a b : Nat) : (s.timeMsg a b).cores = s.cores := by
  rw [State.timeMsg_dies]
@[simp] theorem State.timeMsg_launches (s : State) (a b : Nat) : (s.timeMsg a b).launches = s.launches := by
  rw [State.timeMsg_dies]
@[simp] theorem State.timeMsg_nextId (s : State) (a b : Nat) : (s.timeMsg a b).nextId = s.nextId := by
  rw [State.timeMsg_dies]

/-- A slot that waits no more changes the cores alone (04_control R65). -/
theorem State.dropWait_cores (s : State) (gk : Nat) (b : Bool) :
    s.dropWait gk b = { s with cores := (s.dropWait gk b).cores } := by
  unfold State.dropWait State.releaseReserved State.modCore
  dsimp only
  repeat' split
  all_goals rfl

@[simp] theorem State.dropWait_mem (s : State) (gk : Nat) (b : Bool) : (s.dropWait gk b).mem = s.mem := by
  rw [State.dropWait_cores]
@[simp] theorem State.dropWait_groups (s : State) (gk : Nat) (b : Bool) : (s.dropWait gk b).groups = s.groups := by
  rw [State.dropWait_cores]
@[simp] theorem State.dropWait_teams (s : State) (gk : Nat) (b : Bool) : (s.dropWait gk b).teams = s.teams := by
  rw [State.dropWait_cores]

end Sys2Proof.Machine
end

