-- ==== Sys2Proof/Tests/Slice0.lean ====
section
/-!
SUPPORT. Tests of the model: decoding, refused terms, worked results of the chapters, and for every
statement with hypotheses a state that meets them.
-/

set_option Elab.async false

namespace Sys2Proof.Tests

open Sys2Proof Sys2Proof.Machine

/-! Decoding. The words are put together from the fields of 02_encoding R31 to R35 and the opcode map. -/

/-- Word 0 under the negated guard p3 with flag B, and under the negated guard gp1. -/
def lnW (d a : BitVec 8) : W0 := { g := 3, n := true, f := true, d := d, a := a, h := false }
def gpW (d a : BitVec 8) : W0 := { g := 13, n := true, f := false, d := d, a := a, h := false }

/-- Word 1 in the ALU layout without modifiers, and in the memory layout. -/
def al (b c : BitVec 8) (ty : BitVec 5) (rnd : BitVec 2) (opx : BitVec 4) : Alu :=
  { b := b, c := c, ty := ty, rnd := rnd, na := false, aa := false, nb := false, ab := false, nc := false, opx := opx }
def mf (b c : BitVec 8) (ty : BitVec 5) (sco : BitVec 3) (ord hnt : BitVec 2) (e nob : Bool) (opx : BitVec 2) : MemF :=
  { b := b, c := c, ty := ty, sco := sco, ord := ord, hnt := hnt, e := e, nob := nob, opx := opx }

/-- Words, word 1 above word 0, that decode to the instructions beside them. -/
def decodesTo (l : List (Nat × Instr)) : Bool := l.all (fun e => decide (decodeTableWord 64 e.1 = some e.2))

theorem test_decode_control : decodesTo [
    (0x00000000001E0000, .nop (lnW 0 0)),
    (0x00000000016DFFE8, .bra { g := 13, n := true, off := 0xfff4 }),
    (0x00000018029C0012, .brd { g := 3, n := true, off := 0x9 } 0x18),
    (0x0000000003780026, .join { g := 15, n := false, off := 0x13 }),
    (0x00000000046C0008, .brx (gpW 0 4)),
    (0x00000000056DFFE8, .call { g := 13, n := true, off := 0xfff4 }),
    (0x00000000066C0008, .callg (gpW 0 4)),
    (0x00000000076C0000, .ret (gpW 0 0)),
    (0x00000000081E0000, .exit (lnW 0 0)),
    (0x0000000009781200, .refill (plainW0 9 0)),
    (0x000000000A6C0000, .yield (gpW 0 0)),
    (0x000012340BEC0000, .sleep (gpW 0 0) 0x1234),
    (0x000000000C6C0A00, .dstat (gpW 5 0)),
    (0x000000000D6C0A00, .maskr (gpW 5 0)),
    (0x000000000E6C000E, .maskw (gpW 0 7)),
    (0x000000000F1EB400, .trap (lnW 90 0)),
    (0x0000000010780000, .tret (plainW0 0 0)),
    (0x00000000111EB400, .brk (lnW 90 0)),
    (0x0000004D12EC0000, .callx (gpW 0 0) 0x4d),
    (0x0000004D1CEC0000, .tramp (gpW 0 0) 0x4d)] = true := by decide

theorem test_decode_groupwide : decodesTo [
    (0x00000000206C1428, .gmov (gpW 10 20)),
    (0x1234567821EC1400, .gmovi (gpW 10 0) 0x12345678),
    (0x1600400022EC282A, .gadd (gpW 20 21) (al 22 0 8 0 0)),
    (0x1600400023EC282A, .gsub (gpW 20 21) (al 22 0 8 0 0)),
    (0x1600400024EC282A, .gmul (gpW 20 21) (al 22 0 8 0 0)),
    (0x1617600025EC282A, .gmad (gpW 20 21) (al 22 23 12 0 0)),
    (0x0005180126EC282A, .gand (gpW 20 21) (al 0 5 3 0 1)),
    (0x0005180127EC282A, .gor (gpW 20 21) (al 0 5 3 0 1)),
    (0x0005180128EC282A, .gxor (gpW 20 21) (al 0 5 3 0 1)),
    (0x0005180129EC282A, .gshl (gpW 20 21) (al 0 5 3 0 1)),
    (0x000518012AEC282A, .gshr (gpW 20 21) (al 0 5 3 0 1)),
    (0x000518012BEC282A, .gsar (gpW 20 21) (al 0 5 3 0 1)),
    (0x180020002CEC282C, .gadd64 (gpW 20 22) (al 24 0 4 0 0)),
    (0x160060062DEC042A, .gcmp (gpW 2 21) (al 22 0 12 0 6))] = true := by decide

theorem test_decode_groupwide_predicates_and_memory : decodesTo [
    (0x160118002EEC282A, .gsel (gpW 20 21) (al 22 1 3 0 0)),
    (0x160060002FEC282A, .gmin (gpW 20 21) (al 22 0 12 0 0)),
    (0x1600600030EC282A, .gmax (gpW 20 21) (al 22 0 12 0 0)),
    (0x00000000316C282A, .gpopc (gpW 20 21)),
    (0x00000000326C282A, .gffs (gpW 20 21)),
    (0x1708400333EC282C, .glea (gpW 20 22) (al 23 8 8 0 3)),
    (0x0402256034EC2820, .gld (gpW 20 16) (mf 4 2 4 5 1 2 false false 0)),
    (0x000223B435EC2820, .gst (gpW 20 16) (mf 0 2 4 3 2 3 false true 0)),
    (0x00000000366C2822, .gsread (gpW 20 17)),
    (0x0096000137EC0204, .gplop (gpW 1 2) (al 0 150 0 0 1))] = true := by decide

theorem test_decode_integer : decodesTo [
    (0x00000000401F90C8, .mov (lnW 200 100)),
    (0x3F800000419F9000, .movi (lnW 200 0) 0x3f800000),
    (0x32004140429F90C8, .iadd (lnW 200 100) { al 50 0 8 0 0 with na := true, nb := true }),
    (0x32004140439F90C8, .isub (lnW 200 100) { al 50 0 8 0 0 with na := true, nb := true }),
    (0x32004140449F90C8, .imul (lnW 200 100) { al 50 0 8 0 0 with na := true, nb := true }),
    (0x00076001459F90C8, .imulh (lnW 200 100) (al 0 7 12 0 1)),
    (0x323C1810469F90C8, .imad (lnW 200 100) { al 50 60 3 0 0 with nc := true }),
    (0x323C6010479F90CA, .imadw (lnW 200 101) { al 50 60 12 0 0 with nc := true }),
    (0x32002000489F90C8, .iadd64 (lnW 200 100) (al 50 0 4 0 0)),
    (0x32002000499F90C8, .isub64 (lnW 200 100) (al 50 0 4 0 0)),
    (0x00FF18014A9F90C8, .iand (lnW 200 100) (al 0 255 3 0 1)),
    (0x00FF18014B9F90C8, .ior (lnW 200 100) (al 0 255 3 0 1)),
    (0x00FF18014C9F90C8, .ixor (lnW 200 100) (al 0 255 3 0 1)),
    (0x000000004D1F90C8, .inot (lnW 200 100)),
    (0x330020004E9F90C8, .ishl (lnW 200 100) (al 51 0 4 0 0)),
    (0x330020004F9F90C8, .ishr (lnW 200 100) (al 51 0 4 0 0))] = true := by decide

theorem test_decode_integer_fields : decodesTo [
    (0x33004800509F90C8, .isar (lnW 200 100) (al 51 0 9 0 0)),
    (0x04066001519F90C8, .bfe (lnW 200 100) (al 4 6 12 0 1)),
    (0x323C1800529F90C8, .bfi (lnW 200 100) (al 50 60 3 0 0)),
    (0x00000000531F90C8, .popc (lnW 200 100)),
    (0x00000000541F90C8, .clz (lnW 200 100)),
    (0x00000000551F90C8, .brev (lnW 200 100)),
    (0x320060A0569F90C8, .imin (lnW 200 100) { al 50 0 12 0 0 with aa := true, ab := true }),
    (0x320060A0579F90C8, .imax (lnW 200 100) { al 50 0 12 0 0 with aa := true, ab := true }),
    (0x00000000581F90C8, .iabs (lnW 200 100)),
    (0x3200480A599E16C8, .icmp (lnW 11 100) (al 50 0 9 0 10)),
    (0x320B20005A9F90C8, .sel (lnW 200 100) (al 50 11 4 0 0)),
    (0x320340025B9F902C, .lea (lnW 200 22) (al 50 3 8 0 2)),
    (0x000048065C9F90C8, .icvt (lnW 200 100) (al 0 0 9 0 6)),
    (0x320060025D9F90C8, .iadds (lnW 200 100) (al 50 0 12 0 2)),
    (0x323C40015E9F90C8, .idot4 (lnW 200 100) (al 50 60 8 0 1))] = true := by decide

theorem test_decode_float : decodesTo [
    (0x32007580609F90C8, .fadd (lnW 200 100) { al 50 0 14 2 0 with na := true, aa := true }),
    (0x32007580619F90C8, .fsub (lnW 200 100) { al 50 0 14 2 0 with na := true, aa := true }),
    (0x32007580629F90C8, .fmul (lnW 200 100) { al 50 0 14 2 0 with na := true, aa := true }),
    (0x323C7A50639F90C8, .ffma (lnW 200 100) { al 50 60 15 1 0 with nb := true, nc := true }),
    (0x32008020649F90C8, .fmin (lnW 200 100) { al 50 0 16 0 0 with ab := true }),
    (0x32008020659F90C8, .fmax (lnW 200 100) { al 50 0 16 0 0 with ab := true }),
    (0x32008008669E0EC8, .fcmp (lnW 7 100) (al 50 0 16 0 8)),
    (0x00008800679F90C8, .fclass (lnW 200 100) (al 0 0 17 0 0)),
    (0x00008600689F90C8, .frnd (lnW 200 100) (al 0 0 16 3 0)),
    (0x00008300699F90C8, .frcp (lnW 200 100) { al 0 0 16 1 0 with na := true }),
    (0x000083006A9F90C8, .frsq (lnW 200 100) { al 0 0 16 1 0 with na := true }),
    (0x000083006B9F90C8, .fsqrt (lnW 200 100) { al 0 0 16 1 0 with na := true }),
    (0x000083006C9F90C8, .fexp2 (lnW 200 100) { al 0 0 16 1 0 with na := true })] = true := by decide

theorem test_decode_float_more : decodesTo [
    (0x000083006D9F90C8, .flog2 (lnW 200 100) { al 0 0 16 1 0 with na := true }),
    (0x000083006E9F90C8, .fsin (lnW 200 100) { al 0 0 16 1 0 with na := true }),
    (0x000083006F9F90C8, .fcos (lnW 200 100) { al 0 0 16 1 0 with na := true }),
    (0x00008300709F90C8, .ftanh (lnW 200 100) { al 0 0 16 1 0 with na := true }),
    (0x32008400719F90C8, .fscale (lnW 200 100) (al 50 0 16 2 0)),
    (0x32008E00729F90C8, .dadd (lnW 200 100) (al 50 0 17 3 0)),
    (0x32008E00739F90C8, .dmul (lnW 200 100) (al 50 0 17 3 0)),
    (0x323C8810749F90C8, .dfma (lnW 200 100) { al 50 60 17 0 0 with nc := true }),
    (0x32008802759E0EC8, .dcmp (lnW 7 100) (al 50 0 17 0 2)),
    (0x32009200769F90C8, .hadd2 (lnW 200 100) (al 50 0 18 1 0)),
    (0x32009200779F90C8, .hmul2 (lnW 200 100) (al 50 0 18 1 0)),
    (0x323C9800789F90C8, .hfma2 (lnW 200 100) (al 50 60 19 0 0)),
    (0x323C9100799F90C8, .fdot2 (lnW 200 100) { al 50 60 18 0 0 with na := true })] = true := by decide

theorem test_decode_lanes : decodesTo [
    (0x0DE80009809E0A1C, .plop (lnW 5 14) (al 13 232 0 0 9)),
    (0x00050003819E00C8, .pmov (lnW 0 100) (al 0 5 0 0 3)),
    (0x00000002829E040E, .vote (lnW 2 7) (al 0 0 0 0 2)),
    (0x00000000839E280E, .ballot (lnW 20 7) (al 0 0 0 0 0)),
    (0x00092007849F90C8, .shfl (lnW 200 100) (al 0 9 4 0 7)),
    (0x001F2001859E28C8, .rdlane (lnW 20 100) (al 0 31 4 0 1)),
    (0x16002000869F9028, .wrlane (lnW 200 20) (al 22 0 4 0 0)),
    (0x00002000879F90C8, .matchv (lnW 200 100) (al 0 0 4 0 0)),
    (0x00000001889F900E, .prank (lnW 200 7) (al 0 0 0 0 1)),
    (0x00008200899F90C8, .lred (lnW 200 100) (al 0 0 16 1 0)),
    (0x000000008A1F900E, .lsread (lnW 200 7))] = true := by decide

theorem test_decode_formats : decodesTo [
    (0x00008C06909F90C8, .fcvt (lnW 200 100) (al 0 0 17 2 6)),
    (0x32030008919F90C8, .fpack (lnW 200 100) (al 50 3 0 0 8)),
    (0x32030000929F90C8, .funpack (lnW 200 100) (al 50 3 0 0 0)),
    (0x1500000193EC0600, .fmld (gpW 3 0) (al 21 0 0 0 1)),
    (0x0000000094EC2806, .fmst (gpW 20 3) (al 0 0 0 0 0)),
    (0x00030000959F90C8, .fscl (lnW 200 100) (al 0 3 0 0 0))] = true := by decide

theorem test_decode_memory : decodesTo [
    (0x00102575A09F90C8, .ld (lnW 200 100) (mf 0 16 4 5 1 3 false true 1)),
    (0x32021CA0A19F9028, .st (lnW 200 20) (mf 50 2 3 4 2 2 false false 0)),
    (0x16011A50A29F9028, .ldw (lnW 200 20) (mf 22 1 3 2 1 1 false false 0)),
    (0x160122A0A39F9028, .stw (lnW 200 20) (mf 22 1 4 2 2 2 false false 0)),
    (0x32018568A49F9028, .ldg (lnW 200 20) (mf 50 1 16 5 1 2 true false 0)),
    (0x320184B8A59F9028, .stg (lnW 200 20) (mf 50 1 16 4 2 3 true false 0)),
    (0x32012800A69F901E, .lds (lnW 200 15) (mf 50 1 5 0 0 0 false false 0)),
    (0x32012800A79F901E, .sts (lnW 200 15) (mf 50 1 5 0 0 0 false false 0)),
    (0x32010420A89E0028, .pref (lnW 0 20) (mf 50 1 0 4 0 2 false false 0))] = true := by decide

theorem test_decode_visibility : decodesTo [
    (0x00000300A9EC0000, .commit (gpW 0 0) { b := 0, c := 0, m16 := 0x300 }),
    (0x00000301A9EC0000, .commitChk (gpW 0 0) { b := 0, c := 0, m16 := 0x301 }),
    (0x00000100AAEC0000, .abort (gpW 0 0) { b := 0, c := 0, m16 := 0x100 }),
    (0x000004E0ABEC0000, .fence (gpW 0 0) { b := 0, c := 0, m16 := 0x4e0 }),
    (0x16000500ACEC0028, .wbr (gpW 0 20) { b := 22, c := 0, m16 := 0x500 }),
    (0x16000000ADEC0028, .invr (gpW 0 20) { b := 22, c := 0, m16 := 0x0 }),
    (0x18070000AEEC282C, .append (gpW 20 22) { b := 24, c := 7, m16 := 0x0 }),
    (0x00070000AFEC0000, .apsync (gpW 0 0) { b := 0, c := 7, m16 := 0x0 }),
    (0x00000000B06C2802, .cstat (gpW 20 1))] = true := by decide

theorem test_decode_atomics_barriers : decodesTo [
    (0x320164E0C09F9028, .atom (lnW 200 20) (mf 50 1 12 4 3 2 false false 0)),
    (0x32012540C19F9028, .cas (lnW 200 20) (mf 50 1 4 5 1 0 false false 0)),
    (0x32018382C29F9028, .red (lnW 200 20) (mf 50 1 16 3 2 0 false false 2)),
    (0x32011821C39F9012, .atoms (lnW 200 9) (mf 50 1 3 0 0 2 false false 1)),
    (0x32011C72C49F9028, .uatom (lnW 200 20) (mf 50 1 3 4 1 3 false false 2)),
    (0x16070001C5EC0012, .binit (gpW 0 9) { b := 22, c := 7, m16 := 0x1 }),
    (0x1607C000C69E2A12, .barv (lnW 21 9) { b := 22, c := 7, m16 := 0xc000 }),
    (0x00028003C7EC0012, .bwait (gpW 0 9) { b := 0, c := 2, m16 := 0x8003 }),
    (0x16020000C8EC0412, .btest (gpW 2 9) { b := 22, c := 2, m16 := 0x0 }),
    (0x16020000C9EC0012, .bexp (gpW 0 9) { b := 22, c := 2, m16 := 0x0 }),
    (0x16000000CAEC0412, .chkt (gpW 2 9) { b := 22, c := 0, m16 := 0x0 }),
    (0x00000000CB6C2800, .time (gpW 20 0))] = true := by decide

theorem test_decode_engines : decodesTo [
    (0x00000000D06C0020, .cpy (gpW 0 16)),
    (0x00000000D16C0020, .cpy2d (gpW 0 16)),
    (0x00000000D26C0020, .cpym (gpW 0 16)),
    (0x00000000D36C0020, .cpyg (gpW 0 16)),
    (0x00000000D46C282C, .cpyq (gpW 20 22)),
    (0x00000000D56C282C, .cpyc (gpW 20 22)),
    (0x14070038D8EC0480, .mma (gpW 2 64) { b := 20, c := 7, m16 := 0x38 }),
    (0x14007000D9EC0480, .mmas (gpW 2 64) { b := 20, c := 0, m16 := 0x7000 }),
    (0x00000000DA6C0400, .mzero (gpW 2 0)),
    (0x14000000DBEC0412, .mldc (gpW 2 9) { b := 20, c := 0, m16 := 0x0 }),
    (0x00030000DCEC0428, .mdrain (gpW 2 20) { b := 0, c := 3, m16 := 0x0 }),
    (0x00020000DDEC2812, .mfence (gpW 20 9) { b := 0, c := 2, m16 := 0x0 }),
    (0x00000000DE6C2800, .myokeReport (gpW 20 0)),
    (0x00000000DE6C2802, .myokeUnbind (gpW 20 1)),
    (0x00000000DE6C2804, .myokeBind (gpW 20 2)),
    (0x00000000DF6C2812, .mstat (gpW 20 9))] = true := by decide

theorem test_decode_allocation : decodesTo [
    (0x08031801E0EC0A0E, .alloc (gpW 5 7) { b := 8, c := 3, m16 := 0x1801 }),
    (0x00000000E16C000A, .free (gpW 0 5)),
    (0x00000000E26C2028, .renew (gpW 16 20)),
    (0x00000000E36C2826, .aqry (gpW 20 19)),
    (0x00030005E4EC0A28, .reclass (gpW 5 20) { b := 0, c := 3, m16 := 0x5 })] = true := by decide

theorem test_decode_system : decodesTo [
    (0x0FFF0310F0EC2800, .srd (gpW 20 0) 0xfff0310),
    (0x0FFF0310F1EC0028, .swr (gpW 0 20) 0xfff0310),
    (0x00000000F26C282C, .launch (gpW 20 22)),
    (0x00000000F31E00C8, .ipush (lnW 0 100)),
    (0x00000000F31E0200, .ipushClose (lnW 1 0)),
    (0x00000000F46C282C, .resume (gpW 20 22)),
    (0x00000000F56C282C, .killg (gpW 20 22)),
    (0x16050000F6EC0028, .tlbinv (gpW 0 20) { b := 22, c := 5, m16 := 0x0 }),
    (0x00000000F76C2806, .evcnt (gpW 20 3)),
    (0x00000001F8EC282C, .haltc (gpW 20 22) { b := 0, c := 0, m16 := 0x1 }),
    (0x00000000F96C282C, .goc (gpW 20 22)),
    (0x00000006FAEC0028, .ecci (gpW 0 20) { b := 0, c := 0, m16 := 0x6 })] = true := by decide

/-! Ill-formed terms: for every check of Sys2Proof/WellFormed.lean a term that it refuses. -/

/-- All refused. -/
def allRefused (l : List Instr) : Bool := l.all (fun i => !i.wf)

/-- Word 1 without a field set, and one of entry-defined layout. -/
def rw (b c : BitVec 8) (m16 : Half) : RRaw := { b := b, c := c, m16 := m16 }
def al0 : Alu := al 0 0 0 0 0
def mf0 : MemF := mf 0 0 3 0 0 0 false true 0
/-- Word 0 with the latch bit. -/
def hW (d a : BitVec 8) : W0 := { plainW0 d a with h := true }

theorem test_ill_control : allRefused [
    .nop (plainW0 1 0), .nop (plainW0 0 1), .nop (hW 0 0),
    .bra { g := 11, n := false, off := 0 }, .brd { g := 12, n := false, off := 0 } 0,
    .brd { g := 0, n := false, off := 0 } 0x10000, .join { g := 15, n := true, off := 0 },
    .join { g := 14, n := false, off := 0 }, .brx (plainW0 0 3), .brx (plainW0 0 64), .call { g := 0, n := false, off := 0 },
    .callg (plainW0 2 4), .ret (lnW 0 0), .exit (plainW0 0 2), .refill (lnW 3 0), .yield (lnW 0 0),
    .sleep (plainW0 0 1) 5, .dstat (plainW0 64 0), .maskr (plainW0 0 1), .maskw (plainW0 0 64), .trap (plainW0 1 1),
    .tret (gpW 0 0), .brk (hW 1 0), .callx (plainW0 1 0) 0, .tramp (plainW0 0 1) 0] = true := by decide

theorem test_ill_groupwide : allRefused [
    .gmov (plainW0 64 0), .gmovi (plainW0 0 1) 0, .gadd (lnW 0 0) al0, .gadd (hW 0 0) al0, .gadd (plainW0 0 0) (al 0 0 9 0 0),
    .gsub (plainW0 0 0) (al 0 0 0 1 0), .gmul (plainW0 0 0) (al 0 0 0 0 2), .gmad (plainW0 0 0) (al 0 64 0 0 0),
    .gand (plainW0 0 0) (al 0 0 8 0 0), .gor (plainW0 0 0) (al 1 7 0 0 1), .gxor (plainW0 0 0) (al 1 7 0 0 0),
    .gshl (plainW0 0 0) { al0 with na := true }, .gshr (plainW0 0 64) al0, .gsar (plainW0 0 0) (al 0 0 12 0 0),
    .gadd64 (plainW0 1 0) al0, .gcmp (plainW0 4 0) al0, .gcmp (plainW0 0 1) (al 0 0 9 0 0), .gcmp (plainW0 0 0) (al 0 0 0 0 12),
    .gsel (plainW0 0 0) (al 0 4 0 0 0), .gmin (plainW0 0 0) (al 0 0 3 0 0), .gmax (plainW0 0 0) (al 64 0 0 0 0),
    .gpopc (plainW0 0 64), .gffs (lnW 0 0), .glea (plainW0 0 1) al0, .glea (plainW0 0 0) (al 0 0 0 0 8),
    .gld (plainW0 1 0) (mf 0 0 4 0 0 0 false true 0), .gld (plainW0 0 0) (mf 0 0 16 0 0 0 false true 0),
    .gst (plainW0 0 0) (mf 0 0 3 0 1 0 false true 0), .gst (plainW0 0 0) (mf 0 0 3 0 0 1 false true 0),
    .gsread (plainW0 0 20), .gsread (plainW0 1 17), .gplop (plainW0 0 4) al0] = true := by decide

theorem test_ill_integer : allRefused [
    .movi (plainW0 0 1) 0, .movi (hW 0 0) 0, .iadd (plainW0 0 0) { al0 with aa := true }, .isub (plainW0 0 0) { al0 with nc := true },
    .imul (plainW0 0 0) (al 0 0 9 0 0), .imulh (plainW0 0 0) (al 0 0 3 0 0), .imad (plainW0 0 0) (al 0 0 0 0 1),
    .imadw (plainW0 1 0) al0, .imadw (plainW0 0 0) (al 0 1 0 0 0), .iadd64 (plainW0 0 1) al0, .isub64 (plainW0 0 0) (al 1 0 4 0 0),
    .iand (plainW0 0 0) { al0 with na := true }, .ior (plainW0 0 0) (al 0 0 8 0 0), .ixor (plainW0 0 0) (al 0 1 0 0 0),
    .ishl (plainW0 1 0) (al 0 0 4 0 0), .ishr (plainW0 0 0) (al 0 0 9 0 0), .isar (plainW0 0 0) (al 0 0 4 0 0),
    .bfe (plainW0 0 0) (al 0 0 3 0 0), .bfi (plainW0 0 0) (al 0 0 0 0 2), .imin (plainW0 0 0) (al 0 0 3 0 0),
    .imax (plainW0 0 0) { al0 with nc := true }, .icmp (plainW0 12 0) al0, .icmp (plainW0 0 0) { al 0 0 9 0 0 with na := true },
    .icmp (plainW0 0 0) (al 0 0 0 0 12), .sel (plainW0 0 0) (al 0 12 0 0 0), .lea (plainW0 0 63) al0,
    .icvt (plainW0 0 0) (al 0 0 0 0 0), .icvt (plainW0 1 0) (al 0 0 9 0 0), .icvt (plainW0 0 1) (al 0 0 8 0 3),
    .iadds (plainW0 0 0) (al 0 0 0 0 4), .idot4 (plainW0 0 0) (al 0 0 12 0 0)] = true := by decide

theorem test_ill_float_lanes_formats : allRefused [
    .fadd (plainW0 0 0) (al 0 0 17 0 0), .fsub (plainW0 0 0) (al 0 1 0 0 0), .fmul (plainW0 0 0) (al 0 0 0 0 1),
    .ffma (plainW0 0 0) (al 0 0 18 0 0), .fmin (plainW0 0 0) (al 0 0 0 1 0), .fmax (plainW0 0 0) { al0 with nc := true },
    .fcmp (plainW0 12 0) al0, .fcmp (plainW0 0 0) (al 0 0 0 0 1), .fclass (plainW0 0 1) (al 0 0 17 0 0),
    .frnd (plainW0 0 0) (al 0 0 0 1 1), .frcp (plainW0 0 0) (al 0 0 14 0 0), .fsin (plainW0 0 0) (al 1 0 0 0 0),
    .fscale (plainW0 0 0) { al0 with nb := true }, .dadd (plainW0 1 0) al0, .dmul (plainW0 0 0) (al 1 0 0 0 0),
    .dfma (plainW0 0 0) (al 0 1 0 0 0), .dcmp (plainW0 0 1) al0, .hadd2 (plainW0 0 0) (al 0 0 16 0 0),
    .hmul2 (plainW0 0 0) (al 0 1 18 0 0), .hfma2 (plainW0 0 0) (al 0 0 14 0 0), .fdot2 (plainW0 0 0) { al0 with aa := true },
    .plop (plainW0 0 16) al0, .pmov (plainW0 0 0) (al 0 0 0 0 4), .pmov (plainW0 0 0) (al 0 12 0 0 3),
    .pmov (hW 0 0) al0, .vote (plainW0 0 0) (al 0 0 0 0 3), .ballot (plainW0 0 12) al0, .shfl (plainW0 0 0) (al 0 0 0 0 8),
    .rdlane (plainW0 64 0) al0, .wrlane (plainW0 0 64) al0, .matchv (plainW0 0 1) (al 0 0 4 0 0), .prank (plainW0 0 0) (al 0 0 0 0 2),
    .lred (plainW0 0 0) (al 0 0 16 0 3), .lred (plainW0 0 0) (al 0 0 0 1 0), .lred (plainW0 0 0) (al 0 0 0 0 6),
    .lsread (plainW0 0 8), .fcvt (plainW0 0 0) (al 0 0 12 0 0), .fcvt (plainW0 0 0) (al 0 0 16 0 8),
    .fpack (plainW0 0 0) (al 0 8 0 0 0), .fpack (plainW0 0 0) (al 0 0 0 0 1), .funpack (plainW0 0 0) (al 0 0 0 0 1),
    .fmld (plainW0 8 0) al0, .fmld (plainW0 0 0) (al 0 0 0 0 3), .fmst (plainW0 1 0) al0, .fscl (plainW0 0 0) (al 1 0 0 0 0)]
    = true := by decide

theorem test_ill_memory : allRefused [
    .ld (plainW0 0 1) mf0, .ld (plainW0 0 0) (mf 0 0 20 0 0 0 false true 0), .ld (plainW0 0 0) (mf 0 0 3 6 0 0 false true 0),
    .ld (plainW0 0 0) (mf 0 0 3 0 2 0 false true 0), .ld (plainW0 0 0) (mf 0 0 3 0 0 0 true true 0),
    .ld (plainW0 0 0) (mf 0 0 3 0 0 0 false false 1), .ld (hW 0 0) mf0, .ld (plainW0 0 0) (mf 1 0 3 0 0 0 false true 0),
    .st (plainW0 0 0) (mf 0 0 3 0 1 0 false true 0), .st (plainW0 1 0) (mf 0 0 4 0 0 0 false true 0),
    .ldw (plainW0 2 0) (mf 0 0 5 0 0 0 false true 0), .ldw (plainW0 0 0) (mf 0 0 8 0 0 0 false true 0),
    .stw (plainW0 0 0) (mf 0 0 3 0 0 0 false true 1), .stw (plainW0 0 0) (mf 64 0 3 0 0 0 false false 0),
    .ldg (plainW0 0 0) (mf 0 0 3 2 0 0 false true 0), .stg (plainW0 0 0) (mf 0 0 3 0 0 1 false true 0),
    .lds (plainW0 0 16) mf0, .sts (plainW0 0 0) (mf 0 0 3 1 0 0 false true 0), .pref (plainW0 1 0) (mf 0 0 0 0 0 0 false true 0),
    .commit (plainW0 0 0) (rw 0 0 0x100), .commit (plainW0 0 0) (rw 0 0 0xA00), .commit (lnW 0 0) (rw 0 0 0x200),
    .commitChk (plainW0 0 0) (rw 0 0 0x401), .abort (plainW0 0 0) (rw 0 0 0x400), .abort (plainW0 0 0) (rw 0 0 0),
    .fence (plainW0 0 0) (rw 0 0 0x400), .fence (plainW0 0 0) (rw 0 0 0x460), .wbr (plainW0 0 0) (rw 0 0 0x300),
    .invr (plainW0 0 0) (rw 0 0 1), .append (plainW0 1 0) (rw 0 0 0), .apsync (plainW0 0 0) (rw 1 0 0),
    .cstat (plainW0 0 2), .atom (plainW0 0 0) (mf 0 0 16 4 0 0 false true 3), .atom (plainW0 0 0) (mf 0 0 3 1 0 1 false true 2),
    .atom (plainW0 0 0) (mf 0 0 3 0 0 2 false true 1), .cas (plainW0 1 0) mf0, .cas (plainW0 2 0) (mf 0 0 4 0 0 0 false true 0),
    .red (plainW0 0 0) (mf 0 0 3 0 0 1 false true 2), .red (plainW0 0 0) (mf 0 0 0 0 1 0 false true 0),
    .atoms (plainW0 0 16) (mf 0 0 0 0 0 0 false true 0), .atoms (plainW0 0 0) (mf 0 0 3 0 0 2 false true 2),
    .uatom (plainW0 0 0) (mf 0 0 3 2 0 0 false true 0)] = true := by decide

theorem test_ill_barriers_engines_system : allRefused [
    .binit (plainW0 0 0) (rw 0 0 2), .barv (plainW0 0 0) (rw 0 0 0x0100), .barv (plainW0 0 0) (rw 0 0 0x4000),
    .barv (plainW0 0 0) (rw 0 0 0xB000), .barv (plainW0 0 0) (rw 0 0 0x0400), .barv (plainW0 1 0) (rw 0 0 0x0200),
    .bwait (plainW0 0 0) (rw 1 0 0x8000), .bwait (plainW0 0 0) (rw 0 0 1), .btest (plainW0 4 0) (rw 0 0 0),
    .bexp (plainW0 0 0) (rw 64 0 0), .chkt (plainW0 0 16) (rw 0 0 0), .time (plainW0 1 0), .cpy (plainW0 0 4),
    .cpy2d (plainW0 0 64), .cpym (plainW0 1 8), .cpyg (lnW 0 0), .cpyq (plainW0 64 0), .cpyc (plainW0 0 64),
    .mma (plainW0 8 0) (rw 0 0 0), .mma (plainW0 0 4) (rw 0 0 0), .mma (plainW0 0 0) (rw 0 1 0), .mma (plainW0 0 0) (rw 0 0 0x8000),
    .mma (plainW0 0 0) (rw 0 0 0x7010), .mmas (plainW0 0 0) (rw 0 0 8), .mzero (plainW0 8 0), .mldc (plainW0 0 16) (rw 0 0 0),
    .mdrain (plainW0 0 2) (rw 0 0 0), .mdrain (plainW0 0 0) (rw 1 0 0x200), .mdrain (plainW0 0 0) (rw 0 8 0),
    .mdrain (plainW0 0 0) (rw 0 1 0x8000), .mfence (plainW0 0 0) (rw 1 0 0), .myokeReport (plainW0 64 0),
    .myokeUnbind (plainW0 0 0), .myokeBind (plainW0 0 1), .mstat (plainW0 0 2), .alloc (plainW0 16 0) (rw 0 0 0),
    .alloc (plainW0 0 0) (rw 0 0 4), .free (plainW0 0 16), .renew (plainW0 20 0), .aqry (plainW0 1 0), .reclass (plainW0 16 0) (rw 0 1 0),
    .srd (plainW0 0 0) 0x10000000, .swr (plainW0 1 0) 0, .launch (plainW0 0 1), .ipush (plainW0 1 0), .ipushClose (plainW0 0 0),
    .resume (plainW0 64 0), .killg (plainW0 0 64), .tlbinv (plainW0 0 0) (rw 0 64 0), .tlbinv (plainW0 0 0) (rw 0 0 3),
    .tlbinv (plainW0 0 1) (rw 0 0 1), .evcnt (plainW0 0 24), .haltc (plainW0 0 0) (rw 0 0 2), .goc (plainW0 64 0),
    .ecci (plainW0 0 0) (rw 0 0 3), .ecci (plainW0 0 0) (rw 0 0 0xC)] = true := by decide

/-- 02_encoding R31, R33, R38, R39: a reserved opcode, an opcode of no instruction, a wrong word count, a
branch with bit 0 or F set, and a field out of range. -/
theorem test_refused_words :
    decode 0x1E780000 0 = .error .toolReserved ∧ decode 0x13780000 0 = .error .unassigned
    ∧ decode 0x22782828 0 = .error .wordCount ∧ decode 0x20F80000 0 = .error .wordCount
    ∧ decode 0x0161FFE9 0 = .error .branchBits ∧ decode 0x0163FFE8 0 = .error .branchBits
    ∧ decode 0x20788000 0 = .error .field := by decide

/-! States. -/

/-- A group that stands at a placed instruction with every lane, and the same with its group changed. -/
def base : State := State.reset.withFetchWord 64 0
def withG (f : Group → Group) : State := base.setGrp (f base.grp)

/-- Word 0 under the negated guard gp3, which is never true, and under p0. -/
def noW (d a : BitVec 8) : W0 := { plainW0 d a with n := true }
def p0W (d a : BitVec 8) : W0 := { plainW0 d a with g := 0 }
def p0N (d a : BitVec 8) : W0 := { plainW0 d a with g := 0, n := true }

/-- v8 holds its lane number, v10 twice it and one, v12 the number three in every lane; p0 holds in the
even lanes and p1 in the lanes 0 to 7. -/
def laneTable (n : Nat) (f : Nat → Nat) : SMap Word :=
  ((List.range 32).map (fun L => (n * 32 + L, BitVec.ofNat 32 (f L)))).filter (fun e => decide (e.2 ≠ 0))
def lanesG (g : Group) : Group :=
  { g with v := laneTable 8 id ++ laneTable 10 (fun L => 2 * L + 1) ++ laneTable 12 (fun _ => 3)
           p := [(0, 0x55555555), (1, 0xFF)] }
def lanesS : State := withG lanesG

/-- v8 poisoned in lane 2, and expired in every lane in a trapping range. -/
def poisS : State := withG (fun g => { lanesG g with vpois := [(8, 4)] })
def erxS : State := withG (fun g =>
  { lanesG g with crs := [(0, { valid := true, first := 8, last := 8, cls := 2, lease := 0 })], vx := [(8, 1)] })

/-! Group-wide, integer and lane instructions. -/

theorem witness_GroupWideArithmeticResults :
    base.guardW (plainW0 20 21) = true ∧ base.guardW (noW 20 21) = false := by decide

theorem witness_LastGroupPredicateIsTrue : (0 : Nat) ≠ 3 ∧ (2 : Nat) ≠ 3 ∧ (1 : Nat) ≠ 2 := by decide

/-- All lanes read clean; one lane is poisoned; every lane is expired. -/
theorem witness_reads_clean : ReadsClean lanesS (lanesS.activeW (plainW0 20 8)) (fun _ => [8, 10])
    ∧ ¬ ReadsClean poisS (poisS.activeW (plainW0 20 8)) (fun _ => [8, 10])
    ∧ ¬ ReadsClean erxS (erxS.activeW (plainW0 20 8)) (fun _ => [8]) := by
  unfold ReadsClean; decide

theorem witness_IntegerWordsAndProducts :
    ReadsClean lanesS (lanesS.activeW (p0W 20 8)) (fun _ => readsAB (p0W 20 8) (al 10 0 0 0 0))
    ∧ ¬ ReadsClean poisS (poisS.activeW (p0W 20 8)) (fun _ => readsAB (p0W 20 8) (al 10 0 0 0 0)) := by
  unfold ReadsClean; decide

theorem witness_IntegerPairsShiftsAndAddress :
    (al 10 0 4 0 0).ty.toNat = 4 ∧ (al 10 0 3 0 0).ty.toNat ≠ 4 ∧ (al 10 0 9 0 0).ty.toNat = 9
    ∧ (al 10 0 8 0 0).ty.toNat ≠ 9
    ∧ ReadsClean lanesS (lanesS.activeW (plainW0 20 8)) (fun _ => [8, 9, 10])
    ∧ ¬ ReadsClean poisS (poisS.activeW (plainW0 20 8)) (fun _ => [8, 9, 10]) := by
  unfold ReadsClean; decide

theorem witness_IntegerFieldsCompareSelectConvert :
    wideType (al 10 0 9 0 0) = true ∧ wideType (al 10 0 8 0 0) = false
    ∧ (al 10 1 4 0 0).ty.toNat = 4 ∧ (al 10 1 3 0 0).ty.toNat ≠ 4
    ∧ 6 ≤ (al 0 0 6 0 0).ty.toNat ∧ (al 0 0 13 0 7).ty.toNat ≤ 13 ∧ (al 0 0 13 0 7).opx.toNat ≤ 7
    ∧ (intType 3).1 = 64 ∧ (intType 7).1 = 64 ∧ (intType 2).1 ≠ 64
    ∧ ReadsClean lanesS (lanesS.activeW (plainW0 20 8)) (fun _ => readsField (al 10 12 0 0 0)) := by
  unfold ReadsClean; decide

theorem witness_PredicatesCombinedAndMoved :
    (al 0 0 0 0 0).opx = 0 ∧ (al 0 0 0 0 1).opx = 1 ∧ (al 0 14 0 0 2).opx = 2 ∧ (al 0 11 0 0 3).opx = 3
    ∧ ReadsClean lanesS (lanesS.activeW (plainW0 0 8)) (fun _ => [8]) := by
  unfold ReadsClean; decide

theorem witness_LanesVoteAndExchangeWords :
    base.activeW (noW 20 8) = 0 ∧ lanesS.activeW (plainW0 20 8) ≠ 0
    ∧ [(8, 0), (8, 31)].any (fun x => lanesS.grp.rdErx lanesS.lat.lc x.1 x.2) = false
    ∧ [(8, 0), (8, 31)].any (fun x => lanesS.grp.rdPois lanesS.lat.lc x.1 x.2) = false
    ∧ [(8, 0), (8, 2)].any (fun x => erxS.grp.rdErx erxS.lat.lc x.1 x.2) = true
    ∧ [(8, 0), (8, 2)].any (fun x => poisS.grp.rdErx poisS.lat.lc x.1 x.2) = false
    ∧ [(8, 0), (8, 2)].any (fun x => poisS.grp.rdPois poisS.lat.lc x.1 x.2) = true := by decide

/-- 0.5 + 2^-30 is inexact, 0.5 + 0.5 is not. -/
def floatS (fpte : Nat) : State := withG (fun g =>
  { g with v := [(256, 0x3F000000), (320, 0x30800000)], fpte := fpte
           slotA := { g.slotA with own := 1, act := 1 } })

theorem witness_ReductionFollowsTheFixedTree :
    (al 0 0 12 0 1).ty.toNat ≠ 16 ∧ (al 0 0 16 0 0).ty.toNat = 16
    ∧ (let s := withG (fun g => { g with v := [(256, 0x3F000000), (257, 0x30800000)], fpte := 16 })
       let m := s.activeW (plainW0 20 8)
       let val : Nat → FRes := fun L => ((s.rd 8 L).toNat, 0)
       let op : FRes → FRes → FRes := fun x y =>
         let z := rSum f32 0 (f32.decode x.1) (f32.decode y.1)
         (z.1, z.2 ||| x.2 ||| y.2)
       let res := (reduceTree m val op 5 0).getD (0, 0)
       res.2 &&& s.grp.fpte ≠ 0 ∧ res.2 &&& 0 = 0 ∧ ReadsClean s m (fun _ => [8])) := by
  unfold ReadsClean; decide

theorem witness_FloatArithmeticAndCompareResults :
    let r := al 10 0 16 0 0
    let f := fun (s : State) (L : Nat) =>
      (rSum (fmtOf 16) 0 ((fmtOf 16).decode (s.fA (plainW0 20 8) r L)) ((fmtOf 16).decode (s.fB r L))).2
    ReadsClean (floatS 0) ((floatS 0).activeW (plainW0 20 8)) (fun _ => [8, 10])
    ∧ (∀ L, L < 32 → inMask ((floatS 0).activeW (plainW0 20 8)) L → f (floatS 0) L &&& (floatS 0).grp.fpte = 0)
    ∧ f (floatS 16) 0 &&& (floatS 16).grp.fpte ≠ 0 ∧ (floatS 0).grp.fpte = 0
    ∧ (al 0 0 17 0 0).ty.toNat = 17 ∧ r.ty.toNat ≠ 17 := by
  unfold ReadsClean; decide

theorem witness_FloatFunctionsAndSpecialOperands :
    (∀ r ∈ [frsqNum, fsqrtNum, flog2Num], r ∈ [frsqNum, fsqrtNum, flog2Num]) ∧ ({ m := 1, e := 0 } : Mag).m ≠ 0
    ∧ ReadsClean (floatS 0) ((floatS 0).activeW (plainW0 20 8)) (fun _ => [8]) := by
  refine ⟨fun _ h => h, by decide, ?_⟩
  unfold ReadsClean; decide

theorem witness_PackedFloatResults :
    ReadsClean (floatS 0) ((floatS 0).activeW (plainW0 20 8)) (fun _ => readsABC (plainW0 20 8) (al 10 12 18 0 0)) := by
  unfold ReadsClean; decide

theorem witness_FloatSumsAndProductsAreExact :
    (FNum.fin true { m := 3, e := -1 }).exact = true ∧ (FNum.fin false {}).exact = true
    ∧ ({} : Mag).m = 0 ∧ (FNum.inf true).isNan = false ∧ (FNum.fin false {}).isNan = false := by decide

theorem witness_RoundingTakesTheNamedNeighbour : ({ m := 3, e := -1 } : Mag).st = false := by decide

/-! Formats and control. -/

/-- Record B of chapter 08 in fm1, and at index 1 of a format table at 0x1000 in the placed page. -/
def recB : DWord := 0x2506040154
def fmtS : State := (withG (fun g => { lanesG g with fm := [(1, recB)] })).setCr 0 0xC 0x1000
def fmtT : State := fmtS.setMemBytes 0x4001008 (bytesLE 8 0x2506040154)

theorem witness_FormatConversions :
    (cvtSrc 6).width ≠ 64 ∧ (cvtSrc 7).width = 64 ∧ (cvtDst 17).width = 64 ∧ (cvtDst 8).width ≠ 64
    ∧ fmOk (fmtS.grp.fmget 0) = false ∧ fmOk (fmtS.grp.fmget 1) = true
    ∧ fmtS.activeW (noW 20 8) = 0 ∧ fmtS.activeW (plainW0 20 8) ≠ 0
    ∧ 248 + 32 / fmW recB ≤ fmtS.grp.nreg ∧ ¬ 249 + 32 / fmW recB ≤ fmtS.grp.nreg
    ∧ fmtS.guardW (noW 1 20) = false ∧ fmtS.guardW (plainW0 1 20) = true
    ∧ (al 0 0 0 0 0).opx = 0 ∧ (al 0 0 0 0 1).opx = 1 ∧ (al 0 1 0 0 2).opx ≠ 0 := by decide

theorem witness_FormatConversions_table :
    (fmtT.fmtRecord 0 0 1).2.toOption = some recB ∧ (fmtT.fmtRecord 0 0 0).2.toOption = some 0 := by decide

/-- The instruction of the placed clause is performed: its clause is 0, the next 3. -/
def ctl (f : Group → Group) : State :=
  { withG f with lat := { clause := 0x100, next := 0x103, word := 0x103, last := true } }
def ctl0 : State := ctl id
/-- A path inside a divergence, to join at 0x200; its partner waits there or not; a join record. -/
def splitG (arr : Bool) (recs : List DivRec) (g : Group) : Group :=
  let slotA : PcSlot := { v := true, pc := 0x100, own := 0xFF, act := 0xFF, ja := 0x200 }
  let slotB : PcSlot := { v := true, pc := 0x180, own := 0xFFFFFF00, act := 0xFFFFFF00, ja := 0x200, arr := arr }
  { g with slotA := slotA, slotB := slotB, recs := recs }
def outer : DivRec := { kind := .join, pc := 0x200, ja := 0x300, mask := 0xFFFFFFFF }
/-- The tables of linkage and of trampolines at 0x2000 in the placed page, one entry each: 0x40. -/
def linkS (entry : Nat) : State :=
  ((((ctl0.setCr 0 6 0x2000).setCr 0 8 1).setCr 0 9 0x2000).setCr 0 0xB 1).setMemBytes 0x4002000 (bytesLE 8 entry)

theorem witness_JumpsMoveTheSlot :
    ctl0.guardG 15 true = false ∧ ctl0.guardG 15 false = true ∧ ctl0.guardW (noW 0 4) = false
    ∧ ctl0.guardW (plainW0 0 4) = true ∧ target ctl0 0xFEFF = none ∧ target ctl0 0xFF00 = some 0
    ∧ target ctl0 0x10 = some 0x110 ∧ ctl0.clauseOf 2 = none ∧ ctl0.clauseOf 0x3FFFFFC = some 0xFFFFFF
    ∧ ctl0.clauseOf 0x4000000 = none ∧ ctl0.l1Object 0 0 0xFFFFFF = none
    ∧ (ctl0.cr ctl0.grp.ctx 0xB).toNat ≤ (0 : Word).toNat
    ∧ (0 : Word).toNat < ((linkS 0x40).cr 0 0xB).toNat := by decide

/-- A table entry is read, unpoisoned. -/
theorem witness_JumpsMoveTheSlot_entry :
    let r := (linkS 0x40).groupRead 1 (vaOf (BitVec.ofNat 64 ((linkS 0x40).cr64 0 9 + 8 * 0))) 8 4 true
    r.2.toOption.map (fun bs => (anyPois bs, vbytesNat bs)) = some (false, 0x40) := by decide

/-- The guard p0 holds in no lane, in some, and in all. -/
def brdS (p : Word) (f : Group → Group) : State := ctl (fun g => f { g with p := [(0, p)] })
theorem witness_DivergentBranchSplitsThePath :
    let own := fun (s : State) => (s.slot.own &&& s.guardMask 0 false, s.slot.own &&& ~~~s.guardMask 0 false)
    own (ctl0) = (0, 0xFFFFFFFF) ∧ own (brdS 0xFFFFFFFF id) = (0xFFFFFFFF, 0) ∧ own (brdS 0xFF id) = (0xFF, 0xFFFFFF00)
    ∧ target (brdS 0xFF id) 9 = some 0x109 ∧ target (brdS 0xFF id) 0x8000 = none ∧ target (brdS 0xFF id) 0x18 = some 0x118
    ∧ (brdS 0xFF id).grp.recs.length ≤ 6 ∧ (brdS 0xFF id).grp.records ≤ 4094 ∧ (brdS 0xFF id).slot.nj = true
    ∧ own (brdS 0x55 (splitG false [outer])) = (0x55, 0xAA)
    ∧ 4096 ≤ (brdS 0x55 (fun g => { splitG false [outer] g with spilled := 4095 })).grp.records
    ∧ (brdS 0x55 (fun g => { splitG false [outer] g with spilled := 4095 })).other.v = true := by decide

theorem witness_JoinsMergeAndExitsEndPaths :
    let own : Br := { g := 15, n := false, off := 0x100 }
    let here := fun (s : State) => decide (s.slot.nj = false ∧ s.slot.ja = 0x200)
    target ctl0 own.off = some 0x200 ∧ here ctl0 = false
    ∧ here (ctl (splitG false [])) = true ∧ (ctl (splitG false [])).other.v = true
    ∧ (ctl (splitG false [])).other.arr = false ∧ (ctl (splitG true [])).other.arr = true
    ∧ (ctl (splitG true [])).grp.ownRecords = 0 ∧ (ctl (splitG true [outer])).grp.ownRecords ≠ 0
    ∧ (ctl (splitG true [outer])).grp.spilled = 0 ∧ outer.kind = .join ∧ outer.mask ≠ 0
    ∧ here (ctl (fun g => { splitG false [] g with slotB := {} })) = true := by decide

theorem witness_JoinsMergeAndExitsEndPaths_exit :
    ctl0.activeW (noW 0 0) = 0 ∧ ctl0.activeW (plainW0 0 0) ≠ 0
    ∧ ctl0.slot.own &&& ~~~ctl0.activeW (plainW0 0 0) = 0 ∧ ctl0.other.v = false ∧ ctl0.grp.records = 0
    ∧ (brdS 0xFF id).slot.own &&& ~~~(brdS 0xFF id).activeW (p0W 0 0) ≠ 0
    ∧ (let s := ctl (splitG false [])
       s.activeW (plainW0 0 0) ≠ 0 ∧ s.slot.own &&& ~~~s.activeW (plainW0 0 0) = 0 ∧ s.other.v = true
         ∧ s.other.arr = false) := by decide

/-- A link to 0x400 in g62:g63, at depth 0 and under a CALL record. -/
def retS (recs : List DivRec) : State := ctl (fun g => { g with g := [(62, 0x400)], recs := recs, calldepth := 1 })
def callRec : DivRec := { kind := .call, pc := 0x100, nj := true, mask := 0xFFFFFFFF }
theorem witness_CallsLinkAndReturnsFollow :
    ctl0.guardG 15 true = false ∧ ctl0.guardW (noW 0 4) = false ∧ target ctl0 0x8000 = none ∧ target ctl0 9 = some 0x109
    ∧ (ctl0.cr 0 8).toNat ≤ (0 : Word).toNat ∧ (0 : Word).toNat < ((linkS 0x40).cr 0 8).toNat
    ∧ ctl0.grp.recs.length ≤ 6 ∧ ctl0.grp.records ≤ 4094
    ∧ (let s := ctl (splitG false [])
       s.rdG64 62 = 0 ∧ s.slot.own ≠ 0 ∧ s.other.v = true ∧ s.other.arr = false ∧ s.slot.nj = false)
    ∧ (retS []).rdG64 62 ≠ 0 ∧ (retS []).slot.nj = true ∧ (retS []).clauseOf 0x400 = some 0x100
    ∧ (retS []).l1Object 0 0 0x100 = none ∧ (retS []).grp.ownRecords = 0
    ∧ (ctl (fun g => { g with g := [(62, 0x401)] })).clauseOf 0x401 = none
    ∧ (ctl (fun g => { splitG false [] g with g := [(62, 0x400)] })).rdG64 62 ≠ 0
    ∧ (retS [callRec]).grp.ownRecords ≠ 0 ∧ (retS [callRec]).grp.spilled = 0 ∧ callRec.kind = .call
    ∧ callRec.mask ≠ 0 ∧ callRec.nj = true := by decide

theorem witness_CallsLinkAndReturnsFollow_entry :
    let r := (linkS 0x40).groupRead 1 (vaOf (BitVec.ofNat 64 ((linkS 0x40).cr64 0 6 + 8 * 0))) 8 4 true
    r.2.toOption.map (fun bs => (anyPois bs, vbytesNat bs)) = some (false, 0x40) := by decide

/-- Two vacant lanes, and three items in the core's queue. -/
def refillS (own : Word) (items : List (Word × Nat)) (pend : List PendOp) : State :=
  let s := ctl (fun g => { g with pend := pend, slotA := { g.slotA with own := own, act := own } })
  { s with cores := [(0, { items := if items = [] then [] else [(1, { items := items })] })] }
def acts (s : State) : Bool :=
  decide (s.slot.nj = true ∧ s.other.v = false ∧ s.grp.records = 0 ∧ s.grp.calldepth = 0 ∧ s.grp.traps = [])
def load7 : PendOp := { id := 1, v := [{ key := 9 * 32 + 1, val := 7 }] }
theorem witness_RefillAdmitsItems :
    let items : List (Word × Nat) := [(70, 0), (71, 1), (72, 2)]
    let vacant := fun (s : State) => s.grp.populated &&& ~~~s.slot.own
    acts (refillS 0xFFFFFFFC items []) = true ∧ acts (ctl (splitG false [])) = false
    ∧ vacant (refillS 0xFFFFFFFC items []) = 3
    ∧ (∃ o ∈ (refillS 0xFFFFFFFC items [load7]).grp.pend, ∃ p ∈ o.v, inMask 3 (p.key % 32) = true)
    ∧ ¬ (∃ o ∈ (refillS 0xFFFFFFFC items []).grp.pend, ∃ p ∈ o.v, inMask 3 (p.key % 32) = true)
    ∧ (refillS 0xFFFFFFFC items []).transAt 0 0x100 = none
    ∧ (((refillS 0xFFFFFFFC items []).coreAt (coreKey 0 0)).items.getD 1 {}).items = items
    ∧ (refillS 0 [] []).slot.own = 0 ∧ (refillS 0 [] []).itemsDone 1 = true := by decide

theorem witness_MasksStatusAndSleep :
    ctl0.guardW (noW 0 0) = false ∧ ctl0.guardW (plainW0 0 0) = true ∧ (5 : Word) ≠ 0 := by decide

/-! Traps, parks and memory. -/

/-- A trap of lane 3 is pending; the window lies at 0x20000, 128 KiB; a handler stands at 0x80, or none. -/
def pend3 (cause : Nat) : PendTrap := { lanes := [{ lane := 3, cause := cause }], code := 5, pc := 0x100, ins := 2 }
def trapS (handler : Bool) (f : Group → Group) (cause : Nat) : State :=
  let s := ((ctl (fun g => f { g with trapPend := some (pend3 cause) })).setCr 0 0xE 0x20000).setCr 0 0x10 17
  if handler then s.setCr 0 1 0x1000080 else s
def inHandler (n : Bool) (g : Group) : Group := { g with traps := [{ nested := n }] }

/-- The frame's store. -/
def frameOut (s : State) (p : PendTrap) (nest : Bool) : State × Option (Nat × Nat) :=
  let g := s.group 1
  s.engineStore g.ctx g.die g.core (vaOf (BitVec.ofNat 64 (s.framePlace g nest)))
    (wordBytes (frameWords g p nest g.ownRecords))
theorem pair_none {α β : Type} (x : α × Option β) (h : x.2 = none) : x = (x.1, none) := Prod.ext rfl h
theorem frame_stored (s : State) (p : PendTrap) (nest : Bool) (vec : Option (BitVec 24))
    (h : (frameOut s p nest).2 = none ∧ (frameOut s p nest).1.trapVec 0 = vec) :
    ∃ t, FrameStored s (s.group 1) p nest t ∧ t.trapVec 0 = vec := by
  have e := pair_none _ h.1
  exact ⟨(frameOut s p nest).1, by unfold FrameStored; unfold frameOut at e ⊢; exact e, h.2⟩

theorem witness_TrapEntersTheHandlerWithItsFrame :
    (((trapS true id 3).group 1).trapPend = some (pend3 3) ∧ ((trapS true id 3).group 1).traps = []
       ∧ ∃ t, FrameStored (trapS true id 3) ((trapS true id 3).group 1) (pend3 3) false t ∧ t.trapVec 0 = some 0x80)
    ∧ (let s := trapS true (inHandler false) cERX
       (s.group 1).traps = [{}] ∧ (pend3 cERX).code_ = cERX
         ∧ ∃ t, FrameStored s (s.group 1) (pend3 cERX) true t ∧ t.trapVec 0 = some 0x80)
    ∧ (∃ t, FrameStored (trapS false id 3) ((trapS false id 3).group 1) (pend3 3) false t ∧ t.trapVec 0 = none)
    ∧ ((trapS true (inHandler true) cERX).group 1).traps = [{ nested := true }]
    ∧ (pend3 3).code_ ≠ cERX :=
  ⟨⟨by decide, by decide, frame_stored _ _ _ _ (by decide +kernel)⟩,
    ⟨by decide, by decide, frame_stored _ _ _ _ (by decide +kernel)⟩,
    frame_stored _ _ _ _ (by decide +kernel), by decide, by decide⟩

/-- A group in a handler, its frame in memory: slot A at 0x100, and slot B as given. -/
def handlerS (b : Nat) : State :=
  (((trapS true (fun g => { inHandler false g with trapPend := none }) 3).setMemBytes 0x403FE10
    (bytesLE 4 0x30000100)).setMemBytes 0x403FE20 (bytesLE 4 b))
/-- The slots of the frame as TRET reads them. -/
def frameSlots (s : State) : Option (PcSlot × PcSlot) :=
  let r := s.groupRead s.cur (vaOf (BitVec.ofNat 64 (s.framePlace s.grp false))) 384 4 false
  let f := fun bs n => (wordsLE (bs.map (fun (b : VByte) => b.val)) 96).getD n 0
  r.2.toOption.map (fun bs => (restoredSlot (PcSlot.ofFrame (f bs 4) (f bs 5) (f bs 6) (f bs 7)) {},
    restoredSlot (PcSlot.ofFrame (f bs 8) (f bs 9) (f bs 10) (f bs 11)) {}))

theorem witness_SoftwareTrapsAndTrapReturn :
    ctl0.activeW (noW 0 0) = 0 ∧ ctl0.activeW (plainW0 9 0) ≠ 0 ∧ (ctl0.cr 0 0).getLsbD 3 = false
    ∧ ((ctl0.setCr 0 0 9).cr 0 0).getLsbD 3 = true ∧ ctl0.grp.traps = []
    ∧ (handlerS 0).grp.traps = [{}] ∧ (handlerS 0).other.v = false ∧ (handlerS 0).slot.nj = true
    ∧ (handlerS 0).grp.ownRecords = 0 ∧ (handlerS 0).cur = 1
    ∧ (ctl (fun g => inHandler false (splitG false [] g))).other.v = true := by decide

theorem witness_SoftwareTrapsAndTrapReturn_frame :
    (frameSlots (handlerS 0)).map (fun x => slotsOk x.1 x.2 && x.1.v) = some true := by decide +kernel
theorem witness_SoftwareTrapsAndTrapReturn_badFrame :
    (frameSlots (handlerS 0x30000100)).map (fun x => slotsOk x.1 x.2) = some false := by decide +kernel

/-- A core whose fault buffer is full. -/
def fullCore (waiters : List Waiter) : Core :=
  { faults := (List.range 64).map (fun i => (i, { used := true })), waiters := waiters }
def coreS (c : Core) : State := { ctl0 with cores := [(0, c)] }
theorem witness_ParksAreReported :
    (32 ∈ [32, 33, 34, 35, 36, 38, 39, 40]) ∧ 37 ∉ [32, 33, 34, 35, 36, 38, 39, 40]
    ∧ ((ctl0.setCr 0 0 5).cr 0 0).getLsbD 2 = true ∧ (ctl0.cr 0 0).getLsbD 2 = false
    ∧ (ctl0.coreAt 0).reservedFor 1 false = none ∧ (ctl0.coreAt 0).waiters = [] ∧ (ctl0.coreAt 0).freeEntry = some 0
    ∧ ((coreS (fullCore [])).coreAt 0).freeEntry = none
    ∧ ((coreS { waiters := [{ grp := 2 }] }).coreAt 0).waiters ≠ []
    ∧ ((coreS { faults := [(5, { used := true, reserved := true, grp := 1 })] }).coreAt 0).reservedFor 1 false
      = some 5 := by decide

/-- Operations ready to complete: a lane word, a group word, a predicate, none; one not ready. -/
def opsS : State := withG (fun g => { g with flags := [(2, 3)], pend := [
  { id := 1, flag := some 2 }, { id := 2, v := [{ key := 33, val := 7 }] }, { id := 3, g := [{ key := 5, val := 7 }] },
  { id := 4, gp := some (1, true) }, { id := 5, ready := false }, { id := 6, kind := .sts, sh := 9, sts := [(0, 5, 0xFF)] },
  { id := 7, kind := .fence, acq := some 4 }] })
def frozenS : State := { opsS with cores := [(0, { frozen := true })] }
/-- The operation of a name, and whether it may complete. -/
def opAt (n : Nat) : Option PendOp := (opsS.group 1).pend.find? (fun o => o.id = n)
def mayEnd (n : Nat) : Option Bool := (opAt n).map (fun o => opsS.mayComplete 1 o)
theorem witness_CountedInstructionsComplete :
    opAt 9 = none ∧ (opsS.group 1).live = true ∧ (opsS.group 1).away = false ∧ mayEnd 5 = some false
    ∧ (mayEnd 1 = some true ∧ (opAt 1).map (·.v) = some [] ∧ (opAt 1).map (·.g) = some [])
    ∧ (mayEnd 2 = some true ∧ (opAt 2).map (·.v) = some [{ key := 33, val := 7 }] ∧ (opAt 2).map (·.g) = some [])
    ∧ (mayEnd 3 = some true ∧ (opAt 3).map (·.v) = some [] ∧ (opAt 3).map (·.g) = some [{ key := 5, val := 7 }])
    ∧ (mayEnd 4 = some true ∧ (opAt 4).map (·.gp) = some (some (1, true)) ∧ (opAt 1).map (·.gp) = some none)
    ∧ (mayEnd 6 = some true ∧ (opAt 6).map (·.acq) = some none ∧ (((opsS.setAlloc 1 9 { size := 128 }).team 1).alloc 9).bound = true)
    ∧ (mayEnd 7 = some true ∧ (opAt 7).map (·.acq) = some (some 4)) ∧ frozenS.frozenAt 0 0 = true ∧ opsS.frozenAt 0 0 = false := by decide

/-- The base g20:g21 of an access in lanes 0 and 2; v8 holds 0, 1, 2 .... -/
def atS (a b : Word) : State := withG (fun g => { lanesG g with
  g := [(20, a), (21, b)].filter (fun e => decide (e.2 ≠ 0)), slotA := { g.slotA with own := 5, act := 5 } })

/-- A check of lanes that all pass, with what is then asked of the state and the accesses. -/
def clearThen (c : Checked) (p : State → List LaneAcc → Bool) : Bool :=
  match c with | .go u [] accs => p u accs | _ => false
theorem of_clearThen {c : Checked} {p : State → List LaneAcc → Bool} (h : clearThen c p = true) :
    ∃ u accs, c = .go u [] accs ∧ p u accs = true := by
  unfold clearThen at h
  split at h
  · exact ⟨_, _, rfl, h⟩
  · cases h

/-- A translation that succeeds, with what is then asked of the state and the place. -/
def okThen (r : State × Except Nat Xl) (p : State → Xl → Bool) : Bool :=
  match r.2 with | .ok x => p r.1 x | .error _ => false
theorem of_okThen {r : State × Except Nat Xl} {p : State → Xl → Bool} (h : okThen r p = true) :
    ∃ u x, r = (u, .ok x) ∧ p u x = true := by
  unfold okThen at h
  split at h
  · exact ⟨_, _, Prod.ext rfl (by assumption), h⟩
  · cases h

/-- A word load of two lanes passes its checks and finds no poison; its addresses are its base. -/
theorem witness_LoadsDeliverTheirWords :
    let s := atS 0x3000 0
    s.acquireOut s.cur = false ∧ s.guardW (noW 40 20) = false ∧ s.guardW (plainW0 40 20) = true
    ∧ canonical 0x3000 = true ∧ (0x3000 : DWord).toNat % 4 = 0
    ∧ (∃ u accs, s.Clear (plainW0 40 20) .r false 4 [] (fun _ => 0x3000) (fun _ => false) u accs
      ∧ accs.length = 2 ∧ ∀ x ∈ (u.loadLanes u.cur (memMode mf0 1) false 3 accs).2, x.pois = false)
    ∧ (∃ u x, s.translate 0 0 0x3000 .r (some 0) = (u, .ok x) ∧ u.memLocked u.cur false [0x3000] = false) := by
  refine ⟨by decide, by decide, by decide, by decide, by decide, ?_, ?_⟩
  · obtain ⟨u, accs, e, h⟩ := of_clearThen (c := (atS 0x3000 0).checkLanes 5 [] (fun _ => 0x3000) (fun _ => false) .r false 4)
      (p := fun u accs => accs.length = 2 && (u.loadLanes u.cur (memMode mf0 1) false 3 accs).2.all (fun x => !x.pois))
      (by decide +kernel)
    refine ⟨u, accs, ⟨by unfold ReadsClean; decide, e⟩, ?_⟩
    simpa using h
  · obtain ⟨u, x, e, h⟩ := of_okThen (r := (atS 0x3000 0).translate 0 0 0x3000 .r (some 0))
      (p := fun u _ => !u.memLocked u.cur false [0x3000]) (by decide)
    exact ⟨u, x, e, by simpa using h⟩

/-- A word store of two lanes passes its checks. -/
theorem witness_StoresCarryTheirBytes :
    let s := atS 0x3000 0
    s.acquireOut s.cur = false ∧ s.releaseWaits s.cur = false ∧ memRel (mf 0 0 3 4 2 0 false true 0) = true
    ∧ s.guardW (noW 8 20) = false ∧ s.guardW (plainW0 8 20) = true
    ∧ (∃ u accs, s.Clear (plainW0 8 20) .w false 4 [8] (fun _ => 0x3000) (fun _ => false) u accs ∧ accs.length = 2)
    ∧ (∃ u x, s.translate 0 0 0x3000 .w (some 0) = (u, .ok x) ∧ u.memLocked u.cur true [0x3000] = false) := by
  refine ⟨by decide, by decide, by decide, by decide, by decide, ?_, ?_⟩
  · obtain ⟨u, accs, e, h⟩ := of_clearThen (c := (atS 0x3000 0).checkLanes 5 [] (fun _ => 0x3000) (fun _ => false) .w false 4)
      (p := fun _ accs => accs.length = 2) (by decide)
    exact ⟨u, accs, ⟨by unfold ReadsClean; decide, e⟩, by simpa using h⟩
  · obtain ⟨u, x, e, h⟩ := of_okThen (r := (atS 0x3000 0).translate 0 0 0x3000 .w (some 0))
      (p := fun u _ => !u.memLocked u.cur true [0x3000]) (by decide)
    exact ⟨u, x, e, by simpa using h⟩

/-- A sector with its first byte in the store buffer, the second in the team's buffer, the third in the
cluster's merge area. -/
def ladderS : State :=
  let e : Nat → SecEntry := fun i => { sec := 0x400300, cells := [(i, { val := 0x5A, mask := 0xFF })] }
  let s := withG (fun g => { g with gsb := [e 0] })
  (s.setTeam 1 { s.team 1 with twb := [e 1] }).setCluster 0 { merge := [e 2] }
def bytesAt (k : Nat) : List SByte := [{ pk := k, val := 1 }, { pk := k + 1, val := 2 }]
theorem witness_LadderServesLoadsAndTakesStores :
    let cell := fun (l : List SecEntry) i => (cellAt (secCells l 0x400300) i).mask
    let s := ladderS
    cell (s.group 1).gsb 0 = 0xFF ∧ cell (s.group 1).gsb 1 = 0 ∧ cell (s.team 1).twb 1 = 0xFF
    ∧ cell (s.team 1).twb 2 = 0 ∧ cell (s.cluster 0).merge 2 = 0xFF ∧ cell (s.cluster 0).merge 3 = 0
    ∧ ((s.coreAt (coreKey 0 0)).l1.getD (0x400300 * 64) {}).have_ = false
    ∧ ({} : PAttr).home = (s.group 1).die ∧ 0x400300 * 16 + 15 < 2 ^ 64 ∧ ({} : PAttr).cp ≠ 2
    ∧ bytesAt 0x4003010 ≠ [] ∧ (∀ b ∈ bytesAt 0x4003010, b.mask = 0xFF)
    ∧ (s.group 1).gsb.length + (sectorsOf (bytesAt 0x4003010) 1).length ≤ (s.group 1).gsbCap
    ∧ (∀ b ∈ bytesAt 0x4003010, b.pk < 2 ^ 64 ∧ b.attr.home = (s.group 1).die
        ∧ (findSec (s.group 1).gsb (b.pk / 16)).isNone) := by decide

/-- A base that is not canonical; one that is misaligned; a block misaligned. -/
theorem witness_BadAddressesTrap :
    let s := fun a b => (atS a b).laneAddr (plainW0 40 20) mf0 false (memUnit mf0)
    (atS 1 0).acquireOut 1 = false ∧ (atS 1 0).releaseWaits 1 = false ∧ (atS 1 0).activeW (plainW0 40 20) = 5
    ∧ (∀ L ∈ [0, 2], canonical (s 0 0x80000000 L) = false)
    ∧ (∀ L ∈ [0, 2], canonical (s 0x3001 0 L) = true ∧ decide ((s 0x3001 0 L).toNat % 4 ≠ 0) = true)
    ∧ decide (((atS 0x3004 0).groupAddr (plainW0 40 20) mf0 (32 * memUnit mf0)).toNat % (32 * 4) ≠ 0) = true := by
  decide

/-- Translations: a page, a read-only page, an address without one; entries with A and D clear and set. -/
def pteS (e : Nat) : State := base.setMemBytes 0x4000 (bytesLE 8 e)
def leafOf (w : Walk) : Option (Nat × DWord) := match w with | .leaf at_ e _ => some (at_, e) | .fault _ => none
theorem witness_TranslationTakesTheLeaf :
    base.heldFor 0 0 (some 0) 0x3000 = []
    ∧ leafOf (base.walk 0 0 0x40000000) = none ∧ leafOf (base.walk 0 0 0x3000) = some (0x4000, 0x400000F)
    ∧ leafDenies 0x400000F .r false = false ∧ leafDenies 0x400000F .w false = false ∧ pteFmt 0x400000F = 0
    ∧ leafOf ((pteS 0x4000003).walk 0 0 0x3000) = some (0x4000, 0x4000003) ∧ leafDenies 0x4000003 .w false = true
    ∧ (0x400000F : DWord) &&& 0x60 ≠ 0x60 ∧ (0x400000F : DWord) &&& 0x20 = 0
    ∧ leafOf ((pteS 0x400006F).walk 0 0 0x3000) = some (0x4000, 0x400006F) ∧ (0x400006F : DWord) &&& 0x60 = 0x60 := by
  decide

/-! Scratchpad, logs, commits, atomics and barriers. -/

/-- The team's handle 9 bound to an allocation. -/
def spadS (a : Alloc) : State := lanesS.setAlloc 1 9 a
def allocP : Alloc := { size := 100, data := [(4, 7)] }
def acqS : State := (withG (fun g => { g with pend := [{ id := 3, acq := some 4, ready := false }] })).setMill 7
  { live := true, grp := 1, acq := true }
/-- A scratchpad store, a load and an acquire fence outstanding, in that order. -/
def stsS : State := withG (fun g => { g with pend := [
  { id := 3, kind := .sts, sh := 9 }, { id := 4, kind := .load }, { id := 6, kind := .fence, acq := some 4 }] })

theorem witness_ScratchpadAccesses :
    let s := spadS allocP
    let m := mf 0 0 3 0 0 0 false true 0
    s.acquireOut s.cur = false ∧ m.e = false ∧ s.activeW (plainW0 40 9) ≠ 0
    ∧ ((s.team 1).alloc 9).bound = true ∧ ((s.team 1).alloc 8).bound = false
    ∧ ReadsClean s (s.activeW (plainW0 40 9)) (fun _ => [8]) ∧ s.PlainAlloc ((s.team 1).alloc 9)
    ∧ (s.spadSplit 9 allocP false ((lanesOf 5).map (fun L => allocP.laneAt false 4 false L (s.spadOff m allocP L)))).1 = []
    ∧ (s.spadSplit 9 allocP true ((lanesOf 5).map (fun L => allocP.laneAt false 4 true L (s.spadOff m allocP L)))).1 = [] := by
  unfold ReadsClean State.PlainAlloc; decide

theorem witness_WritesRenewTheirRows :
    inMask (5 : Word) 2 = true ∧ pendFind erxS.grp.pend (·.v) (8 * 32 + 2) = none ∧ erxS.grp.clsOf 8 ≠ 0
    ∧ ({ allocP with cls := 1 } : Alloc).cls ≠ 0 := by decide

/-- g22 holds a length; a log with room for one append of 20 bytes and not for another; an append held. -/
def logS (n : Word) : State :=
  let s := (atS 0x3000 0).modGrp (fun g => g.gput 22 n)
  (s.setLog 7 { bound := true, cap := 64, next := 32 }).setAppend 3 { live := true, grp := 1, log := 7, bytes := [1] }
theorem witness_LogsPrefetchAndStatus :
    (logS 20).acquireOut 1 = false ∧ (logS 20).guardW (noW 30 20) = false ∧ (logS 20).guardW (plainW0 30 20) = true
    ∧ ((logS 0).rdG 22).toNat = 0 ∧ 2 ^ 24 < ((logS 0x1000001).rdG 22).toNat ∧ ((logS 20).rdG 22).toNat ≠ 0
    ∧ ((logS 20).rdG 22).toNat ≤ 2 ^ 24 ∧ canonical ((logS 20).rdG64 20) = true
    ∧ canonical ((atS 0 0x80000000).rdG64 20) = false
    ∧ ((logS 20).engineRead 0 0 0x3000 20).2.toOption.map anyPois = some false
    ∧ ((logS 20).log 7).next + (20 + 15) / 16 * 16 ≤ ((logS 20).log 7).cap
    ∧ ((logS 20).log 7).cap < ((logS 20).log 7).next + (33 + 15) / 16 * 16 ∧ ((logS 20).log 8).bound = false
    ∧ ((logS 20).appends.getD 3 {}).live = true ∧ ((logS 20).appends.getD 4 {}).live = false
    ∧ (logS 20).mayComplete 1 { kind := .apsync, log := some (7, 0) } = true
    ∧ (logS 20).mayComplete 1 { kind := .apsync, log := some (7, 1) } = false := by
  decide

theorem witness_SpecialRegistersRead :
    base.guardW (noW 20 9) = false ∧ base.guardW (plainW0 20 9) = true ∧ base.acquireOut base.cur = false
    ∧ acqS.acquireOut acqS.cur = true ∧ base.activeW (plainW0 20 6) ≠ 0 ∧ (9 : Nat) ∈ [9, 18, 19]
    ∧ (16, base.grp.fpstat) ∈ [((16 : Nat), base.grp.fpstat)] := by decide

/-- A team with a byte of another group's, pushed after this group's window, and one of the group's own. -/
def chkS (by_ : Nat) : State :=
  let s := withG (fun g => { g with gsb := [{ sec := 5, cells := [(0, { mask := 0xFF })] }], horizon := true })
  s.setTeam 1 { s.team 1 with twb := [{ sec := 5, cells := [(3, { mask := 0xFF, by_ := by_, seq := 1 })] }] }
theorem witness_CommitsRaiseAndAbortsDiscard :
    (chkS 2).chkConflict 2 = true ∧ (chkS 1).chkConflict 2 = false
    ∧ base.Fresh 1 (sectorsOf (bytesAt 0x4003010) 1).length ∧ (∀ b ∈ bytesAt 0x4003010, b.mask = 0xFF)
    ∧ (∀ b ∈ bytesAt 0x4003010, b.pk < 2 ^ 64 ∧ b.attr.home = (base.group 1).die)
    ∧ base.guardW (plainW0 0 0) = true ∧ base.guardW (noW 0 0) = false
    ∧ (chkS 2).grp.horizon = true ∧ (base.team 1).live = true
    ∧ bitsOf (0x100 : Half).toNat 8 3 = 1 ∧ bitsOf (0x200 : Half).toNat 8 3 = 2 ∧ bitsOf (0x300 : Half).toNat 8 3 = 3 := by
  unfold State.Fresh; decide

theorem witness_FencesAndRanges :
    acqS.guardW (plainW0 0 20) = true ∧ acqS.guardW (noW 0 20) = false ∧ acqS.releaseWaits acqS.cur = true
    ∧ stsS.releaseWaits stsS.cur = true ∧ (∃ e ∈ (stsS.group 1).pend.takeWhile (fun e => e.id ≠ 6), e.kind = .load ∨ e.kind = .atomic)
    ∧ base.releaseWaits base.cur = false ∧ stsS.mayComplete 1 { id := 6, kind := .fence, acq := some 4 } = false
    ∧ ((logS 20).rdG 22).toNat ≠ 0 ∧ ((logS 0).rdG 22).toNat = 0 ∧ rangeBad 0x3000 20 = none
    ∧ canonical ((atS 0 0x80000000).rdG64 20) = false
    ∧ 0x3000 / 128 = (0x3000 + 20 - 1) / 128 ∧ ((logS 20).translate 0 0 0x3000 .r).2.isOk = true
    ∧ 0x3070 / 128 + 1 = (0x3070 + 20 - 1) / 128 ∧ ((logS 20).translate 0 0 0x3070 .r).2.isOk = true
    ∧ ((logS 20).translate 0 0 0x40000000 .r).2.isOk = false := by
  decide

/-- A word atomic of two lanes passes its checks, and finds no poison. -/
theorem witness_AtomicsReachTheirTargets :
    let s := atS 0x3000 0
    s.acquireOut s.cur = false ∧ s.releaseWaits s.cur = false
    ∧ (∃ u accs, s.Clear (plainW0 8 20) .rw false 4 [8] (fun _ => 0x3000) (fun _ => false) u accs
      ∧ (accs.foldl (fun s a => s.meetHome a.x.attr.home (a.x.pk / 16)) u).atomTraps
          (mf 0 0 3 4 0 0 false true 0) { code := 0, ty := 3 } accs = [])
    ∧ memScope (mf 0 0 3 4 0 0 false true 0) 4 ≠ 2 ∧ ([{}] : List LaneAcc) ≠ [] := by
  refine ⟨by decide, by decide, ?_, by decide, by decide⟩
  obtain ⟨u, accs, e, h⟩ := of_clearThen (c := (atS 0x3000 0).checkLanes 5 [] (fun _ => 0x3000) (fun _ => false) .rw false 4)
    (p := fun u accs => decide ((accs.foldl (fun s a => s.meetHome a.x.attr.home (a.x.pk / 16)) u).atomTraps
      (mf 0 0 3 4 0 0 false true 0) { code := 0, ty := 3 } accs = [])) (by decide)
  exact ⟨u, accs, ⟨by unfold ReadsClean; decide, e⟩, of_decide_eq_true h⟩

/-- An atomic at TEAM of lane 2 on a word of a plain page. -/
def accT : LaneAcc :=
  let x : Xl := leafXl 0x400000F true 0x3008
  { lane := 2, va := 0x3008, x := x, vas := [0x3008, 0x3009, 0x300A, 0x300B] }
/-- An earlier atomic of the group on that word is still on its way. -/
def behindS : State :=
  lanesS.setMill 7 { live := true, grp := 1, ty := 3, lanes := [{ lane := 2, at_ := 0x4003008 }] }
theorem witness_AtomicsReachTheirTargets_team :
    let m := mf 0 0 8 2 0 0 false true 0
    let p := lanesS.carry 1 2 false (accSecs [accT])
    lanesS.atomBehind 1 4 [accT] = false ∧ behindS.atomBehind 1 4 [accT] = true
    ∧ (p.readSec 1 (accT.x.pk / 16) accT.x.attr 2 false false false).1.spillAll = []
    ∧ memScope m 4 = 2 ∧ memRel m = false ∧ (p.team p.grp.team).twb.length < (p.team p.grp.team).quota
    ∧ accT.vas = [accT.va, accT.va + 1, accT.va + 2, accT.va + 3]
    ∧ (∀ i, i < 4 → (accT.x.at_ (accT.va + i)).pk = accT.x.pk + i) ∧ accT.x.pk % 4 = 0
    ∧ (∀ i, i < 4 → (accT.x.at_ (accT.va + i)).attr = accT.x.attr) := by decide +kernel

theorem witness_AtomicsReachTheirTargets_spad :
    let s := (spadS allocP).modGrp (fun g => { g with slotA := { g.slotA with own := 4, act := 4 } })
    s.acquireOut s.cur = false ∧ (3 : Nat) ∈ [3, 8, 12] ∧ s.activeW (plainW0 8 9) = ofBits (fun i => decide (i = 2))
    ∧ s.activeW (plainW0 8 9) ≠ 0 ∧ s.PlainAlloc ((s.team 1).alloc 9) ∧ ((s.team 1).alloc 8).bound = false
    ∧ ReadsClean s (s.activeW (plainW0 8 9)) (fun _ => [10, 8, 9]) := by
  unfold ReadsClean State.PlainAlloc; decide +kernel

/-- A fragment of one clause at word 0x40, a RET, in the memory of the placed page. -/
def retFrag : Frag :=
  let s := base.setMemBytes 0x4000100 (bytesLE 4 1 ++ bytesLE 4 0x07780000)
  { installed := true, start := 0x40, mem := s.mem, creg := s.creg }
/-- A request of one lane in its home's queue; another behind it on the same line; a user operation, whose
fragment returns at once; one without a fragment. -/
def millS (user : Bool) : State :=
  let q : MillReq := { live := true, grp := 1, op := 5, code := 0, ty := 3, user := user, frag := if user then retFrag else {}
                       lanes := [{ lane := 2, at_ := 0x4003008, v1 := 9 }] }
  let s := withG (fun g => { g with pend := [{ id := 5, ready := false, dst := [2] }] })
  let s := ((s.setMill 7 q).setMill 8 q).setDie 0 { miller := [7, 8] }
  s.setMemBytes 0x4000100 (bytesLE 4 1 ++ bytesLE 4 0x07780000)
theorem witness_MillersPerformRequests :
    let r := (millS false).mill 7
    (millS false).millReady 0 7 = true ∧ (millS false).millReady 0 8 = false ∧ r.user = false
    ∧ ((millS true).mill 7).user = true ∧ (millS true).millReady 0 7 = true
    ∧ r.attr.home = 0 ∧ r.fromDie = 0 ∧ r.attr.tier = 0 ∧ r.acq = false ∧ r.rel = none
    ∧ ((millS false).millBefore r r.line).spillAll = []
    ∧ ((millS false).pline 0 (0x4003008 / 128)).have_ = false ∧ (9 : Nat) ≤ 9 ∧ (4 : Nat) ∈ [4, 9, 13] := by decide
theorem witness_MillersPerformRequests_user :
    let s := millS true
    let r := s.mill 7
    let l : LaneOp := { lane := 2, at_ := 0x4003008, v1 := 9 }
    (s.millBefore r r.line).userOp r l (BitVec.ofNat 64 (s.memNat l.at_ 4)) = some (0, 0)
    ∧ (∀ o ∈ (s.group r.grp).pend, o.id = r.op → ∀ k ∈ o.dst, k % 32 = l.lane ∧
        ∃ x ∈ oldWords r.dest l.lane false 0, x.key = k) := by decide

/-- Two teams of a cluster of two: the other's handle 9 holds an object that waits for two arrivals. -/
def barS (away : Bool) : State :=
  let obj : Alloc := { size := 64, data := [(0, 2)] }
  let s := (lanesS.setAlloc 1 9 obj).setCluster 0 { w := 2, launch := 1 }
  let s := s.setTeam 2 { live := true, launch := 1, px := 1, away := away, handles := [(9, obj)] }
  (s.setLaunch 1 { rec_ := [0, 0, 2, 0x10001] }).setArrival 6
    { live := true, team := 2, handle := 9, na := 1, grp := 1, op := 4, barw := away }
/-- The object's phase has moved on from 0. -/
def passedS : State := (barS false).setAlloc 1 9 { size := 64, data := [(0, 2), (2, 1)] }
theorem witness_BarriersCountTheirPhases :
    let s := barS false
    let a := (s.team 1).alloc 9
    s.guardW (noW 0 9) = false ∧ s.guardW (plainW0 0 9) = true ∧ s.acquireOut s.cur = false ∧ acqS.acquireOut acqS.cur = true
    ∧ a.hasObject 0 ∧ a.hasObject 48 ∧ ((s.team 1).alloc 8).bound = false ∧ a.size < 56 + 16
    ∧ (a.barrier 0 0).phase = 0 ∧ (((passedS.team 1).alloc 9).barrier 0 0).phase = 1
    ∧ a.cls = 0 ∧ 4 * 15 % pow2Up a.size + 4 ≤ a.size := by
  unfold Alloc.hasObject; decide
theorem witness_BarriersCountTheirPhases_arrive :
    let s := barS false
    s.releaseWaits s.cur = false ∧ (lanesOf (s.activeW (plainW0 0 9))).length * 1 ≠ 0 ∧ (lanesOf (s.activeW (noW 0 9))).length * 1 = 0
    ∧ (s.releaseAt s.cur 2).grp.team = 1 ∧ ((s.releaseAt s.cur 2).team 1).away = false ∧ (((s.releaseAt s.cur 2).team 1).alloc 9).hasObject 0
    ∧ (s.releaseAt s.cur 3).clusterHas 0 1 = true ∧ (s.releaseAt s.cur 3).clusterTeam 0 1 = some 2
    ∧ (s.releaseAt s.cur 3).clusterHas 0 2 = false
    ∧ (s.arrival 6).live = true ∧ (s.arrival 5).live = false ∧ (s.team 2).live = true ∧ (s.team 2).away = false
    ∧ ((barS true).team 2).away = true ∧ s.frozenAt 0 0 = false ∧ ((s.team 2).alloc 9).hasObject 0 := by
  unfold Alloc.hasObject; decide

/-! Engine commands. -/

/-- g16 to g23 hold a CPY of 600 bytes from handle 9 to handle 8 of the team, at 16; a pending predicate gp1. -/
def copyG (kinds : Word) (pend : List PendOp) (g : Group) : Group :=
  { g with g := [(17, 9), (18, 16), (19, 8), (20, 600)] ++ (if kinds = 0 then [] else [(23, kinds)]), pend := pend }
def plain1K : Alloc := { size := 1024, data := [(600, 7)] }
def copyS (kinds : Word) (pend : List PendOp) (c : Core) : State :=
  let s := ((withG (copyG kinds pend)).setAlloc 1 9 plain1K).setAlloc 1 8 plain1K
  { s with cores := if c = {} then [] else [(0, c)] }
/-- The same command in the queue as command 5. -/
def queuedS (started : Bool) (guard : Option (Nat × Bool)) (len : Word) : State :=
  let c : CopyCmd := { live := true, grp := 1, team := 1, words := [0, 9, 16, 8, len, 0, 0, 0x5000]
                       started := started, guard := guard, dests := [1] }
  (copyS 0x5000 [] { cpy := [5] }).setCopy 5 c

/-- A gather of 16 bytes. -/
def gatherS : State :=
  let s := queuedS false none 600
  s.setCopy 5 { s.copy 5 with kind := 3, words := [0, 0x3000, 0, 8, 0x100000, 0, 0, 0x5000] }

theorem witness_CopyCommandsMoveBytes :
    let s := copyS 0x5000 [{ id := 3, gp := some (1, false) }] {}
    s.acquireOut s.cur = false ∧ s.guardOpen { plainW0 0 16 with g := 13 } ∧ ¬ s.guardOpen (plainW0 0 16)
    ∧ s.guardW (plainW0 0 16) = true ∧ s.guardW (noW 0 16) = false ∧ ¬ s.guardOpen (noW 0 16)
    ∧ s.copyBad (s.copyOf (plainW0 0 16) 0) = false ∧ (copyS 0x9000 [] {}).copyBad ((copyS 0x9000 [] {}).copyOf (plainW0 0 16) 0) = true
    ∧ ((s.coreAt 0).cpy.length < 64 ∧ (s.coreAt 0).locks.length + (s.copyLocks s.nextId (s.copyOf (plainW0 0 16) 0)).length ≤ 32)
    ∧ ¬ ((copyS 0x5000 [] { cpy := List.range 64 }).coreAt 0).cpy.length < 64
    ∧ ((queuedS false none 600).coreAt 0).cpy.filter (fun i => ((queuedS false none 600).copy i).team = 1) = [5] := by
  unfold State.guardOpen; decide
theorem witness_CopyCommandsMoveBytes_start :
    (queuedS false none 600).copyReady 0 5 = true ∧ (queuedS true none 600).copyReady 0 5 = false
    ∧ ((queuedS false none 600).copy 5).kind ≠ 3 ∧ ((queuedS false none 600).copy 5).chunks ≠ 0
    ∧ gatherS.copyReady 0 5 = true ∧ (gatherS.copy 5).kind = 3 ∧ (gatherS.copy 5).chunks ≠ 0
    ∧ (queuedS false none 0).copyReady 0 5 = true ∧ ((queuedS false none 0).copy 5).chunks = 0
    ∧ (queuedS true none 600).copyHead 0 = none ∧ (queuedS false none 600).copyHead 0 = some 5
    ∧ (queuedS false (some (1, false)) 600).copyHead 0 = some 5
    ∧ ((queuedS false (some (1, false)) 600).copy 5).gval = none
    ∧ ((queuedS false (some (1, false)) 600).group 1).gpPending 1 = false
    ∧ ((queuedS false (some (1, false)) 600).group 1).gpget 1 = false
    ∧ ((queuedS false (some (1, true)) 600).group 1).gpget 1 ≠ true
    ∧ ((copyS 0 [{ id := 3, gp := some (1, false) }] {}).group 1).gpPending 1 = true := by decide
theorem witness_CopyCommandsMoveBytes_land :
    let s := queuedS true none 600
    let c := s.copy 5
    s.chunkReady 0 5 0 = true ∧ s.chunkReady 0 5 1 = true ∧ c.kind = 0 ∧ c.sk = 1 ∧ c.dk = 1 ∧ c.dests = [1]
    ∧ c.cv = false ∧ c.bv = false ∧ ((s.team 1).alloc 9).isPlain ∧ ((s.team 1).alloc 8).isPlain
    ∧ (c.w 0).toNat + c.len ≤ 1024 ∧ (c.w 2).toNat + c.len ≤ 1024 ∧ c.landed.length + 1 ≠ c.chunks
    ∧ c.held = [] ∧ s.teamFrozen c 0 1 = false ∧ (s.team 1).away = false
    ∧ ((s.setCopy 5 { c with landed := [0] }).copy 5).landed.length + 1 = c.chunks := by
  unfold Alloc.isPlain; decide

/-- A team with a tile; record B in fm1, without a scale record A of chapter 08 in fm2. -/
def matS (pend : List PendOp) (t : Team → Team) (c : Core) : State :=
  let s := withG (fun g => { g with fm := [(1, recB), (2, 0x7E050748)], pend := pend, g := [(20, 2)] })
  let s := s.setTeam 1 (t { s.team 1 with nacc := 1, handles := [(9, { size := 4096 })] })
  { s with cores := if c = {} then [] else [(0, c)] }
def matS0 : State := matS [] id {}
def yokeT (b : Bool) (t : Team) : Team := { t with yokeMode := true, yokeBound := b }

theorem witness_MatrixCommandsRun :
    matS0.acquireOut matS0.cur = false ∧ ¬ matS0.guardOpen (plainW0 0 64) ∧ matS0.guardW (plainW0 0 64) = true
    ∧ matS0.guardW (noW 0 64) = false ∧ (matS [{ id := 3, gp := some (1, false) }] id {}).guardOpen { plainW0 0 64 with g := 13 }
    ∧ 240 + 16 ≤ matS0.grp.nreg ∧ ¬ 248 + 16 ≤ matS0.grp.nreg
    ∧ (matS0.team 1).nacc ≤ 1 ∧ ¬ (matS0.team 1).nacc ≤ 0 ∧ matS0.followerBound = false
    ∧ ((matS [] (yokeT false) {}).team 1).yokeMode = true ∧ (matS [] (yokeT false) {}).yokeBound 0 0 = false
    ∧ mmFormatBad 14 false false 0 0 true true = false ∧ mmFormatBad 0 false false recB 0 true true = true
    ∧ (matS0.rdG 20).toNat % 4 ≠ 0 ∧ (matS0.rdG 21).toNat % 4 = 0 ∧ matS0.WholeRegs [(64, 32), (65, 32), (79, 16)]
    ∧ ((matS0.coreAt 0).mat.length < 16 ∧ (matS0.coreAt 0).locks.length + 1 ≤ 32)
    ∧ ¬ ((matS [] id { mat := List.range 16 }).coreAt 0).mat.length < 16
    ∧ drainBad false 16 0 [0, 0, 512, 0] = false ∧ drainBad false 16 0 [2, 0, 0, 0] = true
    ∧ fmOk (matS0.grp.fmget 1) = true ∧ fmOk (matS0.grp.fmget 0) = false := by
  unfold State.guardOpen State.WholeRegs; decide
theorem witness_MatrixCommandsRun_report :
    let s := matS [] (yokeT true) {}
    (matS0.team 1).yokeMode = false ∧ ¬ ((s.team 1).yokeMode = false ∨ s.grp.core % 2 = 1)
    ∧ (s.coreAt (coreKey 0 1)).mat = [] ∧ (s.coreAt 0).mat = []
    ∧ ((s.setCore 1 { mat := [4] }).coreAt (coreKey 0 1)).mat ≠ []
    ∧ (∃ i ∈ ((s.setCore 0 { mat := [4] }).setMat 4 { team := 1 }).coreAt 0 |>.mat,
        (((s.setCore 0 { mat := [4] }).setMat 4 { team := 1 }).mat i).team = s.grp.team)
    ∧ (s.modGrp (fun g => { g with core := 1 })).followerBound = true
    ∧ (plainW0 20 0).a = 0 ∧ (plainW0 20 1).a = 1 ∧ 8 ≤ (plainW0 20 8).a.toNat
    ∧ ((matS0.team 1).alloc 9).hasObject (16 * 255 % pow2Up 4096) := by
  unfold Alloc.hasObject; decide
/-- A matrix command of each kind at the head of the queue. -/
def mcS (kind : Nat) (started : Bool) (landed : List Nat) (amx : Option DWord) : State :=
  (matS [] id { mat := [5] }).setMat 5 { live := true, kind := kind, grp := 1, team := 1, ty := 16, handle := 9, span := 4096
                                         started := started, landed := landed, amx := amx }
def batchS (cmds : List Nat) : State :=
  let s := matS [] id { batches := [6] }
  { s with batches := [(6, { live := true, grp := 1, team := 1, handle := 9, cmds := cmds })] }
theorem witness_MatrixCommandsRun_start :
    (mcS 0 false [] none).matReady 0 5 = true ∧ (mcS 1 false [] none).matReady 0 5 = true
    ∧ (mcS 2 false [] none).matReady 0 5 = true ∧ (mcS 3 false [] none).matReady 0 5 = true
    ∧ (mcS 4 false [] none).matReady 0 5 = true ∧ (mcS 4 true [] none).matReady 0 5 = false
    ∧ ((batchS [5]).batch 6).live = true ∧ (∀ i ∈ ((batchS [5]).batch 6).cmds, ((batchS [5]).mat i).live = false)
    ∧ ((batchS [5]).batchesOn 0 1 9 0).head? = some 6 ∧ ((batchS []).batch 7).live = false
    ∧ (((batchS []).team 1).alloc 9).hasObject 0 := by
  unfold Alloc.hasObject; decide
theorem witness_MatrixCommandsRun_amax :
    let s := mcS 4 true (List.range 64) (some 0x3000)
    let c := s.mat 5
    c.live = true ∧ c.started = true ∧ c.landed.length = c.chunks ∧ s.chunkFree 0 true 5 amaxChunk c.paused = true
    ∧ c.amx = some 0x3000
    ∧ (∃ u x, s.amaxPlace 0 c 0x3000 = (u, .ok x) ∧ x.attr.tier = 0 ∧ x.attr.home = c.die ∧ x.pk + 4 ≤ 2 ^ 64
        ∧ (u.pline c.die (x.pk / 128)).have_ = false
        ∧ (u.millerCore x.attr.home (x.pk / 128)).any (u.frozenAt x.attr.home) = false ∧ u.spillAll = []) := by
  refine ⟨by decide, by decide, by decide, by decide, by decide, ?_⟩
  obtain ⟨u, x, e, h⟩ := of_okThen (r := (mcS 4 true (List.range 64) (some 0x3000)).amaxPlace 0
    ((mcS 4 true (List.range 64) (some 0x3000)).mat 5) 0x3000) (p := fun u x => decide (x.attr.tier = 0 ∧ x.attr.home = 0
      ∧ x.pk + 4 ≤ 2 ^ 64 ∧ (u.pline 0 (x.pk / 128)).have_ = false
      ∧ (u.millerCore x.attr.home (x.pk / 128)).any (u.frozenAt x.attr.home) = false ∧ u.spillAll = [])) (by decide +kernel)
  exact ⟨u, x, e, of_decide_eq_true h⟩

/-! Allocation and the system class. -/

/-- A team with a reserve of 64 rows; handle 9 bound, plain or leased; a class range of registers 8 to 15. -/
def leaseS (cls : Nat) (locks : List LockRange) : State :=
  let s := withG (fun g => { g with crs := [(0, { valid := true, first := 8, last := 15, cls := cls, lease := 5 })]
                                    g := [(20, 4096), (21, 5), (24, 3)] })
  let s := s.setTeam 1 { s.team 1 with reserve := 64, handles := [(9, { size := 4096, cls := cls, lease := 5 })] }
  { s with cores := if locks = [] then [] else [(0, { locks := locks })] }
theorem witness_AllocationsAndLeases :
    let s := leaseS 1 []
    s.guardW (noW 5 20) = false ∧ s.guardW (plainW0 5 20) = true
    ∧ ((s.setCr 0 0xC 0x40000000).fmtCapture 0 0 3).2.isOk = false ∧ (s.fmtCapture 0 0 0).2.isOk = true
    ∧ allocAnswer (s.team 1) 5 4096 1 0 0 = 0 ∧ allocAnswer (s.team 1) 9 4096 1 0 0 = 1
    ∧ allocAnswer (s.team 1) 5 8388608 1 0 0 = 2 ∧ allocAnswer (s.team 1) 5 4095 1 0 0 = 3
    ∧ allocAnswer (s.team 1) 5 0 1 0 0 = 3 ∧ allocAnswer (s.team 1) 5 8392704 1 0 0 = 3
    ∧ allocAnswer (s.team 1) 5 4096 3 0 0 = 4 ∧ allocAnswer (s.team 1) 5 4096 1 3 0 = 5
    ∧ ((s.team 1).alloc 5).size = 0 ∧ ((s.team 1).alloc 9).size ≠ 0 ∧ s.allocBusy 1 9 = false
    ∧ (leaseS 1 [{ team := 1, handle := 9, lo := 0, hi := 4 }]).allocBusy 1 9 = true
    ∧ s.target 5 = .nothing ∧ s.target 17 = .nothing ∧ s.target 9 = .handle 9 ((s.team 1).alloc 9)
    ∧ s.target 16 = .range 0 (s.grp.crs.getD 0 {}) ∧ (s.grp.crs.getD 0 {}).cls ≠ 0
    ∧ ((leaseS 0 []).grp.crs.getD 0 {}).cls = 0 ∧ (((leaseS 0 []).team 1).alloc 9).cls = 0
    ∧ (0 : Half).getLsbD 2 = false ∧ bitsOf (3 : Half).toNat 0 2 = 3 ∧ bitsOf (1 : Half).toNat 0 2 ≠ 3 := by decide
theorem witness_AllocationsAndLeases_repairs :
    let s := base.setCore 0 { rowRemaps := [(41, 3), (37, 7)], marked := 1 }
    (base.keptRows 0)[0]?.isSome = true ∧ (base.keptRows 5).length ≤ 0 ∧ ((s.coreAt 0).rowRemaps.find? (fun e => !s.rowHeld e.1)) = some (41, 3) ∧ (s.coreAt 0).sparesUsed < 1024
    ∧ s.repairs.length < 4096 ∧ (s.coreAt 0).marked ≠ 0 ∧ s.arrayIdle 0 = true ∧ (s.coreAt 0).columnsUsed < 4
    ∧ (base.coreAt 0).marked = 0 ∧ (∀ e ∈ (base.coreAt 0).rowRemaps, base.rowHeld e.1 = true) := by decide

/-- The placed context privileged. -/
def privS : State := base.setCr 0 0 3
def targetWord : Word := 0
theorem witness_RegistersAndPrivilege :
    base.regUnit 0x0FFF0200 = some (.die 0) ∧ base.regUnit 0x0FFF0600 = none ∧ base.regUnit 0x0FFF0310 = some .package
    ∧ base.guardW (noW 20 21) = false ∧ base.guardW (plainW0 20 21) = true ∧ (base.cr base.grp.ctx 0).getLsbD 1 = false
    ∧ (privS.cr privS.grp.ctx 0).getLsbD 1 = true ∧ 0x200 ∉ [0x108, 0x303, 0x310, 0x311]
    ∧ 0x310 ∈ [0x108, 0x303, 0x310, 0x311] ∧ base.ownUnit .package = true ∧ base.ownUnit (.core 5) = false
    ∧ (7 : Nat) < 8 ∧ (23 : Nat) < 24 ∧ ((0x2FF : Word).getLsbD 9 = true ∧ (0x2FF : Word).getLsbD 18 = false)
    ∧ base.targetCore 0 = some 0 ∧ base.targetCore 1 = none ∧ base.targetCore 0x40000000 = none := by decide

/-- A launch with an item queue, closed or not, and its core's queue. -/
def itemS (closed : Bool) (n : Nat) : State :=
  let s := lanesS.setLaunch 1 { rec_ := List.replicate 4 0 ++ [0x40000], closed := closed }
  s.setCore 0 { items := [(1, { items := List.replicate n (5, 0) })] }
theorem witness_SystemInstructionsAct :
    let s := atS 0x3000 0
    s.guardW (noW 30 20) = false ∧ s.guardW (plainW0 30 20) = true ∧ s.acquireOut s.cur = false ∧ s.releaseWaits s.cur = false
    ∧ acqS.releaseWaits acqS.cur = true ∧ canonical ((atS 0 0x80000000).rdG64 20) = false ∧ canonical (s.rdG64 20) = true
    ∧ ((s.releaseAt s.cur 4).groupRead 1 0x3000 128 4 false).2.toOption.map anyPois = some false
    ∧ (0x3000 : DWord).toNat % 128 = 0 ∧ (0x3008 : DWord).toNat % 128 ≠ 0 ∧ s.deviceQueued 0 < 4096
    ∧ (base.launch 1).items = false ∧ ((itemS false 9).launch 1).items = true ∧ ((itemS false 9).launch 1).closed = false
    ∧ ((itemS true 9).launch 1).closed = true
    ∧ 9 + (lanesOf ((itemS false 9).activeW (plainW0 0 8))).length ≤ 4096
    ∧ (base.activeW (noW 1 0)) = 0 ∧ (base.activeW (plainW0 1 0)) ≠ 0 := by decide +kernel
theorem witness_SystemInstructionsAct_full :
    let s := itemS false 4090
    4096 < ((s.coreAt 0).items.getD 1 {}).items.length + (lanesOf (s.activeW (plainW0 0 8))).length := by decide +kernel
theorem witness_SystemInstructionsAct_targets :
    let at_ := fun (s : State) (x : Word) away => s.groups.findIdx? (fun _ g => g.live && g.away = away && g.die = bitsOf x.toNat 18 4
      && g.core = bitsOf x.toNat 11 7 && g.slotNo = bitsOf x.toNat 0 11)
    oneGroup 0 = true ∧ at_ privS 0 false = some 1 ∧ at_ privS 1 false = none ∧ at_ privS 1 true = none
    ∧ (privS.group 1).park = none ∧ ((privS.modGrp (fun g => { g with park := some { cause := 38 } })).group 1).park.map (·.entry)
      = some none
    ∧ (privS.cr 0 0).getLsbD 1 = true ∧ (base.cr 0 0).getLsbD 1 = false
    ∧ bitsOf (0 : Half).toNat 0 2 = 0 ∧ bitsOf (2 : Half).toNat 0 2 ≠ 0 ∧ bitsOf (0x105 : Word).toNat 0 8 < privS.grp.nreg
    ∧ (privS.modGrp (fun g => { g with nreg := 8 })).grp.nreg ≤ bitsOf (0x8 : Word).toNat 0 8
    ∧ (privS.translate 0 0 0x3000 .r).2.isOk = true ∧ (leafXl 0x400000F true 0x3000).attr.tier = 0 := by decide

/-! Groups, lines and host commands. -/

/-- Two ready groups of one port, the first of which issued last. -/
def portS (run : Nat) : State :=
  let s := base.setGroup 2 { placedGroup with gslot := 1, waitCnt := 3 }
  s.setCore 0 { ports := [(0, { last := some 1, run := run })] }
theorem witness_PortsPickReadyGroups :
    let rs := fun n => (portS n).readyOn 0 0 0
    (rs 0).map (·.gk) = [1, 2] ∧ ((rs 0).map (·.gk)).Nodup ∧ rs 0 ≠ [] ∧ base.readyOn 0 0 1 = []
    ∧ ((((portS 3).coreAt 0).ports.getD 0 {}).run < 16 ∧ (∀ x ∈ rs 3, x.wait < 192))
    ∧ ¬ (((portS 16).coreAt 0).ports.getD 0 {}).run < 16 := by decide

/-- A group with nothing left, in a team of one group or of two, in a cluster of one team or of two. -/
def endS (groups teams : Nat) : State :=
  let s := withG (fun g => { g with slotA := {} })
  let s := s.setTeam 1 { s.team 1 with leftGroups := groups }
  s.setCluster 0 { leftTeams := teams }
def asleepS : State := withG (fun g => { g with slotA := { g.slotA with slp := true, wake := 0, wpc := 3 } })
def queueS (e : List (List Word)) (rd : Word) : State :=
  { base with faultQ := e, preg := [(0x300, 0x5000), (0x302, 4)] ++ (if rd = 0 then [] else [(0x304, rd)]) }
theorem witness_GroupsEndAndLinesMove :
    let g := (endS 1 1).group 1
    (g.live = true ∧ g.away = false ∧ g.slotA.v = false ∧ g.slotB.v = false ∧ g.recs = [] ∧ g.spilled = 0)
    ∧ (g.rp = none ∧ g.pend = [] ∧ g.trapPend = none ∧ g.park = none) ∧ (base.group 1).slotA.v = true
    ∧ 1 < ((endS 2 1).team 1).leftGroups ∧ ((endS 1 1).team 1).leftGroups ≤ 1
    ∧ 1 < ((endS 1 2).cluster 0).leftTeams ∧ ((endS 1 1).cluster 0).leftTeams ≤ 1
    ∧ ((asleepS.group 1).slot false).v = true ∧ ((asleepS.group 1).slot false).slp = true
    ∧ ((asleepS.group 1).slot false).wake ≤ asleepS.time ∧ ((base.group 1).slot false).slp = false
    ∧ ((trapS true id 3).group 1).trapPend ≠ none ∧ ((trapS true id 3).group 1).park = none ∧ (base.group 1).trapPend = none := by
  decide
theorem witness_GroupsEndAndLinesMove_lines :
    let c := fun (x : Core) => (base.setCore 0 x).coreAt 0
    (c (fullCore [])).waiters = [] ∧ (c { waiters := [{ grp := 1 }] }).waiters ≠ [] ∧ ((c {}).faults.getD 0 {}).used = false
    ∧ (queueS [] 0).faultQ = [] ∧ (queueS [[1, 2]] 0).faultQ ≠ []
    ∧ (((queueS [[1]] 1).preg.getD 0x303 0).toNat + 1) % 2 ^ 4 = ((queueS [[1]] 1).preg.getD 0x304 0).toNat % 2 ^ 4
    ∧ ¬ (((queueS [[1]] 0).preg.getD 0x303 0).toNat + 1) % 2 ^ 4 = ((queueS [[1]] 0).preg.getD 0x304 0).toNat % 2 ^ 4
    ∧ (let s := base.setDie 0 { pendH := [(7, { have_ := true, cells := [(3, { val := 1, mask := 0xFF })] })] }
       (s.pendLines 0 (fun _ x => !x.attr.swc)).take 1 = [7] ∧ (s.pline 0 7).have_ = true
         ∧ ((s.pline 0 7).cells.map (·.1)).Nodup)
    ∧ (let s := base.setDie 0 { dirty := [(1024, { val := 1, mask := 0xFF })] }
       (s.die 0).dirty.keys.Nodup ∧ (s.pline 0 8).have_ = false ∧ s.reachable 1024 = true) := by decide

/-- A queue of 16 entries with one command, of words 0 to 4; a queue of another number. -/
def cmdS (q : Nat) (w0 w1 w2 w4 : Nat) : State :=
  let s := base.setMemBytes (2 * 2 ^ 64 + 0x1000) (bytesLE 4 w0 ++ bytesLE 4 w1 ++ bytesLE 8 w2 ++ bytesLE 8 w4)
  s.setQueue q { enable := true, base := 0x1000, entries := 16, tail := 1 }
theorem witness_HostCommandsAct :
    (cmdS 0 0 0 0 0).dispatches 0 ∧ ¬ base.dispatches 0 ∧ ¬ (cmdS 0 0 0 0 0).dispatches 1024
    ∧ ((cmdS 0 0x0B000000 0 0 0).headWords 0).getD 0 0 = 0x0B000000 ∧ (0x0B000000 : Word).toNat / 2 ^ 24 = 11
    ∧ 11 < (((cmdS 3 0x0C000000 0 0 0).headWords 3).getD 0 0).toNat / 2 ^ 24
    ∧ (∀ e ∈ (cmdS 3 0x02000000 0 0 0).launches, e.2.device = false → e.2.queue = 3 → e.2.stage = .complete)
    ∧ field1 ((cmdS 3 0x04000000 5 0 0).headWords 3) 0 16 = 5 ∧ field1 ((cmdS 3 0x04000000 0 0 0).headWords 3) 0 16 = 0
    ∧ wide ((cmdS 3 0x08000000 5 0x10000 0x20000).headWords 3) 2 = 0x10000
    ∧ wide ((cmdS 3 0x08000000 5 0x10000 0x20000).headWords 3) 4 = 0x20000
    ∧ (∀ p ∈ ctxPairs ((cmdS 0 0x06000000 0 0 0).headWords 0), p.1 ≤ 0x14)
    ∧ ((cmdS 0 0x07000000 0x80005 0x2000 16).headWords 0).getD 4 0 = 16 ∧ (16 : Nat) = 2 ^ 4 := by
  unfold State.dispatches; decide +kernel
theorem witness_HostCommandsAct_wait :
    ((cmdS 3 0x03000000 0 0x3000 0).cpRead 0 0x3000 8).2.toOption.map vbytesNat = some 0 ∧ (0 : Nat) ≤ 0
    ∧ (base.queue 3).enable = false ∧ ((cmdS 3 0 0 0 0).queue 3).enable = true := by decide +kernel

/-! Contexts, launches, teams and translations. -/

def resetCtx (x : Word) : State := base.setCr 0 0 x
/-- A dispatched launch of the placed context with a watchdog of 3 microseconds. -/
def dogS (fired : Bool) (now : Nat) : State :=
  let s := (base.setCr 0 0x14 3).setLaunch 1 { stage := .dispatched, since := 100, wdFired := fired }
  { s with time := now }
theorem witness_ContextsReset :
    (base.cr 0 0).getLsbD 5 = false ∧ ((resetCtx 0x21).cr 0 0).getLsbD 5 = true
    ∧ (∃ e ∈ (dogS false 0).launches, e.2.ctx = 0 ∧ e.2.stage = .dispatched)
    ∧ (base.group 1).live = true
    ∧ (let l := (dogS false 3100).launch 1
       l.stage = .dispatched ∧ l.wdFired = false ∧ ((dogS false 3100).cr l.ctx 0x14).toNat ≠ 0
         ∧ l.since + 1000 * ((dogS false 3100).cr l.ctx 0x14).toNat ≤ (dogS false 3100).time)
    ∧ ¬ ((dogS false 3099).launch 1).since + 1000 * ((dogS false 3099).cr 0 0x14).toNat ≤ (dogS false 3099).time
    ∧ ((dogS true 3100).launch 1).wdFired = true ∧ ((dogS false 3100).cr 0 0).getLsbD 2 = false
    ∧ (((dogS false 3100).setCr 0 0 5).cr 0 0).getLsbD 2 = true := by decide

/-- A launch record with the words given beside their numbers; a good one of one team of one group. -/
def recOf (l : List (Nat × Word)) : List Word :=
  (List.range 32).map (fun i => ((l.find? (fun e => e.1 = i)).map (·.2)).getD 0)
def goodRec : List (Nat × Word) :=
  [(0, 0x01000000), (2, 1), (3, 0x00010001), (4, 0x220), (5, 0), (18, 0x3000)]
def recL (l : List (Nat × Word)) : Launch := { stage := .queued, rec_ := recOf (l ++ goodRec) }
/-- A state whose launch 7 is queued, in a context of four groups a team. -/
def launchQS (l : Launch) : State := (base.setCr 0 0x10 0x40000).setLaunch 7 l

theorem witness_LaunchesRunTheirCourse_checks :
    let f := fun l => (launchQS (recL l)).firstFailure (recL l)
    f [] = none ∧ f [(0, 0x02000000)] = some 1 ∧ f [(31, 1)] = some 1 ∧ f [(2, 0)] = some 2
    ∧ f [(2, 0xFFFFFFFF)] = none ∧ f [(2, 0xFFFFFFFF), (3, 0x00010002)] = some 2
    ∧ f [(4, 0x200)] = some 3 ∧ f [(4, 0x380)] = none ∧ f [(4, 0x3A0)] = some 3 ∧ f [(4, 0x1220)] = some 3
    ∧ f [(4, 0x2220)] = some 3 ∧ f [(4, 0x20220)] = none ∧ f [(4, 0x24220)] = some 8
    ∧ f [(5, 0x8000)] = none ∧ f [(5, 0x8100)] = some 8 := by
  decide +kernel
theorem witness_LaunchesRunTheirCourse_ranges :
    let f := fun l => (launchQS (recL l)).firstFailure (recL l)
    f [(4, 0x100220)] = some 6 ∧ f [(10, 2048)] = none ∧ f [(10, 2049)] = some 4
    ∧ f [(23, 1), (24, 0)] = some 5 ∧ f [(23, 1), (24, 4)] = some 5
    ∧ (let s := (launchQS (recL [(23, 1), (24, 4)])).setHandle 4 { set_ := true }
       s.firstFailure (s.launch 7) = none) := by
  decide +kernel
theorem witness_LaunchesRunTheirCourse :
    let s := launchQS (recL [])
    let l := s.launch 7
    (l.stage = .queued ∧ s.therm.runs = true ∧ s.firstInQueue 7 = true) ∧ (base.launch 7).stage ≠ .queued
    ∧ ¬ s.launchRests l ∧ (s.setCr 0 0 0x21).launchRests l
    ∧ (s.placement l).toOption = some [0] ∧ dieCols 0 = 12 ∧ l.clw ≤ 12
    ∧ (s.placement (recL [(19, 0x80000000)])).toOption = none ∧ (s.placement (recL [(18, 0x4000000)])).toOption = none
    ∧ l.rows ≤ 117760 ∧ l.ngrp ≤ (s.cr l.ctx 0x10).toNat / 65536 ∧ l.codeObj = 0
    ∧ 117760 < (recL [(14, 0xFFFF)]).rows ∧ (s.cr 0 0x10).toNat / 65536 < (recL [(4, 0x224)]).ngrp
    ∧ (recL [(4, 0x223)]).ngrp ≤ (s.cr 0 0x10).toNat / 65536 := by
  unfold State.launchRests; decide +kernel
theorem witness_LaunchesRunTheirCourse_columns :
    dieCols 4 = 8 ∧ (recL [(4, 0x320)]).clw = 9 ∧ (∃ d ∈ ([4] : List Nat).take (recL [(4, 0x320)]).clusters, dieCols d < (recL [(4, 0x320)]).clw)
    ∧ ¬ ∃ d ∈ ([0, 4] : List Nat).take (recL [(4, 0x320)]).clusters, dieCols d < (recL [(4, 0x320)]).clw := by decide

/-- Launch 7 dispatched with all of its teams retired, or with one to go. -/
def ranS (n : Nat) : State := base.setLaunch 7 { recL [] with stage := .dispatched, retired := n }
theorem witness_LaunchesRunTheirCourse_end :
    let l := (ranS 1).launch 7
    (l.stage = .dispatched ∧ l.retired = l.gridX * l.gridY * l.gridZ)
    ∧ ((ranS 0).launch 7).retired ≠ l.gridX * l.gridY * l.gridZ
    ∧ l.f64 28 = 0 ∧ (recL [(28, 0x3000)]).f64 28 ≠ 0
    ∧ (base.cpWrite 0 0x3000 (wordBytes [0, 0, 0, 0])).2 = none
    ∧ (base.cpWrite 0 0x4000000 (wordBytes [0, 0, 0, 0])).2 ≠ none := by decide +kernel
/-- A launch with an item queue whose teams run on core 0, with `n` items there and `left` initial ones. -/
def itemQS (n left : Nat) : State :=
  let s := base.setLaunch 1 { stage := .dispatched, rec_ := recOf [(4, 0x40000), (21, BitVec.ofNat 32 left)] }
  s.setCore 0 { items := [(1, { items := List.replicate n (5, 0) })] }
theorem witness_LaunchesRunTheirCourse_items :
    let ok := fun s : State => decide ((s.launch 1).items = true ∧ ((s.coreAt 0).items.getD 1 {}).items.length < 256
      ∧ ∃ e ∈ s.teams, e.2.live = true ∧ e.2.away = false ∧ e.2.die = 0 ∧ e.2.core = 0 ∧ e.2.launch = 1)
    ok (itemQS 255 300) = true ∧ ok (itemQS 256 300) = false ∧ ok (ranS 0) = false
    ∧ ((itemQS 0 300).launch 1).w 21 = 300 ∧ ((itemQS 0 0).launch 1).w 21 = 0 := by decide +kernel

/-- Launch 7 dispatched on die 0 with priority 3, failing to fit since the time before `since`. -/
def placeS (since : Nat) : State :=
  let s := (base.setCr 0 0x10 0x40000).setLaunch 7 { recL [] with stage := .dispatched, dies := [0], prio := 3, failSince := [(0, since)] }
  { s with time := 100000 }
/-- Every core of die 0 but core 0 absent, and core 0 full of rows. -/
def fullS (since : Nat) : State :=
  let s := (placeS since).setTeam 1 { (base.team 1) with rows := 117632 }
  { s with absent := (List.range 95).map (· + 1) }
theorem witness_TeamsComeAndGo_place :
    let s := placeS 0
    s.therm.runs = true ∧ s.candidate 0 3 = some 7 ∧ (∀ j, j < 8 → 3 < j → s.candidate 0 j = none)
    ∧ (∀ p, p < 8 → s.candidate 1 p = none) ∧ (State.reset.therm.runs = false)
    ∧ (s.findRect (s.launch 7) 0 (((s.launch 7).nextOn 0).getD 0)).isSome = true := by decide +kernel
theorem witness_TeamsComeAndGo_groups :
    (recL []).items = false ∧ (recL [(4, 0x40220)]).items = true
    ∧ ((recL []).newGroup {} 7 1 0 0 0 0 0).populated ≠ 0
    ∧ ((recL [(15, 20)]).newGroup { idx := 1 } 7 1 0 0 0 0 0).populated = 0
    ∧ inMask ((recL [(15, 20)]).newGroup {} 7 1 0 0 0 0 0).populated 19 = true
    ∧ inMask ((recL [(15, 20)]).newGroup {} 7 1 0 0 0 0 0).populated 20 = false := by decide +kernel
theorem witness_TeamsComeAndGo_timeout :
    (placeS 0).starved 0 = none ∧ (fullS 1).starved 0 = some 7 ∧ (fullS 2).starved 0 = none
    ∧ (let s := fullS 1
       State.enough (s.launch 7) 0 (((s.launch 7).nextOn 0).getD 0) (s.victims 0 3) s = some [1])
    ∧ (let s := (fullS 1).setTeam 2 { (fullS 1).team 1 with launch := 7, rows := 1 }
       s.victims 0 3 = [1] ∧ State.enough (s.launch 7) 0 (((s.launch 7).nextOn 0).getD 0) [] s = none) := by decide +kernel

/-- The placed team with a save pool of one slot of `n` pages of 64 KiB; away, or leaving. -/
def poolS (n : Nat) (leaving away : Bool) : State :=
  let s := base.setCr 0 0x13 (BitVec.ofNat 32 (65536 * n + 1))
  s.setTeam 1 { base.team 1 with leaving := leaving, away := away }
theorem witness_TeamsComeAndGo_leave :
    let t := (poolS 1 false false).team 1
    (t.live = true ∧ t.away = false ∧ t.leaving = false ∧ (base.coreAt (coreKey t.die t.core)).halted = false)
    ∧ (poolS 1 false false).imageSize 1 ≤ 65536 * 1 ∧ 0 < (poolS 0 false false).imageSize 1
    ∧ (∀ e ∈ (poolS 1 false false).teams, e.2.away = false ∧ e.2.leaving = false)
    ∧ (∃ e ∈ (poolS 1 true false).teams, e.2.live = true ∧ e.2.leaving = true ∧ e.2.saveSlot = 0)
    ∧ (((poolS 1 true false).team 1).leaving = true ∧ (poolS 1 true false).drained 1 = true)
    ∧ ((poolS 1 true false).modGrp (fun g => { g with pend := [{}] })).drained 1 = false
    ∧ (let s := ((poolS 1 false false).setLaunch 1 {}).setQueue 0 { hold := true }
       (s.team 1).leaving = false ∧ s.queueHeld (s.team 1).launch = true)
    ∧ (poolS 1 true false).queueHeld 1 = false := by decide +kernel
theorem witness_TeamsComeAndGo_return :
    let s := (poolS 1 false true).modGrp (fun g => { g with away := true })
    (s.team 1).live = true ∧ (s.team 1).away = true ∧ s.therm.runs = true ∧ s.queueHeld (s.team 1).launch = false
    ∧ s.settledFor 1 = true ∧ s.takesBack 1 0 = true ∧ s.takesBack 1 95 = true ∧ s.takesBack 1 96 = false
    ∧ ((poolS 1 false false).team 1).away = false ∧ ((poolS 1 false true).team 1).handles.map (·.1) = []
    ∧ (erxS.grp.unreadable 0 8 0 = true ∧ erxS.grp.unreadable 0 7 0 = false ∧ 8 < erxS.grp.nreg) := by decide +kernel

/-- Object 2 registered at level 1, its stream one EXIT at 0x1000, and perhaps translations of it; a queued
launch of that kernel. -/
def objS (trans : List Translation) : State :=
  let s := base.setMemBytes (0x4000000 + dirOff + 128) (bytesLE 4 3 ++ bytesLE 4 0 ++ bytesLE 8 0x1000 ++ bytesLE 8 4)
  let s := (s.setMemBytes 0x4001000 (bytesLE 4 0x08780000)).setLaunch 9
    { stage := .queued, rec_ := recOf [(0, 0x01000400), (1, 2)] }
  { s with trans := trans.zipIdx.map (fun e => (e.2 + 1, e.1)) }
def trans2 (n : Nat) (map : List (Nat × Nat) := []) : Translation :=
  { live := true, complete := true, ctx := 0, obj := 2, epoch := n, map, ranges := [(arenaHi - 2, arenaHi)] }
/-- A clause of EXIT, and one of a reserved word. -/
def transWords : List Word := [BitVec.ofNat 32 (oneHeader 8), 0x08780000]
def raiseWords : List Word := [BitVec.ofNat 32 (oneHeader 8), 0xFF780000]
/-- Whether the words at a place translate stream word 0x400, or another, and in the first pass's form. -/
def judged (s : State) (arena word : Nat) (key : Option Nat) (ws : List Word := transWords) (ill : List Nat := []) :
    Option Bool :=
  (s.judge 0 2 arena ws [(word, arena)] key ill).map (fun cs =>
    cs.any (fun x => x.1 = 0x400) && s.firstForm (s.jobOf 0 2 [(word, arena)] key ill) 0x400 cs)
/-- The entry of object 2's kernel table, of a kernel of 256 lane registers, above the floor, or of 8. -/
def kerHi (n : Nat) : List Word := (List.range 16).map (fun i => if i = 4 then BitVec.ofNat 32 n else 0)
def kerMap (n : Nat) : List (Nat × Nat) := (kerHi n).map (fun w => (2 ^ 24, w.toNat))
theorem witness_TranslationsComeInEpochs :
    judged (objS []) arenaLo 0x400 none = some true ∧ judged (objS []) (arenaLo - 1) 0x400 none = none
    ∧ judged (objS []) arenaLo 0x402 none = none ∧ judged (objS [trans2 1]) (arenaHi - 2) 0x400 (some 1) = none
    ∧ judged (objS [trans2 1 [(0x400, arenaHi - 2)]]) arenaLo 0x400 (some 1) = none
    ∧ judged (objS []) arenaLo 0x400 none raiseWords = none ∧ judged (objS []) arenaLo 0x400 none raiseWords [0x400] = some true
    ∧ ((objS []).untranslated 0 2).isSome = true ∧ (objS [trans2 1 [(0x400, arenaHi - 2)]]).untranslated 0 2 = none
    ∧ kerTable (kerMap 31) = [kerHi 31] ∧ kerAbove (kerHi 31) = true ∧ kerAbove (kerHi 0) = false
    ∧ (objS []).floorIll 0 2 [kerHi 31] = [0x400] ∧ (objS []).floorIll 0 2 [kerHi 0] = []
    ∧ ((objS []).files.getD (fileKey 0 2) {}).dir ≠ (objS []).dirWords 0 2
    ∧ judged (objS []) arenaLo 0x400 none raiseWords ((objS []).floorIll 0 2 [kerHi 31]) = some true
    ∧ (objS []).transOf 0 2 1 = none ∧ (objS [trans2 1]).transOf 0 2 1 = some 1 := by decide +kernel
theorem witness_TranslationsComeInEpochs_second :
    ((objS [trans2 1]).newest 0 2).map (·.epoch) = some 1 ∧ (objS []).newest 0 2 = none
    ∧ ((objS [trans2 65535]).newest 0 2).map (·.epoch) = some 65535
    ∧ ((objS [trans2 65534]).judge 0 2 arenaLo transWords [(0x400, arenaLo)] none
        ((objS [trans2 65534]).floorIll 0 2 (kerTable []))).isSome = true := by decide +kernel
/-- A job for the stream word that the group has parked on; the word translated since, or not. -/
def jobS (map : List (Nat × Nat)) : State :=
  let s := (objS [trans2 1 map]).modGrp (fun g => { g with park := some { cause := cCNR } })
  { s with jobs := [(5, { live := true, ctx := 0, obj := 2, epoch := 1, word := 0x400, groups := [1] })] }
theorem witness_TranslationsComeInEpochs_job :
    let s := jobS []
    let j := s.jobs.getD 5 {}
    j.live = true ∧ s.jobKey j = some 1 ∧ ¬ (s.mapOf (s.jobKey j)).getD j.word 0 ≠ 0
    ∧ ((∃ e ∈ [(0x400, arenaLo)], e.1 = j.word)
      ∧ (s.judge j.ctx j.obj arenaLo transWords [(0x400, arenaLo)] (s.jobKey j) (s.floorIll j.ctx j.obj [])).isSome = true)
    ∧ ((jobS [(0x400, arenaHi - 2)]).mapOf (some 1)).getD 0x400 0 ≠ 0
    ∧ (s.group 1).park.map (·.cause) = some cCNR ∧ (base.jobs.getD 5 {}).live = false := by decide +kernel

/-! The host, peers, registers and the cold. -/

/-- Package registers, given by the offset of BAR0 at which they stand. -/
def endpointS (st : Nat) (regs : List (Nat × Word)) : State :=
  let s : State := { base with therm := { base.therm with state := st } }
  regs.foldl (fun s e => s.setBar e.1 e.2) s
/-- Window 0 open on the first 4 GiB of die 0, window 1 above it, window 2 past the end of die 0. -/
def windowsS : State := endpointS 6 [(0x30000, 1), (0x30008, 1), (0x3000C, 1), (0x30010, 1), (0x30014, 0xFFFF)]
/-- Port 0 up, with an export table of one entry at 0x1000 that grants reads and writes of the first 64 MiB. -/
def peerS (entry : Nat) : State :=
  (endpointS 6 [(0x30200, 1), (0x304, 0x1000), (0x30C, 1)]).setMemBytes 0x1000 (bytesLE 8 entry)
theorem witness_HostAndPeersReachTheirMemory :
    let b := fun k => bitsOf (windowsS.barWord (0x30004 + 8 * k)).toNat 0 20 * 2 ^ 32
    (5 ≤ windowsS.therm.state ∧ windowsS.therm.state ≤ 11) ∧ 12 > 11 ∧ (4 : Nat) < 5
    ∧ (windowsS.barWord 0x30000).getLsbD 0 = true ∧ b 0 = 0 ∧ b 1 = 2 ^ 32 ∧ (windowsS.barWord 0x30018).getLsbD 0 = false
    ∧ b 1 % 2 ^ 48 + 2 ^ 32 ≤ dramSize 0 ∧ dramSize 0 < b 2 % 2 ^ 48 + 2 ^ 32
    ∧ (2 ^ 32 - 4) % 2 ^ 32 + [(0 : Byte), 0, 0, 0].length ≤ 2 ^ 32 ∧ (2 ^ 32 - 4) % 4 = 0 := by decide +kernel
theorem witness_HostAndPeersReachTheirMemory_peers :
    let e : Nat → DWord := fun x => BitVec.ofNat 64 (natLE ((List.range 8).map (fun b => ((peerS x).homeByte 0 (0x1000 + b)).val)))
    (pair ((peerS 7).barWord 0x304) ((peerS 7).barWord 0x308)).toNat = 0x1000 ∧
    ((peerS 7).barWord 0x30200).getLsbD 0 = true ∧ ((peerS 7).barWord 0x30204).getLsbD 0 = false
    ∧ 0 < ((peerS 7).barWord 0x30C).toNat ∧ (e 7).getLsbD 0 = true ∧ (e 7).getLsbD 1 = true ∧ (e 7).getLsbD 2 = true
    ∧ (e 7).getLsbD 3 = false ∧ (e 3).getLsbD 2 = false ∧ isDram ((e 7).extractLsb' 26 26).toNat = true
    ∧ isDram (((e 0x20000000007).extractLsb' 26 26).toNat * 2 ^ 26) = false ∧ (0x1008 : Nat) % 8 = 0 := by decide +kernel
theorem witness_HostAndPeersReachTheirMemory_queue :
    (endpointS 6 []).therm.state ≠ 0 ∧ (endpointS 0 []).therm.state = 0
    ∧ ((endpointS 6 [(0x208, 16)]).barWord 0x20C).getLsbD 0 = false ∧ ((endpointS 6 [(0x208, 16)]).barWord 0x208).toNat = 2 ^ 4
    ∧ ((endpointS 6 [(0x208, 65536)]).barWord 0x208).toNat = 2 ^ 16 ∧ ((endpointS 6 [(0x208, 8)]).barWord 0x208).toNat = 2 ^ 3
    ∧ ((endpointS 6 [(0x20C, 1)]).barWord 0x20C).getLsbD 0 = true ∧ (7 : Nat) < 8 := by decide

theorem witness_RegistersAreWrittenFromOutside :
    base.corePresent (95 / 256) (95 % 256) = true ∧ base.corePresent (96 / 256) (96 % 256) = false
    ∧ (base.barWord 0x20C).getLsbD 0 = false ∧ ((endpointS 6 [(0x20C, 1)]).barWord 0x20C).getLsbD 0 = true
    ∧ ((base.setQueue 1023 { enable := true, entries := 16 }).queue 1023).enable = true
    ∧ ((base.preg.getD 0x305 0 : Word).getLsbD 1 = false)
    ∧ ((({ base with preg := [(0x305, 2)] } : State).preg.getD 0x305 0).getLsbD 1 = true)
    ∧ (({ base with drainSel := 0xC } : State).drainSel.getLsbD 3 = true)
    ∧ ((base.therm.safeDrain = false))
    ∧ (let s : State := { base with therm := { base.therm with safeDrain := true } }
       s.therm.safeDrain = true ∧ ∀ e ∈ s.teams, ¬ (e.2.live = true ∧ e.2.leaving = true)) := by decide

/-- The thermal controller as given, some time after reset. -/
def thermS (f : Thermal → Thermal) : State := { base with therm := f base.therm, time := 4000000000000 }
def stS (st : Nat) : State := thermS (fun t => { t with state := st })
theorem witness_ThermalStatesChangeOnTheirTriggers_commands :
    (thermS (fun t => { t with busy := true })).therm.busy = true ∧ base.therm.busy = false
    ∧ (stS 1).therm.state = 1 ∧ (stS 1).heldSince (some 3700000000000) 300000000000
    ∧ (stS 9).therm.safeDrain = false ∧ (thermS (fun t => { t with safeDrain := true })).therm.safeDrain = true
    ∧ (let s := { stS 11 with teams := [] }
       s.therm.state = 11 ∧ (∀ e ∈ s.teams, e.2.live = false)
         ∧ ∀ e ∈ s.launches, e.2.stage ≠ .queued ∧ e.2.stage ≠ .dispatched)
    ∧ (∃ e ∈ (stS 11).teams, e.2.live = true)
    ∧ (stS 5).therm.state = 5 ∧ (stS 6).therm.state ≠ 5
    ∧ (thermS (fun t => { t with state := 9, belowR := some 3990000000000 })).heldSince (some 3990000000000) 10000000000
    ∧ (thermS (fun t => { t with state := 4, trainFail := true })).therm.trainFail = true := by
  refine ⟨rfl, rfl, rfl, ⟨_, rfl, by decide⟩, rfl, rfl, ?_, ?_, rfl, by decide, ?_, rfl⟩
  · refine ⟨rfl, fun e h => ?_, ?_⟩
    · simp at h
    · decide
  · decide
  · exact ⟨_, rfl, by decide⟩
theorem witness_ThermalStatesChangeOnTheirTriggers_held :
    (stS 1).heldSince (some 3700000000000) 300000000000 ∧ ¬ (stS 1).heldSince (some 3700000000001) 300000000000
    ∧ ¬ (stS 1).heldSince none 300000000000
    ∧ (stS 1).therm.dewMet = false ∧ (stS 1).therm.stateSince + 3600000000000 ≤ (stS 1).time
    ∧ (stS 3).heldSince (some 3400000000000) 600000000000 := by
  refine ⟨⟨_, rfl, by decide⟩, ?_, ?_, rfl, by decide, ⟨_, rfl, by decide⟩⟩
  · intro h
    obtain ⟨t, ht, hle⟩ := h
    cases ht
    revert hle
    decide
  · intro h
    obtain ⟨t, ht, _⟩ := h
    cases ht
theorem witness_ThermalStatesChangeOnTheirTriggers_training :
    ((2 : Nat) = 2 ∧ (8 : Nat) < 9) ∧ ((10 : Nat) = 10 ∧ (12 : Nat) < 13) ∧ ¬ (12 : Nat) < 12
    ∧ (stS 4).therm.trainFail = false ∧ (stS 4).therm.state = 4 ∧ (stS 0).therm.state = 0
    ∧ 1885 / 256 < 8 ∧ 1885 % 256 ≥ dieCores (1885 / 256) ∧ 1850 % 256 < dieCores (1850 / 256)
    ∧ (stS 4).inForce = [] ∧ ({ stS 4 with image := { base := List.replicate 4 { type_ := 1, die := 7 } } } : State).inForce.length = 4
    ∧ ¬ (stS 4).time ≤ (stS 4).therm.stateSince + 90000000000
    ∧ (thermS (fun t => { t with state := 4, stateSince := 3910000000000 })).time ≤ 3910000000000 + 90000000000 := by decide

/-- 36 readings: 75 K but for the first `n` of each die, which read `x`. -/
def readings (n x : Nat) : List Nat := (List.range 36).map (fun i => if i % 4 < n then x else 300)
theorem witness_SamplesSetTheBand :
    let rs := readings 0 0
    rs.length = 36 ∧ (∀ i, i < 36 → 240 ≤ rs.getD i 0 ∧ rs.getD i 0 ≤ 1600)
    ∧ (let r := readings 1 333
       let two := fun d => let four := (List.range 4).map (fun k => r.getD (4 * d + k) 0)
         four.sum - maxOf four - four.foldl min (four.headD 0)
       2 * r.getD 0 0 > two 0 + 64 ∧ 2 * r.getD 1 0 ≤ two 0 + 64)
    ∧ (let r := readings 1 332
       let two := fun d => let four := (List.range 4).map (fun k => r.getD (4 * d + k) 0)
         four.sum - maxOf four - four.foldl min (four.headD 0)
       2 * r.getD 0 0 ≤ two 0 + 64)
    ∧ (∀ i, i < 36 → (readings 4 239).getD i 0 < 240) ∧ (∀ i, i < 36 → 1132 ≤ (readings 4 1132).getD i 0)
    ∧ (∃ i, i < 36 ∧ 600 < (readings 4 601).getD i 0) ∧ (∀ i, i < 36 → (readings 0 0).getD i 0 ≤ 320) := by decide
theorem witness_SamplesSetTheBand_states :
    (stS 0).therm.state = 0 ∧ (stS 7).therm.bandTo = none
    ∧ (thermS (fun t => { t with state := 7, bandTo := some 2 })).therm.bandTo = some 2
    ∧ (stS 7).heldSince (some 3990000000000) 10000000000 ∧ (stS 6).therm.thr1.toNat % 65536 = 340
    ∧ ¬ (stS 8).heldSince (some 3990000000001) 10000000000 := by
  refine ⟨rfl, rfl, rfl, ⟨_, rfl, by decide⟩, by decide, ?_⟩
  intro h
  obtain ⟨t, ht, hle⟩ := h
  cases ht
  revert hle
  decide

/-! Encodings and the step. -/

theorem witness_EncodedInstructionsDecodeBack :
    (Instr.exit (plainW0 0 0)).wf = true ∧ isEvent (.exit (plainW0 0 0)) = false
    ∧ encode (.exit (plainW0 0 0)) = [0x08780000] ∧ (Instr.srd (plainW0 63 0) 0x0FFF0310).wf = true
    ∧ encode (.srd (plainW0 63 0) 0x0FFF0310) = [0xF0F87E00, 0x0FFF0310] := by decide
theorem witness_DecodedWordsAreTheirEncoding :
    decode 0x08780000 0 = .ok (.exit (plainW0 0 0)) ∧ opMap (opcode 0x13780000) 0x13780000 0 = none
    ∧ opcode (0x13780000 : Word) < 0x1D ∧ opMap (opcode 0xFF780000) 0xFF780000 0 = none ∧ 0x1F < opcode (0xFF780000 : Word)
    ∧ opcode (0x1D780000 : Word) = 0x1D ∧ opcode (0x1F780000 : Word) = 0x1F
    ∧ opMap (opcode 0x08F80000) 0x08F80000 0 = some (.exit (plainW0 0 0))
    ∧ ((0x08F80000 : Word).getLsbD 23 = true ∧ opcode (0x08F80000 : Word) ∈ oneWordOps)
    ∧ opMap (opcode 0x08780004) 0x08780004 0 = some (.exit (plainW0 0 2)) ∧ (Instr.exit (plainW0 0 2)).wf = false := by
  decide

/-- EXIT, and the reserved opcode FF, as the next instruction. -/
def exitS : State := State.reset.withFetchWord 64 0x08780000
def badS : State := State.reset.withFetchWord 64 0xFF780000
/-- What the step fetches, and the state in which it looks at the instruction. -/
def fetched (s : State) : Except Nat (Word × BitVec 24 × Word × Word) :=
  match s.looking.place.2 with
  | .here h w w0 w1 => .ok (h, w, w0, w1)
  | _ => .error 0
theorem witness_StepRunsTheDecodedInstruction :
    exitS.picked = true ∧ exitS.looking.mayIssue exitS.cur exitS.curB = true
    ∧ (fetched exitS).toOption.map (·.2) = some (1, 0x08780000, 0)
    ∧ (fetched badS).toOption.map (·.2) = some (1, 0xFF780000, 0)
    ∧ (withG (fun g => { g with slotA := {} })).looking.mayIssue 1 false = false
    ∧ ({ base with picked := false, inputs := [(3, .hostNop 0), (0, .exit (plainW0 0 0))] } : State).inputs ≠ []
    ∧ isEvent (.hostNop 0) = true ∧ isEvent (.exit (plainW0 0 0)) = false ∧ State.reset.inputs = [] := by decide +kernel
theorem witness_StepRunsTheDecodedInstruction_latched :
    let at_ := fun s => let u := s.looking.place.1
      (u.touchCode 2).latch ((fetched s).toOption.map (·.1) |>.getD 0) 1 ((fetched s).toOption.map (·.2.2.1) |>.getD 0)
    let h := (fetched exitS).toOption.map (·.1) |>.getD 0
    let v := at_ exitS
    let i := Instr.exit (plainW0 0 0)
    exitS.looking.place.1.slot.ins = 0 ∧ exitS.looking.place.1.grp.waitsOn h = false
    ∧ v.illegal h 0x08780000 (v.uses i) = false ∧ v.grp.interlocked (v.uses i) = false ∧ v.grp.flagFull h (v.uses i) = false ∧ v.levelWaits i (v.uses i) = false
    ∧ exitS.transEntry 0 exitS.slot.pc = none ∧ (objS [trans2 1]).transEntry 0 0xFFBFFF = some (1, trans2 1)
    ∧ decode 0xFF780000 0 = .error .unassigned ∧ exitS.clauseHas h 0x08780000 0 ∧ exitS.slot.ins = 0 ∧ 0 < hdrCnt h := by
  unfold State.clauseHas; decide +kernel


/-! Clauses on parts of an instruction's lanes, on what comes back to a slot, on what is found on the way, and on
what the named functions give. -/

/-- The functions of floating point: two NaNs, one, two equal values of both signs, numbers of each class. -/
theorem witness_FloatFunctionsGiveTheirRules :
    (f32.decode 0x7FC00000).isNan = true ∧ (f32.decode 0x3F800000).isNan = false
    ∧ f32.decode 0x7F800001 = .nan true ∧ f32.decode 0x7F800000 = .inf false ∧ f32.decode 0xFF800000 = .inf true
    ∧ (f32.decode 0).neg = false ∧ (f32.decode 0x80000000).neg = true
    ∧ f32.decode 0 = .fin false { m := 0, e := -149 } ∧ f32.decode 1 = .fin false { m := 1, e := -149 }
    ∧ f32.decode 0x3F800000 = .fin false { m := 8388608, e := -23 } ∧ (f32, (-126 : Int)) ∈ scalarFormats := by decide

/-- Records of chapter 08: a scaled one and its codes, one in the integer mode, one without a sign. -/
theorem witness_FormatConversionsGiveTheirRules :
    fmOk recB = true ∧ fmSck recB ≠ 0 ∧ fmFactor recB 5 ≠ none ∧ fmOk 0x40798 = true ∧ fmSck 0x40798 = 0
    ∧ fmSpec 0x30018 = 3 ∧ fmOk 0x30018 = true ∧ fmS 0x30018 = 1 ∧ fmOk 0x30008 = true ∧ fmS 0x30008 = 0
    ∧ fmS 0x40798 = 1 ∧ fmSpec 0x40798 ≠ 3 ∧ ({ m := 3, e := -1 } : Mag).st = false
    ∧ (fmDecode 0x40798 0x12).isNan = false ∧ fmOk 0x60FB8 = true
    ∧ fmDecode 0x60FB8 0x7C = .inf false ∧ fmDecode 0x60FB8 0x7D = .nan false := by decide +kernel

/-- What a replaying trap and a return give a slot that stands where it stood. -/
theorem witness_SoftwareTrapsAndTrapReturn_kept :
    let x : PcSlot := { v := true, pc := 0x100, ins := 2, act := 5, own := 7, slp := true }
    let k : TrapCtx := { replay := true, pc := 0x100, ins := 2, tlanes := 4 }
    replaying k false x = { x with only := some 4 } ∧ replaying k true x = x
    ∧ (({ x with only := some 1, wake := 9 } : PcSlot).v = true ∧ x.slp = true) ∧ ({} : PcSlot).v = false
    ∧ (restoredSlot x { x with only := some 1, again := some 3, wake := 9 }).only = some 1
    ∧ (restoredSlot x { x with pc := 0, only := some 1 }).only = none := by decide

theorem witness_ParksAreReported_again :
    ctl0.keepActive.slot.again = some (ctl0.active ctl0.lat.gd ctl0.lat.gn) := by decide

/-- Lane 0 at a misaligned address, lane 2 at a good one. -/
def mixedAddr (L : Nat) : DWord := if L = 0 then 0x3001 else 0x3000
def mixedMis (L : Nat) : Bool := decide ((mixedAddr L).toNat % 4 ≠ 0)
/-- A check that goes on, with what is then asked of the state, the traps and the accesses. -/
def splitThen (c : Checked) (p : State → List LaneTrap → List LaneAcc → Bool) : Bool :=
  match c with | .go u ts accs => p u ts accs | _ => false
theorem of_splitThen {c : Checked} {p : State → List LaneTrap → List LaneAcc → Bool} (h : splitThen c p = true) :
    ∃ u ts accs, c = .go u ts accs ∧ p u ts accs = true := by
  unfold splitThen at h
  split at h
  · exact ⟨_, _, _, rfl, h⟩
  · cases h
def mixed (w : W0) (regs : List Nat) (acc : Acc) : Checked :=
  let s := atS 0x3000 0
  let r := s.readSources (s.activeW w) (fun _ => regs)
  r.1.checkLanes r.2.2 r.2.1 mixedAddr mixedMis acc false 4
theorem witness_BadAddressesTrap_split :
    let s := atS 0x3000 0
    s.acquireOut s.cur = false ∧ s.releaseWaits s.cur = false
    ∧ (∃ u ts accs, s.Splits (plainW0 40 20) .r false 4 [] mixedAddr mixedMis u ts accs ∧ ts ≠ []
      ∧ (u.loadLanes u.cur (memMode mf0 1) false 3 accs).2.filter (fun x => !x.pois) ≠ [])
    ∧ (∃ u ts accs, s.Splits (plainW0 8 20) .w false 4 [8] mixedAddr mixedMis u ts accs ∧ ts ≠ [] ∧ accs ≠ []) := by
  refine ⟨by decide, by decide, ?_, ?_⟩
  · obtain ⟨u, ts, accs, e, h⟩ := of_splitThen (c := mixed (plainW0 40 20) [] .r)
      (p := fun u ts accs => decide (ts ≠ [] ∧ ((u.loadLanes u.cur (memMode mf0 1) false 3 accs).2.filter
        (fun x => !x.pois)) ≠ [])) (by decide +kernel)
    have h := of_decide_eq_true h
    exact ⟨u, ts, accs, by unfold State.Splits; exact e, h.1, h.2⟩
  · obtain ⟨u, ts, accs, e, h⟩ := of_splitThen (c := mixed (plainW0 8 20) [8] .w)
      (p := fun _ ts accs => decide (ts ≠ [] ∧ accs ≠ [])) (by decide +kernel)
    have h := of_decide_eq_true h
    exact ⟨u, ts, accs, by unfold State.Splits; exact e, h.1, h.2⟩
theorem witness_BadAddressesTrap_group :
    canonical 0x8000000000000000 = false ∧ canonical 0x3001 = true ∧ (0x3001 : DWord).toNat % 4 ≠ 0
    ∧ ((atS 0x3000 0).translate 0 0 0x40000000 .r (some 0)).2.isOk = false
    ∧ (let s := (atS 0x3000 0).setCore 0 { locks := [{ mem := true, wr := true, lo := 0x3000, hi := 0x3004 }] }
       okThen (s.translate 0 0 0x3000 .r (some 0)) (fun u _ => u.memLocked u.cur false [0x3000]) = true)
    ∧ (faultsOf ((atS 0x3000 0).translateLanes .r (fun _ => 0x40000000) [0, 2]).2).length = 2
    ∧ (faultsOf ((atS 0x3000 0).translateLanes .r (fun _ => 0x3000) [0, 2]).2) = [] := by decide +kernel

/-- An operation with words of two lanes, one of them poisoned, a pair and a predicate. -/
theorem witness_CountedInstructionsComplete_words :
    let o : PendOp := { id := 1, flag := some 2, v := [{ key := 33, val := 7 }, { key := 34, val := 8, pois := true }]
                        g := [{ key := 4, val := 1 }, { key := 5, val := 2 }], gp := some (1, true) }
    let s := withG (fun g => { g with flags := [(2, 3)], pend := [o, { id := 2 }] })
    (s.group 1).pend.find? (fun o => o.id = 1) = some o ∧ s.mayComplete 1 o = true
    ∧ lastAt o.v 33 = some { key := 33, val := 7 } ∧ lastAt o.v 40 = none ∧ (s.group 1).flag 2 = 3 := by decide

/-- A peer's line of a tier that no link reaches, with a byte accepted at its home. -/
theorem witness_FencesAndRanges_refused :
    let k := 2 * 2 ^ 64 + 2 ^ 66
    let v := (base.setDie 0 { dirty := [(k, { val := 1, mask := 0xFF })] }).sendOrdered 0 (k / 128)
    ∃ e ∈ (v.die 0).dirty, e.1 / 128 = k / 128 ∧ v.served .write e.1 = false := by decide +kernel

/-- An arrival at a team that is away, its save area there or not, its Miller's core frozen or not. -/
theorem witness_BarriersCountTheirPhases_saved :
    let s := barS true
    let f : State := { s with saved := [(2, 0x3001)] }
    s.savedFrozen 2 9 0 = false ∧ (f.team 2).away = true ∧ f.saved.getD 2 0 = 0x3000 + 1 ∧ s.saved.getD 2 0 = 0
    ∧ (f.engineRead 0 0 (vaOf (BitVec.ofNat 64 (0x3000 + f.imageRows 2 9))) 16).2.isOk = true
    ∧ ({ f with cores := (List.range 96).map (fun i => (i, { frozen := true })) } : State).savedFrozen 2 9 0 = true
    ∧ ((s.arrivalFinds 6).2.hasObject 0) := by unfold Alloc.hasObject; decide +kernel
/-- An error armed at a word's cells that an access reads, lasting or not, and at one it does not read. -/
theorem witness_BarriersCountTheirPhases_cells :
    let a : Alloc := { size := 128, arm := [(1, 3), (2, 1), (9, 3)] }
    a.unreadable 0 4 = false ∧ 3 ≤ a.arm.getD 1 0 ∧ a.arm.getD 2 0 < 3 ∧ (∃ o ∈ [4, 8], o / 4 = 1) ∧ ¬ ∃ o ∈ [4, 8], o / 4 = 9 := by
  decide

/-- A drain under way to a plain allocation, and to memory; one whose element is poisoned. -/
def drainS (dk : Bool) (dst : Word) (epois : SMap Bool) : State :=
  let c := (mcS 4 true [] none).mat 5
  (mcS 4 true [] none).setMat 5 { c with dk, handle := 9, off := 0, a := [dst, 0, 512, 0x3F800000], snap := { epois } }
theorem witness_MatrixCommandsRun_drain :
    let s := drainS true 0 []
    let c := s.mat 5
    s.chunkReady 0 5 0 = false ∧ s.drainReady 0 5 0 = true ∧ c.chunkPois 0 = false ∧ ((drainS true 0 [(3, true)]).mat 5).chunkPois 0 = true
    ∧ c.dk = true ∧ ((s.team 1).alloc 9).bound = true ∧ ((s.team 1).alloc 9).cls = 0 ∧ (s.team 1).away = false
    ∧ drainBad c.dk c.ty c.fc c.a = false ∧ c.runBytes = 512 ∧ c.bytes = 32768
    ∧ c.landed.length + 1 ≠ c.chunks ∧ c.ty ∈ [14, 15, 16] ∧ c.pitch = 512 ∧ c.runs 0 = [(0, 512)]
    ∧ ((drainS false 0x3000 []).drainCanWrite 0 ((drainS false 0x3000 []).mat 5) (((drainS false 0x3000 []).mat 5).runs 0)).2 = none
    ∧ ((drainS false 0x3000 []).drainReady 0 5 0 = true ∧ ((drainS false 0x3000 []).mat 5).dk = false)
    ∧ ((drainS false 0x40000000 []).drainCanWrite 0 ((drainS false 0x40000000 []).mat 5) (((drainS false 0x40000000 []).mat 5).runs 0)).2.isSome = true
    ∧ ((mcS 4 true (List.range 63) none).mat 5).chunks = 64 := by decide +kernel
theorem witness_MatrixCommandsRun_drain_size :
    let c := (drainS true 0 []).mat 5
    (((drainS true 0 []).team 1).alloc 9).size = 4096 ∧ c.placeOf 511 = 511 ∧ c.placeOf 512 = 512 := by decide +kernel
theorem witness_MatrixCommandsRun_greatest :
    (∀ x ∈ [FNum.nan false], x.isNan = true) ∧ (∃ x ∈ [FNum.nan false, .inf true], x.isNan = false)
    ∧ (∀ x ∈ [FNum.nan false, .inf true], x.isNan = true ∨ x.exact = true ∨ x = .inf true) := by decide

/-- The records that RECLASS captures, and a scratchpad store of a sibling outstanding to its handle. -/
theorem witness_AllocationsAndLeases_record :
    let s := (leaseS 1 []).setCr 0 0xC 0x1000
    bitsOf (6 : Half).toNat 2 1 = 1 ∧ (s.fmtCapture 0 0 1).2.isOk = true ∧ ((s.setCr 0 0xC 0x40000000).fmtCapture 0 0 1).2.isOk = false
    ∧ (s.fmtCapture 0 0 0).2.toOption = some 0 ∧ s.target 9 = .handle 9 ((s.team 1).alloc 9) ∧ s.target 5 = .nothing := by decide +kernel
theorem witness_AllocationsAndLeases_errors :
    let e : ArmedErr := { site := 0, at_ := armKey 1 8 2, kind := 2, cell := true }
    let s := base.setCore 0 { armed := [e] }
    e ∈ (s.coreAt 0).armed ∧ e.at_ / 8192 = 1 ∧ e.at_ / 32 % 256 = 8 ∧ e.at_ % 32 = 2
    ∧ (s.group 1).unreadable 0 8 2 = false ∧ (s.groupsOf 1) = [1] ∧ (1 : Nat) ∈ s.groupsOf 1 := by decide

/-- A Miller's queue that holds a request of the context, and of another. -/
theorem witness_SystemInstructionsAct_out :
    let s := privS.setMill 7 { live := true, ctx := 0, grp := 1 }
    (∃ e ∈ s.mills, e.2.live = true ∧ e.2.ctx = 0) ∧ ¬ (∃ e ∈ privS.mills, e.2.live = true)
    ∧ bitsOf (0x1 : Half).toNat 0 2 ≠ 0 := by decide

/-- WAIT finds its word, the value there or not yet; its address has no page. -/
theorem witness_HostCommandsAct_waits :
    let s := cmdS 3 0x03000000 0 0x3000 5
    s.dispatches 3 ∧ (s.cpRead 0 0x3000 8).2.toOption.map vbytesNat = some 0
    ∧ ¬ ((wide (s.headWords 3) 4).toNat ≤ 0) ∧ ((cmdS 3 0x03000000 0 0x40000000 0).cpRead 0 0x40000000 8).2.isOk = false
    ∧ field1 (s.headWords 3) 0 1 = 0 := by unfold State.dispatches; decide +kernel

/-- The states in which a launch's presets, first argument and directory entry are looked at. -/
theorem witness_LaunchesRunTheirCourse_walks :
    let s := launchQS (recL [])
    let l := s.launch 7
    let v := s.touchPresets l
    let w := v.touchArg l
    v.firstFailure l = none ∧ ¬ v.launchRests l ∧ (w.placement l).toOption = some [0] ∧ (w.touchDir l).memByte 0 = s.memByte 0
    ∧ l.ngrp ≤ (w.cr l.ctx 0x10).toNat / 65536
    ∧ (w.placement (recL [(18, 0x4000000)])).toOption = none
    ∧ ((s.setCr 0 0 0x21).touchPresets l).launchRests l := by unfold State.launchRests; decide +kernel
/-- A launch of an object that is not registered, of a level-2 object, and of a level-1 object without translation. -/
def dirS (word : Nat) : State :=
  (launchQS (recL [(1, 2)])).setMemBytes (0x4000000 + dirOff + 128) (bytesLE 4 word ++ bytesLE 4 0 ++ bytesLE 8 0x1000 ++ bytesLE 8 4)
theorem witness_LaunchesRunTheirCourse_objects :
    let d := fun n => ((dirS n).touchDir (recL [(1, 2)])).dirEntry 0 commons 2
    (recL [(1, 2)]).codeObj = 2 ∧ (d 0).valid = false ∧ ((d 1).valid = true ∧ (d 1).l1 = false) ∧ ((d 3).valid = true ∧ (d 3).l1 = true)
    ∧ (dirS 3).trans = [] := by decide +kernel
/-- Items that have come back, below and above the initial ones that are left; and those of a core whose last team of
the launch has left. -/
theorem witness_LaunchesRunTheirCourse_returned :
    let l : Launch := { rec_ := recOf [(4, 0x40000), (20, 100), (21, 9)], itemNext := 5, returned := [(101, 1), (107, 7)] }
    l.batch.1 = [(101, 1), (105, 5), (106, 6), (107, 7), (108, 8), (107, 7)] ∧ l.batch.2.returned = [] ∧ l.batch.2.itemNext = 9
    ∧ ((itemQS 1 9).setTeam 1 {}).teamsOn 0 0 = [] ∧ (((itemQS 1 9).coreAt 0).items.getD 1 {}).items ≠ [] := by decide +kernel

/-- A launch of priority 3 whose five groups find no windows, and one of priority 2 that fits. -/
def stuckS : State :=
  ((placeS 0).setLaunch 7 { recL [(4, 0x224)] with stage := .dispatched, dies := [0], prio := 3 }).setLaunch 8
    { recL [] with stage := .dispatched, dies := [0], prio := 2 }
theorem witness_TeamsComeAndGo_lower :
    let s := stuckS
    let next := fun k => ((s.launch k).nextOn 0).getD 0
    SMap.sorted s.launches = true ∧ s.therm.runs = true ∧ s.candidate 0 3 = some 7
    ∧ s.findRect (s.launch 7) 0 (next 7) = none ∧ (∀ j, j < 8 → j ≠ 3 → j ≠ 2 → s.candidate 0 j = none)
    ∧ s.candidate 0 2 = some 8 ∧ (s.findRect (s.launch 8) 0 (next 8)).isSome = true
    ∧ (let t := (placeS 0).setLaunch 7 (s.launch 7)
       SMap.sorted t.launches = true ∧ (∀ j, j < 8 → j ≠ 3 → t.candidate 0 j = none) ∧ t.findRect (t.launch 7) 0 0 = none) := by
  decide +kernel
theorem witness_TeamsComeAndGo_cluster :
    (stuckS.launch 8).area = 1 ∧ 0 * 1 + 0 < (stuckS.launch 8).teams ∧ 0 < (stuckS.launch 8).ngrp
    ∧ (∀ r ∈ [({ ins := 3, pc := 7 } : DivRec)], r.ins < 16) ∧ SMap.sorted stuckS.groups = true := by decide +kernel

/-- The package in OFF, and a threshold of the image below R381's. -/
theorem witness_RegistersAreWrittenFromOutside_off :
    State.reset.therm.state = 0 ∧ base.therm.state ≠ 0 ∧ min ((0x100 : Word).toNat % 65536) 340 = 256
    ∧ (0x305 : Nat) ≤ 0x318 ∧ (3 : Nat) < 4 := by decide

/-! Worked results of the chapters, each by one step on the placed group. -/

/-- One step of a placed instruction, its group's registers set first. -/
def stepped (w : Nat) (f : Group → Group) : State :=
  let s := State.reset.withFetchWord 64 w
  match step (s.setGroup 1 (f (s.group 1))) with
  | .next t => t
  | _ => s

/-- EXIT ends the path of every lane (04_control R85). -/
theorem test_step_exit :
    let t := stepped 0x08780000 id
    (t.group 1).slotA.v = false ∧ t.picked = false ∧ (t.group 1).issued = 1 := by decide +kernel
/-- A reserved word traps with ILL (02_encoding R31, R39). -/
theorem test_step_reserved_word :
    let t := stepped 0xFF780000 id
    (t.group 1).trapPend.map (·.cause) = some cILL ∨ (t.group 1).park ≠ none := by decide +kernel
/-- Lane registers in lanes 0 and 1, g8:g9 of the worked clause, and no other lane. -/
def twoLanes (l : List (Nat × Word × Word)) (g : Group) : Group :=
  { g with v := l.flatMap (fun e => (if e.2.1 = 0 then [] else [(32 * e.1, e.2.1)])
             ++ (if e.2.2 = 0 then [] else [(32 * e.1 + 1, e.2.2)]))
           g := [(8, 0x1000), (9, 0x40)], populated := 3, slotA := { g.slotA with own := 3, act := 3 } }
/-- A lane register in lanes 0 and 1. -/
def two (s : State) (n : Nat) : Word × Word := ((s.group 1).vget n 0, (s.group 1).vget n 1)

/-- 05_integer, results in lanes 0 and 1 of the worked clause. -/
theorem test_bfe_worked : two (stepped 0x0406600151F82810 (twoLanes [(8, 0x3A7, 0xFFF)])) 20 = (0x3A, 0x3F) := by
  decide +kernel
theorem test_lea_worked :
    let t := stepped 0x140060035BF82C10 (twoLanes [(20, 0x3A, 0x3F)])
    two t 22 = (0x11D0, 0x11F8) ∧ two t 23 = (0x40, 0x40) := by decide +kernel
theorem test_icvt_worked : two (stepped 0x000030025CF83012 (twoLanes [(9, 0xFFFFFF00, 0x50)])) 24 = (0xFFFFFF80, 0x50) := by
  decide +kernel
theorem test_iadds_worked :
    two (stepped 0x0B0040005DF83214 (twoLanes [(10, 0x7FFFFFF0, 0x80000000), (11, 0x20, 0xFFFFFFFF)])) 25
      = (0x7FFFFFFF, 0x80000000) := by decide +kernel

/-- 06_float, operands and results in lanes 0 and 1 of the worked clause. -/
theorem test_ffma_worked :
    let t := stepped 0x090A800063F82810 (twoLanes
      [(8, 0x3F800800, 0x3F800800), (9, 0x3F800800, 0x3F800800), (10, 0x30800000, 0x30800000)])
    two t 20 = (0x3F801001, 0x3F801001) ∧ (t.group 1).fpstat = 0x10 := by decide +kernel
theorem test_fmax_worked :
    let t := stepped 0x0B00804065F82A16 (twoLanes [(11, 0x80000000, 0xFF800001)])
    two t 21 = (0, 0x7FC00000) ∧ (t.group 1).fpstat = 1 := by decide +kernel
theorem test_fdot2_worked :
    let t := stepped 0x0D0E980079F82C18 (twoLanes
      [(12, 0x40003FC0, 0x40003FC0), (13, 0xBF403F00, 0xBF403F00), (14, 0x3F800000, 0x3F800000)])
    two t 22 = (0x3E800000, 0x3E800000) ∧ (t.group 1).fpstat = 0 := by decide +kernel
theorem test_fsin_worked :
    let t := stepped 0x000080006EF82E1E (twoLanes [(15, 0x3F000000, 0xC0000000)])
    two t 23 = (0x3F800000, 0x80000000) ∧ (t.group 1).fpstat = 0 := by decide +kernel

/-- 07_lanes, a clause in use: p1 in lanes 0, 2, 5, 7 and 12 to 15; 2^24 and three ones in v8. -/
def laneClause (g : Group) : Group :=
  { g with p := [(1, 0xF0A5)], v := [(256, 0x4B800000), (257, 0x3F800000), (258, 0x3F800000), (259, 0x3F800000)] }
theorem test_ballot_worked : ((stepped 0x83F81802 laneClause).group 1).gget 12 = 0xF0A5 := by decide +kernel
theorem test_prank_worked :
    let g := (stepped 0x88F82A02 laneClause).group 1
    g.vget 21 7 = 3 ∧ g.vget 21 12 = 4 ∧ g.vget 21 16 = 8 ∧ g.vget 21 31 = 8 := by decide +kernel
theorem test_lred_worked :
    let g := (stepped 0x0000800089F82810 laneClause).group 1
    g.vget 20 0 = 0x4B800001 ∧ g.vget 20 31 = 0x4B800001 ∧ g.fpstat = 0x10 := by decide +kernel

/-- 08_formats, a block packed and unpacked: record B in fm1. -/
def blockS (l : List (Nat × Word × Word)) (g : Group) : Group :=
  let g := twoLanes l g
  { g with fm := [(1, 0x0000002506040154)], populated := 1, slotA := { g.slotA with own := 1, act := 1 } }
theorem test_fscl_worked :
    ((stepped 0x0001000095F82022 (blockS [(17, 0x41200000, 0)])).group 1).vget 16 0 = 5 := by decide +kernel
theorem test_fpack_worked :
    let g := (stepped 0x1001000091F82410 (blockS
      [(8, 0x41200000, 0), (9, 0x40E00000, 0), (10, 0xBF800000, 0), (11, 0x3DCCCCCD, 0), (16, 5, 0)])).group 1
    g.vget 18 0 = 0x956 ∧ g.fpstat = 0x18 := by decide +kernel
theorem test_funpack_worked :
    let g := (stepped 0x1001000092F83024 (blockS [(16, 5, 0), (18, 0x956, 0)])).group 1
    g.vget 24 0 = 0x41200000 ∧ g.vget 25 0 = 0x40F00000 ∧ g.vget 26 0 = 0xBFA00000 ∧ g.vget 27 0 = 0
    ∧ g.vget 31 0 = 0 ∧ g.fpstat = 0 := by decide +kernel

/-- 08_formats, narrowing examples at factor 1: record, FP32 input, level-2 and level-1 code and flags (NV 1, OF 4,
UF 8, NX 16). -/
def fmRecA : DWord := 0x0000000000050798
def fmRecB : DWord := 0x0000002506040154
def fmRecC : DWord := 0x0000000007030014
def narrowed (r : DWord) (x : Nat) (l2 l1 : FRes) : Bool :=
  fmEncode r false (some { m := 1, e := 0 }) (f32.decode x) = l2
    && fmEncode r true (some { m := 1, e := 0 }) (f32.decode x) = l1
theorem test_narrowing_record_A :
    narrowed fmRecA 0x43FA0000 (0x7E, 0x14) (0x7E, 0x14) && narrowed fmRecA 0x7F800000 (0x7E, 1) (0x7E, 1)
    && narrowed fmRecA 0x7FC00000 (0x7F, 0) (0x7F, 0) && narrowed fmRecA 0x3A800000 (0, 0x18) (0, 0x18)
    && narrowed fmRecA 0x3F880000 (0x38, 0x10) (0x38, 0x10) := by decide +kernel
theorem test_narrowing_records_B_and_C :
    narrowed fmRecB 0x40A00000 (6, 0x10) (6, 0x10) && narrowed fmRecB 0x40B00000 (6, 0x14) (7, 0x10)
    && narrowed fmRecB 0xC2C80000 (0xE, 0x14) (0xF, 0x14) && narrowed fmRecB 0x7FC00000 (0, 1) (0, 1)
    && narrowed fmRecC 0x40F00000 (7, 0x14) (7, 0x14) && narrowed fmRecC 0xC0F00000 (9, 0x14) (8, 0x10)
    && narrowed fmRecC 0x40200000 (2, 0x10) (2, 0x10) := by decide +kernel

end Sys2Proof.Tests
end

section
/-!
PROOF. Registers written from outside the cores and the drains into the arrays (00_scope R3; 11_visibility R250,
R251; 15_system R327, R355, R356; 17_cold R381, R383, R387, R391, R392), and the statement made of them.
-/

namespace Sys2Proof.Machine

/-! Tables, dies and folds over the state. -/

/-- An update of one die, read at any die. -/
theorem State.modDie_die (s : State) (d n : Nat) (f : Die → Die) :
    (s.modDie d f).die n = if n = d then f (s.die d) else s.die n := State.setDie_die _ _ _ _

/-- An entry that a table does not read as its default stands in the table. -/
theorem SMap.getD_mem {α : Type} (m : SMap α) (k : Nat) (d : α) (h : m.getD k d ≠ d) : (k, m.getD k d) ∈ m := by
  induction m with
  | nil => exact absurd rfl h
  | cons e t ih =>
    obtain ⟨j, v⟩ := e
    rw [SMap.getD_cons] at h ⊢
    split at h
    · next hj => simp [hj]
    · next hj => simpa [hj] using .inr (ih h)

/-- What each step of a fold brings about for its element and every other step keeps holds of all of them at
the end. -/
theorem State.foldl_each {α : Type} (f : State → α → State) (P : α → State → Prop)
    (hset : ∀ s a, P a (f s a)) (hkeep : ∀ s a b, P b s → P b (f s a)) (l : List α) (s : State) :
    ∀ a ∈ l, P a (l.foldl f s) := by
  induction l generalizing s with
  | nil => simp
  | cons b t ih =>
    intro a ha
    rcases List.mem_cons.1 ha with rfl | ha
    · exact List.foldlRecOn t f (hset s a) (fun u hu c _ => hkeep u c a hu)
    · exact ih (f s b) a ha

/-! What is common to every piece of traffic towards the homes. -/

/-- Data has moved towards the homes: memory and dies alone differ, and a line that a die still holds pending is
as it was. -/
structure Homeward (s t : State) : Prop where
  only : t = { s with mem := t.mem, mpois := t.mpois, dies := t.dies }
  pending : ∀ n l, (t.pline n l).have_ = true → t.pline n l = s.pline n l

theorem Homeward.refl (s : State) : Homeward s s := ⟨rfl, fun _ _ _ => rfl⟩

theorem Homeward.trans {s t u : State} (h : Homeward s t) (k : Homeward t u) : Homeward s u := by
  refine ⟨by rw [k.only, h.only], fun n l hl => ?_⟩
  have e := k.pending n l hl
  rw [e]
  exact h.pending n l (e ▸ hl)

theorem Homeward.foldl {α : Type} {f : State → α → State} (h : ∀ s a, Homeward s (f s a)) (l : List α) (s : State) :
    Homeward s (l.foldl f s) :=
  List.foldlRecOn l f (Homeward.refl s) (fun t ht a _ => ht.trans (h t a))

theorem Homeward.groups {s t : State} (h : Homeward s t) : t.groups = s.groups := by rw [h.only]
theorem Homeward.teams {s t : State} (h : Homeward s t) : t.teams = s.teams := by rw [h.only]
theorem Homeward.therm {s t : State} (h : Homeward s t) : t.therm = s.therm := by rw [h.only]
theorem Homeward.drainctl {s t : State} (h : Homeward s t) : t.drainctl = s.drainctl := by rw [h.only]; rfl

/-- Memory and dies alone differ, and no die's pending-home data. -/
theorem Homeward.of_pendH {s t : State} (h : t = { s with mem := t.mem, mpois := t.mpois, dies := t.dies })
    (hp : ∀ n, (t.die n).pendH = (s.die n).pendH) : Homeward s t :=
  ⟨h, fun n l _ => by simp only [State.pline, hp]⟩

theorem State.modDie_homeward (s : State) (d : Nat) (f : Die → Die) (h : (f (s.die d)).pendH = (s.die d).pendH) :
    Homeward s (s.modDie d f) := by
  refine .of_pendH rfl (fun n => ?_)
  rw [State.modDie_die]
  split
  · next hn => rw [hn, h]
  · rfl

/-! Messages between dies (12_atomics_barriers R277). -/

/-- A message between dies moves their counters and their copies of the time base, and nothing else of a die. -/
theorem State.timeMsg_die {β : Type} (p : Die → β) (hc : ∀ d x, p { d with ctrs := x } = p d)
    (hs : ∀ d x, p { d with skew := x } = p d) (s : State) (a b n : Nat) :
    p ((s.timeMsg a b).die n) = p (s.die n) := by
  have hcount : ∀ (s : State) d code k, p ((s.countDie d code none k).die n) = p (s.die n) := by
    intro s d code k
    rw [State.countDie, State.modDie_die]
    split
    · next hn => rw [hn, hc]
    · rfl
  have hroute : p ((s.countRoute a b).die n) = p (s.die n) := by
    unfold State.countRoute
    split
    · exact hcount ..
    · exact List.foldlRecOn (motive := fun t : State => p (t.die n) = p (s.die n)) _ _ rfl
        (fun t ht d _ => (hcount ..).trans ht)
    · rfl
  unfold State.timeMsg
  split
  · rfl
  · dsimp only
    split
    · exact hroute
    · rw [State.modDie_die]
      split
      · next hn => subst hn; rw [hs, hroute]
      · exact hroute

theorem State.timeMsg_pendH (s : State) (a b n : Nat) : ((s.timeMsg a b).die n).pendH = (s.die n).pendH :=
  State.timeMsg_die (·.pendH) (fun _ _ => rfl) (fun _ _ => rfl) s a b n
theorem State.timeMsg_dirty (s : State) (a b n : Nat) : ((s.timeMsg a b).die n).dirty = (s.die n).dirty :=
  State.timeMsg_die (·.dirty) (fun _ _ => rfl) (fun _ _ => rfl) s a b n

theorem State.timeMsg_homeward (s : State) (a b : Nat) : Homeward s (s.timeMsg a b) :=
  .of_pendH (by rw [State.timeMsg_dies]) (s.timeMsg_pendH a b)

/-! Bytes accepted at a home, and written on from there. -/

/-- Merging poison marks changes memory's marks alone (09_memory R175). -/
theorem State.mergePois_mpois (s : State) (pk : Nat) (cs : List BCell) :
    s.mergePois pk cs = { s with mpois := (s.mergePois pk cs).mpois } := by
  unfold State.mergePois
  split
  · rfl
  · split <;> rfl

theorem State.mergePois_die (s : State) (pk : Nat) (cs : List BCell) (n : Nat) :
    (s.mergePois pk cs).die n = s.die n := by rw [State.mergePois_mpois]; rfl

theorem State.mergePois_homeward (s : State) (pk : Nat) (cs : List BCell) : Homeward s (s.mergePois pk cs) :=
  .of_pendH (by rw [State.mergePois_mpois]) (fun n => by rw [State.mergePois_die])

theorem State.disarm_homeward (s : State) (die sec : Nat) (cells : SMap BCell) :
    Homeward s (s.disarm die sec cells) := by
  unfold State.disarm
  split
  · exact .refl s
  · exact s.modDie_homeward _ _ rfl

theorem State.setMemByte_homeward (s : State) (pk : Nat) (b : Byte) : Homeward s (s.setMemByte pk b) :=
  .of_pendH rfl (fun _ => rfl)

theorem State.acceptByte_homeward (s : State) (home pk : Nat) (c : BCell) : Homeward s (s.acceptByte home pk c) := by
  unfold State.acceptByte
  split
  · exact .refl s
  · split
    · exact s.setMemByte_homeward pk _
    · split
      · exact .refl s
      · exact s.modDie_homeward _ _ rfl

theorem State.farWrite_homeward (s : State) (home pk : Nat) (c : BCell) : Homeward s (s.farWrite home pk c) :=
  (s.setMemByte_homeward pk _).trans (State.modDie_homeward _ _ _ rfl)

theorem State.writeOn_homeward (s : State) (die : Nat) (p : Nat → Bool) : Homeward s (s.writeOn die p) := by
  unfold State.writeOn
  dsimp only
  refine Homeward.trans ?_ (State.modDie_homeward _ _ _ rfl)
  refine Homeward.trans (Homeward.foldl (fun u e => ?_) _ s) (Homeward.foldl (fun u w => ?_) _ _)
  · exact u.farWrite_homeward die e.1 e.2
  · exact u.mergePois_homeward _ _

theorem State.acceptHome_homeward (s : State) (attr : PAttr) (sec : Nat) (cells : SMap BCell) :
    Homeward s (s.acceptHome attr sec cells) := by
  have h := (Homeward.foldl (fun s (e : Nat × BCell) =>
      s.acceptByte_homeward attr.home (sec * 16 + e.1) e.2) cells s).trans (State.disarm_homeward _ attr.home sec cells)
  unfold State.acceptHome
  dsimp only
  split
  · exact h.trans (Homeward.foldl (fun s _ => s.mergePois_homeward _ _) _ _)
  · split
    · exact h.trans (State.writeOn_homeward _ _ _)
    · exact h

theorem State.guestMerge_homeward (s : State) (die sec : Nat) (cells : SMap BCell) :
    Homeward s (s.guestMerge die sec cells) := by
  refine s.modDie_homeward _ _ ?_
  dsimp only
  split <;> rfl

/-! Pending lines sent home (11_visibility R242, R243). -/

/-- A pending line given up, read at any die and line. -/
theorem State.dropPending_pline (s : State) (die line n l : Nat) :
    (s.modDie die (fun d => { d with pendH := d.pendH.set line {} {} })).pline n l
      = if n = die ∧ l = line then {} else s.pline n l := by
  simp only [State.pline, State.modDie_die]
  split
  · next hn => simp [hn, SMap.getD_set]
  · next hn => simp [hn]

theorem State.dropPending_homeward (s : State) (die line : Nat) :
    Homeward s (s.modDie die (fun d => { d with pendH := d.pendH.set line {} {} })) := by
  refine ⟨rfl, fun n l hl => ?_⟩
  rw [State.dropPending_pline] at hl ⊢
  split at hl
  · exact absurd hl Bool.false_ne_true
  · next hn => rw [if_neg hn]

/-- Once a line is no longer pending, no traffic makes it so. -/
theorem Homeward.stays_sent {s t : State} (h : Homeward s t) {n l : Nat} (hs : (s.pline n l).have_ = false) :
    (t.pline n l).have_ = false := by
  by_contra ht
  have ht := (Bool.not_eq_false _).mp ht
  rw [h.pending n l ht, hs] at ht
  exact Bool.false_ne_true ht

/-- What a line sent becomes: given up by the die, and carried home from there. -/
theorem State.sendLine_from_dropped (s : State) (die line : Nat) (h : (s.pline die line).have_ = true) :
    Homeward (s.modDie die (fun d => { d with pendH := d.pendH.set line {} {} })) (s.sendLine die line) := by
  unfold State.sendLine
  simp only [h, Bool.not_true, Bool.false_eq_true, if_false]
  exact (State.timeMsg_homeward _ _ _).trans (Homeward.foldl
    (fun s _ => (s.acceptHome_homeward _ _ _).trans (State.guestMerge_homeward _ _ _ _)) _ _)

theorem State.sendLine_of_not_pending (s : State) (die line : Nat) (h : (s.pline die line).have_ = false) :
    s.sendLine die line = s := by simp [State.sendLine, h]

theorem State.sendLine_homeward (s : State) (die line : Nat) : Homeward s (s.sendLine die line) := by
  cases h : (s.pline die line).have_ with
  | false => rw [s.sendLine_of_not_pending die line h]; exact .refl s
  | true => exact (s.dropPending_homeward die line).trans (s.sendLine_from_dropped die line h)

/-- A line sent is no longer pending. -/
theorem State.sendLine_sent (s : State) (die line : Nat) : ((s.sendLine die line).pline die line).have_ = false := by
  cases h : (s.pline die line).have_ with
  | false => rw [s.sendLine_of_not_pending die line h, h]
  | true =>
    refine (s.sendLine_from_dropped die line h).stays_sent ?_
    rw [State.dropPending_pline, if_pos ⟨rfl, rfl⟩]

/-- Sorting by release interval keeps every line. -/
theorem mem_sortedByRelease (l : List (Nat × PLine)) (acc : List (Nat × Nat)) (x : Nat × Nat) :
    x ∈ l.foldl (fun acc e => (acc.takeWhile (fun x => x.2 ≤ e.2.rel)) ++ [(e.1, e.2.rel)]
        ++ acc.dropWhile (fun x => x.2 ≤ e.2.rel)) acc ↔ x ∈ acc ∨ ∃ e ∈ l, x = (e.1, e.2.rel) := by
  induction l generalizing acc with
  | nil => simp
  | cons e t ih =>
    have hsplit : x ∈ acc ↔ x ∈ acc.takeWhile (fun x => decide (x.2 ≤ e.2.rel))
        ∨ x ∈ acc.dropWhile (fun x => decide (x.2 ≤ e.2.rel)) := by
      rw [← List.mem_append, List.takeWhile_append_dropWhile]
    rw [List.foldl_cons, ih, hsplit]
    simp only [List.mem_append, List.mem_cons, List.not_mem_nil, or_false, exists_eq_or_imp]
    tauto

/-- A pending line that satisfies the test is among those listed. -/
theorem State.mem_pendLines (s : State) (die l : Nat) (p : Nat → PLine → Bool)
    (hh : (s.pline die l).have_ = true) (hp : p l (s.pline die l) = true) : l ∈ s.pendLines die p := by
  have hm : (l, s.pline die l) ∈ (s.die die).pendH := by
    refine SMap.getD_mem _ _ _ (fun he => ?_)
    rw [State.pline, he] at hh
    exact Bool.false_ne_true hh
  refine List.mem_map.2 ⟨(l, (s.pline die l).rel), ?_, rfl⟩
  rw [mem_sortedByRelease]
  exact .inr ⟨(l, s.pline die l), List.mem_filter.2 ⟨hm, by simp [hh, hp]⟩, rfl⟩

theorem State.sendWhere_homeward (s : State) (die : Nat) (p : Nat → PLine → Bool) : Homeward s (s.sendWhere die p) :=
  .foldl (fun s l => s.sendLine_homeward die l) _ s

/-- No line that satisfies the test stays pending. -/
theorem State.sendWhere_sent (s : State) (die l : Nat) (p : Nat → PLine → Bool)
    (h : ((s.sendWhere die p).pline die l).have_ = true) : p l ((s.sendWhere die p).pline die l) = false := by
  have e := (s.sendWhere_homeward die p).pending die l h
  by_contra hp
  rw [Bool.not_eq_false] at hp
  have hsent := State.foldl_each (fun s l => s.sendLine die l) (fun l s => (s.pline die l).have_ = false)
    (fun s l => s.sendLine_sent die l) (fun s a b hb => (s.sendLine_homeward die a).stays_sent hb)
    (s.pendLines die p) s l (s.mem_pendLines die l p (e ▸ h) (e ▸ hp))
  exact Bool.false_ne_true (hsent.symm.trans h)

theorem State.sendAll_homeward (s : State) (die : Nat) (swc : Bool) : Homeward s (s.sendAll die swc) :=
  s.sendWhere_homeward die _

/-- Of all that a die holds pending only SWC lines may stay, and they do not where they are sent too. -/
theorem State.sendAll_sent (s : State) (die l : Nat) (swc : Bool)
    (h : ((s.sendAll die swc).pline die l).have_ = true) :
    swc = false ∧ ((s.sendAll die swc).pline die l).attr.swc = true := by
  unfold State.sendAll at h ⊢
  simpa using s.sendWhere_sent die l _ h

/-! Dirty bytes written on (R250). -/

/-- Bytes written on to the host or a peer leave the dirty bytes of every die as they are. -/
theorem State.farWrite_dirty (s : State) (home pk : Nat) (c : BCell) (n : Nat) :
    ((s.farWrite home pk c).die n).dirty = (s.die n).dirty := by
  rw [State.farWrite, State.modDie_die]
  split
  · next hn => rw [hn]; rfl
  · rfl

/-- A die that writes on all its dirty bytes has none left, and no other die's differ. -/
theorem State.writeOn_dirty (s : State) (die n : Nat) :
    ((s.writeOn die).die n).dirty = if n = die then [] else (s.die n).dirty := by
  unfold State.writeOn
  dsimp only
  rw [State.modDie_die]
  split
  · simp
  · refine List.foldlRecOn (motive := fun t : State => (t.die n).dirty = (s.die n).dirty) _ _ ?_
      (fun t ht _ _ => by rw [State.mergePois_die, ht])
    exact List.foldlRecOn (motive := fun t : State => (t.die n).dirty = (s.die n).dirty) _ _ rfl
      (fun t ht e _ => (t.farWrite_dirty die e.1 e.2 n).trans ht)

/-! The drains. -/

theorem State.drainL2_homeward (s : State) : Homeward s s.drainL2 :=
  (Homeward.foldl (fun s d => s.sendAll_homeward d true) _ s).trans
    (Homeward.foldl (fun s d => s.writeOn_homeward d _) _ _)

/-- A DRAINCTL drain of the L2s leaves no die dirty bytes, nor pending lines (R251). -/
theorem State.drainL2_clean (s : State) (n : Nat) (hn : n < 8) : (s.drainL2.die n).dirty = [] :=
  State.foldl_each (fun s d => s.writeOn d) (fun n s => (s.die n).dirty = [])
    (fun s d => by rw [State.writeOn_dirty, if_pos rfl])
    (fun s d n h => by rw [State.writeOn_dirty, h, ite_self]) _ _ n (List.mem_range.2 hn)

theorem State.drainL2_sent (s : State) (n l : Nat) (hn : n < 8) : (s.drainL2.pline n l).have_ = false := by
  refine (Homeward.foldl (fun s d => s.writeOn_homeward d _) _ _).stays_sent ?_
  refine State.foldl_each (fun s d => s.sendAll d true) (fun n s => (s.pline n l).have_ = false)
    (fun s d => ?_) (fun s d n h => (s.sendAll_homeward d true).stays_sent h) _ s n (List.mem_range.2 hn)
  by_contra h
  obtain ⟨hswc, -⟩ := s.sendAll_sent d l true ((Bool.not_eq_false _).mp h)
  exact Bool.false_ne_true hswc.symm

/-- One die's part in a SYS drain that another asks for. -/
theorem State.askedDrain_homeward (s : State) (die d : Nat) :
    Homeward s (((s.timeMsg die d).writeOn d).timeMsg d die) :=
  ((s.timeMsg_homeward die d).trans (State.writeOn_homeward _ _ _)).trans (State.timeMsg_homeward _ _ _)

theorem State.sysDrain_homeward (s : State) (die : Nat) : Homeward s (s.sysDrain die) :=
  (s.sendAll_homeward die false).trans (.foldl (fun s d => s.askedDrain_homeward die d) _ _)

/-- The SYS drain of any die leaves no die dirty bytes (R250). -/
theorem State.sysDrain_clean (s : State) (die n : Nat) (hn : n < 8) : ((s.sysDrain die).die n).dirty = [] :=
  State.foldl_each (fun s d => ((s.timeMsg die d).writeOn d).timeMsg d die) (fun n s => (s.die n).dirty = [])
    (fun s d => by rw [State.timeMsg_dirty, State.writeOn_dirty, if_pos rfl])
    (fun s d n h => by rw [State.timeMsg_dirty, State.writeOn_dirty, State.timeMsg_dirty, h, ite_self])
    _ _ n (List.mem_range.2 hn)

/-- After its SYS drain a die holds no line pending but SWC ones. -/
theorem State.sysDrain_sent (s : State) (die l : Nat) (h : ((s.sysDrain die).pline die l).have_ = true) :
    ((s.sysDrain die).pline die l).attr.swc = true := by
  have e := (Homeward.foldl (fun s d => s.askedDrain_homeward die d) (List.range 8) (s.sendAll die)).pending die l h
  rw [State.sysDrain] at h ⊢
  rw [e] at h ⊢
  exact (s.sendAll_sent die l false h).2

theorem State.drainDies_homeward (s : State) : Homeward s s.drainDies := by
  unfold State.drainDies
  exact .foldl (fun s d => s.sysDrain_homeward d) _ s

/-- After the SYS drain of every die none has dirty bytes, nor pending lines but SWC ones. -/
theorem State.drainDies_clean (s : State) (n : Nat) (hn : n < 8) : (s.drainDies.die n).dirty = [] := by
  unfold State.drainDies
  exact State.foldl_each (fun s d => s.sysDrain d) (fun _ s => (s.die n).dirty = [])
    (fun s d => s.sysDrain_clean d n hn) (fun s d _ _ => s.sysDrain_clean d n hn) _ s 0 (by decide)

theorem State.drainDies_sent (s : State) (n l : Nat) (hn : n < 8) (h : (s.drainDies.pline n l).have_ = true) :
    (s.drainDies.pline n l).attr.swc = true := by
  unfold State.drainDies at h ⊢
  refine State.foldl_each (fun s d => s.sysDrain d)
    (fun n s => (s.pline n l).have_ = true → (s.pline n l).attr.swc = true)
    (fun s d => s.sysDrain_sent d l) (fun s d n hb h => ?_) _ s n (List.mem_range.2 hn) h
  have e := (s.sysDrain_homeward d).pending n l h
  rw [e] at h ⊢
  exact hb h

/-! Registers of BAR0 (R387). -/

theorem idxIn_iff (lo hi i : Nat) : idxIn lo hi i = true ↔ lo ≤ i ∧ i ≤ hi := by simp [idxIn]

theorem State.setBar_barWord (s : State) (off o : Nat) (x : Word) :
    (s.setBar off x).barWord o = if o / 4 = off / 4 then x else s.barWord o := SMap.getD_set _ _ _ _ _

theorem exec_registerWrite_bar0 (s : State) (off u : Nat) (x : Word) :
    exec (.registerWrite 4 off u x) s = .next (s.writeBar off x) := by
  show execRegisterWrite 4 off u x s = _
  simp [execRegisterWrite]

/-- In OFF no register is written but those of BAR0 (R392). -/
theorem exec_registerWrite_off (s : State) (k i u : Nat) (x : Word) (hk : k < 4) (h : s.therm.state = 0) :
    exec (.registerWrite k i u x) s = .next s := by
  show execRegisterWrite k i u x s = _
  simp [execRegisterWrite, h, hk]

/-- A write that sets one word of BAR0 leaves its other words, memory and the groups. -/
theorem runs_registerWrite_setBar {s : State} {off : Nat} {x y : Word} (u : Nat)
    (h : s.writeBar off x = s.setBar off y) :
    Runs (.registerWrite 4 off u x) s (fun t => t.barWord off = y
      ∧ (∀ o, o / 4 ≠ off / 4 → t.barWord o = s.barWord o) ∧ SameMem s t ∧ t.groups = s.groups) := by
  refine ⟨_, exec_registerWrite_bar0 s off u x, ?_⟩
  rw [h]
  refine ⟨?_, fun o ho => ?_, fun _ => rfl, rfl⟩
  · rw [State.setBar_barWord, if_pos rfl]
  · rw [State.setBar_barWord, if_neg ho]

theorem State.bar0Serves_on {s : State} (h : s.therm.state ≠ 0) (off : Nat) : s.bar0Serves off = true := by
  simp [State.bar0Serves, h]

/-- The attestation mailbox is served in every state (R392). -/
theorem State.bar0Serves_mailbox (s : State) {off : Nat} (hlo : 0x400 ≤ off) (hhi : off ≤ 0x8FF) :
    s.bar0Serves off = true := by
  simp [State.bar0Serves, (idxIn_iff ..).2 ⟨hlo, hhi⟩]

theorem State.writeBar_not_served (s : State) (off : Nat) (x : Word) (h : s.bar0Serves off = false) :
    s.writeBar off x = s := by simp [State.writeBar, h]

/-- The admin queue's registers, written only while the queue is not enabled. -/
theorem State.writeBar_admin {s : State} (hs : s.therm.state ≠ 0) (x : Word) {k : Nat} (hk : k < 3) :
    s.writeBar (0x200 + 4 * k) x
      = if (s.barWord 0x20C).getLsbD 0 then s else s.setBar (0x200 + 4 * k) x := by
  simp (disch := omega) only [State.writeBar, State.bar0Serves_on hs, idxIn_iff, if_pos, if_neg]
  simp (disch := omega)

theorem State.writeBar_fixed {s : State} (hs : s.therm.state ≠ 0) (x : Word) :
    s.writeBar 0x300 x = s.setBar 0x300 (x &&& 0xFF)
    ∧ s.writeBar 0x304 x = s.setBar 0x304 (x &&& 0xFFFFFFF8)
    ∧ s.writeBar 0x308 x = s.setBar 0x308 x
    ∧ s.writeBar 0x30C x = if x.toNat ≤ 262144 then s.setBar 0x30C x else s := by
  simp [State.writeBar, State.bar0Serves_on hs, idxIn]

theorem State.writeBar_nonce (s : State) (x : Word) {k : Nat} (hk : k < 16) :
    s.writeBar (0x400 + 4 * k) x = s.setBar (0x400 + 4 * k) x := by
  have hs : s.bar0Serves (0x400 + 4 * k) = true := s.bar0Serves_mailbox (by omega) (by omega)
  simp (disch := omega) [State.writeBar, hs, idxIn_iff, if_pos, if_neg]

theorem State.writeBar_mailboxStatus (s : State) (x : Word) :
    s.writeBar 0x444 x = s.setBar 0x444 (s.barWord 0x444 &&& ~~~(x &&& 1)) := by
  have hs : s.bar0Serves 0x444 = true := s.bar0Serves_mailbox (by omega) (by omega)
  simp [State.writeBar, hs, idxIn]

theorem State.writeBar_doorbell {s : State} (hs : s.therm.state ≠ 0) (x : Word) {q : Nat} (hq : q < 1024)
    (he : (s.queue q).enable = true) :
    s.writeBar (0x10000 + 8 * q) x = s.setQueue q { s.queue q with tail := x.toNat % (s.queue q).entries } := by
  simp (disch := omega) [State.writeBar, State.bar0Serves_on hs, idxIn_iff, he, if_pos, if_neg]

theorem State.writeBar_queueErrors {s : State} (hs : s.therm.state ≠ 0) (x : Word) {q : Nat} (hq : q < 1024) :
    s.writeBar (0x20000 + 4 * q) x = s.setQueue q { s.queue q with errs := x.toNat } := by
  simp (disch := omega) [State.writeBar, State.bar0Serves_on hs, idxIn_iff, if_pos, if_neg]

theorem State.writeBar_windowEnable {s : State} (hs : s.therm.state ≠ 0) (x : Word) {k : Nat} (hk : k < 16) :
    s.writeBar (0x30000 + 8 * k) x = s.setBar (0x30000 + 8 * k) (x &&& 1) := by
  simp (disch := omega) [State.writeBar, State.bar0Serves_on hs, idxIn_iff, if_pos, if_neg]

theorem State.writeBar_windowBase {s : State} (hs : s.therm.state ≠ 0) (x : Word) {k : Nat} (hk : k < 16) :
    s.writeBar (0x30004 + 8 * k) x = s.setBar (0x30004 + 8 * k) (x &&& 0xFFFFF) := by
  simp (disch := omega) [State.writeBar, State.bar0Serves_on hs, idxIn_iff, if_pos, if_neg]

theorem State.writeBar_peerRoute {s : State} (hs : s.therm.state ≠ 0) (x : Word) {k : Nat} (hk : k < 64) :
    s.writeBar (0x30100 + 4 * k) x = s.setBar (0x30100 + 4 * k) x := by
  simp (disch := omega) [State.writeBar, State.bar0Serves_on hs, idxIn_iff, if_pos, if_neg]

theorem State.writeBar_thermal {s : State} (hs : s.therm.state ≠ 0) (x : Word) {k : Nat} (hk : k < 9) :
    s.writeBar (0x100 + 4 * k) x = s.writeTherm (0x310 + k) x := by
  simp (disch := omega) [State.writeBar, State.bar0Serves_on hs, idxIn_iff, if_pos]

/-! Event counters zeroed (15_system R356). -/

/-- CLR is no bit that EVSEL and DEVSEL keep: written beside what they hold, it leaves that alone. -/
theorem clr_not_kept (x : Word) :
    (x ||| 0x80000) &&& 0x7F3FF = x &&& 0x7F3FF ∧ (x ||| 0x80000).getLsbD 19 = true := by
  refine ⟨?_, by simp⟩
  rw [BitVec.and_or_distrib_right, show (0x80000 &&& 0x7F3FF : Word) = 0#32 from rfl, BitVec.or_zero]

theorem State.modCore_coreAt (s : State) (k n : Nat) (f : Core → Core) :
    (s.modCore k f).coreAt n = if n = k then f (s.coreAt k) else s.coreAt n := State.setCore_coreAt _ _ _ _

/-- A core's selector written with CLR: its counter is zero, and no other core differs. -/
theorem State.writeEvsel_clr (s : State) (k i : Nat) (v : Word) (hv : v.getLsbD 19 = true) :
    ((s.writeEvsel k i v).coreAt k).ctrs.getD i 0 = 0
    ∧ ((s.writeEvsel k i v).coreAt k).evsel.getD i 0 = v &&& 0x7F3FF
    ∧ ∀ n, n ≠ k → (s.writeEvsel k i v).coreAt n = s.coreAt n := by
  unfold State.writeEvsel State.settleCore
  simp only [State.modCore_coreAt, if_pos, hv, SMap.getD_set_same, true_and]
  intro n hn
  rw [if_neg hn, if_neg hn]

/-- A die's selector written with CLR: its counter is zero, and no other die differs. -/
theorem State.writeDevsel_clr (s : State) (k i : Nat) (v : Word) (hv : v.getLsbD 19 = true) :
    ((s.writeDevsel k i v).die k).ctrs.getD i 0 = 0
    ∧ ((s.writeDevsel k i v).die k).devsel.getD i 0 = v &&& 0x7F3FF
    ∧ ∀ n, n ≠ k → (s.writeDevsel k i v).die n = s.die n := by
  unfold State.writeDevsel State.settleDie
  simp only [State.modDie_die, if_pos, hv, SMap.getD_set_same, true_and]
  intro n hn
  rw [if_neg hn, if_neg hn]

/-- EVSEL CLR names a core's counter below 8, a die's from 8 to 23, and in OFF none. -/
theorem exec_evselClr_core {s : State} {i : Nat} (k : Nat) (hi : i < 8) (hs : s.therm.state ≠ 0) :
    exec (.evselClr i k) s = .next (s.writeEvsel k i ((s.coreAt k).evsel.getD i 0 ||| 0x80000)) := by
  show execEvselClr i k s = _
  rw [execEvselClr, if_neg hs, if_pos hi]

theorem exec_evselClr_die {s : State} {i : Nat} (k : Nat) (hlo : 8 ≤ i) (hhi : i < 24) (hs : s.therm.state ≠ 0) :
    exec (.evselClr i k) s
      = .next (s.writeDevsel k (i - 8) ((s.die k).devsel.getD (i - 8) 0 ||| 0x80000)) := by
  show execEvselClr i k s = _
  rw [execEvselClr, if_neg hs, if_neg (by omega), if_pos hhi]

theorem exec_evselClr_none {s : State} {i : Nat} (k : Nat) (h : 24 ≤ i ∨ s.therm.state = 0) :
    exec (.evselClr i k) s = .next s := by
  show execEvselClr i k s = _
  unfold execEvselClr
  split
  · rfl
  · next hs => rw [if_neg (by omega), if_neg (by omega)]

/-! Thresholds (17_cold R381). -/

theorem State.writeTherm_off {s : State} (h : s.therm.state = 0) (i : Nat) (v : Word) : s.writeTherm i v = s := by
  simp [State.writeTherm, h]

/-- UP of a threshold as a write of `x` stores it where the image gives `y` and the manual `top`. -/
def storedUp (x y : Word) (top : Nat) : Nat := min (x.toNat % 65536) (min (y.toNat % 65536) top)

/-- A threshold with DOWN as a write of `x` stores it. -/
def storedThr (x y : Word) (top : Nat) : Word :=
  BitVec.ofNat 32 (storedUp x y top + min (x.toNat / 65536) (storedUp x y top - 4) * 65536)

theorem thUp_eq (x : Word) : thUp x = x.toNat % 65536 := by simp [thUp, bitsOf]

theorem thDown_eq (x : Word) : thDown x = x.toNat / 65536 := by
  have := x.isLt
  simp only [thDown, bitsOf]
  omega

theorem clampThr_eq (y : Image) (x : Word) :
    clampThr y 1 x = storedThr x y.thr1 340 ∧ clampThr y 2 x = storedThr x y.thr2 400
    ∧ clampThr y 3 x = BitVec.ofNat 32 (storedUp x y.thr3 520) := by
  simp [clampThr, Image.top, storedThr, storedUp, thUp_eq, thDown_eq]

theorem State.writeTherm_thr {s : State} (hs : s.therm.state ≠ 0) (x : Word) :
    s.writeTherm 0x313 x = { s with therm := { s.therm with thr1 := storedThr x s.image.thr1 340 } }
    ∧ s.writeTherm 0x314 x = { s with therm := { s.therm with thr2 := storedThr x s.image.thr2 400 } }
    ∧ s.writeTherm 0x315 x
        = { s with therm := { s.therm with thr3 := BitVec.ofNat 32 (storedUp x s.image.thr3 520) } } := by
  obtain ⟨h1, h2, h3⟩ := clampThr_eq s.image x
  simp [State.writeTherm, hs, State.writeThr, State.modTherm, h1, h2, h3]

theorem State.writeTherm_tempmax {s : State} (hs : s.therm.state ≠ 0) :
    s.writeTherm 0x317 0x80000000 = { s with therm := { s.therm with high := s.therm.temp } } := by
  simp [State.writeTherm, hs, State.modTherm]

theorem exec_thresholdWrite (s : State) (k : Nat) (x : Word) :
    exec (.thresholdWrite k x) s = .next (if 1 ≤ k ∧ k ≤ 3 then s.writeTherm (0x312 + k) x else s) := by
  show execThresholdWrite k x s = _
  simp [execThresholdWrite]

/-! Drains started and completed (11_visibility R251). -/

theorem State.setDrainctl_preg (s : State) (v : Word) (i : Nat) :
    (s.setDrainctl v).preg.getD i 0 = if i = 0x305 then v else s.preg.getD i 0 := SMap.getD_set _ _ _ _ _

/-- START while a drain is in progress is ignored. -/
theorem State.writeDrain_busy (s : State) (v : Word) (h0 : v.getLsbD 0 = true) (h1 : s.drainctl.getLsbD 1 = true) :
    s.writeDrain v = s := by
  simp only [State.writeDrain, h0, h1, Bool.not_true, Bool.false_eq_true, if_false, if_true]

/-- What DRAINCTL holds of `old` once a drain of the kinds in `v` has started. -/
def drainStarted (old v : Word) : Word := (old &&& 0x102 &&& ~~~(v &&& 0x100)) ||| (v &&& 0xC) ||| 2

theorem State.writeDrain_start (s : State) (v : Word) (h0 : v.getLsbD 0 = true)
    (h1 : s.drainctl.getLsbD 1 = false) :
    s.writeDrain v = { s.setDrainctl (drainStarted s.drainctl v) with drainSel := v &&& 0xC } := by
  simp only [State.writeDrain, drainStarted, h0, h1, Bool.not_true, Bool.false_eq_true, if_false]

theorem drainStarted_bits (old v : Word) :
    (drainStarted old v).getLsbD 1 = true ∧ (drainStarted old v).getLsbD 0 = false
    ∧ (drainStarted old v).getLsbD 2 = v.getLsbD 2 ∧ (drainStarted old v).getLsbD 3 = v.getLsbD 3
    ∧ (drainStarted old v).getLsbD 8 = (old.getLsbD 8 && !v.getLsbD 8) := by
  simp [drainStarted]

/-- DRAIN START sets no bit but START beside what it is given. -/
theorem start_bits (x : Word) :
    (x ||| 1).getLsbD 0 = true ∧ (x ||| 1).getLsbD 2 = x.getLsbD 2 ∧ (x ||| 1).getLsbD 3 = x.getLsbD 3
    ∧ (x ||| 1).getLsbD 8 = x.getLsbD 8 ∧ (x ||| 1) &&& 0xC = x &&& 0xC := by
  refine ⟨by simp, by simp, by simp, by simp, ?_⟩
  rw [BitVec.and_or_distrib_right, show (1 &&& 0xC : Word) = 0#32 from rfl, BitVec.or_zero]

theorem exec_drainStart {s : State} (hs : s.therm.state ≠ 0) (x : Word) :
    exec (.drainStart x) s = .next (s.writeDrain (x ||| 1)) := by
  show execDrainStart x s = _
  rw [execDrainStart, if_neg hs]

theorem exec_drainStart_off {s : State} (hs : s.therm.state = 0) (x : Word) :
    exec (.drainStart x) s = .next s := by
  show execDrainStart x s = _
  rw [execDrainStart, if_pos hs]

/-! Registers of the contexts, cores, dies and package (15_system R327, R355, R356). -/

section

variable {s : State} (hs : s.therm.state ≠ 0) (u : Nat) (x : Word)
include hs

theorem exec_registerWrite_ctx {i : Nat} (hi : i ≤ 0x14) (hu : u < 64) :
    exec (.registerWrite 0 i u x) s = .next (s.writeReg i (.ctx u) x) := by
  show execRegisterWrite 0 i u x s = _
  simp [execRegisterWrite, hs, isCtxReg, hi, hu]

theorem exec_registerWrite_core {i : Nat} (hlo : 0x100 ≤ i) (hhi : i ≤ 0x108)
    (hp : s.corePresent (u / 256) (u % 256) = true) :
    exec (.registerWrite 1 i u x) s = .next (s.writeReg i (.core u) x) := by
  show execRegisterWrite 1 i u x s = _
  simp [execRegisterWrite, hs, isCoreReg, idxIn_iff, hlo, hhi, hp]

theorem exec_registerWrite_die {i : Nat} (hlo : 0x200 ≤ i) (hhi : i ≤ 0x20F) (hu : u < 8) :
    exec (.registerWrite 2 i u x) s = .next (s.writeReg i (.die u) x) := by
  show execRegisterWrite 2 i u x s = _
  simp [execRegisterWrite, hs, isDieReg, idxIn_iff, hlo, hhi, hu]

theorem exec_registerWrite_package {i : Nat} (hi : (0x300 ≤ i ∧ i ≤ 0x305) ∨ (0x310 ≤ i ∧ i ≤ 0x318)) :
    exec (.registerWrite 3 i u x) s = .next (s.writeReg i .package x) := by
  show execRegisterWrite 3 i u x s = _
  have hp : isPkgReg i = true := by simpa [isPkgReg, idxIn_iff] using hi
  simp [execRegisterWrite, hs, hp]

end

theorem exec_registerWrite_no_space (s : State) (i u : Nat) (x : Word) {k : Nat} (hk : 4 < k) :
    exec (.registerWrite k i u x) s = .next s := by
  show execRegisterWrite k i u x s = _
  obtain ⟨n, rfl⟩ : ∃ n, k = n + 5 := ⟨k - 5, by omega⟩
  simp [execRegisterWrite]

/-! Writes of BAR0 that change nothing (17_cold R387, R392). -/

/-- In OFF a write of BAR0 outside the mailbox and past the device's number changes nothing. -/
theorem exec_registerWrite_bar0_off {s : State} (hs : s.therm.state = 0) (u : Nat) (x : Word) {off : Nat}
    (hout : off < 0x400 ∨ 0x900 ≤ off) (hlo : 4 ≤ off) : exec (.registerWrite 4 off u x) s = .next s := by
  have hmail : idxIn 0x400 0x8FF off = false :=
    Bool.eq_false_iff.2 (fun hi => by rw [idxIn_iff] at hi; omega)
  have h : s.bar0Serves off = false := by simp [State.bar0Serves, hs, hmail, hlo]
  rw [exec_registerWrite_bar0, s.writeBar_not_served off x h]

theorem exec_registerWrite_admin_locked (s : State) (u : Nat) (x : Word) {k : Nat} (hk : k < 3)
    (h : (s.barWord 0x20C).getLsbD 0 = true) : exec (.registerWrite 4 (0x200 + 4 * k) u x) s = .next s := by
  by_cases hs : s.therm.state = 0
  · exact exec_registerWrite_bar0_off hs u x (by omega) (by omega)
  · rw [exec_registerWrite_bar0, State.writeBar_admin hs x hk, if_pos h]

/-- EXPCNT takes no count above 262,144: the model's choice (log entry 58). -/
theorem exec_registerWrite_expcnt_above (s : State) (u : Nat) (x : Word) (h : 262144 < x.toNat) :
    exec (.registerWrite 4 0x30C u x) s = .next s := by
  by_cases hs : s.therm.state = 0
  · exact exec_registerWrite_bar0_off hs u x (by omega) (by omega)
  · obtain ⟨-, -, -, h30C⟩ := State.writeBar_fixed hs x
    rw [exec_registerWrite_bar0, h30C, if_neg (by omega)]

/-! DRAIN START and DRAIN COMPLETE (11_visibility R251; 17_cold R383). -/

theorem exec_drainStart_busy (s : State) (x : Word) (h : s.drainctl.getLsbD 1 = true) :
    exec (.drainStart x) s = .next s := by
  by_cases hs : s.therm.state = 0
  · exact exec_drainStart_off hs x
  · obtain ⟨h0, -⟩ := start_bits x
    rw [exec_drainStart hs, s.writeDrain_busy _ h0 h]

/-- A drain starts with the kinds that `x` names; DRAINCTL and the kinds alone differ. -/
theorem exec_drainStart_starts {s : State} (hs : s.therm.state ≠ 0) (x : Word) (h : s.drainctl.getLsbD 1 = false) :
    exec (.drainStart x) s
      = .next { s.setDrainctl (drainStarted s.drainctl (x ||| 1)) with drainSel := x &&& 0xC } := by
  obtain ⟨h0, -, -, -, hsel⟩ := start_bits x
  rw [exec_drainStart hs, s.writeDrain_start _ h0 h, hsel]

theorem drainStarted_start_bits (old x : Word) :
    (drainStarted old (x ||| 1)).getLsbD 1 = true ∧ (drainStarted old (x ||| 1)).getLsbD 0 = false
    ∧ (drainStarted old (x ||| 1)).getLsbD 2 = x.getLsbD 2 ∧ (drainStarted old (x ||| 1)).getLsbD 3 = x.getLsbD 3
    ∧ (drainStarted old (x ||| 1)).getLsbD 8 = (old.getLsbD 8 && !x.getLsbD 8) := by
  obtain ⟨-, h2, h3, h8, -⟩ := start_bits x
  obtain ⟨d1, d0, d2, d3, d8⟩ := drainStarted_bits old (x ||| 1)
  exact ⟨d1, d0, d2.trans h2, d3.trans h3, h8 ▸ d8⟩

/-- The traffic of the drain in progress, by the kinds it was started with. -/
def State.drainTraffic (s : State) : State := if s.drainSel.getLsbD 3 then s.drainL2 else s

theorem State.drainTraffic_homeward (s : State) : Homeward s s.drainTraffic := by
  unfold State.drainTraffic
  split
  · exact s.drainL2_homeward
  · exact .refl s

theorem State.die_congr {s t : State} (h : s.dies = t.dies) (n : Nat) : s.die n = t.die n := by
  rw [State.die, h, State.die]

/-- DRAINCTL at the end of a drain: not busy, done. -/
def drainEnded (old : Word) : Word := (old &&& ~~~2) ||| 0x100

theorem drainEnded_bits (old : Word) :
    (drainEnded old).getLsbD 1 = false ∧ (drainEnded old).getLsbD 8 = true := by
  simp [drainEnded]

/-- The drain in progress ends, and with the supervisor's own the entry into SAFE. -/
theorem runs_drainComplete_ends {s : State} (h : s.drainctl.getLsbD 1 = true) :
    Runs .drainComplete s (fun t => t.drainctl = drainEnded s.drainctl
      ∧ t.mem = s.drainTraffic.mem ∧ t.dies = s.drainTraffic.dies
      ∧ t.therm = (if s.therm.safeOwn then { s.therm with safeDrain := false, safeOwn := false, busy := false }
          else s.therm)
      ∧ t.groups = s.groups ∧ t.teams = s.teams) := by
  have hu := s.drainTraffic_homeward
  have hx : exec .drainComplete s = .next (
      let u := s.drainTraffic.setDrainctl (drainEnded s.drainctl)
      if u.therm.safeOwn then
        u.modTherm (fun t => { t with safeDrain := false, safeOwn := false, busy := false }) else u) := by
    show execDrainComplete s = _
    rw [execDrainComplete]
    dsimp only
    rw [if_pos h]
    rfl
  refine ⟨_, hx, ?_⟩
  generalize s.drainTraffic = u at hu ⊢
  have hctl := (u.setDrainctl_preg (drainEnded s.drainctl) 0x305).trans (if_pos rfl)
  rw [← hu.therm]
  dsimp only [State.setDrainctl]
  split
  · exact ⟨hctl, rfl, rfl, rfl, hu.groups, hu.teams⟩
  · exact ⟨hctl, rfl, rfl, rfl, hu.groups, hu.teams⟩

/-- A drain of the L2s that ends has left no die dirty bytes or pending lines. -/
theorem State.drainTraffic_empty {s : State} (hsel : s.drainSel.getLsbD 3 = true) {n : Nat} (hn : n < 8) :
    (s.drainTraffic.die n).dirty = [] ∧ ∀ l, (s.drainTraffic.pline n l).have_ = false := by
  rw [State.drainTraffic, if_pos hsel]
  exact ⟨s.drainL2_clean n hn, fun l => s.drainL2_sent n l hn⟩

theorem exec_drainComplete_idle {s : State} (h : s.drainctl.getLsbD 1 = false) :
    exec .drainComplete s = .next s.startSafeDrain := by
  show execDrainComplete s = _
  simp only [execDrainComplete, h, Bool.false_eq_true, if_false]

/-- The supervisor's own drain may start: it is due, and the teams that leave are gone. -/
def State.SafeDrainDue (s : State) : Prop :=
  s.therm.safeDrain = true ∧ ∀ e ∈ s.teams, ¬ (e.2.live = true ∧ e.2.leaving = true)

theorem State.safeDrainDue_iff (s : State) :
    s.SafeDrainDue ↔ (s.therm.safeDrain && !s.teams.any (fun e => e.2.live && e.2.leaving)) = true := by
  simp [State.SafeDrainDue]

theorem exec_drainComplete_not_due {s : State} (hb : s.drainctl.getLsbD 1 = false) (h : ¬ s.SafeDrainDue) :
    exec .drainComplete s = .next s := by
  rw [exec_drainComplete_idle hb, State.startSafeDrain, if_neg (fun hd => h (s.safeDrainDue_iff.2 hd))]

/-- The supervisor's own drain starts once the SYS drain of every die is done. -/
theorem runs_drainComplete_due {s : State} (hb : s.drainctl.getLsbD 1 = false) (h : s.SafeDrainDue) :
    Runs .drainComplete s (fun t => t.dies = s.drainDies.dies ∧ t.drainctl = drainStarted s.drainctl 0xD
      ∧ t.drainSel = 0xC ∧ t.therm = { s.therm with safeOwn := true } ∧ t.groups = s.groups ∧ t.teams = s.teams) := by
  refine ⟨_, exec_drainComplete_idle hb, ?_⟩
  have hu := s.drainDies_homeward
  rw [State.startSafeDrain, if_pos (s.safeDrainDue_iff.1 h)]
  generalize s.drainDies = u at hu ⊢
  rw [State.writeDrain_start _ _ (by decide) (hu.drainctl ▸ hb), hu.drainctl, ← hu.therm]
  exact ⟨rfl, (u.setDrainctl_preg _ 0x305).trans (if_pos rfl), rfl, rfl, hu.groups, hu.teams⟩

/-- Settles O52: each write by the equation of its register, each drain by the traffic it causes. -/
theorem registersAreWrittenFromOutside : Obligations.RegistersAreWrittenFromOutside := by
  intro s
  refine ⟨?registers, ?bar0, ?counters, ?off, fun hs => congrArg _ (State.writeTherm_tempmax hs), ?thresholds,
    ?start, ?complete⟩
  case registers =>
    exact fun i u x => ⟨fun hs hi hu => exec_registerWrite_ctx hs u x hi hu,
      fun hs hlo hhi hp => exec_registerWrite_core hs u x hlo hhi hp,
      fun hs hlo hhi hu => exec_registerWrite_die hs u x hlo hhi hu,
      fun hs hi => exec_registerWrite_package hs u x hi,
      fun k hk => exec_registerWrite_no_space s i u x hk⟩
  case bar0 =>
    intro u x bar serves
    refine ⟨fun hs k hk h => ?admin, fun k hk h => exec_registerWrite_admin_locked s u x hk h, fun hs => ?fixed,
      exec_registerWrite_expcnt_above s u x, fun k hk => ?nonce, ?status, fun hs q hq he => ?doorbell,
      fun hs q hq => ?errors, fun hs k hk => ⟨?enable, ?base⟩, fun hs k hk => ?route, fun hs k hk => ?thermal,
      fun hs off hout hlo => exec_registerWrite_bar0_off (not_not.1 hs) u x hout hlo⟩
    case admin => exact runs_registerWrite_setBar u ((State.writeBar_admin hs x hk).trans (by rw [h]; rfl))
    case fixed =>
      obtain ⟨h300, h304, h308, h30C⟩ := State.writeBar_fixed hs x
      exact ⟨runs_registerWrite_setBar u h300, runs_registerWrite_setBar u h304, runs_registerWrite_setBar u h308,
        fun hx => runs_registerWrite_setBar u (h30C.trans (if_pos hx))⟩
    case nonce => exact runs_registerWrite_setBar u (s.writeBar_nonce x hk)
    case status => exact runs_registerWrite_setBar u (s.writeBar_mailboxStatus x)
    case doorbell => rw [exec_registerWrite_bar0, State.writeBar_doorbell hs x hq he]
    case errors => rw [exec_registerWrite_bar0, State.writeBar_queueErrors hs x hq]
    case enable => exact runs_registerWrite_setBar u (State.writeBar_windowEnable hs x hk)
    case base => exact runs_registerWrite_setBar u (State.writeBar_windowBase hs x hk)
    case route => exact runs_registerWrite_setBar u (State.writeBar_peerRoute hs x hk)
    case thermal => rw [exec_registerWrite_bar0, State.writeBar_thermal hs x hk]
  case counters =>
    intro i k
    refine ⟨fun hi hs => ?_, fun hlo hhi hs => ?_, exec_evselClr_none k⟩
    · obtain ⟨hkeep, hclr⟩ := clr_not_kept ((s.coreAt k).evsel.getD i 0)
      obtain ⟨hctr, hsel, hother⟩ := s.writeEvsel_clr k i _ hclr
      exact ⟨_, exec_evselClr_core k hi hs, hctr, hsel.trans hkeep, hother, fun _ => rfl, rfl⟩
    · obtain ⟨hkeep, hclr⟩ := clr_not_kept ((s.die k).devsel.getD (i - 8) 0)
      obtain ⟨hctr, hsel, hother⟩ := s.writeDevsel_clr k (i - 8) _ hclr
      exact ⟨_, exec_evselClr_die k hlo hhi hs, hctr, hsel.trans hkeep, hother, fun _ => rfl, rfl⟩
  case off =>
    intro hs
    refine ⟨congrArg _ (State.writeTherm_off hs _ _), fun k x => ?_, exec_drainStart_off hs,
      fun k i u x hk => exec_registerWrite_off s k i u x hk hs⟩
    rw [exec_thresholdWrite, State.writeTherm_off hs, ite_self]
  case thresholds =>
    intro x up both
    refine ⟨fun hs => ?_, fun k hk => ?_⟩
    · obtain ⟨h1, h2, h3⟩ := State.writeTherm_thr hs x
      exact ⟨congrArg _ h1, congrArg _ h2, congrArg _ h3⟩
    · rw [exec_thresholdWrite, if_neg (by omega)]
  case start =>
    intro x old
    refine ⟨exec_drainStart_busy s x, fun h hs => ⟨_, exec_drainStart_starts hs x h, ?_⟩⟩
    obtain ⟨h1, h0, h2, h3, h8⟩ := drainStarted_start_bits s.drainctl x
    dsimp only
    rw [State.setDrainctl_preg, if_pos rfl]
    exact ⟨h1, h0, h2, h3, rfl, h8, fun i hi => (s.setDrainctl_preg _ i).trans (if_neg hi), fun _ => rfl, rfl⟩
  case complete =>
    intro d own clean empty ends
    refine ⟨fun h => ?ends, fun h hown => ?due, fun h hown => exec_drainComplete_not_due h hown⟩
    case ends =>
      obtain ⟨t, ht, hctl, hmem, hdies, hth, hg, htm⟩ := runs_drainComplete_ends h
      obtain ⟨hbusy, hdone⟩ := drainEnded_bits s.drainctl
      refine ⟨t, ht, (congrArg (·.getLsbD 1) hctl).trans hbusy, (congrArg (·.getLsbD 8) hctl).trans hdone,
        fun hsel n hn => ?_, fun hsel k => ?_, hth, hg, htm⟩
      · have hdie : t.die n = s.drainTraffic.die n := State.die_congr hdies n
        obtain ⟨hclean, hsent⟩ := State.drainTraffic_empty hsel hn
        exact ⟨(congrArg Die.dirty hdie).trans hclean, fun l => by rw [State.pline, hdie]; exact hsent l⟩
      · rw [State.memByte, hmem, State.drainTraffic, if_neg (by rw [hsel]; exact Bool.false_ne_true)]
        rfl
    case due =>
      obtain ⟨t, ht, hdies, hctl, hsel, hth, hg, htm⟩ := runs_drainComplete_due h hown
      obtain ⟨hbusy, -⟩ := drainStarted_bits s.drainctl 0xD
      refine ⟨t, ht, fun n hn => ?_, (congrArg (·.getLsbD 1) hctl).trans hbusy, hsel, hth, hg, htm⟩
      have hdie : t.die n = s.drainDies.die n := State.die_congr hdies n
      have hclean := s.drainDies_clean n hn
      have hsent := fun l => s.drainDies_sent n l hn
      simp only [State.pline, ← hdie] at hclean hsent
      exact ⟨hclean, hsent⟩

end Sys2Proof.Machine
end

section
/-!
PROOF. The pick of an issue port (01_machine R11; 04_control R65, R66), and the statement made of it.
-/

namespace Sys2Proof.Machine

/-! The order of ready groups. -/

/-- A ready group comes no later than another: it has waited longer, or as long and its slot is no higher. -/
def Ready.NoLater (x y : Ready) : Prop := y.wait < x.wait ∨ (y.wait = x.wait ∧ x.gslot ≤ y.gslot)

theorem Ready.NoLater.refl (x : Ready) : x.NoLater x := .inr ⟨rfl, le_rfl⟩

theorem Ready.NoLater.trans {x y z : Ready} (h : x.NoLater y) (k : y.NoLater z) : x.NoLater z := by
  unfold Ready.NoLater at *
  omega

theorem Ready.older_spec (x y : Ready) :
    (x.older y = x ∧ x.NoLater y) ∨ (x.older y = y ∧ y.NoLater x) := by
  unfold Ready.older Ready.NoLater
  split
  · next h => simp only [Bool.or_eq_true, Bool.and_eq_true, decide_eq_true_eq] at h; exact .inl ⟨rfl, by omega⟩
  · next h => simp only [Bool.or_eq_true, Bool.and_eq_true, decide_eq_true_eq] at h; exact .inr ⟨rfl, by omega⟩

/-- The oldest of a list stands in it, and comes no later than any of it. -/
theorem Ready.foldl_older (l : List Ready) (r : Ready) :
    l.foldl Ready.older r ∈ r :: l ∧ ∀ x ∈ r :: l, (l.foldl Ready.older r).NoLater x := by
  induction l generalizing r with
  | nil => simpa using Ready.NoLater.refl r
  | cons y t ih =>
    obtain ⟨hmem, hle⟩ := ih (r.older y)
    rw [List.foldl_cons]
    generalize t.foldl Ready.older (r.older y) = m at hmem hle ⊢
    have hm := hle _ List.mem_cons_self
    have ht := fun x hx => hle x (List.mem_cons_of_mem _ hx)
    rcases r.older_spec y with ⟨ho, hn⟩ | ⟨ho, hn⟩ <;> rw [ho] at hmem hm
    · refine ⟨?_, ?_⟩
      · rcases List.mem_cons.1 hmem with h | h <;> simp [h]
      · simpa using ⟨hm, hm.trans hn, ht⟩
    · refine ⟨List.mem_cons_of_mem _ hmem, ?_⟩
      simpa using ⟨hm.trans hn, hm, ht⟩

/-! The choice of a port (04_control R66). -/

/-- The port may go on with the group of its previous pick, and that group is ready. -/
def Port.Goes (p : Port) (rs : List Ready) : Prop :=
  p.run < 16 ∧ p.yld = false ∧ (∀ x ∈ rs, x.wait < 192) ∧ ∃ x ∈ rs, p.last = some x.gk

theorem Port.continues_some {p : Port} {rs : List Ready} {r : Ready} (h : p.continues rs = some r) :
    r ∈ rs ∧ p.Goes rs ∧ p.last = some r.gk := by
  unfold Port.continues at h
  split at h
  · next hc =>
    simp only [Bool.and_eq_true, decide_eq_true_eq, Bool.not_eq_true', List.all_eq_true] at hc
    obtain ⟨⟨hrun, hyld⟩, hwait⟩ := hc
    have hmem := List.mem_of_find?_eq_some h
    have hlast : p.last = some r.gk := by simpa using List.find?_some h
    exact ⟨hmem, ⟨hrun, hyld, hwait, r, hmem, hlast⟩, hlast⟩
  · exact absurd h (by simp)

theorem Port.continues_none {p : Port} {rs : List Ready} (h : p.continues rs = none) : ¬ p.Goes rs := by
  rintro ⟨hrun, hyld, hwait, x, hx, hlast⟩
  unfold Port.continues at h
  rw [if_pos (by simpa [hrun, hyld] using hwait)] at h
  exact absurd (List.find?_eq_none.1 h x hx) (by simp [hlast])

theorem Port.choose_spec {p : Port} {rs : List Ready} (h : rs ≠ []) :
    ∃ r ∈ rs, p.choose rs = some r ∧ (p.Goes rs → p.last = some r.gk)
      ∧ (¬ p.Goes rs → ∀ x ∈ rs, r.NoLater x) := by
  cases rs with
  | nil => exact absurd rfl h
  | cons y t =>
    rw [Port.choose]
    cases hc : p.continues (y :: t) with
    | some r =>
      obtain ⟨hmem, hgoes, hlast⟩ := Port.continues_some hc
      exact ⟨r, hmem, rfl, fun _ => hlast, fun hn => absurd hgoes hn⟩
    | none =>
      obtain ⟨hmem, hle⟩ := Ready.foldl_older t y
      exact ⟨_, hmem, rfl, fun hg => absurd hg (Port.continues_none hc), fun _ => hle⟩

theorem State.chooseSlot_eq (s : State) (r : Ready) :
    s.chooseSlot r = if r.a = true ∧ r.b = true then !(s.group r.gk).lastB else r.b := by
  simp [State.chooseSlot]

/-! The wait counts. -/

theorem State.modGroup_group (s : State) (k j : Nat) (f : Group → Group) :
    (s.modGroup k f).group j = if j = k then f (s.group k) else s.group j := State.setGroup_group _ _ _ _

theorem State.countWaits_groups (s : State) (c : Nat) (rs : List Ready) :
    s.countWaits c rs = { s with groups := (s.countWaits c rs).groups } := by
  unfold State.countWaits
  induction rs generalizing s with
  | nil => rfl
  | cons r t ih => rw [List.foldl_cons, ih]; rfl

@[simp] theorem State.countWaits_coreAt (s : State) (c : Nat) (rs : List Ready) (k : Nat) :
    (s.countWaits c rs).coreAt k = s.coreAt k := by rw [State.countWaits_groups]; rfl

theorem State.countWaits_other (s : State) (c : Nat) (rs : List Ready) {k : Nat} (h : k ∉ rs.map (·.gk)) :
    (s.countWaits c rs).group k = s.group k := by
  unfold State.countWaits
  induction rs generalizing s with
  | nil => rfl
  | cons r t ih =>
    rw [List.map_cons, List.mem_cons, not_or] at h
    rw [List.foldl_cons, ih _ h.2, State.modGroup_group, if_neg h.1]

/-- A pick counts on the wait count of each ready group, once for each, and sets back the chosen one's. -/
theorem State.countWaits_ready (s : State) (c : Nat) {rs : List Ready} (hd : (rs.map (·.gk)).Nodup) {x : Ready}
    (hx : x ∈ rs) : (s.countWaits c rs).group x.gk
      = { s.group x.gk with waitCnt := if x.gk = c then 0 else (s.group x.gk).waitCnt + 1 } := by
  induction rs generalizing s with
  | nil => exact absurd hx (by simp)
  | cons r t ih =>
    obtain ⟨hr, hd⟩ := List.nodup_cons.1 hd
    have hstep : s.countWaits c (r :: t) = (s.modGroup r.gk (fun g =>
      { g with waitCnt := if r.gk = c then 0 else g.waitCnt + 1 })).countWaits c t := rfl
    rw [hstep]
    rcases List.mem_cons.1 hx with rfl | hx
    · rw [State.countWaits_other _ _ _ hr, State.modGroup_group, if_pos rfl]
    · have hne : x.gk ≠ r.gk := fun h => hr (List.mem_map.2 ⟨x, hx, h⟩)
      rw [ih _ hd hx, State.modGroup_group, if_neg hne]

/-! The arbitration (01_machine R11). -/

theorem State.loses_iff (s : State) (die core port k : Nat) :
    let after := fun p => (p + 4 - (s.coreAt (coreKey die core)).won.getD k 0 % 4) % 4
    s.loses die core port k = true ↔ ∃ p, p < 4 ∧ p ≠ port ∧ after p < after port
      ∧ ∃ r b, s.portChoice die core p = some (r, b) ∧ (s.pickTraits r.gk b).1 = some k := by
  have hchoice : ∀ p, (match s.portChoice die core p with
      | none => false
      | some (r, b) => decide ((s.pickTraits r.gk b).1 = some k)) = true
      ↔ ∃ r b, s.portChoice die core p = some (r, b) ∧ (s.pickTraits r.gk b).1 = some k := by
    intro p
    cases s.portChoice die core p with
    | none => simp
    | some x =>
      refine ⟨fun h => ⟨x.1, x.2, rfl, of_decide_eq_true h⟩, ?_⟩
      rintro ⟨r, b, hx, h⟩
      cases hx
      exact decide_eq_true h
  unfold State.loses
  simp only [List.any_eq_true, List.mem_range, Bool.and_eq_true, decide_eq_true_eq, and_assoc]
  exact exists_congr fun p => and_congr_right fun _ => and_congr_right fun _ => and_congr_right fun _ => hchoice p

/-- The pick is lost: the ports choose in the same cycle, and another one that precedes this port needs the
same resource. -/
def State.PickLost (s : State) (die core port : Nat) (lose : Bool) (r : Ready) (b : Bool) : Prop :=
  lose = true ∧ ∃ k, (s.pickTraits r.gk b).1 = some k ∧ s.loses die core port k = true

/-! What a pick leaves. -/

/-- The port's memory of a pick of a group. -/
def Port.picked (p : Port) (gk : Nat) (yld : Bool) : Port :=
  { last := some gk, run := if p.last = some gk then p.run + 1 else 1, yld }

/-- The state once the wait counts and the port's memory have been written. -/
def State.portPicked (s : State) (die core port gk : Nat) (yld : Bool) : State :=
  let ck := coreKey die core
  (s.countWaits gk (s.readyOn die core port)).modCore ck (fun c =>
    { c with ports := c.ports.set port (((s.coreAt ck).ports.getD port {}).picked gk yld) {} })

/-- A port has won the shared resource, if one was needed. -/
def State.wins (s : State) (ck port : Nat) : Option Nat → State
  | none => s
  | some k => s.modCore ck (fun c => { c with won := c.won.set k (port + 1) 0 })

theorem exec_pick_none {s : State} {die core port : Nat} (lose : Bool) (h : s.portChoice die core port = none) :
    exec (.pick die core port lose) s = .next s := by
  show execPick die core port lose s = _
  rw [execPick, h]

section
variable {s : State} {die core port : Nat} {lose : Bool} {r : Ready} {b : Bool}

theorem exec_pick_lost (h : s.portChoice die core port = some (r, b)) (hl : s.PickLost die core port lose r b) :
    exec (.pick die core port lose) s = .next ((s.portPicked die core port r.gk (s.pickTraits r.gk b).2).countGroup r.gk 2) := by
  show execPick die core port lose s = _
  obtain ⟨rfl, k, hk, hlose⟩ := hl
  rw [execPick, h]
  dsimp only
  rw [hk]
  dsimp only
  rw [if_pos (by rw [hlose]; rfl), hlose]
  rfl

theorem exec_pick_won (h : s.portChoice die core port = some (r, b)) (hl : ¬ s.PickLost die core port lose r b) :
    exec (.pick die core port lose) s = .next { (s.portPicked die core port r.gk false).wins (coreKey die core) port
      (s.pickTraits r.gk b).1 with cur := r.gk, curB := b, picked := true } := by
  show execPick die core port lose s = _
  rw [execPick, h]
  dsimp only
  cases hk : (s.pickTraits r.gk b).1 with
  | none =>
    dsimp only
    rw [if_neg (by rw [Bool.and_false]; exact Bool.false_ne_true), Bool.and_false]
    rfl
  | some k =>
    have hlost : (lose && s.loses die core port k) = false :=
      Bool.eq_false_iff.2 fun hb => hl ⟨(Bool.and_eq_true_iff.1 hb).1, k, hk, (Bool.and_eq_true_iff.1 hb).2⟩
    dsimp only
    rw [if_neg (by rw [hlost]; exact Bool.false_ne_true), hlost]
    rfl

end

/-- A pick has counted the waits and written the memory of the port: what holds of it won or lost. -/
structure PortPicked (s : State) (die core port gk : Nat) (t : State) : Prop where
  groups : t.groups = (s.countWaits gk (s.readyOn die core port)).groups
  last : ((t.coreAt (coreKey die core)).ports.getD port {}).last = some gk
  run : ((t.coreAt (coreKey die core)).ports.getD port {}).run
    = (((s.coreAt (coreKey die core)).ports.getD port {}).picked gk false).run
  mem : t.mem = s.mem
  teams : t.teams = s.teams

theorem State.portPicked_won (s : State) (die core port gk : Nat) (yld : Bool) (k : Nat) :
    ((s.portPicked die core port gk yld).coreAt k).won = (s.coreAt k).won := by
  rw [State.portPicked, State.modCore_coreAt]
  split
  · next h => simp [h]
  · simp

theorem State.portPicked_spec (s : State) (die core port gk : Nat) (yld : Bool) :
    PortPicked s die core port gk (s.portPicked die core port gk yld) := by
  constructor
  · rfl
  · rw [State.portPicked, State.modCore_coreAt, if_pos rfl]; simp [Port.picked]
  · rw [State.portPicked, State.modCore_coreAt, if_pos rfl]; simp [Port.picked]
  · rw [State.portPicked, State.countWaits_groups]; rfl
  · rw [State.portPicked, State.countWaits_groups]; rfl

/-- An update of a core that keeps its ports' memories keeps what a pick has written. -/
theorem PortPicked.modCore {s t : State} {die core port gk : Nat} (h : PortPicked s die core port gk t) (k : Nat)
    (f : Core → Core) (hf : (f (t.coreAt k)).ports = (t.coreAt k).ports) :
    PortPicked s die core port gk (t.modCore k f) := by
  have hports : ∀ n, ((t.modCore k f).coreAt n).ports = (t.coreAt n).ports := by
    intro n
    rw [State.modCore_coreAt]
    split
    · next hn => rw [hf, hn]
    · rfl
  exact ⟨h.groups, by rw [hports, h.last], by rw [hports, h.run], h.mem, h.teams⟩

theorem PortPicked.wins {s t : State} {die core port gk : Nat} (h : PortPicked s die core port gk t) (k n : Nat)
    (res : Option Nat) : PortPicked s die core port gk (t.wins k n res) := by
  cases res with
  | none => exact h
  | some j => exact h.modCore k (fun c => { c with won := c.won.set j (n + 1) 0 }) rfl

theorem PortPicked.countGroup {s t : State} {die core port gk : Nat} (h : PortPicked s die core port gk t)
    (k code : Nat) : PortPicked s die core port gk (t.countGroup k code) := by
  unfold State.countGroup State.countCore
  exact h.modCore _ (fun c => { c with ctrs := countIn c.evsel c.ctrs 8 code (some (t.group k).ctx) 1 }) rfl

theorem State.wins_won (s : State) (ck port : Nat) (res : Option Nat) (k : Nat) :
    ((s.wins ck port res).coreAt ck).won.getD k 0 = if res = some k then port + 1 else (s.coreAt ck).won.getD k 0 := by
  cases res with
  | none => simp [State.wins]
  | some j =>
    rw [State.wins, State.modCore_coreAt, if_pos rfl, SMap.getD_set]
    simp [eq_comm]

theorem State.countGroup_won (s : State) (gk code k : Nat) : ((s.countGroup gk code).coreAt k).won = (s.coreAt k).won := by
  rw [State.countGroup, State.countCore, State.modCore_coreAt]
  split
  · next h => rw [h]
  · rfl

/-- The groups after a pick: the wait counts of the ready ones, and nothing else. -/
theorem PortPicked.group {s t : State} {die core port gk : Nat} (h : PortPicked s die core port gk t) (k : Nat) :
    t.group k = (s.countWaits gk (s.readyOn die core port)).group k := by rw [State.group, h.groups]; rfl

theorem PortPicked.group_frame {s t : State} {die core port gk : Nat} (h : PortPicked s die core port gk t)
    (hd : ((s.readyOn die core port).map (·.gk)).Nodup) (k : Nat) :
    t.group k = { s.group k with waitCnt := (t.group k).waitCnt } := by
  rw [h.group]
  by_cases hk : k ∈ (s.readyOn die core port).map (·.gk)
  · obtain ⟨x, hx, rfl⟩ := List.mem_map.1 hk
    rw [s.countWaits_ready gk hd hx]
  · rw [s.countWaits_other gk _ hk]

/-- A pick of a chosen pair, won or lost. -/
theorem runs_pick {s : State} {die core port : Nat} (lose : Bool) {r : Ready} {b : Bool}
    (h : s.portChoice die core port = some (r, b)) :
    Runs (.pick die core port lose) s (fun t => PortPicked s die core port r.gk t
      ∧ (¬ s.PickLost die core port lose r b → t.cur = r.gk ∧ t.curB = b ∧ t.picked = true)
      ∧ (s.PickLost die core port lose r b → t.cur = s.cur ∧ t.curB = s.curB ∧ t.picked = s.picked)
      ∧ ∀ k, let wins := ¬ s.PickLost die core port lose r b ∧ (s.pickTraits r.gk b).1 = some k
        let won := (t.coreAt (coreKey die core)).won.getD k 0
        (wins → port + 1 = won) ∧ (¬ wins → (s.coreAt (coreKey die core)).won.getD k 0 = won)) := by
  by_cases hl : s.PickLost die core port lose r b
  · refine ⟨_, exec_pick_lost h hl, (s.portPicked_spec die core port r.gk _).countGroup r.gk 2,
      fun hn => absurd hl hn, fun _ => ?_, fun k => ?_⟩
    · rw [State.portPicked, State.countWaits_groups]
      exact ⟨rfl, rfl, rfl⟩
    · exact ⟨fun hw => absurd hl hw.1, fun _ => by rw [State.countGroup_won, State.portPicked_won]⟩
  · refine ⟨_, exec_pick_won h hl, ?_, fun _ => ⟨rfl, rfl, rfl⟩, fun hn => absurd hn hl, fun k => ?_⟩
    · have hw := (s.portPicked_spec die core port r.gk false).wins (coreKey die core) port (s.pickTraits r.gk b).1
      exact ⟨hw.groups, hw.last, hw.run, hw.mem, hw.teams⟩
    · have hw := (s.portPicked die core port r.gk false).wins_won (coreKey die core) port (s.pickTraits r.gk b).1 k
      rw [State.portPicked_won] at hw
      exact ⟨fun hk => (hw.trans (if_pos hk.2)).symm, fun hk => (hw.trans (if_neg fun h => hk ⟨hl, h⟩)).symm⟩

/-- Settles O44: the choice of the port, the wait counts of the ready groups, and the arbitration. -/
theorem portsPickReadyGroups : Obligations.PortsPickReadyGroups := by
  intro s die core port lose ck p rs
  refine ⟨fun hrs => exec_pick_none lose ?_, fun hd hrs => ?_, fun k => s.loses_iff die core port k⟩
  · rw [State.portChoice, show s.readyOn die core port = [] from hrs]
    rfl
  · obtain ⟨r, hr, hc, hgo, hold⟩ := Port.choose_spec (p := p) hrs
    have hpc : s.portChoice die core port = some (r, if r.a = true ∧ r.b = true then !(s.group r.gk).lastB else r.b) := by
      rw [State.portChoice, show Port.choose _ _ = _ from hc, ← s.chooseSlot_eq]
      rfl
    obtain ⟨t, ht, hp, hwin, hlose, hwon⟩ := runs_pick lose hpc
    refine ⟨r, hr, hgo, hold, t, ht, hwin, hlose, fun k => ?_, fun x hx => ?_, fun k hk => ?_, hp.group_frame hd, hp.last,
      hp.run, fun k => ?_, hp.teams⟩
    · refine .symm (ite_eq_iff'.2 ?_)
      exact hwon k
    · rw [hp.group, s.countWaits_ready r.gk hd hx]
    · rw [hp.group, s.countWaits_other r.gk rs hk]
    · rw [State.memByte, hp.mem]; rfl

end Sys2Proof.Machine
end

section
/-!
PROOF. A cluster in yoke mode placed where a team has unbound its yoke (14_matrix R319; 15_system R336), and the
statement of teams that it refutes.
-/

namespace Sys2Proof.Machine

/-- A launch in yoke mode on die 0: two clusters, each of two teams side by side, and one group to a team. -/
def yokeLaunch : Launch :=
  { stage := .dispatched, rec_ := [0x01000000, 0, 4, 0x00010001, 0x2240], dies := [0] }

/-- A running package with that launch, for whose groups its context has four windows. -/
def yokeLaunched : State :=
  ({ State.reset with launches := [(1, yokeLaunch)], nextId := 2, therm := { State.reset.therm with state := 7 } }
    : State).setCr 0 0x10 0x40000

/-- The launch's first cluster has been placed on cores 0 and 1, and its leader team has unbound the yoke, as MYOKE
UNBIND does. -/
def unboundYoke : State := (yokeLaunched.placeCluster 1 0 0 0).setYoke 0 0 false

/-- The leader team, number 3, is in yoke mode with its yoke unbound, and the distributor's next choice for die 0
is to place the launch's second cluster on the same cores. -/
theorem unboundYoke_next :
    (3 < unboundYoke.nextId ∧ (unboundYoke.team 3).yokeMode = true ∧ (unboundYoke.team 3).yokeBound = false)
    ∧ unboundYoke.therm.runs = true ∧ (∀ p, p < 8 → p ≠ 0 → unboundYoke.candidate 0 p = none)
    ∧ unboundYoke.candidate 0 0 = some 1 ∧ (unboundYoke.launch 1).nextOn 0 = some 1
    ∧ unboundYoke.findRect (unboundYoke.launch 1) 0 1 = some 0 := by decide +kernel

/-- That placement binds the yoke for the team that was there before, too. -/
theorem unboundYoke_bound_by_placement : ((unboundYoke.placeCluster 1 0 1 0).team 3).yokeBound = true := by
  decide +kernel

/-- Refutes O49: its second clause has a placement leave every team that was there before as it was, but a yoke is
bound for its core (14_matrix R319), so placing a team in yoke mode binds it again for a team of the same core that
had unbound it. -/
theorem not_teamsComeAndGo : ¬ Obligations.TeamsComeAndGo := by
  rintro ⟨-, hplace, -⟩
  obtain ⟨-, -, -, -, -, -, hold, -⟩ := hplace unboundYoke 1 0 1 0
  obtain ⟨⟨hlt, -, hunbound⟩, -⟩ := unboundYoke_next
  have hsame := congrArg Team.yokeBound (hold 3 hlt).1
  rw [unboundYoke_bound_by_placement, hunbound] at hsame
  exact absurd hsame (by decide)

end Sys2Proof.Machine
end

section
/-!
PROOF. The encoder and the decoder are each other's inverse (02_encoding R31 to R39), and the statements made of them.
-/

namespace Sys2Proof

/-! The bits of an encoded word (R31 to R35). -/

theorem W0.getLsbD_enc (op : BitVec 8) (two : Bool) (w : W0) (i : Nat) :
    (w.enc op two).getLsbD i =
      if i < 1 then w.h else if i < 9 then w.a.getLsbD (i - 1) else if i < 17 then w.d.getLsbD (i - 9)
      else if i < 18 then w.f else if i < 19 then w.n else if i < 23 then w.g.getLsbD (i - 19)
      else if i < 24 then two else op.getLsbD (i - 24) := by
  show @BitVec.getLsbD (8 + 1 + 4 + 1 + 1 + 8 + 8 + 1) _ i = _
  unfold W0.enc
  simp only [BitVec.getLsbD_append]
  grind

theorem Br.getLsbD_enc (op : BitVec 8) (two : Bool) (b : Br) (i : Nat) :
    (b.enc op two).getLsbD i =
      if i < 1 then false else if i < 17 then b.off.getLsbD (i - 1) else if i < 18 then false
      else if i < 19 then b.n else if i < 23 then b.g.getLsbD (i - 19)
      else if i < 24 then two else op.getLsbD (i - 24) := by
  show @BitVec.getLsbD (8 + 1 + 4 + 1 + 1 + 16 + 1) _ i = _
  unfold Br.enc
  simp only [BitVec.getLsbD_append]
  grind

theorem Alu.getLsbD_enc (r : Alu) (i : Nat) :
    r.enc.getLsbD i =
      if i < 4 then r.opx.getLsbD i else if i < 5 then r.nc else if i < 6 then r.ab else if i < 7 then r.nb
      else if i < 8 then r.aa else if i < 9 then r.na else if i < 11 then r.rnd.getLsbD (i - 9)
      else if i < 16 then r.ty.getLsbD (i - 11) else if i < 24 then r.c.getLsbD (i - 16)
      else r.b.getLsbD (i - 24) := by
  show @BitVec.getLsbD (8 + 8 + 5 + 2 + 1 + 1 + 1 + 1 + 1 + 4) _ i = _
  unfold Alu.enc
  simp only [BitVec.getLsbD_append]
  rcases Nat.lt_or_ge i 7 with h | h
  · grind
  · obtain ⟨j, rfl⟩ := Nat.exists_eq_add_of_le h
    grind

theorem MemF.getLsbD_enc (m : MemF) (i : Nat) :
    m.enc.getLsbD i =
      if i < 2 then m.opx.getLsbD i else if i < 3 then m.nob else if i < 4 then m.e
      else if i < 6 then m.hnt.getLsbD (i - 4) else if i < 8 then m.ord.getLsbD (i - 6)
      else if i < 11 then m.sco.getLsbD (i - 8) else if i < 16 then m.ty.getLsbD (i - 11)
      else if i < 24 then m.c.getLsbD (i - 16) else m.b.getLsbD (i - 24) := by
  show @BitVec.getLsbD (8 + 8 + 5 + 3 + 2 + 2 + 1 + 1 + 2) _ i = _
  unfold MemF.enc
  simp only [BitVec.getLsbD_append]
  grind

theorem RRaw.getLsbD_enc (r : RRaw) (i : Nat) :
    r.enc.getLsbD i =
      if i < 16 then r.m16.getLsbD i else if i < 24 then r.c.getLsbD (i - 16) else r.b.getLsbD (i - 24) := by
  show @BitVec.getLsbD (8 + 8 + 16) _ i = _
  unfold RRaw.enc
  simp only [BitVec.getLsbD_append]
  grind

/-! The fields of a word put together from them. -/

@[simp] theorem W0.opcode_enc (op : BitVec 8) (two : Bool) (w : W0) : opcode (w.enc op two) = op.toNat := by
  refine congrArg BitVec.toNat (BitVec.eq_of_getLsbD_eq fun i hi => ?_)
  rw [BitVec.getLsbD_extractLsb', W0.getLsbD_enc]
  grind

@[simp] theorem Br.opcode_enc (op : BitVec 8) (two : Bool) (b : Br) : opcode (b.enc op two) = op.toNat := by
  refine congrArg BitVec.toNat (BitVec.eq_of_getLsbD_eq fun i hi => ?_)
  rw [BitVec.getLsbD_extractLsb', Br.getLsbD_enc]
  grind

@[simp] theorem W0.wBit_enc (op : BitVec 8) (two : Bool) (w : W0) : wBit (w.enc op two) = two :=
  W0.getLsbD_enc op two w 23

@[simp] theorem Br.wBit_enc (op : BitVec 8) (two : Bool) (b : Br) : wBit (b.enc op two) = two :=
  Br.getLsbD_enc op two b 23

@[simp] theorem W0.ofWord_enc (op : BitVec 8) (two : Bool) (w : W0) : W0.ofWord (w.enc op two) = w := by
  obtain ⟨g, n, f, d, a, h⟩ := w
  simp only [W0.ofWord, W0.mk.injEq, W0.getLsbD_enc]
  refine ⟨?_, rfl, rfl, ?_, ?_, rfl⟩
  all_goals
    refine BitVec.eq_of_getLsbD_eq fun i hi => ?_
    rw [BitVec.getLsbD_extractLsb', W0.getLsbD_enc]
    grind

@[simp] theorem Br.ofWord_enc (op : BitVec 8) (two : Bool) (b : Br) : Br.ofWord (b.enc op two) = b := by
  obtain ⟨g, n, off⟩ := b
  simp only [Br.ofWord, Br.mk.injEq, Br.getLsbD_enc]
  refine ⟨?_, rfl, ?_⟩
  all_goals
    refine BitVec.eq_of_getLsbD_eq fun i hi => ?_
    rw [BitVec.getLsbD_extractLsb', Br.getLsbD_enc]
    grind

@[simp] theorem Alu.ofWord_enc (r : Alu) : Alu.ofWord r.enc = r := by
  obtain ⟨b, c, ty, rnd, na, aa, nb, ab, nc, opx⟩ := r
  simp only [Alu.ofWord, Alu.mk.injEq, Alu.getLsbD_enc]
  refine ⟨?_, ?_, ?_, ?_, rfl, rfl, rfl, rfl, rfl, ?_⟩
  all_goals
    refine BitVec.eq_of_getLsbD_eq fun i hi => ?_
    rw [BitVec.getLsbD_extractLsb', Alu.getLsbD_enc]
    grind

@[simp] theorem MemF.ofWord_enc (m : MemF) : MemF.ofWord m.enc = m := by
  obtain ⟨b, c, ty, sco, ord, hnt, e, nob, opx⟩ := m
  simp only [MemF.ofWord, MemF.mk.injEq, MemF.getLsbD_enc]
  refine ⟨?_, ?_, ?_, ?_, ?_, ?_, rfl, rfl, ?_⟩
  all_goals
    refine BitVec.eq_of_getLsbD_eq fun i hi => ?_
    rw [BitVec.getLsbD_extractLsb', MemF.getLsbD_enc]
    grind

@[simp] theorem RRaw.ofWord_enc (r : RRaw) : RRaw.ofWord r.enc = r := by
  obtain ⟨b, c, m16⟩ := r
  simp only [RRaw.ofWord, RRaw.mk.injEq]
  refine ⟨?_, ?_, ?_⟩
  all_goals
    refine BitVec.eq_of_getLsbD_eq fun i hi => ?_
    rw [BitVec.getLsbD_extractLsb', RRaw.getLsbD_enc]
    grind

/-! A word put together from its fields. -/

theorem opcode_eq_iff (w : Word) (op : BitVec 8) : opcode w = op.toNat ↔ w.extractLsb' 24 8 = op :=
  BitVec.toNat_inj

theorem W0.enc_ofWord {w : Word} {op : BitVec 8} {two : Bool} (ho : opcode w = op.toNat) (hw : wBit w = two) :
    (W0.ofWord w).enc op two = w := by
  rw [← (opcode_eq_iff w op).1 ho, ← hw]
  refine BitVec.eq_of_getLsbD_eq fun i hi => ?_
  simp only [W0.getLsbD_enc, W0.ofWord, wBit, BitVec.getLsbD_extractLsb']
  grind

theorem Br.enc_ofWord {w : Word} {op : BitVec 8} {two : Bool} (ho : opcode w = op.toNat) (hw : wBit w = two)
    (h17 : w.getLsbD 17 = false) (h0 : w.getLsbD 0 = false) : (Br.ofWord w).enc op two = w := by
  rw [← (opcode_eq_iff w op).1 ho, ← hw]
  refine BitVec.eq_of_getLsbD_eq fun i hi => ?_
  simp only [Br.getLsbD_enc, Br.ofWord, wBit, BitVec.getLsbD_extractLsb']
  grind

@[simp] theorem Alu.enc_ofWord (w : Word) : (Alu.ofWord w).enc = w := by
  refine BitVec.eq_of_getLsbD_eq fun i hi => ?_
  simp only [Alu.getLsbD_enc, Alu.ofWord, BitVec.getLsbD_extractLsb']
  grind

@[simp] theorem MemF.enc_ofWord (w : Word) : (MemF.ofWord w).enc = w := by
  refine BitVec.eq_of_getLsbD_eq fun i hi => ?_
  simp only [MemF.getLsbD_enc, MemF.ofWord, BitVec.getLsbD_extractLsb']
  grind

@[simp] theorem RRaw.enc_ofWord (w : Word) : (RRaw.ofWord w).enc = w := by
  refine BitVec.eq_of_getLsbD_eq fun i hi => ?_
  simp only [RRaw.getLsbD_enc, RRaw.ofWord, BitVec.getLsbD_extractLsb']
  grind

/-! What well-formed fields admit. -/

/-- A bit of M16 that the entry does not use is zero. -/
theorem RRaw.getLsbD_of_ok {r : RRaw} {kb kc : Field} {mask : Half} (h : r.ok kb kc mask = true) {i : Nat}
    (hi : i < 16) (hm : mask.getLsbD i = false) : r.m16.getLsbD i = false := by
  simp only [RRaw.ok, Bool.and_eq_true, decide_eq_true_eq] at h
  obtain ⟨-, hmask⟩ := h
  have hbit := congrArg (BitVec.getLsbD · i) hmask
  simp only [BitVec.getLsbD_and, BitVec.getLsbD_not, hm, hi, decide_true, Bool.not_false, Bool.and_true] at hbit
  exact hbit.trans BitVec.getLsbD_zero

theorem RRaw.enc_getLsbD_zero (r : RRaw) : r.enc.getLsbD 0 = r.m16.getLsbD 0 := RRaw.getLsbD_enc r 0

theorem W0.ok_d {w : W0} {k : GuardKind} {d a : Field} {h : Bool} (hw : w.ok k d a h = true) : d.ok w.d = true := by
  simp only [W0.ok, Bool.and_eq_true] at hw
  obtain ⟨⟨⟨-, hd⟩, -⟩, -⟩ := hw
  exact hd

theorem W0.ok_a {w : W0} {k : GuardKind} {d a : Field} {h : Bool} (hw : w.ok k d a h = true) : a.ok w.a = true := by
  simp only [W0.ok, Bool.and_eq_true] at hw
  obtain ⟨⟨-, ha⟩, -⟩ := hw
  exact ha

/-! Opcodes that several instructions share. -/

theorem opMap_commit (w0 w1 : Word) : opMap 0xA9 w0 w1
    = if w1.getLsbD 0 then some (.commitChk (.ofWord w0) (.ofWord w1)) else some (.commit (.ofWord w0) (.ofWord w1)) :=
  rfl

theorem opMap_myoke (w0 w1 : Word) : opMap 0xDE w0 w1
    = if (W0.ofWord w0).a = 0 then some (.myokeReport (.ofWord w0))
      else if (W0.ofWord w0).a = 1 then some (.myokeUnbind (.ofWord w0)) else some (.myokeBind (.ofWord w0)) := rfl

theorem opMap_ipush (w0 w1 : Word) : opMap 0xF3 w0 w1
    = if (W0.ofWord w0).d = 0 then some (.ipush (.ofWord w0)) else some (.ipushClose (.ofWord w0)) := rfl

/-- Word 0 passes the decoder's checks of its W bit and of the branch format (R31, R33). -/
structure Word0Ok (w0 : Word) : Prop where
  wBit : wBit w0 = decide (opWords (opcode w0) = 2)
  branch : (isBranchOp (opcode w0) && (w0.getLsbD 17 || w0.getLsbD 0)) = false

theorem word0Ok_iff (w0 : Word) : Word0Ok w0 ↔ Sys2Proof.wBit w0 = decide (opWords (opcode w0) = 2)
    ∧ (isBranchOp (opcode w0) && (w0.getLsbD 17 || w0.getLsbD 0)) = false :=
  ⟨fun h => ⟨h.wBit, h.branch⟩, fun h => ⟨h.1, h.2⟩⟩

/-! From an instruction to its words and back. -/

/-- The opcode map gives an instruction back from the words of its encoding; `w1` follows a one-word instruction. -/
theorem opMap_encode {i : Instr} (h : i.wf = true) (he : Machine.isEvent i = false) (w1 : Word) :
    opMap (opcode (encode i).headI) (encode i).headI ((encode i).tail.headD w1) = some i := by
  cases i
  all_goals simp only [Machine.isEvent, encode, List.isEmpty_nil, Bool.true_eq_false] at he
  all_goals simp only [encode, List.headI, List.tail, List.headD, W0.opcode_enc, Br.opcode_enc]
  case commit w r =>
    simp only [Instr.wf, Bool.and_eq_true] at h
    obtain ⟨⟨⟨-, hr⟩, -⟩, -⟩ := h
    have hbit : r.m16.getLsbD 0 = false := RRaw.getLsbD_of_ok hr (by decide) rfl
    exact (opMap_commit _ _).trans (by rw [RRaw.enc_getLsbD_zero, hbit]; simp)
  case commitChk w r =>
    simp only [Instr.wf, Bool.and_eq_true] at h
    obtain ⟨⟨-, hbit⟩, -⟩ := h
    exact (opMap_commit _ _).trans (by rw [RRaw.enc_getLsbD_zero, hbit]; simp)
  case myokeReport w =>
    have ha : w.a = 0 := of_decide_eq_true (W0.ok_a h)
    exact (opMap_myoke _ w1).trans (by simp [ha])
  case myokeUnbind w =>
    have ha : w.a = 1 := of_decide_eq_true (Bool.and_eq_true_iff.1 h).2
    exact (opMap_myoke _ w1).trans (by simp [ha])
  case myokeBind w =>
    have ha : w.a = 2 := of_decide_eq_true (Bool.and_eq_true_iff.1 h).2
    exact (opMap_myoke _ w1).trans (by simp [ha])
  case ipush w =>
    have hd : w.d = 0 := of_decide_eq_true (W0.ok_d h)
    exact (opMap_ipush _ w1).trans (by simp [hd])
  case ipushClose w =>
    have hd : w.d = 1 := of_decide_eq_true (Bool.and_eq_true_iff.1 h).2
    exact (opMap_ipush _ w1).trans (by simp [hd])
  all_goals
    refine congrArg some ?_
    simp only [W0.ofWord_enc, Br.ofWord_enc, Alu.ofWord_enc, MemF.ofWord_enc, RRaw.ofWord_enc]

theorem encode_shape {i : Instr} (he : Machine.isEvent i = false) :
    encode i ≠ [] ∧ (encode i).length = opWords (opcode (encode i).headI) ∧ Word0Ok (encode i).headI := by
  cases i
  all_goals simp only [Machine.isEvent, encode, List.isEmpty_nil, Bool.true_eq_false] at he
  all_goals
    simp only [encode, List.headI, W0.opcode_enc, Br.opcode_enc, word0Ok_iff, W0.wBit_enc, Br.wBit_enc, Br.getLsbD_enc]
    exact ⟨List.cons_ne_nil _ _, rfl, rfl, rfl⟩

theorem decode_of_opMap {w0 w1 : Word} {i : Instr} (hm : opMap (opcode w0) w0 w1 = some i)
    (h0 : Word0Ok w0) (h : i.wf = true) :
    decode w0 w1 = .ok i := by
  simp only [decode, hm, h0.wBit, h0.branch, h, bne_self_eq_false, Bool.false_eq_true, if_false, if_true]

theorem decode_encode {i : Instr} (h : i.wf = true) (he : Machine.isEvent i = false) (w1 : Word) :
    decode (encode i).headI ((encode i).tail.headD w1) = .ok i := by
  obtain ⟨-, -, h0⟩ := encode_shape he
  exact decode_of_opMap (opMap_encode h he w1) h0 h

/-- Settles O55: the fields of an encoded word are the fields it was put together from, opcode by opcode. -/
theorem encodedInstructionsDecodeBack : Obligations.EncodedInstructionsDecodeBack := by
  intro i h he
  have hd := decode_encode h he
  obtain ⟨hne, hlen, -⟩ := encode_shape he
  obtain ⟨w0, rest, hi⟩ := List.exists_cons_of_ne_nil hne
  rw [hi] at hd hlen ⊢
  refine ⟨?_, fun v0 hv w1 => ?_⟩
  · have h0 : decode w0 rest.headI = .ok i := by
      cases rest with
      | nil => exact hd default
      | cons w1 t => exact hd w1
    rw [hlen]
    simp [decodeWords, h0]
  · obtain ⟨rfl, rfl⟩ := List.cons.inj hv
    exact hd w1

/-! From words to an instruction and back. -/

/-- The decoder answers an instruction only when every check passes. -/
theorem decode_cases (w0 w1 : Word) :
    (∃ i, opMap (opcode w0) w0 w1 = some i ∧ i.wf = true ∧ Word0Ok w0 ∧ decode w0 w1 = .ok i)
    ∨ ∃ e, decode w0 w1 = .error e := by
  unfold decode
  dsimp only
  split
  · exact .inr ⟨_, rfl⟩
  · next i hm =>
    split
    · exact .inr ⟨_, rfl⟩
    · next hw =>
      split
      · exact .inr ⟨_, rfl⟩
      · next hb =>
        split
        · next h => exact .inl ⟨i, hm, h, ⟨by simpa using hw, by simpa using hb⟩, rfl⟩
        · exact .inr ⟨_, rfl⟩

/-- Words that pass the checks of word 0 are the encoding of the instruction their opcode names. -/
theorem encode_of_opMap {w0 w1 : Word} {i : Instr} (hm : opMap (opcode w0) w0 w1 = some i)
    (h0 : Word0Ok w0) :
    encode i = if opWords (opcode w0) = 2 then [w0, w1] else [w0] := by
  obtain ⟨hw, hb⟩ := h0
  generalize ho : opcode w0 = op at hm hw hb ⊢
  have word : ∀ n two, op = BitVec.toNat n → decide (opWords op = 2) = two → (W0.ofWord w0).enc n two = w0 := by
    rintro n two rfl rfl
    exact W0.enc_ofWord ho hw
  have branch : ∀ n two, op = BitVec.toNat n → decide (opWords op = 2) = two → isBranchOp op = true →
      (Br.ofWord w0).enc n two = w0 := by
    rintro n two rfl rfl hbr
    rw [hbr, Bool.true_and, Bool.or_eq_false_iff] at hb
    exact Br.enc_ofWord ho hw hb.1 hb.2
  unfold opMap opMapCtl opMapInt opMapFlt opMapMid opMapMem opMapEng opMapSys at hm
  repeat' split at hm
  all_goals cases hm
  all_goals
    simp (disch := decide) only [encode, word, branch, Alu.enc_ofWord, MemF.enc_ofWord, RRaw.enc_ofWord]
    rfl

theorem decode_ok {w0 w1 : Word} {i : Instr} (h : decode w0 w1 = .ok i) :
    i.wf = true ∧ encode i = if wBit w0 then [w0, w1] else [w0] := by
  rcases decode_cases w0 w1 with ⟨j, hm, hwf, h0, hd⟩ | ⟨e, hd⟩
  · obtain rfl : j = i := by rw [hd] at h; exact Except.ok.inj h
    rw [encode_of_opMap hm h0, h0.wBit]
    simp [hwf]
  · rw [hd] at h
    cases h

/-! Words refused by name (R39). -/

theorem opWords_eq_two_iff (op : Nat) : opWords op = 2 ↔ op ∉ oneWordOps := by
  simp [opWords]

theorem decode_none {w0 w1 : Word} (h : opMap (opcode w0) w0 w1 = none) :
    decode w0 w1 = .error (if 0x1D ≤ opcode w0 ∧ opcode w0 ≤ 0x1F then .toolReserved else .unassigned) := by
  simp [decode, h]

theorem opMap_toolReserved {op : Nat} (hlo : 0x1D ≤ op) (hhi : op ≤ 0x1F) (w0 w1 : Word) : opMap op w0 w1 = none := by
  interval_cases op <;> rfl

theorem decode_wordCount {w0 w1 : Word} {i : Instr} (hm : opMap (opcode w0) w0 w1 = some i)
    (h : wBit w0 = true ↔ opcode w0 ∈ oneWordOps) : decode w0 w1 = .error .wordCount := by
  have hne : (wBit w0 != decide (opWords (opcode w0) = 2)) = true := by
    rw [bne_iff_ne, ne_eq, Bool.eq_iff_iff, decide_eq_true_iff, opWords_eq_two_iff, h]
    exact iff_not_self
  simp only [decode, hm, hne, if_true]

theorem decode_not_wf {w0 w1 : Word} {i : Instr} (hm : opMap (opcode w0) w0 w1 = some i) (h : i.wf = false) :
    ∃ e, decode w0 w1 = .error e := by
  rcases decode_cases w0 w1 with ⟨j, hj, hwf, -⟩ | he
  · obtain rfl : j = i := Option.some.inj (hj.symm.trans hm)
    exact absurd hwf (by simp [h])
  · exact he

/-- Settles O56: a word is put together again from the fields the decoder takes from it, opcode by opcode; every other
branch of the decoder is a refusal. -/
theorem decodedWordsAreTheirEncoding : Obligations.DecodedWordsAreTheirEncoding := by
  intro w0 w1
  refine ⟨fun i h => ?_, fun hn hop => ?_, fun hlo hhi => ?_, fun i hm => ⟨decode_wordCount hm, decode_not_wf hm⟩⟩
  · obtain ⟨hwf, henc⟩ := decode_ok h
    refine ⟨hwf, ?_, fun h23 => henc.trans (if_pos h23), fun h23 => henc.trans (if_neg (ne_true_of_eq_false h23))⟩
    rw [Machine.isEvent, henc]
    cases wBit w0 <;> rfl
  · rw [decode_none hn, if_neg (by omega)]
  · rw [decode_none (opMap_toolReserved hlo hhi w0 w1), if_pos ⟨hlo, hhi⟩]

/-- Settles O57, each word decoded. -/
theorem wordsOfTheManualDecode : Obligations.WordsOfTheManualDecode :=
  ⟨rfl, rfl, rfl, rfl, rfl, rfl, rfl, rfl, rfl, rfl, rfl, rfl, rfl, rfl, rfl, rfl⟩

end Sys2Proof
end

section
/-!
PROOF. What a read through the page tables, the L2s and the L1 can change at all (09_memory R168 to R175, R182, R193;
11_visibility R240 to R243).
-/

namespace Sys2Proof.Machine

/-- A read has been served: memory and its poison marks, where pending bytes have gone home and walks have marked
their leaves, the dies, the cores' caches, TLBs and counters, and the free choices drawn alone differ. -/
structure Served (s t : State) : Prop where
  only : t = { s with mem := t.mem, mpois := t.mpois, cores := t.cores, dies := t.dies, draws := t.draws }

theorem Served.refl (s : State) : Served s s := ⟨rfl⟩

theorem Served.trans {s t u : State} (h : Served s t) (k : Served t u) : Served s u := ⟨by rw [k.only, h.only]⟩

theorem Served.foldl {α : Type} {f : State → α → State} (h : ∀ s a, Served s (f s a)) (l : List α) (s : State) :
    Served s (l.foldl f s) :=
  List.foldlRecOn l f (Served.refl s) (fun t ht a _ => ht.trans (h t a))

theorem Homeward.served {s t : State} (h : Homeward s t) : Served s t := ⟨by rw [h.only]⟩

theorem Served.cur {s t : State} (h : Served s t) : t.cur = s.cur := by rw [h.only]

theorem Served.of_fst {α : Type} {s t : State} {x : α} {r : State × α} (hr : r = (t, x)) (h : Served s r.1) :
    Served s t := by
  rw [hr] at h
  exact h

theorem Served.ite {s t u : State} {p : Prop} [Decidable p] (ht : Served s t) (hu : Served s u) :
    Served s (if p then t else u) := by
  split
  · exact ht
  · exact hu

theorem Served.modDie {s t : State} (h : Served s t) (d : Nat) (f : Die → Die) : Served s (t.modDie d f) := h.trans ⟨rfl⟩
theorem Served.modCore {s t : State} (h : Served s t) (k : Nat) (f : Core → Core) : Served s (t.modCore k f) :=
  h.trans ⟨rfl⟩

theorem State.setMemBytes_served (s : State) (pk : Nat) (bs : List Byte) : Served s (s.setMemBytes pk bs) := by
  induction bs generalizing s pk with
  | nil => exact .refl s
  | cons b t ih => exact (s.setMemByte_homeward pk b).served.trans (ih _ _)

theorem Served.dropFlash {s t : State} (h : Served s t) (d line : Nat) : Served s (t.dropFlash d line) := h.modDie _ _
theorem Served.countCore {s t : State} (h : Served s t) (ck code ctx n : Nat) : Served s (t.countCore ck code ctx n) :=
  h.modCore _ _

/-! Messages and pending lines. -/

theorem State.sendOrdered_homeward (s : State) (die line : Nat) : Homeward s (s.sendOrdered die line) := by
  unfold State.sendOrdered
  dsimp only
  split
  · exact .refl s
  · split
    · exact s.sendLine_homeward die line
    · exact (s.sendWhere_homeward die _).trans (State.sendLine_homeward _ die line)

theorem State.roundTrip_homeward (s : State) (die home : Nat) : Homeward s (s.roundTrip die home) :=
  (s.timeMsg_homeward die home).trans (State.timeMsg_homeward _ home die)

theorem State.pull_served (s : State) (home die n : Nat) : Served s (s.pull home die n) := by
  have h := fun p => ((s.timeMsg_homeward home die).trans (State.sendWhere_homeward _ die p)).served
  exact .ite (.refl s) (.ite (h _) ((h _).modDie _ _))

theorem State.applyRecord_served (s : State) (home line : Nat) : Served s (s.applyRecord home line) :=
  .foldl (fun t d => t.pull_served home d _) _ s

/-! Walks and translations (09_memory R168 to R175). -/

theorem State.sendFor_served (s : State) (die pk : Nat) : Served s (s.sendFor die pk) :=
  .ite (.refl s) (s.sendOrdered_homeward die _).served

theorem State.walkSends_served (s : State) (ctx die va : Nat) : Served s (s.walkSends ctx die va) :=
  .foldl (fun t a => (t.sendFor_served die a).trans (State.roundTrip_homeward _ _ _).served) _ s

theorem State.touchLeaf_served (s : State) (a : Nat) (e : DWord) (wr : Bool) : Served s (s.touchLeaf a e wr) :=
  .ite (.refl s) (s.setMemBytes_served _ _)

theorem State.fmtFill_served (s : State) (ctx die i : Nat) : Served s (s.fmtFill ctx die i).1 := by
  have hw := s.walkSends_served ctx die (s.fmtEntry ctx i)
  unfold State.fmtFill
  dsimp only
  split
  · exact hw
  · split
    · exact hw
    · have hl := fun a e pk => hw.trans ((State.touchLeaf_served _ a e false).trans (State.sendFor_served _ die pk))
      split
      · exact hl _ _ _
      · exact hl _ _ _

theorem State.walkFill_served (s : State) (ctx die va : Nat) (acc : Acc) : Served s (s.walkFill ctx die va acc).1 := by
  have hw := s.walkSends_served ctx die va
  unfold State.walkFill
  dsimp only
  split
  · exact hw
  · split
    · exact hw
    · have ht := fun a e => hw.trans (State.touchLeaf_served _ a e acc.writes)
      split
      · exact ht _ _
      · have hf := fun a e => (ht a e).trans (State.fmtFill_served _ ctx die (pteFmt e))
        split
        · next heq => exact .of_fst heq (hf _ _)
        · next heq => exact .of_fst heq (hf _ _)

theorem State.chooseHeld_served (s : State) (l : List TlbEnt) : Served s (s.chooseHeld l).1 := by
  induction l generalizing s with
  | nil => exact .refl s
  | cons e t ih =>
    have hd : ∀ b u, s.draw = (b, u) → Served s u := by
      rintro b u hdraw
      obtain rfl : s.draw.2 = u := congrArg Prod.snd hdraw
      exact ⟨rfl⟩
    unfold State.chooseHeld
    split
    · next heq => exact hd _ _ heq
    · next heq => exact (hd _ _ heq).trans (ih _)

theorem State.countMiss_served (s : State) (ctx die : Nat) (core : Option Nat) (va : Nat) (fresh : Except Nat TlbEnt) :
    Served s (s.countMiss ctx die core va fresh) := by
  have hdie : ∀ {p : Prop} [Decidable p] (t : State), Served s t →
      Served s (if p then t else t.countDie die 0x46 (some ctx) 1) :=
    fun t h => .ite h (h.modDie _ _)
  cases core with
  | none => exact hdie s (.refl s)
  | some c => exact hdie _ (.ite (.refl s) ((Served.refl s).modCore _ _))

theorem State.keep_served (s : State) (die : Nat) (core : Option Nat) (e : TlbEnt) : Served s (s.keep die core e) := by
  cases core with
  | none => exact ⟨rfl⟩
  | some c => exact ⟨rfl⟩

theorem State.translate_served (s : State) (ctx die va : Nat) (acc : Acc) (core : Option Nat) :
    Served s (s.translate ctx die va acc core).1 := by
  have hw := s.walkFill_served ctx die va acc
  have hc := s.chooseHeld_served
  unfold State.translate
  dsimp only
  split
  · next heq =>
    have hu := Served.of_fst heq (hc _)
    split
    · exact hu
    · exact hu.trans (State.keep_served _ _ _ _)
  · next u heq =>
    have ht : Served s { (s.walkFill ctx die va acc).1 with draws := u.draws } := hw.trans ⟨rfl⟩
    have hm := fun fresh => ht.trans (State.countMiss_served _ ctx die core va fresh)
    split
    · exact hm _
    · exact (hm _).trans (State.keep_served _ _ _ _)

theorem State.translateAll_served (s : State) (ctx die : Nat) (acc : Acc) (core : Option Nat) (l : List Nat) :
    Served s (s.translateAll ctx die acc core l).1 := by
  induction l generalizing s with
  | nil => exact .refl s
  | cons va t ih =>
    have ht := s.translate_served ctx die va acc core
    unfold State.translateAll
    split
    · next heq => exact .of_fst heq ht
    · next heq => exact (Served.of_fst heq ht).trans (ih _)

/-! Room in an L2, and what a home gives (01_machine R13; 09_memory R193). -/

theorem State.evictLine_served (s : State) (die line : Nat) : Served s (s.evictLine die line) := by
  have h1 : Served s (((s.sendOrdered die line).dropGuest die line).foldRecords die line) :=
    ((s.sendOrdered_homeward die line).served.modDie _ _).modDie _ _
  have h2 := h1.trans (State.writeOn_homeward _ die (fun pk => pk / 128 = line)).served
  unfold State.evictLine
  exact (h2.dropFlash die line).modDie _ _

theorem State.l2Room_served (s : State) (die line : Nat) : Served s (s.l2Room die line) :=
  .ite (s.evictLine_served die _) (.refl s)

theorem State.fillFlash_served (s : State) (home sec : Nat) : Served s (s.fillFlash home sec) :=
  .ite (((Served.refl s).modDie home _).trans
    (.foldl (fun t _ => (t.l2Room_served home _).modDie home _) _ _)) (.refl s)

theorem State.poisonWord_served (s : State) (home a : Nat) (l2 : Bool) : Served s (s.poisonWord home a l2) :=
  .ite ⟨rfl⟩ ⟨rfl⟩

theorem State.meetHome_served (s : State) (home sec : Nat) : Served s (s.meetHome home sec) :=
  .ite (.refl s) (.modDie (.foldl (fun t _ => .ite (t.poisonWord_served home _ _) (.refl t)) _ s) home _)

theorem State.fillClean_served (s : State) (sec : Nat) (attr : PAttr) (ro : Bool) : Served s (s.fillClean sec attr ro) :=
  .ite (.refl s) ((s.l2Room_served attr.home _).modDie attr.home _)

theorem State.serve_served (s : State) (die sec : Nat) (attr : PAttr) (ro : Bool) : Served s (s.serve die sec attr ro).1 := by
  have hr := (s.roundTrip_homeward die attr.home).served
  have hf : Served s (if attr.cp = 2 then s.roundTrip die attr.home
      else (s.roundTrip die attr.home).fillFlash attr.home sec) :=
    .ite hr (hr.trans (State.fillFlash_served _ _ _))
  exact (hf.trans (State.meetHome_served _ attr.home sec)).trans (State.fillClean_served _ sec attr ro)

theorem State.readHome_served (s : State) (die sec : Nat) (attr : PAttr) (acq ro : Bool) :
    Served s (s.readHome die sec attr acq ro).1 := by
  have h1 : Served s (if attr.swc || attr.home = die then s else s.sendOrdered die (sec / 8)) :=
    .ite (.refl s) (s.sendOrdered_homeward die _).served
  exact (h1.trans (.ite (State.applyRecord_served _ attr.home (sec / 8)) (.refl _))).trans
    (State.serve_served _ die sec attr ro)

/-! What the L2 of a die and the caches of a core give (09_memory R182). -/

theorem State.fillGuest_served (s : State) (die sec : Nat) (attr : PAttr) (ro : Bool) (bs : List VByte) :
    Served s (s.fillGuest die sec attr ro bs) :=
  .ite (.refl s) ((s.l2Room_served die _).modDie die _)

theorem State.meetGuest_served (s : State) (die sec : Nat) : Served s (s.meetGuest die sec) :=
  .ite (.refl s) ((Served.refl s).modDie die _)

theorem State.readDev_served (s : State) (die sec : Nat) (attr : PAttr) (ro sieve : Bool) :
    Served s (s.readDev die sec attr ro sieve).1 := by
  have hg := s.meetGuest_served die sec
  have hs := hg.trans (State.serve_served _ die sec attr ro)
  unfold State.readDev
  split
  · exact s.readHome_served die sec attr false ro
  · dsimp only
    split
    · exact hg
    · exact .ite hs (hs.trans (State.fillGuest_served _ die sec attr ro _))

theorem State.fillL1_served (s : State) (ck key : Nat) (ro swc : Bool) (clus : Nat) (bs : List VByte) :
    Served s (s.fillL1 ck key ro swc clus bs) :=
  .ite (.refl s) ((Served.refl s).modCore ck _)

theorem State.readBelow_served (s : State) (gk sec : Nat) (attr : PAttr) (scope : Nat) (acq ro na sieve : Bool) :
    Served s (s.readBelow gk sec attr scope acq ro na sieve).1 := by
  have hl1 : ∀ {p : Prop} [Decidable p] (t : State) ck key swc clus bs, Served s t →
      Served s (if p then t.fillL1 ck key ro swc clus bs else t) :=
    fun t _ _ _ _ _ h => .ite (h.trans (t.fillL1_served _ _ _ _ _ _)) h
  have hc : ∀ ck ctx code, Served s (s.countL1 ck ctx sec code) := fun _ _ _ => (Served.refl s).countCore _ _ _ _
  have hg := fun (t : State) d bs (h : Served s t) => h.trans (t.fillGuest_served d sec attr ro bs)
  unfold State.readBelow
  dsimp only
  split
  · refine hl1 _ _ _ _ _ _ ?_
    split
    · have hh := s.readHome_served (s.group gk).die sec attr acq ro
      exact .ite hh (hg _ _ _ hh)
    · exact s.readDev_served _ sec attr ro sieve
  · split
    · exact hc _ _ _
    · refine hl1 _ _ _ _ _ _ (Served.trans ?_ (State.readDev_served _ _ sec attr ro false))
      exact .ite (hc _ _ _) (.refl s)

theorem State.readSec_served (s : State) (gk sec : Nat) (attr : PAttr) (scope : Nat) (acq ro na sieve : Bool) :
    Served s (s.readSec gk sec attr scope acq ro na sieve).1 :=
  s.readBelow_served gk sec attr scope acq ro na sieve

theorem State.readVia_served {rd : State → Xl → State × List VByte} (hrd : ∀ s x, Served s (rd s x).1) (s : State)
    (ctx die va n : Nat) (core : Option Nat) : Served s (s.readVia ctx die va n rd core).1 := by
  have ht := s.translateAll_served ctx die .r core (pageStarts va n)
  unfold State.readVia
  split
  · next heq => exact .of_fst heq ht
  · next t heq =>
    refine (Served.of_fst heq ht).trans ?_
    refine List.foldlRecOn (motive := fun acc : State × List VByte => Served t acc.1) _ _ (.refl t) (fun acc h p _ => ?_)
    have hx := h.trans (acc.1.translate_served ctx die p.1 .r core)
    split
    · next heq => exact .of_fst heq hx
    · next heq => exact (Served.of_fst heq hx).trans (hrd _ _)

theorem State.groupRead_served (s : State) (gk va n scope : Nat) (acq : Bool) :
    Served s (s.groupRead gk va n scope acq).1 :=
  State.readVia_served (fun t x => t.readSec_served gk (x.pk / 16) x.attr scope acq false false false) s _ _ va n _

end Sys2Proof.Machine
end

section
/-!
PROOF. Jumps, masks, status and sleep (02_encoding R33, R38; 04_control R62, R69, R80, R81, R86, R87), and the
statements made of them.
-/

namespace Sys2Proof.Machine

/-! The issuing slot. -/

theorem State.setSlot_slot (s : State) (x : PcSlot) : (s.setSlot x).slot = x := by
  rw [State.slot, State.setSlot, State.modGrp_grp]
  exact Group.setSlot_slot_same _ _ _

theorem State.setSlot_other (s : State) (x : PcSlot) : (s.setSlot x).other = s.other := by
  rw [State.other, State.setSlot, State.modGrp_grp]
  exact Group.setSlot_slot_other _ _ _

/-- A slot replaced differs in nothing but that slot. -/
theorem State.setSlot_slotsBecome (s : State) (x : PcSlot) : SlotsBecome s (s.setSlot x) x s.other := by
  refine ⟨onlyGroup_modGrp s _, s.setSlot_slot x, s.setSlot_other x, ?_⟩
  rw [State.setSlot, State.modGrp_grp]
  cases s.curB <;> rfl

/-- A second replacement of the slot undoes the first. -/
theorem State.setSlot_setSlot (s : State) (x y : PcSlot) : (s.setSlot x).setSlot y = s.setSlot y := by
  rw [State.setSlot, State.setSlot, State.modGrp_modGrp]
  refine congrArg s.modGrp (funext fun g => ?_)
  show (g.setSlot s.curB x).setSlot s.curB y = g.setSlot s.curB y
  cases s.curB <;> rfl

/-- Continue after the slot has been replaced (04_control R68). -/
theorem State.setSlot_cont (s : State) (x : PcSlot) : (s.setSlot x).cont = s.setSlot (x.advance s.lat) := by
  rw [State.cont, State.setSlot_slot, State.setSlot_setSlot]
  rfl

/-! Targets (02_encoding R33; 04_control R62). -/

theorem brTarget_eq (s : State) (off : BitVec 16) : brTarget s.lat.clause off = target s off := by
  unfold brTarget target
  dsimp only
  generalize (s.lat.clause.toNat : Int) + off.toInt = a
  simp only [Bool.and_eq_true, decide_eq_true_eq, show (2 : Int) ^ 24 = 16777216 from rfl]
  split
  · next h =>
    obtain ⟨n, rfl⟩ := Int.eq_ofNat_of_zero_le h.1
    rw [BitVec.ofInt_natCast, Int.toNat_natCast]
  · rfl

theorem State.codeIndex_eq (s : State) (a : DWord) : s.codeIndex s.grp.ctx a = s.clauseOf a := by
  simp [State.codeIndex, State.clauseOf, and_assoc]

theorem State.codeBase_settled {s : State} (h : ∀ k, s.cregOld.getD k 0 = 0) (ctx : Nat) :
    s.codeBase ctx = s.cr64 ctx 4 := by
  simp [State.codeBase, State.crAcc64, State.crAcc, h, State.cr64]

/-- An indirect transfer to native code. -/
theorem State.transfer_transfers (s r : State) (w : W0) (a : DWord) (go : State → BitVec 24 → State) :
    Transfers s r (.next (s.transfer r w a go)) (r.activeW w) a (go s) := by
  refine ⟨fun h => ?_, fun t h hl => ?_⟩
  · simp [State.transfer, State.codeDest, s.codeIndex_eq, h]
  · simp [State.transfer, State.codeDest, State.mapRead, s.codeIndex_eq, h, hl]

theorem exec_bra (b : Br) (s : State) : exec (.bra b) s = execBra b s := rfl
theorem exec_brx (w : W0) (s : State) : exec (.brx w) s = execBrx w s := rfl
theorem exec_tramp (w : W0) (imm : Word) (s : State) : exec (.tramp w imm) s = execTramp w imm s := rfl

/-- TRAMP goes on to the target of an entry that was read without a fault and without poison (R69). -/
theorem exec_tramp_entry {s s1 : State} {w : W0} {imm : Word} {bs : List VByte} (hg : s.guardW w = true)
    (hn : imm.toNat < (s.cr s.grp.ctx 0xB).toNat)
    (hr : s.groupRead s.cur (vaOf (BitVec.ofNat 64 (s.cr64 s.grp.ctx 9 + 8 * imm.toNat))) 8 4 true = (s1, .ok bs))
    (hp : anyPois bs = false) :
    exec (.tramp w imm) s = .next ((s1.acquireAt s.cur 4).transfer (s1.acquireAt s.cur 4) w
      (BitVec.ofNat 64 (vbytesNat bs)) State.goto_) := by
  have hcur : s1.cur = s.cur := (Served.of_fst hr (s.groupRead_served _ _ _ _ _)).cur
  simp only [exec_tramp, execTramp, hg, if_true, State.withEntry, if_neg (Nat.not_le.2 hn), hr, hp, hcur,
    Bool.false_eq_true, if_false]

/-- Settles O15: a jump replaces the issuing slot and nothing else, and reading a trampoline entry keeps the issuing
pair. -/
theorem jumpsMoveTheSlot : Obligations.JumpsMoveTheSlot := by
  intro s b w imm at_
  refine ⟨fun h => State.codeBase_settled h _, fun hg => ?_, fun hg => ⟨?_, ?_⟩, fun hg ht => ?_, fun hg t ht => ?_,
    fun hg => ?_, fun t => s.setSlot_slotsBecome _, fun hg hn => ?_, fun hg hn s1 bs hr hp => ?_⟩
  · simp [exec_bra, execBra, hg]
  · simp [exec_brx, execBrx, hg]
  · simp [exec_tramp, execTramp, hg]
  · simp [exec_bra, execBra, hg, brTarget_eq, ht]
  · refine ⟨_, ?_, s.setSlot_slotsBecome _⟩
    simp only [exec_bra, execBra, hg, brTarget_eq, ht, if_true]
    rfl
  · rw [exec_brx, execBrx, if_pos hg]
    exact s.transfer_transfers s w _ _
  · simp [exec_tramp, execTramp, hg, State.withEntry, hn]
  · rw [exec_tramp_entry hg hn hr hp]
    exact State.transfer_transfers _ _ w _ _

/-! Continuations that end, and masks (04_control R80, R86, R87). -/

theorem State.cont_slotsBecome (s : State) : SlotsBecome s s.cont (s.slot.advance s.lat) s.other :=
  s.setSlot_slotsBecome _

/-- The slot goes on, and its group's continuation at the port has ended. -/
def State.Yields (s t : State) : Prop :=
  ((t.coreAt (coreKey s.grp.die s.grp.core)).ports.getD s.grp.port {}).yld = true ∧ t.slot = s.slot.advance s.lat
    ∧ t.other = s.other ∧ t.groups = s.cont.groups ∧ t = { s.cont with cores := t.cores }

theorem State.yieldPort_cont_yields (s : State) : s.Yields s.yieldPort.cont := by
  obtain ⟨-, hslot, hother, -⟩ := s.yieldPort.cont_slotsBecome
  refine ⟨?_, hslot, hother, rfl, rfl⟩
  have hcore : s.yieldPort.cont.coreAt (coreKey s.grp.die s.grp.core)
      = s.yieldPort.coreAt (coreKey s.grp.die s.grp.core) := rfl
  rw [hcore, State.yieldPort, State.modCore_coreAt, if_pos rfl, SMap.getD_set_same]

theorem State.dstat_eq (s : State) : s.dstat = BitVec.ofNat 32 (s.grp.ownRecords
    + 33554432 * min s.grp.recs.length s.grp.ownRecords + (if s.slot.nj then 536870912 else 0)
    + (if s.other.v && s.other.arr then 1073741824 else 0) + (if s.other.v then 2147483648 else 0)) := by
  rw [State.dstat, Nat.mul_comm 33554432]
  rfl

theorem exec_yield (w : W0) (s : State) : exec (.yield w) s = execYield w s := rfl
theorem exec_sleep (w : W0) (imm : Word) (s : State) : exec (.sleep w imm) s = execSleep w imm s := rfl
theorem exec_maskw (w : W0) (s : State) : exec (.maskw w) s = execMaskw w s := rfl

/-- Settles O20: each of them replaces the issuing slot, ends the continuation at its port, or writes one group-wide
register. -/
theorem masksStatusAndSleep : Obligations.MasksStatusAndSleep := by
  intro s w imm x ck yields n
  refine ⟨rfl, fun hg => ⟨?_, ?_, ?_⟩, fun hg => ?_, fun hg hi => ?_, fun hg hi => ?_, ?_, ?_, fun hg => ?_⟩
  · simp [exec_yield, execYield, hg]
  · simp [exec_sleep, execSleep, hg]
  · simp [exec_maskw, execMaskw, State.groupExec, hg]
  · refine ⟨_, ?_, s.yieldPort_cont_yields⟩
    simp [exec_yield, execYield, hg]
  · refine ⟨_, ?_, s.yieldPort_cont_yields⟩
    simp [exec_sleep, execSleep, hg, hi]
  · refine ⟨_, ?_, s.setSlot_slotsBecome _⟩
    simp only [exec_sleep, execSleep, hg, hi, Bool.not_true, Bool.false_eq_true, if_false]
    rfl
  · rw [← s.dstat_eq]
    exact groupExec_writes s (.dstat w) w _ State.dstat rfl
  · exact groupExec_writes s (.maskr w) w _ (fun s => s.slot.act) rfl
  · refine ⟨_, ?_, s.setSlot_slotsBecome _⟩
    simp only [exec_maskw, execMaskw, State.groupExec, hg, if_true, State.setSlot_cont]
    rfl

end Sys2Proof.Machine
end

section
/-!
PROOF. An operation of the group completes: the words it writes, its flag, what stays
(02_encoding R28; 03_groupwide R51; O24).
-/

namespace Sys2Proof.Machine

/-! The last word for a place wins. -/

/-- What a fold that writes words leaves at a place that each word of that key replaces. -/
theorem foldl_lastAt {α β : Type} (step : β → PendWord → β) (r : β → α) (f : PendWord → α) (k : Nat)
    (h : ∀ b w, r (step b w) = if w.key = k then f w else r b) (b : β) (ws : List PendWord) :
    r (ws.foldl step b) = (lastAt ws k).elim (r b) f := by
  induction ws using List.reverseRecOn with
  | nil => rfl
  | append_singleton ws w ih =>
    rw [List.foldl_append, List.foldl_cons, List.foldl_nil, h, ih, lastAt, lastAt, List.reverse_concat]
    by_cases hk : w.key = k <;> simp [hk]

/-! Words of the lane registers. -/

theorem Group.renewRow_vpois (g : Group) (lc n : Nat) (m : Word) :
    (g.renewRow lc n m).vpois = if m = 0 then g.vpois else g.vpois.set n (g.vpois.getD n 0 &&& ~~~m) 0 := by
  unfold Group.renewRow
  split
  · rfl
  · dsimp only
    split
    · rfl
    · split <;> rfl

/-- A row's write clears the poison of the words it writes (10_allocation R222). -/
theorem Group.writeRow_vPoisoned (g : Group) (lc n : Nat) (m : Word) (f : Nat → Word) (k L : Nat) (hL : L < 32) :
    (g.writeRow lc n m f).vPoisoned k L = if k = n ∧ inMask m L = true then false else g.vPoisoned k L := by
  have hr : (g.writeRow lc n m f).vpois = (g.renewRow lc n m).vpois := by
    rw [Group.writeRow, Group.putLanes_frame]
  rw [Group.vPoisoned, hr, Group.renewRow_vpois]
  by_cases hm : m = 0
  · simp [hm, inMask, Group.vPoisoned]
  · rw [if_neg hm, SMap.getD_set]
    by_cases hk : k = n
    · subst hk
      simp only [true_and, if_true, inMask, Group.vPoisoned, BitVec.getLsbD_and, BitVec.getLsbD_not, hL, decide_true,
        Bool.true_and]
      cases m.getLsbD L <;> simp
    · simp [hk, Group.vPoisoned]

/-- One word of an operation written to its lane register. -/
def Group.landWord (lc : Nat) (g : Group) (w : PendWord) : Group :=
  let n := w.key / 32
  let m := maskOf (· = w.key % 32)
  let g := g.writeRow lc n m (fun _ => w.val)
  if w.pois then { g with vpois := g.vpois.set n (g.vpois.getD n 0 ||| m) 0 } else g

theorem Group.landV_eq (g : Group) (lc : Nat) (ws : List PendWord) :
    g.landV lc ws = ws.foldl (Group.landWord lc) g := rfl

/-- The key of a lane word names its register and its lane. -/
theorem laneKey_iff (w : PendWord) (n L : Nat) (hL : L < 32) :
    (n = w.key / 32 ∧ inMask (maskOf (· = w.key % 32)) L = true) ↔ w.key = n * 32 + L := by
  rw [inMask_maskOf]
  simp only [hL, decide_true, Bool.true_and, decide_eq_true_eq]
  omega

theorem Group.landWord_vget (lc : Nat) (g : Group) (w : PendWord) (n L : Nat) (hL : L < 32) :
    (g.landWord lc w).vget n L = if w.key = n * 32 + L then w.val else g.vget n L := by
  have hv : (g.landWord lc w).vget n L
      = (g.writeRow lc (w.key / 32) (maskOf (· = w.key % 32)) (fun _ => w.val)).vget n L := by
    unfold Group.landWord
    dsimp only
    split <;> rfl
  rw [hv, Group.writeRow_vget _ _ _ _ _ _ _ hL]
  simp only [laneKey_iff w n L hL]

theorem Group.landWord_vPoisoned (lc : Nat) (g : Group) (w : PendWord) (n L : Nat) (hL : L < 32) :
    (g.landWord lc w).vPoisoned n L = if w.key = n * 32 + L then w.pois else g.vPoisoned n L := by
  have hw := g.writeRow_vPoisoned lc (w.key / 32) (maskOf (· = w.key % 32)) (fun _ => w.val) n L hL
  simp only [laneKey_iff w n L hL] at hw
  unfold Group.landWord
  dsimp only
  cases hp : w.pois with
  | false => exact hw
  | true =>
    rw [if_pos rfl]
    generalize g.writeRow lc (w.key / 32) (maskOf (· = w.key % 32)) (fun _ => w.val) = u at hw ⊢
    have hk := laneKey_iff w n L hL
    simp only [Group.vPoisoned, SMap.getD_set] at hw ⊢
    by_cases hn : n = w.key / 32
    · subst hn
      simp only [true_and] at hk
      simp only [if_pos, inMask, BitVec.getLsbD_or] at hw hk ⊢
      by_cases he : w.key = w.key / 32 * 32 + L
      · rw [if_pos he, hk.2 he, Bool.or_true]
      · rw [if_neg he] at hw ⊢
        rw [hw, Bool.eq_false_iff.2 (mt hk.1 he), Bool.or_false]
    · rw [if_neg hn, hw]
      have he : w.key ≠ n * 32 + L := by omega
      simp [he]

theorem Group.landWord_frame (lc : Nat) (g : Group) (w : PendWord) :
    g.landWord lc w = { g with
      v := (g.landWord lc w).v, vst := (g.landWord lc w).vst
      vx := (g.landWord lc w).vx, vpois := (g.landWord lc w).vpois } := by
  have hf := g.writeRow_frame lc (w.key / 32) (maskOf (· = w.key % 32)) (fun _ => w.val)
  unfold Group.landWord
  dsimp only
  split
  · rw [hf]
  · exact hf

theorem Group.landV_frame (g : Group) (lc : Nat) (ws : List PendWord) :
    g.landV lc ws = { g with
      v := (g.landV lc ws).v, vst := (g.landV lc ws).vst
      vx := (g.landV lc ws).vx, vpois := (g.landV lc ws).vpois } := by
  rw [Group.landV_eq]
  induction ws generalizing g with
  | nil => rfl
  | cons w t ih =>
    rw [List.foldl_cons, ih, g.landWord_frame lc w]

/-! Words of the group's own registers. -/

theorem Group.gputs_frame (g : Group) (ws : List PendWord) :
    ws.foldl (fun g w => g.gput w.key w.val) g = { g with g := (ws.foldl (fun g w => g.gput w.key w.val) g).g } := by
  induction ws generalizing g with
  | nil => rfl
  | cons w t ih => rw [List.foldl_cons, ih]; rfl

/-- The predicate an operation writes, if it writes one. -/
def Group.landGp (g : Group) (gp : Option (Nat × Bool)) : Group :=
  match gp with
  | none => g
  | some (n, b) => g.gpput n b

theorem Group.landGp_frame (g : Group) (gp : Option (Nat × Bool)) :
    g.landGp gp = { g with gp := (g.landGp gp).gp } := by
  unfold Group.landGp Group.gpput
  split
  · rfl
  · split <;> rfl

/-- The flag an operation names lowered by one (02_encoding R28). -/
def Group.lowerFlag (g : Group) (flag : Option Nat) : Group :=
  match flag with
  | none => g
  | some f => g.setFlag f (g.flag f - 1)

theorem Group.lowerFlag_frame (g : Group) (flag : Option Nat) :
    g.lowerFlag flag = { g with flags := (g.lowerFlag flag).flags } := by
  unfold Group.lowerFlag
  split <;> rfl

theorem Group.lowerFlag_flag (g : Group) (flag : Option Nat) (n : Nat) :
    (g.lowerFlag flag).flag n = if flag = some n then g.flag n - 1 else g.flag n := by
  cases flag with
  | none => rfl
  | some f =>
    rw [Group.lowerFlag, Group.setFlag_flag]
    by_cases h : n = f
    · subst h; simp
    · rw [if_neg h, if_neg (by simpa using Ne.symm h)]

/-! A group after one of its operations has completed. -/

/-- The registers of a group with what an operation writes in them. -/
def Group.landRegs (g : Group) (o : PendOp) : Group :=
  (o.g.foldl (fun g w => g.gput w.key w.val) (g.landV o.lc o.v)).landGp o.gp

theorem Group.land_eq (g : Group) (o : PendOp) :
    g.land o = ({ g.landRegs o with pend := (g.landRegs o).pend.filter (fun p => p.id ≠ o.id) }
      : Group).lowerFlag o.flag := rfl

/-- An operation writes registers and their marks only. -/
theorem Group.landRegs_frame (g : Group) (o : PendOp) :
    g.landRegs o = { g with
      v := (g.landRegs o).v, vst := (g.landRegs o).vst, vx := (g.landRegs o).vx
      vpois := (g.landRegs o).vpois, g := (g.landRegs o).g, gp := (g.landRegs o).gp } := by
  unfold Group.landRegs
  have hv := g.landV_frame o.lc o.v
  generalize g.landV o.lc o.v = a at hv ⊢
  have hg := a.gputs_frame o.g
  generalize o.g.foldl (fun g w => g.gput w.key w.val) a = b at hg ⊢
  have hp := b.landGp_frame o.gp
  generalize b.landGp o.gp = c at hp ⊢
  rw [hp, hg, hv]

/-- What a completed operation leaves of its group besides the registers' words (R28). -/
theorem Group.land_frame (g : Group) (o : PendOp) :
    g.land o = { g with
      v := (g.land o).v, vst := (g.land o).vst, vx := (g.land o).vx, vpois := (g.land o).vpois
      g := (g.land o).g, gp := (g.land o).gp
      pend := g.pend.filter (fun p => p.id ≠ o.id), flags := (g.land o).flags } := by
  rw [Group.land_eq, Group.lowerFlag_frame]
  have hr := g.landRegs_frame o
  generalize g.landRegs o = a at hr ⊢
  rw [hr]

theorem Group.land_vget (g : Group) (o : PendOp) (n L : Nat) (hL : L < 32) :
    (g.land o).vget n L = (lastAt o.v (n * 32 + L)).elim (g.vget n L) (·.val) := by
  have h : (g.land o).v = (g.landV o.lc o.v).v := by
    rw [Group.land_eq, Group.lowerFlag_frame, Group.landRegs, Group.landGp_frame, Group.gputs_frame]
  rw [Group.vget, h]
  exact foldl_lastAt _ (fun g => g.vget n L) _ _ (fun b w => b.landWord_vget o.lc w n L hL) g o.v

theorem Group.land_vPoisoned (g : Group) (o : PendOp) (n L : Nat) (hL : L < 32) :
    (g.land o).vPoisoned n L = (lastAt o.v (n * 32 + L)).elim (g.vPoisoned n L) (·.pois) := by
  have h : (g.land o).vpois = (g.landV o.lc o.v).vpois := by
    rw [Group.land_eq, Group.lowerFlag_frame, Group.landRegs, Group.landGp_frame, Group.gputs_frame]
  rw [Group.vPoisoned, h]
  exact foldl_lastAt _ (fun g => g.vPoisoned n L) _ _ (fun b w => b.landWord_vPoisoned o.lc w n L hL) g o.v

theorem Group.land_gget (g : Group) (o : PendOp) (n : Nat) :
    (g.land o).gget n = (lastAt o.g n).elim (g.gget n) (·.val) := by
  have h : (g.land o).g = (o.g.foldl (fun g w => g.gput w.key w.val) (g.landV o.lc o.v)).g := by
    rw [Group.land_eq, Group.lowerFlag_frame, Group.landRegs, Group.landGp_frame]
  have hg : (g.landV o.lc o.v).gget n = g.gget n := by rw [Group.landV_frame]; rfl
  rw [Group.gget, h, ← hg]
  refine foldl_lastAt (fun (g : Group) w => g.gput w.key w.val) (fun g => g.gget n) _ _ (fun b w => ?_) _ o.g
  rw [Group.gput_gget]
  simp only [eq_comm]

theorem Group.land_gpget (g : Group) (o : PendOp) (k : Nat) :
    (g.land o).gpget k = ((g.landGp o.gp).gpget k) := by
  have h : (g.land o).gp = (g.landGp o.gp).gp := by
    rw [Group.land_eq, Group.lowerFlag_frame, Group.landRegs, Group.gputs_frame, Group.landV_frame]
    unfold Group.landGp Group.gpput
    split
    · rfl
    · split <;> rfl
  rw [Group.gpget, Group.gpget, h]

theorem Group.land_flag (g : Group) (o : PendOp) (n : Nat) :
    (g.land o).flag n = if o.flag = some n then g.flag n - 1 else g.flag n := by
  have h : (g.landRegs o).flags = g.flags := by rw [Group.landRegs_frame]
  rw [Group.land_eq, Group.lowerFlag_flag, Group.flag, Group.flag, h]

/-- An operation that writes no register leaves its group all but its record and its flag. -/
theorem Group.land_noWords (g : Group) (o : PendOp) (hv : o.v = []) (hg : o.g = []) (hp : o.gp = none) :
    g.land o = { g with pend := g.pend.filter (fun p => p.id ≠ o.id), flags := (g.land o).flags } := by
  rw [Group.land_eq, Group.lowerFlag_frame, Group.landRegs, hv, hg, hp]
  rfl

/-! What an operation performs when it completes. -/

@[simp] theorem State.roundTrip_groups (s : State) (a b : Nat) : (s.roundTrip a b).groups = s.groups := by
  simp [State.roundTrip]

@[simp] theorem State.roundTrip_mem (s : State) (a b : Nat) : (s.roundTrip a b).mem = s.mem := by
  simp [State.roundTrip]

theorem State.dropClean_groups (s : State) (die : Nat) : (s.dropClean die).groups = s.groups :=
  List.foldlRecOn (motive := fun t : State => t.groups = s.groups) (List.range 8) _ rfl
    (fun (t : State) ht d _ => (t.roundTrip_groups die d).trans ht)

theorem State.dropClean_mem (s : State) (die : Nat) : (s.dropClean die).mem = s.mem :=
  List.foldlRecOn (motive := fun t : State => t.mem = s.mem) (List.range 8) _ rfl
    (fun (t : State) ht d _ => (t.roundTrip_mem die d).trans ht)

/-- The self-invalidation of an acquire is of caches: it changes no group (11_visibility R239). -/
theorem State.acquireAt_groups (s : State) (gk lvl : Nat) : (s.acquireAt gk lvl).groups = s.groups := by
  have hd : ∀ t : State, (if lvl = 5 then t.dropClean (s.group gk).die else t).groups = t.groups := fun t => by
    split
    · exact t.dropClean_groups _
    · rfl
  unfold State.acquireAt
  dsimp only
  rw [hd]
  split <;> split <;> rfl

theorem State.acquireAt_mem (s : State) (gk lvl : Nat) : (s.acquireAt gk lvl).mem = s.mem := by
  have hd : ∀ t : State, (if lvl = 5 then t.dropClean (s.group gk).die else t).mem = t.mem := fun t => by
    split
    · exact t.dropClean_mem _
    · rfl
  unfold State.acquireAt
  dsimp only
  rw [hd]
  split <;> split <;> rfl

theorem State.complete1_groups (s : State) (gk : Nat) (o : PendOp) : (s.complete1 gk o).groups = s.groups := by
  unfold State.complete1
  dsimp only
  split
  · split <;> rfl
  · rw [State.acquireAt_groups]
    split <;> rfl

theorem State.complete1_mem (s : State) (gk : Nat) (o : PendOp) : (s.complete1 gk o).mem = s.mem := by
  unfold State.complete1
  dsimp only
  split
  · split <;> rfl
  · rw [State.acquireAt_mem]
    split <;> rfl

theorem State.disarmOp_groups (s : State) (gk : Nat) (o : PendOp) : (s.disarmOp gk o).groups = s.groups :=
  List.foldlRecOn (motive := fun t : State => t.groups = s.groups) o.v _ rfl
    (fun (t : State) ht _ _ => (t.disarmReg_groups gk _ _).trans ht)

theorem State.disarmOp_mem (s : State) (gk : Nat) (o : PendOp) : (s.disarmOp gk o).mem = s.mem :=
  List.foldlRecOn (motive := fun t : State => t.mem = s.mem) o.v _ rfl
    (fun (t : State) ht _ _ => (t.disarmReg_mem gk _ _).trans ht)

theorem State.settleGuards_groups (s : State) (gk : Nat) (o : PendOp) : (s.settleGuards gk o).groups = s.groups := by
  unfold State.settleGuards
  split <;> rfl

theorem State.settleGuards_mem (s : State) (gk : Nat) (o : PendOp) : (s.settleGuards gk o).mem = s.mem := by
  unfold State.settleGuards
  split <;> rfl

/-- The group of an operation that completes (R28). -/
theorem State.landOp_group (s : State) (gk : Nat) (o : PendOp) : (s.landOp gk o).group gk = (s.group gk).land o := by
  unfold State.landOp
  dsimp only
  rw [State.group, State.settleGuards_groups, ← State.group, State.modGroup_group, if_pos rfl, State.group,
    State.disarmOp_groups, State.complete1_groups, State.group]

theorem State.landOp_sameMem (s : State) (gk : Nat) (o : PendOp) : SameMem s (s.landOp gk o) := by
  have h : (s.landOp gk o).mem = s.mem := by
    unfold State.landOp
    dsimp only
    rw [State.settleGuards_mem, State.modGroup, State.setGroup_mem, State.disarmOp_mem, State.complete1_mem]
  intro k
  rw [State.memByte, State.memByte, h]

/-- An operation that writes no register performs its effect, and its group loses its record. -/
theorem State.landOp_noWords (s : State) (gk : Nat) (o : PendOp) (hv : o.v = []) (hp : o.gp = none) :
    s.landOp gk o = (s.complete1 gk o).setGroup gk ((s.group gk).land o) := by
  have hd : (s.complete1 gk o).disarmOp gk o = s.complete1 gk o := by simp [State.disarmOp, hv]
  have hs : ∀ t : State, t.settleGuards gk o = t := fun t => by simp [State.settleGuards, hp]
  have hg : (s.complete1 gk o).group gk = s.group gk := by
    rw [State.group, State.complete1_groups, State.group]
  rw [State.landOp, hd, hs, State.modGroup, hg]

theorem State.complete1_noSts (s : State) (gk : Nat) (o : PendOp) (h : o.sts = []) :
    s.complete1 gk o = o.acq.elim s (s.acquireAt gk) := by
  unfold State.complete1
  simp only [h, List.isEmpty_nil, Bool.not_true, Bool.and_false, Bool.false_and, Bool.false_eq_true, if_false]
  cases o.acq <;> rfl

/-- The completion of a scratchpad store writes its bytes at its issue clock (09_memory R191). -/
theorem State.complete1_sts (s : State) (gk : Nat) (o : PendOp) (hk : o.kind = .sts) (hs : o.sts ≠ [])
    (hb : ((s.team (s.group gk).team).alloc o.sh).bound = true) (ha : o.acq = none) :
    s.complete1 gk o = s.setAlloc (s.group gk).team o.sh
      (((s.team (s.group gk).team).alloc o.sh).write
        (s.allocClock (s.group gk).team ((s.team (s.group gk).team).alloc o.sh) (some (gk, o.lc))) o.sts) := by
  simp [State.complete1, State.afterSts, hk, hs, hb, ha]

/-! COMPLETION. -/

/-- COMPLETION waits for the operation and for its group. -/
def State.completionWaits (s : State) (gk : Nat) (o : PendOp) : Prop :=
  (s.group gk).live = false ∨ (s.group gk).away = true
    ∨ s.frozenAt (s.group gk).die (s.group gk).core = true ∨ s.mayComplete gk o = false

theorem execCompletion_none (s : State) (gk op : Nat) (h : (s.group gk).pend.find? (fun o => o.id = op) = none) :
    exec (.completion gk op) s = .next s := by
  change execCompletion gk op s = _
  unfold execCompletion
  dsimp only
  rw [h]

theorem execCompletion_waits (s : State) (gk op : Nat) (o : PendOp)
    (h : (s.group gk).pend.find? (fun o => o.id = op) = some o) (hw : s.completionWaits gk o) :
    exec (.completion gk op) s = .next s := by
  change execCompletion gk op s = _
  unfold execCompletion
  dsimp only
  rw [h]
  refine congrArg Host.Outcome.next (if_pos ?_)
  simpa [State.completionWaits, or_assoc] using hw

theorem execCompletion_lands (s : State) (gk op : Nat) (o : PendOp)
    (h : (s.group gk).pend.find? (fun o => o.id = op) = some o) (hw : ¬ s.completionWaits gk o) :
    exec (.completion gk op) s = .next (s.landOp gk o) := by
  change execCompletion gk op s = _
  unfold execCompletion
  dsimp only
  rw [h]
  refine congrArg Host.Outcome.next (if_neg ?_)
  simpa [State.completionWaits, and_assoc] using hw

theorem State.mayComplete_unready (s : State) (gk : Nat) (o : PendOp) (h : o.ready = false) :
    s.mayComplete gk o = false := by
  simp [State.mayComplete, h]

/-! A counted instruction issued. -/

/-- The flag an operation names raised by one (R28). -/
def Group.raiseFlag (g : Group) (flag : Option Nat) : Group :=
  match flag with
  | none => g
  | some f => g.setFlag f (g.flag f + 1)

theorem Group.raiseFlag_frame (g : Group) (flag : Option Nat) :
    g.raiseFlag flag = { g with flags := (g.raiseFlag flag).flags } := by
  unfold Group.raiseFlag
  split <;> rfl

theorem Group.raiseFlag_flag (g : Group) (flag : Option Nat) (n : Nat) :
    (g.raiseFlag flag).flag n = if flag = some n then g.flag n + 1 else g.flag n := by
  cases flag with
  | none => rfl
  | some f =>
    rw [Group.raiseFlag, Group.setFlag_flag]
    by_cases h : n = f
    · subst h; simp
    · rw [if_neg h, if_neg (by simpa using Ne.symm h)]

/-- The record of an operation issued now. -/
def State.issuedOp (s : State) (f : Bool) (o : PendOp) : PendOp :=
  { o with id := s.nextId, flag := s.flagOf f, lc := s.lat.lc }

theorem State.issueOp_grp (s : State) (f : Bool) (o : PendOp) :
    (s.issueOp f o).grp = ({ s.grp with pend := s.grp.pend ++ [s.issuedOp f o] } : Group).raiseFlag (s.flagOf f) :=
  State.setGroup_group_same _ _ _

/-- Settles O24: a counted instruction's issue by its record and `Group.raiseFlag`; COMPLETION by `State.landOp_group`
and what `Group.land` leaves at each place. -/
theorem countedInstructionsComplete : Obligations.CountedInstructionsComplete := by
  refine ⟨fun s f o => ?_, fun s gk op => ⟨execCompletion_none s gk op, execCompletion_waits s gk op,
    s.mayComplete_unready gk, fun o hf hw hv hg hp => ?_, fun o hf hw => ?_⟩⟩
  · have hgrp := s.issueOp_grp f o
    refine ⟨?_, fun n => ?_, ?_, rfl⟩
    · rw [hgrp, Group.raiseFlag_frame]; rfl
    · rw [hgrp, Group.raiseFlag_flag]; rfl
    · rw [hgrp, Group.raiseFlag_frame]
  · have hid : o.id = op := by simpa using List.find?_some hf
    have hex := execCompletion_lands s gk op o hf hw
    have hgr : (s.landOp gk o).group gk = _ := s.landOp_group gk o
    have hland := (s.group gk).land_noWords o hv hg hp
    have heq := s.landOp_noWords gk o hv hp
    rw [hid] at hland
    refine ⟨fun hs ha => ⟨_, hex, ?_, fun n => ?_⟩, fun lvl hs ha => ⟨_, hex, ?_⟩, fun hk hs hb ha => ⟨_, hex, ?_⟩⟩
    · rw [hgr, heq, s.complete1_noSts gk o hs, ha]
      exact congrArg (s.setGroup gk) hland
    · rw [hgr, Group.land_flag]
    · beta_reduce
      rw [hgr, heq, s.complete1_noSts gk o hs, ha]
      exact congrArg ((s.acquireAt gk lvl).setGroup gk) hland
    · beta_reduce
      rw [hgr, heq, s.complete1_sts gk o hk hs hb ha]
      exact congrArg (State.setGroup _ gk) hland
  · have hid : o.id = op := by simpa using List.find?_some hf
    refine ⟨_, execCompletion_lands s gk op o hf hw, ?_⟩
    dsimp only
    rw [s.landOp_group gk o]
    have hframe := (s.group gk).land_frame o
    rw [hid] at hframe
    refine ⟨fun n L hL => ⟨?_, ?_⟩, fun n => ?_, fun k => ?_, fun n => Group.land_flag _ _ _, ?_, ?_,
      s.landOp_sameMem gk o⟩
    · rw [Group.land_vget _ _ _ _ hL]; cases lastAt o.v (n * 32 + L) <;> rfl
    · rw [Group.land_vPoisoned _ _ _ _ hL]; cases lastAt o.v (n * 32 + L) <;> rfl
    · rw [Group.land_gget]; cases lastAt o.g n <;> rfl
    · rw [Group.land_gpget]
      cases o.gp with
      | none => rfl
      | some p => exact Group.gpput_gpget _ _ _ _
    · rw [hframe]
    · rw [hframe]

end Sys2Proof.Machine
end

section
/-!
PROOF. One step: the next instruction of the picked slot, the next input event, or a pick
(02_encoding R24 to R31, R39; O58).
-/

namespace Sys2Proof.Machine

/-! Lists without repeats. -/

theorem mem_dedup (l : List Nat) (k : Nat) : k ∈ dedup l ↔ k ∈ l := by
  unfold dedup
  induction l using List.reverseRecOn with
  | nil => rfl
  | append_singleton l x ih =>
    rw [List.foldl_append, List.foldl_cons, List.foldl_nil, List.mem_append, ← ih, List.mem_singleton]
    generalize l.foldl (fun acc x => if acc.contains x then acc else acc ++ [x]) [] = acc
    split
    · next hx => exact ⟨.inl, fun h => h.elim id (fun hk => hk ▸ List.contains_iff_mem.1 hx)⟩
    · rw [List.mem_append, List.mem_singleton]

/-! What a step makes of the picked slot. -/

@[simp] theorem State.wakeSlot_cur (s : State) (gk : Nat) (b : Bool) : (s.wakeSlot gk b).cur = s.cur := by
  unfold State.wakeSlot
  dsimp only
  split <;> rfl

@[simp] theorem State.wakeSlot_curB (s : State) (gk : Nat) (b : Bool) : (s.wakeSlot gk b).curB = s.curB := by
  unfold State.wakeSlot
  dsimp only
  split <;> rfl

@[simp] theorem State.looking_cur (s : State) : s.looking.cur = s.cur := by
  rw [State.looking, State.wakeSlots, State.wakeSlot_cur, State.wakeSlot_cur, State.stepping]

@[simp] theorem State.looking_curB (s : State) : s.looking.curB = s.curB := by
  rw [State.looking, State.wakeSlots, State.wakeSlot_curB, State.wakeSlot_curB, State.stepping]

theorem State.issued_next (s t : State) : State.issued s.stepping (.next t) = .next (s.after t) := by
  unfold State.issued State.after
  dsimp only
  split <;> rfl

/-- What a step makes of what the issue stage answers. -/
def State.ends (s : State) : Issue → Out
  | .wait => .next { s with picked := false }
  | .stop t => State.issued s (.next t)
  | .run i t => State.issued s (exec i t)

theorem step_picked {s : State} (hp : s.picked = true) : step s = s.stepping.ends s.stepping.issue := by
  unfold step
  exact if_pos hp

theorem step_of_wait {s : State} (hp : s.picked = true) (h : s.stepping.issue = .wait) :
    step s = .next { s.stepping with picked := false } := by
  rw [step_picked hp, h, State.ends]

theorem step_of_stop {s t : State} (hp : s.picked = true) (h : s.stepping.issue = .stop t) :
    step s = .next (s.after t) := by
  rw [step_picked hp, h]
  exact s.issued_next t

theorem step_of_run {s t v : State} {i : Instr} (hp : s.picked = true) (h : s.stepping.issue = .run i v)
    (he : exec i v = .next t) : step s = .next (s.after t) := by
  rw [step_picked hp, h]
  exact (congrArg (State.issued s.stepping) he).trans (s.issued_next t)

/-- A slot that may not be looked at issues nothing (04_control R65). -/
theorem State.issue_stopped {s : State} (hm : s.looking.mayIssue s.cur s.curB = false) :
    s.stepping.issue = .wait := by
  have hl : s.stepping.wakeSlots s.stepping.cur = s.looking := rfl
  unfold State.issue
  simp only [hl, State.looking_cur, State.looking_curB, hm, Bool.not_false, if_true]

/-! The decoded instruction of a slot that may be looked at. -/

/-- What the instruction at a word issues in: its fetch walked, its place, clock and count latched. -/
def State.fetched (u : State) (h : Word) (w : BitVec 24) (w0 : Word) : State :=
  (u.touchCode (w - u.slot.pc + wordsOf w0).toNat).latch h w w0

/-- What the issue stage makes of decoded words. -/
def State.issueDecoded (v : State) (h w0 : Word) : Except DecodeError Instr → Issue
  | .error _ => .stop (v.raiseSlot cILL)
  | .ok i =>
    if v.illegal h w0 (v.uses i) then .stop (v.raiseSlot cILL)
    else if v.grp.interlocked (v.uses i) || v.grp.flagFull h (v.uses i) || v.levelWaits i (v.uses i) then .wait
    else .run i ((v.meetRegs v.cur v.lat.lc (v.readMask (v.uses i)) (v.uses i).rd).meetScratch i)

theorem State.issueDecoded_illegal {v : State} {h w0 : Word} {i : Instr} (hill : v.illegal h w0 (v.uses i) = true) :
    v.issueDecoded h w0 (.ok i) = .stop (v.raiseSlot cILL) := if_pos hill

theorem State.issueDecoded_waits {v : State} {h w0 : Word} {i : Instr} (hill : v.illegal h w0 (v.uses i) = false)
    (hwait : v.grp.interlocked (v.uses i) = true ∨ v.grp.flagFull h (v.uses i) = true
      ∨ v.levelWaits i (v.uses i) = true) :
    v.issueDecoded h w0 (.ok i) = .wait := by
  rw [State.issueDecoded, if_neg (by simp [hill]), if_pos (by simpa [or_assoc] using hwait)]

theorem State.issueDecoded_runs {v : State} {h w0 : Word} {i : Instr} (hill : v.illegal h w0 (v.uses i) = false)
    (hint : v.grp.interlocked (v.uses i) = false) (hfl : v.grp.flagFull h (v.uses i) = false)
    (hlv : v.levelWaits i (v.uses i) = false) :
    v.issueDecoded h w0 (.ok i)
      = .run i ((v.meetRegs v.cur v.lat.lc (v.readMask (v.uses i)) (v.uses i).rd).meetScratch i) := by
  rw [State.issueDecoded, if_neg (by simp [hill]), if_neg (by simp [hint, hfl, hlv])]

theorem State.issue_here {s u : State} {h : Word} {w : BitVec 24} {w0 w1 : Word}
    (hm : s.looking.mayIssue s.cur s.curB = true)
    (hpl : s.looking.place = (u, .here h w w0 w1)) (hw : ¬ (u.slot.ins = 0 ∧ u.grp.waitsOn h = true)) :
    s.stepping.issue = (u.fetched h w w0).issueDecoded h w0 (decode w0 w1) := by
  have hl : s.stepping.wakeSlots s.stepping.cur = s.looking := rfl
  have hw' : (decide (u.slot.ins = 0) && u.grp.waitsOn h) = false := by simpa using hw
  unfold State.issue
  simp only [hl, State.looking_cur, State.looking_curB, hm, hpl, hw', Bool.not_true, Bool.false_eq_true, if_false]
  cases decode w0 w1 <;> rfl

/-! With no pair picked. -/

theorem step_event {s : State} {n : Nat} {i : Instr} {rest : List (Nat × Instr)} (hp : s.picked = false)
    (hin : s.inputs = (n, i) :: rest) :
    step s = if isEvent i then exec i { s.stepping with inputs := rest, time := s.time + n }
      else .next { s.stepping with inputs := rest, time := s.time + n } := by
  unfold step State.stepping
  simp only [hp, hin, Bool.false_eq_true, if_false]

theorem step_pick {s : State} (hp : s.picked = false) (hin : s.inputs = []) :
    step s = exec s.turn { s.stepping with rrCore := s.rrCore + 1 } := by
  unfold step State.stepping
  simp only [hp, hin, Bool.false_eq_true, if_false, State.turn]

/-! The latch. -/

/-- The translations that a group has run code of, once it issues where it stands (log entry 48). -/
def State.epochsHere (s : State) : List Nat :=
  ((s.transEntry s.grp.ctx s.slot.pc).map (·.1)).elim s.grp.epochs (fun k => dedup (k :: s.grp.epochs))

theorem State.mem_epochsHere (s : State) (k : Nat) :
    k ∈ s.epochsHere ↔ k ∈ s.grp.epochs ∨ ∃ x, s.transEntry s.grp.ctx s.slot.pc = some (k, x) := by
  unfold State.epochsHere
  cases s.transEntry s.grp.ctx s.slot.pc with
  | none => simp
  | some e =>
    obtain ⟨j, x⟩ := e
    simp [mem_dedup, or_comm, eq_comm]

@[simp] theorem State.yieldPort_grp (s : State) : s.yieldPort.grp = s.grp := rfl
@[simp] theorem State.countGroup_grp (s : State) (gk code : Nat) : (s.countGroup gk code).grp = s.grp := rfl

theorem State.latch_grp (s : State) (h : Word) (w : BitVec 24) (w0 : Word) :
    (s.latch h w w0).grp = { s.grp with issued := s.grp.issued + 1, lastB := s.curB, epochs := s.epochsHere } := by
  unfold State.latch State.epochsHere
  dsimp only
  split
  · rw [State.yieldPort_grp, State.countGroup_grp, State.modGrp_grp]
    cases s.transEntry s.grp.ctx s.slot.pc <;> rfl
  · rw [State.countGroup_grp, State.modGrp_grp]
    cases s.transEntry s.grp.ctx s.slot.pc <;> rfl

theorem State.latch_lat (s : State) (h : Word) (w : BitVec 24) (w0 : Word) :
    (s.latch h w w0).lat = {
      clause := s.slot.pc, next := w + wordsOf w0, word := w, ins := s.slot.ins
      last := decide (s.slot.ins + 1 = hdrCnt h), lc := s.clockOf s.grp, fla := flagSel h false
      flb := flagSel h true, yld := hdrYLD h, gd := w0.extractLsb' 19 4, gn := w0.getLsbD 18 } := by
  unfold State.latch
  dsimp only
  split <;> rfl

theorem State.latch_held (s : State) (h : Word) (w : BitVec 24) (w0 : Word) : (s.latch h w w0).held = false := by
  unfold State.latch
  dsimp only
  split <;> rfl

theorem State.latch_mem (s : State) (h : Word) (w : BitVec 24) (w0 : Word) : (s.latch h w w0).mem = s.mem := by
  unfold State.latch
  dsimp only
  split <;> rfl

/-! The first instruction of a clause. -/

/-- The first instruction of a clause is found after the clause's header (R24, R26). -/
theorem locate_first {get : BitVec 24 → Except Nat Word} {pc : BitVec 24} {h w0 w1 : Word} (hh : get pc = .ok h)
    (hb : hdrBad h = false) (h0 : get (pc + 1) = .ok w0)
    (h1 : if w0.getLsbD 23 then get (pc + 2) = .ok w1 else w1 = 0) (hc : 0 < hdrCnt h) :
    locate get pc 0 = .here h (pc + 1) w0 w1 := by
  have hpc : pc + 1 + 1 = pc + 2 := by rw [BitVec.add_assoc]; rfl
  simp only [locate, hh, hb, Bool.false_eq_true, if_false, Nat.zero_min, seek, Nat.le_zero, Nat.ne_of_gt hc, h0, hpc]
  split at h1
  · next hw => simp only [hw, if_true, h1]
  · next hw => simp only [hw, Bool.false_eq_true, if_false, h1]

/-- Settles O58, the picked slot's part by `State.issue_here`. -/
theorem stepRunsTheDecodedInstruction : Obligations.StepRunsTheDecodedInstruction := by
  refine ⟨fun s u h w w0 w1 hp hm hpl hw => ?_, fun s h w w0 => ?_, fun s h w0 w1 hcl hi hc => ?_,
    fun s hp hm => step_of_wait hp (State.issue_stopped hm), fun s n i rest hp hin => ?_, fun s hp hin => ?_⟩
  · have hissue := State.issue_here hm hpl hw
    refine ⟨fun i hd hill hint hfl hlv t he => step_of_run hp (hissue.trans ?_) he,
      fun e hd => step_of_stop hp (hissue.trans ?_), fun i hd hill => step_of_stop hp (hissue.trans ?_),
      fun i hd hill hwait => step_of_wait hp (hissue.trans ?_)⟩
    · rw [hd]; exact State.issueDecoded_runs hill hint hfl hlv
    · rw [hd]; rfl
    · rw [hd]; exact State.issueDecoded_illegal hill
    · rw [hd]; exact State.issueDecoded_waits hill hwait
  · refine ⟨s.latch_lat h w w0, ?_, fun k => ?_, fun k => ?_, s.latch_held h w w0⟩
    · rw [State.latch_grp]
    · rw [State.latch_grp]; exact s.mem_epochsHere k
    · rw [State.memByte, State.memByte, State.latch_mem]
  · obtain ⟨hh, hb, h0, h1⟩ := hcl
    unfold State.place
    dsimp only
    rw [hi, locate_first hh hb h0 h1 hc]
  · have hs := step_event hp hin
    exact ⟨fun he => hs.trans (if_pos he), fun he => hs.trans (if_neg (by simp [he]))⟩
  · exact step_pick hp hin

end Sys2Proof.Machine
end

section
/-!
PROOF. Group-wide predicates, arithmetic, comparison, selection and addresses (03_groupwide R49, R53 to R56), and the
statements made of them.
-/

namespace Sys2Proof.Machine

/-! Group-wide predicates (R49). -/

/-- gp3 reads as true, an outstanding instruction that names it or not. -/
theorem State.rdGP_three (s : State) : s.rdGP 3 = true := by
  unfold State.rdGP
  split <;> rfl

/-- Settles O2, by what a predicate reads as after a write. -/
theorem lastGroupPredicateIsTrue : Obligations.LastGroupPredicateIsTrue := by
  refine fun s g n b => ⟨s.rdGP_three, rfl, rfl, fun hn => ?_, fun k hk => ?_⟩
  · rw [Group.gpput_gpget, if_neg hn, if_pos rfl]
  · rw [Group.gpput_gpget, if_neg hk]
    split
    · next h3 => rw [h3]; rfl
    · rfl

/-! The model's operations on words are those of the manual (R53 to R56). -/

theorem shlBy_eq {w : Nat} (x : BitVec w) (n : Word) : shlBy x n = shiftLeft x n := by
  unfold shlBy shiftLeft
  split
  · apply BitVec.eq_of_toNat_eq
    rw [BitVec.toNat_shiftLeft, BitVec.toNat_ofNat, Nat.shiftLeft_eq]
  · rfl

theorem shrBy_eq {w : Nat} (x : BitVec w) (n : Word) : shrBy x n = shiftRight x n := by
  unfold shrBy shiftRight
  split
  · rw [← Nat.shiftRight_eq_div_pow, ← BitVec.toNat_ushiftRight, BitVec.ofNat_toNat, BitVec.setWidth_eq]
  · rfl

theorem sarBy_eq {w : Nat} (x : BitVec w) (n : Word) : sarBy x n = shiftArith x n := by
  rw [sarBy, shiftArith, BitVec.sshiftRight, Int.shiftRight_eq_div_pow]
  norm_cast

theorem popcW_eq (x : Word) : popcW x = setBits x := rfl

theorem ofNat_ctz_eq (x : Word) : BitVec.ofNat 32 (ctz 32 x.toNat) = firstSet x := rfl

/-- The order that the model compares by is that of the values read. -/
theorem lt_iff_asInt {w : Nat} (unsigned : Bool) (x y : BitVec w) :
    (if (!unsigned) = true then x.slt y else x.ult y) = true ↔ asInt unsigned x < asInt unsigned y := by
  cases unsigned with
  | false => simp [asInt, BitVec.slt]
  | true => simp [asInt, BitVec.ult]

theorem eq_iff_asInt {w : Nat} (unsigned : Bool) (x y : BitVec w) : x = y ↔ asInt unsigned x = asInt unsigned y := by
  cases unsigned with
  | false => exact BitVec.toInt_inj.symm
  | true => simp [asInt, BitVec.toNat_inj]

theorem minInt_eq (unsigned : Bool) (x y : Word) : minInt (!unsigned) x y = lesser unsigned x y := by
  simp only [minInt, lesser, lt_iff_asInt]

theorem maxInt_eq (unsigned : Bool) (x y : Word) : maxInt (!unsigned) x y = greater unsigned x y := by
  simp only [maxInt, greater, lt_iff_asInt]

/-- The condition codes over an order and an equality are comparisons of the values. -/
theorem condCode_eq (cc : Nat) (x y : Int) : condCode cc (decide (x < y)) (decide (x = y)) = condition cc x y := by
  unfold condCode condition
  rw [Bool.eq_iff_iff]
  split <;> simp <;> omega

theorem cmpInt_eq {w : Nat} (unsigned : Bool) (cc : Nat) (x y : BitVec w) :
    cmpInt (!unsigned) cc x y = condition cc (asInt unsigned x) (asInt unsigned y) := by
  have hlt : (if (!unsigned) = true then x.slt y else x.ult y) = decide (asInt unsigned x < asInt unsigned y) := by
    rw [Bool.eq_iff_iff, lt_iff_asInt, decide_eq_true_iff]
  have heq : decide (x = y) = decide (asInt unsigned x = asInt unsigned y) := decide_eq_decide.2 (eq_iff_asInt unsigned x y)
  rw [cmpInt, hlt, heq, condCode_eq]

theorem plopBit_eq (t : BitVec 8) (a b c : Bool) : plopBit t a b c = tableBit t a b c := by
  cases a <;> cases b <;> cases c <;> rfl

/-- An index extended to an address is its value modulo 2^64. -/
theorem extended_eq_ofInt (signed : Bool) (x : Word) :
    (if signed = true then x.signExtend 64 else x.setWidth 64) = BitVec.ofInt 64 (asInt (!signed) x) := by
  cases signed with
  | false => simp [asInt]
  | true => rfl

theorem leaVal_eq (signed : Bool) (base : DWord) (idx : Word) (c : BitVec 8) (sh : Nat) :
    leaVal signed base idx c sh = scaled signed base idx c sh := by
  have hsh : BitVec.twoPow 64 sh = BitVec.ofInt 64 (2 ^ sh) := by
    apply BitVec.eq_of_toNat_eq
    rw [BitVec.toNat_twoPow, BitVec.toNat_ofInt]
    norm_cast
  rw [leaVal, scaled, extended_eq_ofInt, BitVec.shiftLeft_eq_mul_twoPow, hsh, BitVec.ofInt_add, BitVec.ofInt_mul,
    BitVec.ofInt_add, BitVec.ofInt_natCast, BitVec.ofInt_natCast, BitVec.ofNat_toNat, BitVec.ofNat_toNat, BitVec.setWidth_eq]

/-! The instructions (R54 to R56). -/

/-- A group-wide instruction of two sources. -/
theorem group2_writes (s : State) (i : Instr) (w : W0) (r : Alu) (f : Word → Word → Word)
    (he : exec i s = .next (s.group2 w r f)) :
    WritesGroup s i w (one w.d.toNat (f (s.rdG w.a.toNat) (s.gOp r))) :=
  groupExec_writes s i w _ (fun s => f (s.rdG w.a.toNat) (s.gsrc r)) he

/-- A group-wide instruction of one source. -/
theorem group1_writes (s : State) (i : Instr) (w : W0) (f : Word → Word) (he : exec i s = .next (s.group1 w f)) :
    WritesGroup s i w (one w.d.toNat (f (s.rdG w.a.toNat))) :=
  groupExec_writes s i w _ (fun s => f (s.rdG w.a.toNat)) he

/-- Settles O1: each is of a common group-wide form, its value put in the manual's terms by the lemmas above. -/
theorem groupWideArithmeticResults : Obligations.GroupWideArithmeticResults := by
  refine ⟨fun s w r imm => ?_, fun s w r => ?_⟩
  · dsimp only
    rw [← shlBy_eq, ← shrBy_eq, ← sarBy_eq, ← minInt_eq, ← maxInt_eq, ← popcW_eq, ← ofNat_ctz_eq]
    exact ⟨group1_writes s _ w id rfl, groupExec_writes s _ w _ (fun _ => imm) rfl, group2_writes s _ w r (· + ·) rfl,
      group2_writes s _ w r (· - ·) rfl, group2_writes s _ w r (· * ·) rfl,
      groupExec_writes s _ w _ (fun s => s.rdG w.a.toNat * s.rdG r.b.toNat + s.rdG r.c.toNat) rfl,
      group2_writes s _ w r (· &&& ·) rfl, group2_writes s _ w r (· ||| ·) rfl, group2_writes s _ w r (· ^^^ ·) rfl,
      group2_writes s _ w r shlBy rfl, group2_writes s _ w r shrBy rfl, group2_writes s _ w r sarBy rfl,
      group2_writes s _ w r (minInt (!zType r)) rfl, group2_writes s _ w r (maxInt (!zType r)) rfl,
      groupExec_writes64 s _ w _ (fun s => s.rdG64 w.a.toNat + s.gsrc64 r) rfl, group1_writes s _ w popcW rfl,
      group1_writes s _ w (fun a => BitVec.ofNat 32 (ctz 32 a.toNat)) rfl⟩
  · dsimp only
    rw [← cmpInt_eq, ← cmpInt_eq, ← plopBit_eq, ← leaVal_eq]
    exact ⟨groupExec_writesP s _ w _ (fun s =>
        if tyWide r then cmpInt (!tyUnsigned r) (ccOf r) (s.rdG64 w.a.toNat) (s.gsrc64 r)
        else cmpInt (!tyUnsigned r) (ccOf r) (s.rdG w.a.toNat) (s.gsrc r)) rfl,
      groupExec_writes s _ w _ (fun s => if s.rdGP r.c.toNat then s.rdG w.a.toNat else s.rdG r.b.toNat) rfl,
      groupExec_writesP s _ w _ (fun s =>
        plopBit r.c (s.rdGP w.a.toNat) (s.rdGP r.b.toNat) (s.rdGP (r.opx.toNat % 4))) rfl,
      groupExec_writes64 s _ w _ (fun s =>
        leaVal (r.ty.toNat = 8) (s.rdG64 w.a.toNat) (s.rdG r.b.toNat) r.c r.opx.toNat) rfl⟩

end Sys2Proof.Machine
end

section
/-!
PROOF. GSREAD and LSREAD (03_groupwide R59 to R61; 07_lanes R140), and the statement made of them.
-/

namespace Sys2Proof.Machine

/-! Words of lane indices (07_lanes R140). -/

/-- The lanes below a lane. -/
theorem ofNat_lanesBelow (L : Nat) : (BitVec.ofNat 32 (2 ^ L - 1) : Word) = ofBits (fun i => decide (i < L)) := by
  refine BitVec.eq_of_getLsbD_eq fun i hi => ?_
  rw [BitVec.getLsbD_ofNat, Nat.testBit_two_pow_sub_one, ofBits, BitVec.getLsbD_ofFnLE]
  simp [hi]

/-- The lanes above a lane. -/
theorem ofNat_lanesAbove {L : Nat} (hL : L < 32) :
    (BitVec.ofNat 32 (2 ^ 32 - 2 ^ (L + 1)) : Word) = ofBits (fun i => decide (L < i)) := by
  have hpos : 0 < 2 ^ (L + 1) := Nat.two_pow_pos _
  have hle : 2 ^ (L + 1) ≤ 2 ^ 32 := Nat.pow_le_pow_right (by decide) hL
  refine BitVec.eq_of_getLsbD_eq fun i hi => ?_
  have hx : 2 ^ (L + 1) = (2 ^ (L + 1) - 1) + 1 := by omega
  rw [BitVec.getLsbD_ofNat, hx, Nat.testBit_two_pow_sub_succ (by omega), Nat.testBit_two_pow_sub_one, ofBits,
    BitVec.getLsbD_ofFnLE]
  simp only [hi, decide_true, Bool.true_and]
  rw [← decide_not, dif_pos trivial, decide_eq_decide]
  omega

/-- What is written in lanes depends on the values of the 32 lanes alone. -/
theorem LanesWritten.congr {s t : State} {m : Word} {lapse : Bool} {v v' : Nat → List (Nat × Word)}
    (h : LanesWritten s t m lapse v) (hv : ∀ L, L < 32 → v L = v' L) : LanesWritten s t m lapse v' := by
  obtain ⟨honly, hget, hframe⟩ := h
  refine ⟨hv 0 (by decide) ▸ honly, fun n L hL => hv L hL ▸ hget n L hL, hframe⟩

/-! LSREAD and GSREAD, special by special. -/

theorem exec_lsread (w : W0) (s : State) : exec (.lsread w) s = execLsread w s := rfl
theorem exec_gsread (w : W0) (s : State) : exec (.gsread w) s = execGsread w s := rfl

/-- A special that LSREAD writes at once. -/
theorem lsread_puts {s : State} {w : W0} {f f' : Nat → Word}
    (he : exec (.lsread w) s = .next (s.wr w.d.toNat (s.activeW w) f).cont) (hf : ∀ L, L < 32 → f L = f' L) :
    ∃ u, exec (.lsread w) s = .next u.cont ∧ LanesWritten s u (s.activeW w) false (fun L => one w.d.toNat (f' L)) :=
  ⟨_, he, (s.wr_written _ _ f).congr fun L hL => by rw [hf L hL]⟩

/-- The specials that LSREAD writes at once, of each lane (07_lanes R140). -/
def State.laneSpecial (s : State) (k L : Nat) : Word :=
  match k with
  | 0 => BitVec.ofNat 32 L
  | 1 => s.grp.workidx.getD L 0
  | 2 => if s.curB then 1 else 0
  | 3 => ofBits (fun i => decide (i < L))
  | _ => ofBits (fun i => decide (L < i))

theorem lsread_writes_laneSpecial (s : State) {w : W0} {k : Nat} (hk : w.a.toNat = k) (h : k < 5) :
    ∃ u, exec (.lsread w) s = .next u.cont
      ∧ LanesWritten s u (s.activeW w) false (fun L => one w.d.toNat (s.laneSpecial k L)) := by
  interval_cases k
  · exact lsread_puts (by simp only [exec_lsread, execLsread, hk]; rfl) fun _ _ => rfl
  · exact lsread_puts (by simp only [exec_lsread, execLsread, hk]; rfl) fun _ _ => rfl
  · exact lsread_puts (by simp only [exec_lsread, execLsread, hk]; rfl) fun _ _ => rfl
  · exact lsread_puts (by simp only [exec_lsread, execLsread, hk]) fun L _ => ofNat_lanesBelow L
  · exact lsread_puts (by simp only [exec_lsread, execLsread, hk]) fun _ hL => ofNat_lanesAbove hL

theorem State.leaseClk_eq (s : State) :
    s.leaseClk = BitVec.ofNat 32 (if s.grp.count then s.lat.lc else s.dieTime s.grp.die / 64) := by
  unfold State.leaseClk
  split <;> rfl

theorem State.afterAcquire_free {s : State} (h : s.acquireOut s.cur = false) (k : State) : s.afterAcquire k = k := by
  simp [State.afterAcquire, h]

theorem State.afterAcquire_held {s : State} (h : s.acquireOut s.cur = true) (k : State) :
    s.afterAcquire k = s.holdIssue := by
  simp [State.afterAcquire, h]

/-- LSREAD of LEASECLK and of the time, tracked (R60). -/
theorem exec_lsread_leaseClk (s : State) {w : W0} (hk : w.a.toNat = 5) : exec (.lsread w) s
    = .next (s.issueOp w.f { v := pendLanes w.d.toNat (s.activeW w) (fun _ => s.leaseClk) }).cont := by
  simp only [exec_lsread, execLsread, hk]

theorem exec_lsread_timeLo (s : State) {w : W0} (hk : w.a.toNat = 6) (hm : s.activeW w ≠ 0) : exec (.lsread w) s
    = .next (s.afterAcquire ((s.readTime true).1.issueOp w.f
        { v := pendLanes w.d.toNat (s.activeW w) (fun _ => (s.readTime true).2) }).cont) := by
  simp only [exec_lsread, execLsread, hk, if_neg hm]

theorem exec_lsread_timeHi (s : State) {w : W0} (hk : w.a.toNat = 7) : exec (.lsread w) s
    = .next (s.afterAcquire (s.issueOp w.f
        { v := pendLanes w.d.toNat (s.activeW w) (fun _ => s.grp.tlatch) }).cont) := by
  simp only [exec_lsread, execLsread, hk]
  rfl

/-- GSREAD of LEASECLK, of PRIVBASE and of the time. -/
theorem exec_gsread_leaseClk (s : State) {w : W0} (hk : w.a.toNat = 9) : exec (.gsread w) s
    = .next (if s.guardW w then (s.issueOp w.f { g := [{ key := w.d.toNat, val := s.leaseClk }] }).cont
      else (s.issueOp w.f {}).cont) := by
  simp only [exec_gsread, execGsread, hk]

theorem exec_gsread_privBase (s : State) {w : W0} (hk : w.a.toNat = 17) : exec (.gsread w) s
    = .next (s.groupExec w (fun s => s.wrG64 w.d.toNat (BitVec.ofNat 64 (s.privBase s.grp)))) := by
  simp only [exec_gsread, execGsread, hk]

theorem exec_gsread_timeLo (s : State) {w : W0} (hk : w.a.toNat = 18) : exec (.gsread w) s
    = .next (s.afterAcquire (if s.guardW w then
        ((s.readTime true).1.issueOp w.f { g := [{ key := w.d.toNat, val := (s.readTime true).2 }] }).cont
      else (s.issueOp w.f {}).cont)) := by
  simp only [exec_gsread, execGsread, hk]

theorem exec_gsread_timeHi (s : State) {w : W0} (hk : w.a.toNat = 19) : exec (.gsread w) s
    = .next (s.afterAcquire (if s.guardW w then
        (s.issueOp w.f { g := [{ key := w.d.toNat, val := s.grp.tlatch }] }).cont
      else (s.issueOp w.f {}).cont)) := by
  simp only [exec_gsread, execGsread, hk]
  rfl

theorem State.special_slots (s : State) :
    s.special 11 = BitVec.ofNat 32 (s.grp.ownRecords + s.other.v.toNat) := by
  show BitVec.ofNat 32 (s.grp.ownRecords + if s.other.v then 1 else 0) = _
  cases s.other.v <;> rfl

/-- A special that is not tracked and fits one register is written at once. -/
theorem gsread_writes_special (s : State) {w : W0} (h : w.a.toNat ∉ [9, 17, 18, 19]) :
    WritesGroup s (.gsread w) w (one w.d.toNat (s.special w.a.toNat)) := by
  refine groupExec_writes s _ w _ (fun s => s.special w.a.toNat) ?_
  rw [exec_gsread, execGsread]
  split
  case h_5 => rfl
  all_goals next hk => simp [hk] at h

/-- Settles O33: LSREAD writes the specials below 5 at once and leaves the others to the completion; GSREAD writes
PRIVBASE and those of `State.special` at once, the lease clock and the time at the completion. -/
theorem specialRegistersRead : Obligations.SpecialRegistersRead := by
  intro s w g d k m time latched lease tracked lanes t c puts
  have hlease : s.leaseClk = lease := s.leaseClk_eq
  refine ⟨fun hk => ?_, fun hk => ?_, fun hk => ?_, fun hk => ?_, fun hk => ?_, fun hk => ?_, fun hk ha hm => ?_,
    fun hk ha => ?_, fun hk ha => ?_, fun hg hk ha => ?_, fun hg hk => ?_, fun hg hk ha => ?_, fun hg hk ha => ?_,
    fun hk ha => ?_, fun hk => ?_, fun x hx => ?_⟩
  · exact lsread_writes_laneSpecial s hk (by decide)
  · exact lsread_writes_laneSpecial s hk (by decide)
  · exact lsread_writes_laneSpecial s hk (by decide)
  · simpa only [State.laneSpecial] using lsread_writes_laneSpecial s hk (by decide : 3 < 5)
  · simpa only [State.laneSpecial] using lsread_writes_laneSpecial s hk (by decide : 4 < 5)
  · rw [exec_lsread_leaseClk s hk, hlease]; rfl
  · rw [exec_lsread_timeLo s hk hm, State.afterAcquire_free ha]; rfl
  · rw [exec_lsread_timeHi s hk, State.afterAcquire_free ha]; rfl
  · rcases hk with hk | hk
    · simp only [exec_lsread, execLsread, show w.a.toNat = 6 from hk, State.afterAcquire_held ha]
    · rw [exec_lsread_timeHi s hk, State.afterAcquire_held ha]
  · obtain hk | hk | hk : w.a.toNat = 9 ∨ w.a.toNat = 18 ∨ w.a.toNat = 19 := by simpa using hk
    · rw [exec_gsread_leaseClk s hk, hg]; rfl
    · rw [exec_gsread_timeLo s hk, State.afterAcquire_free ha, hg]; rfl
    · rw [exec_gsread_timeHi s hk, State.afterAcquire_free ha, hg]; rfl
  · rw [exec_gsread_leaseClk s hk, hg, hlease]; rfl
  · rw [exec_gsread_timeLo s hk, State.afterAcquire_free ha, hg]; rfl
  · rw [exec_gsread_timeHi s hk, State.afterAcquire_free ha, hg]; rfl
  · rcases hk with hk | hk
    · rw [exec_gsread_timeLo s hk, State.afterAcquire_held ha]
    · rw [exec_gsread_timeHi s hk, State.afterAcquire_held ha]
  · exact groupExec_writes64 s _ w d (fun s => BitVec.ofNat 64 (s.privBase s.grp)) (exec_gsread_privBase s hk)
  · obtain ⟨hk, rfl⟩ : k ∉ [9, 17, 18, 19] ∧ s.special k = x := by
      rw [show BitVec.ofNat 32 (g.ownRecords + s.other.v.toNat) = s.special 11 from s.special_slots.symm] at hx
      simp only [List.mem_cons, Prod.mk.injEq, List.not_mem_nil, or_false] at hx
      rcases hx with ⟨hk, rfl⟩ | ⟨hk, rfl⟩ | ⟨hk, rfl⟩ | ⟨hk, rfl⟩ | ⟨hk, rfl⟩ | ⟨hk, rfl⟩ | ⟨hk, rfl⟩ | ⟨hk, rfl⟩
        | ⟨hk, rfl⟩ | ⟨hk, rfl⟩ | ⟨hk, rfl⟩ | ⟨hk, rfl⟩ | ⟨hk, rfl⟩ | ⟨hk, rfl⟩ | ⟨hk, rfl⟩ | ⟨hk, rfl⟩
      all_goals rw [hk]; exact ⟨by decide, rfl⟩
    exact gsread_writes_special s hk

end Sys2Proof.Machine
end

section
/-!
PROOF. The checks of an access, lane by lane and group-wide (03_groupwide R57; 09_memory R175, R178, R185), and the
statement made of them.
-/

namespace Sys2Proof.Machine

/-! Orders, sources and traps. -/

theorem State.ordered_free {s : State} {rel : Bool} (ha : s.acquireOut s.cur = false)
    (hr : rel = true → s.releaseWaits s.cur = false) (k : State) : s.ordered rel k = k := by
  cases rel with
  | false => simp [State.ordered, ha]
  | true => simp [State.ordered, ha, hr rfl]

theorem State.readSources_clean {s : State} {m : Word} {regs : Nat → List Nat} (h : ReadsClean s m regs) :
    s.readSources m regs = (if s.lapses m regs then s.setMemst memstLAPSE else s, [], m) := by
  simp only [State.readSources, (readTraps_nil_iff s m regs).2 h, without_nil]

/-- No FPSTAT bits recorded before a trap is raised leave the trap's state as it is. -/
theorem State.orFpstat_zero_raise (s : State) {ts : List LaneTrap} (h : ts ≠ []) :
    (s.orFpstat 0).raise ts true = s.raise ts true := by
  have hslot : (s.orFpstat 0).slot = s.slot := by
    rw [State.slot, State.orFpstat, State.modGrp_grp]
    cases s.curB <;> rfl
  have htrap : (s.orFpstat 0).trapHere 0 ts true 0 = s.trapHere 0 ts true 0 := by
    rw [State.trapHere, hslot]
    rfl
  have hne : ts.isEmpty = false := by simpa using h
  rw [State.raise, State.raise, htrap, hne]
  simp only [Bool.false_eq_true, if_false, State.orFpstat, State.modGrp_modGrp, BitVec.or_zero]
  rfl

theorem lanesOf_ne_nil {m : Word} (h : m ≠ 0) : lanesOf m ≠ [] := by
  intro hnil
  refine h (BitVec.eq_of_getLsbD_eq fun L hL => ?_)
  have hnot : L ∉ lanesOf m := by simp [hnil]
  simpa [mem_lanesOf, hL, inMask] using hnot

/-- A counted instruction some of whose lanes trap: nothing is left to complete where no lane goes on (R178). -/
theorem State.finishCounted_traps {α : Type} (s : State) (f : Bool) {ts : List LaneTrap} (l : List α)
    [Decidable (l = [])] (o : PendOp) (h : ts ≠ []) :
    s.finishCounted f ts (!l.isEmpty) o = (if l = [] then s else s.issueOp f o).raise ts true := by
  cases l <;> simp [State.finishCounted, State.finish, h]

/-- An illegal instruction apart, a trap of the slot's mask records the address given. -/
theorem State.raiseSlot_eq (s : State) {cause : Nat} (h : cause ≠ cILL) (addr : DWord) :
    s.raiseSlot cause addr = s.raiseMask cause s.slot.act addr := by
  rw [State.raiseSlot, if_neg h]

/-! The checks of a lane access (R175). -/

theorem Acc.writes_eq (acc : Acc) : acc.writes = decide (acc ≠ .r ∧ acc ≠ .x) := by
  cases acc <;> rfl

theorem State.translateLanes_lanes (s : State) (acc : Acc) (va : Nat → Nat) (l : List Nat) :
    (s.translateLanes acc va l).2.map (·.1) = l := by
  induction l generalizing s with
  | nil => rfl
  | cons L t ih => simp only [State.translateLanes, List.map_cons, ih]

/-- The check that a lane's address fails before translation, if it fails one. -/
def addrCause (addr : Nat → DWord) (al : Nat → Bool) (L : Nat) : Option Nat :=
  if canonical (addr L) = false then some cBADA else if al L then some cALGN else none

/-- The lanes whose addresses are translated, each with its place or its cause. -/
def State.translated (s : State) (ok : Word) (addr : Nat → DWord) (al : Nat → Bool) (acc : Acc) :
    State × List (Nat × Except Nat Xl) :=
  s.translateLanes acc (fun L => vaOf (addr L)) ((lanesOf ok).filter (fun L => addrCause addr al L = none))

/-- The check that a lane's access fails after translation, if it fails one. -/
def State.accCause (u : State) (acc : Acc) (e : Bool) (a : LaneAcc) : Option Nat :=
  if u.memLocked u.cur acc.writes a.vas then some cRLK
  else if e = true ∧ elemBad a.x a.va acc.writes = true then some cFMTX else none

/-- The accesses of the lanes that translated. -/
def placedAccs (acc : Acc) (e : Bool) (size : Nat) (addr : Nat → DWord) (rs : List (Nat × Except Nat Xl)) :
    List LaneAcc :=
  (placesOf rs).map (fun x => laneAcc e size (if acc.writes then 1 else 0) x.1 (vaOf (addr x.1)) x.2)

theorem isNone_eq_decide {α : Type} (o : Option α) [Decidable (o = none)] : o.isNone = decide (o = none) := by
  cases o <;> simp

theorem addrCause_eq (addr : Nat → DWord) (al : Nat → Bool) (L : Nat) :
    (if (!canonical (addr L)) = true then some cBADA else if al L then some cALGN else none) = addrCause addr al L := by
  simp only [addrCause, Bool.not_eq_true']

section
variable (s : State) (ok : Word) (ts : List LaneTrap) (addr : Nat → DWord) (al : Nat → Bool) (acc : Acc) (e : Bool)
  (size : Nat)

theorem State.checkLanes_parked {L c : Nat} {rest : List (Nat × Nat)}
    (h : faultsOf (s.translated ok addr al acc).2 = (L, c) :: rest) :
    s.checkLanes ok ts addr al acc e size = .parked ((s.translated ok addr al acc).1.parkFault c
      (maskOf (fun k => k = L || rest.any (fun f => f.1 = k))) (addr L)) := by
  rw [State.translated] at h ⊢
  simp only [State.checkLanes, addrCause_eq, isNone_eq_decide, h]

theorem State.checkLanes_go (h : faultsOf (s.translated ok addr al acc).2 = []) :
    s.checkLanes ok ts addr al acc e size = .go (s.translated ok addr al acc).1
      (ts ++ (lanesOf ok).filterMap (fun L => (addrCause addr al L).map (fun c => { lane := L, cause := c, addr := addr L }))
        ++ (placedAccs acc e size addr (s.translated ok addr al acc).2).filterMap (fun a =>
          ((s.translated ok addr al acc).1.accCause acc e a).map
            (fun c => { lane := a.lane, cause := c, addr := addr a.lane })))
      ((placedAccs acc e size addr (s.translated ok addr al acc).2).filter
        (fun a => (s.translated ok addr al acc).1.accCause acc e a = none)) := by
  rw [State.translated] at h ⊢
  simp only [State.checkLanes, addrCause_eq, isNone_eq_decide, Bool.and_eq_true, h]
  rfl

end

/-- Where every lane fails the same check before translation, nothing is translated and every lane traps. -/
theorem State.checkLanes_allFail (s : State) {ok : Word} {c : Nat} (ts : List LaneTrap) {addr : Nat → DWord}
    {al : Nat → Bool} (acc : Acc) (e : Bool) (size : Nat) (h : ∀ L ∈ lanesOf ok, addrCause addr al L = some c) :
    s.checkLanes ok ts addr al acc e size
      = .go s (ts ++ (lanesOf ok).map (fun L => { lane := L, cause := c, addr := addr L })) [] := by
  have hnone : s.translated ok addr al acc = (s, []) := by
    have hf : (lanesOf ok).filter (fun L => addrCause addr al L = none) = [] := by
      rw [List.filter_eq_nil_iff]
      intro L hL
      simp [h L hL]
    rw [State.translated, hf, State.translateLanes]
  have hmap : (lanesOf ok).filterMap (fun L => (addrCause addr al L).map
        (fun c => ({ lane := L, cause := c, addr := addr L } : LaneTrap)))
      = (lanesOf ok).map (fun L => { lane := L, cause := c, addr := addr L }) := by
    rw [← List.filterMap_eq_map]
    exact List.filterMap_congr fun L hL => by rw [h L hL]; rfl
  rw [State.checkLanes_go _ _ _ _ _ _ _ _ (by rw [hnone]; rfl), hnone, hmap]
  simp [placedAccs, placesOf]

/-! Lane loads and stores with lanes that trap (R178). -/

section
variable {s : State} {i : Instr} {w : W0} {m : MemF} {regs : List Nat} {addr : Nat → DWord} {al : Nat → Bool}

/-- A lane access all of whose lanes fail one check goes on with their traps alone. -/
theorem State.laneAccess_allFail {act : Word} {acc : Acc} {c : Nat} (hclean : ReadsClean s act (fun _ => regs))
    (h : ∀ L ∈ lanesOf act, addrCause addr al L = some c) (k : State → List LaneTrap → List LaneAcc → State) :
    s.laneAccess act m acc regs addr al k = k (if s.lapses act (fun _ => regs) then s.setMemst memstLAPSE else s)
      ((lanesOf act).map (fun L => { lane := L, cause := c, addr := addr L })) [] := by
  simp only [State.laneAccess, State.readSources_clean hclean, State.checkLanes_allFail _ _ _ _ _ h, List.nil_append]

/-- A lane access that does nothing but raise the traps where no lane is left. -/
theorem addressTraps_of_laneAccess {rel : Bool} {acc : Acc} {k : State → List LaneTrap → List LaneAcc → State}
    (he : exec i s = .next (s.ordered rel (s.laneAccess (s.activeW w) m acc regs addr al k)))
    (hk : ∀ (u : State) ts, ts ≠ [] → k u ts [] = u.raise ts true) : AddressTraps s i w regs addr al rel := by
  intro ha hr hact hclean
  have hall : ∀ c, (∀ L ∈ lanesOf (s.activeW w), addrCause addr al L = some c) → exec i s
      = .next ((if s.lapses (s.activeW w) (fun _ => regs) then s.setMemst memstLAPSE else s).raise
        ((lanesOf (s.activeW w)).map (fun L => { lane := L, cause := c, addr := addr L })) true) := by
    intro c hc
    rw [he, State.ordered_free ha hr, State.laneAccess_allFail hclean hc, hk _ _ (by simpa using lanesOf_ne_nil hact)]
  refine ⟨fun h => hall cBADA fun L hL => ?_, fun h => hall cALGN fun L hL => ?_⟩
  · rw [addrCause, if_pos (h L hL)]
  · obtain ⟨hcan, hal⟩ := h L hL
    rw [addrCause, if_neg (by simp [hcan]), if_pos hal]

/-- With every lane trapping, a load or a store does nothing but raise the traps. -/
theorem State.performLoad_none (u : State) (md : LoadMode) {ts : List LaneTrap} (h : ts ≠ []) :
    u.performLoad w m md addr ts [] = u.raise ts true := by
  simp only [State.performLoad, State.loadLanes, List.filter_nil, List.map_nil, List.append_nil, List.foldl_nil,
    State.finishCounted_traps _ _ _ _ h, if_true, State.orFpstat_zero_raise _ h]

theorem State.performStore_none (u : State) (dflt : Nat) (data : Nat → List Word) {ts : List LaneTrap} (h : ts ≠ []) :
    u.performStore w m dflt data ts [] = u.raise ts true := by
  have hne : ts.isEmpty = false := by simpa using h
  rw [State.performStore]
  refine (State.finishCounted_traps _ _ ([] : List LaneAcc) _ h).trans ?_
  rw [if_pos rfl, hne]
  exact u.orFpstat_zero_raise h

theorem laneLoad_addressTraps {md : LoadMode} (he : exec i s = .next (s.laneLoad w m regs addr al md)) :
    AddressTraps s i w regs addr al false :=
  addressTraps_of_laneAccess he fun u _ h => u.performLoad_none md h

theorem laneStoreAt_addressTraps {dflt : Nat} (he : exec i s = .next (s.laneStoreAt w m regs addr al dflt)) :
    AddressTraps s i w (regs ++ dataRegs w m.ty.toNat) addr al (memRel m) :=
  addressTraps_of_laneAccess he fun u _ h => u.performStore_none dflt _ h

/-- What a lane access goes on with is what its checks answer. -/
theorem State.laneAccess_go {act : Word} {acc : Acc} {u : State} {ts : List LaneTrap} {accs : List LaneAcc}
    (h : (s.readSources act (fun _ => regs)).1.checkLanes (s.readSources act (fun _ => regs)).2.2
      (s.readSources act (fun _ => regs)).2.1 addr al acc m.e (tySize m.ty.toNat) = .go u ts accs)
    (k : State → List LaneTrap → List LaneAcc → State) : s.laneAccess act m acc regs addr al k = k u ts accs := by
  simp only [State.laneAccess, h]

theorem laneLoad_splits {md : LoadMode} (he : exec i s = .next (s.laneLoad w m regs addr al md)) :
    LoadSplits s i w m regs addr al md := by
  intro ha u traps accs hsplit r good all v hall
  rw [he, State.laneLoad, State.ordered_free ha (by simp), State.laneAccess_go hsplit, State.performLoad]
  exact congrArg _ (State.finishCounted_traps _ _ good _ hall)

theorem laneStoreAt_splits {dflt : Nat} (he : exec i s = .next (s.laneStoreAt w m regs addr al dflt)) :
    StoreSplits s i w m regs addr al dflt := by
  intro ha hr u traps accs hsplit out v htraps
  have hne : traps.isEmpty = false := by simpa using htraps
  rw [he, State.laneStoreAt, State.ordered_free ha hr, State.laneAccess_go hsplit, State.performStore]
  refine congrArg _ ((State.finishCounted_traps _ _ accs _ htraps).trans ?_)
  rw [hne]
  cases accs with
  | nil => rfl
  | cons a rest => rfl

end

/-! Group-wide accesses (03_groupwide R57). -/

section
variable {s : State} {a : DWord} {size : Nat} {acc : Acc}

/-- A group-wide access that passes every check. -/
theorem State.groupAccess_go (hc : canonical a = true) (hal : a.toNat % size = 0) {u : State} {x : Xl}
    (ht : s.translate s.grp.ctx s.grp.die (vaOf a) acc (some s.grp.core) = (u, .ok x))
    (hl : u.memLocked u.cur acc.writes ((List.range size).map (vaOf a + ·)) = false) (k : State → LaneAcc → State) :
    s.groupAccess a size acc k = k u { va := vaOf a, x, vas := (List.range size).map (vaOf a + ·) } := by
  simp [State.groupAccess, hc, misaligned, hal, ht, laneAcc, hl]

theorem groupAccess_traps {i : Instr} {k : State → LaneAcc → State} (hw : acc.writes = decide (acc = .w))
    (he : exec i s = .next (s.groupAccess a size acc k)) : GroupAccessTraps s i a size acc := by
  refine ⟨fun hc => ?_, fun hc hal => ?_, fun hc hal => ⟨fun u c hr => ?_, fun u x hr hl => ?_⟩⟩
  · rw [he, ← s.raiseSlot_eq (by decide) a]
    simp [State.groupAccess, hc]
  · rw [he, ← s.raiseSlot_eq (by decide) a]
    simp [State.groupAccess, hc, misaligned, hal]
  · rw [he]
    simp [State.groupAccess, hc, misaligned, hal, hr]
  · rw [he, ← u.raiseSlot_eq (by decide) a]
    rw [← hw] at hl
    simp [State.groupAccess, hc, misaligned, hal, hr, laneAcc, hl]

end

theorem exec_gld (w : W0) (m : MemF) (s : State) : exec (.gld w m) s = execGld w m s := rfl
theorem exec_gst (w : W0) (m : MemF) (s : State) : exec (.gst w m) s = execGst w m s := rfl

/-- GLD and GST past their order, their guard true. -/
theorem exec_gld_guarded {s : State} {w : W0} (m : MemF) (hg : s.guardW w = true) (ha : s.acquireOut s.cur = false) :
    exec (.gld w m) s = .next (s.groupAccess (s.groupAddr w m (tySize m.ty.toNat)) (tySize m.ty.toNat) .r (fun u la =>
      if (u.loadLane u.cur (memMode m 1) false m.ty.toNat la).2.pois then
        (u.loadLane u.cur (memMode m 1) false m.ty.toNat la).1.raiseSlot cPOIS (s.groupAddr w m (tySize m.ty.toNat))
      else ((u.loadLane u.cur (memMode m 1) false m.ty.toNat la).1.issueOp w.f
        { kind := .load, acq := (memMode m 1).acqOp
          g := mapI (u.loadLane u.cur (memMode m 1) false m.ty.toNat la).2.words
            (fun i x => { key := w.d.toNat + i, val := x }) }).cont)) := by
  rw [exec_gld, execGld, State.ordered_free ha (by simp), hg]
  rfl

theorem exec_gst_guarded {s : State} {w : W0} (m : MemF) (hg : s.guardW w = true) (ha : s.acquireOut s.cur = false)
    (hr : memRel m = true → s.releaseWaits s.cur = false) :
    exec (.gst w m) s = .next (s.groupAccess (s.groupAddr w m (tySize m.ty.toNat)) (tySize m.ty.toNat) .w (fun u la =>
      ((u.storeBytes u.cur (pieceBytes la.x (lowBytes (tySize m.ty.toNat)
        ((List.range (tyRegs m.ty.toNat)).map (fun i => s.rdG (w.d.toNat + i))))) (memScope m 1) (memRel m)).issueOp
          w.f {}).cont)) := by
  rw [exec_gst, execGst, State.ordered_free ha hr, hg]
  rfl

/-! The six lane accesses. -/

/-- A misaligned block concerns every lane (R185). -/
theorem State.blockAlign_eq (s : State) (w : W0) (m : MemF) : s.blockAlign w m
    = fun _ => !m.e && decide ((s.groupAddr w m (32 * memUnit m)).toNat % (32 * tySize m.ty.toNat) ≠ 0) := by
  funext L
  cases he : m.e with
  | true => simp [State.blockAlign, he]
  | false => simp [State.blockAlign, misaligned, memUnit, he]

/-- Settles O28: each lane access is `State.laneLoad` or `State.laneStoreAt` of its addresses, GLD and GST are
`State.groupAccess`; what the checks answer is `State.checkLanes_parked` and `State.checkLanes_go`. -/
theorem badAddressesTrap : Obligations.BadAddressesTrap := by
  refine ⟨fun s w m => ?_, fun s ok ts addr al acc e size => ?_⟩
  · dsimp only
    rw [← s.blockAlign_eq w m]
    refine ⟨laneLoad_addressTraps rfl, laneStoreAt_addressTraps rfl, laneLoad_addressTraps rfl,
      laneStoreAt_addressTraps (regs := []) rfl, laneLoad_addressTraps rfl, laneStoreAt_addressTraps rfl,
      laneLoad_splits rfl, laneStoreAt_splits rfl, laneLoad_splits rfl, laneStoreAt_splits rfl, laneLoad_splits rfl,
      laneStoreAt_splits rfl,
      fun hg ha => ⟨groupAccess_traps rfl (exec_gld_guarded m hg ha), fun hc hal u x hr hl hp => ?_⟩,
      fun hg ha hrel => groupAccess_traps rfl (exec_gst_guarded m hg ha hrel)⟩
    rw [exec_gld_guarded m hg ha, State.groupAccess_go hc hal hr hl, if_pos hp, State.raiseSlot_eq _ (by decide)]
  · dsimp only
    simp only [← Acc.writes_eq]
    exact ⟨s.translateLanes_lanes _ _ _, fun L c rest hf => s.checkLanes_parked ok ts addr al acc e size hf,
      fun hf => s.checkLanes_go ok ts addr al acc e size hf⟩

end Sys2Proof.Machine
end

section
/-!
PROOF. The slots, the record stack and the split of a path (04_control R63, R65, R70 to R72), and the statement made of
them.
-/

namespace Sys2Proof.Machine

/-! The slots, records and call depth of the issuing group (04_control R63, R71). -/

/-- The two slots of a group, its records and its call depth replaced. -/
def Group.withPaths (g : Group) (b : Bool) (x o : PcSlot) (recs : List DivRec) (depth : Nat) : Group :=
  ({ g with recs := recs, calldepth := depth }.setSlot (!b) o).setSlot b x

/-- A change of the issuing group that replaces no more than its slots, records and call depth. -/
theorem State.modGrp_pathsBecome {s : State} {f : Group → Group} {x o : PcSlot} {recs : List DivRec} {depth : Nat}
    (h : f s.grp = s.grp.withPaths s.curB x o recs depth) : PathsBecome s (s.modGrp f) x o recs depth := by
  refine ⟨onlyGroup_modGrp s f, ?_⟩
  simp only [State.slot, State.other, State.modGrp_grp, h]
  rw [show (s.modGrp f).curB = s.curB from rfl]
  cases s.curB <;> exact ⟨rfl, rfl, rfl, rfl, rfl⟩

/-- A change of the issuing group that replaces no more than its slots. -/
theorem State.modGrp_slotsBecome {s : State} {f : Group → Group} {x o : PcSlot}
    (h : f s.grp = (s.grp.setSlot (!s.curB) o).setSlot s.curB x) : SlotsBecome s (s.modGrp f) x o := by
  refine ⟨onlyGroup_modGrp s f, ?_⟩
  simp only [State.slot, State.other, State.modGrp_grp, h]
  rw [show (s.modGrp f).curB = s.curB from rfl]
  cases s.curB <;> exact ⟨rfl, rfl, rfl⟩

theorem State.putSlot_cur (s : State) (b : Bool) (x : PcSlot) : s.putSlot s.cur b x = s.modGrp (·.setSlot b x) := rfl

/-! A slot that waits no more (04_control R65). -/

theorem Core.reserve_waiters (c : Core) : c.reserve.waiters ⊆ c.waiters := by
  unfold Core.reserve
  split
  · next heq => rw [heq]; exact fun w hw => List.mem_cons_of_mem _ hw
  · exact fun _ h => h

theorem Core.waits_false_iff (c : Core) (gk : Nat) (b : Bool) :
    c.waits gk b = false ↔ ∀ w ∈ c.waiters, (!w.engine && w.grp = gk && w.slotB = b) = false := by
  rw [Core.waits, List.any_eq_false]
  exact forall₂_congr fun _ _ => by rw [Bool.not_eq_true]

/-- What a reservation released leaves of the waiters was among them before. -/
theorem State.releaseReserved_waiters (s : State) (gk : Nat) (b : Bool) (k : Nat) :
    ((s.releaseReserved gk b).coreAt k).waiters ⊆ (s.coreAt k).waiters := by
  unfold State.releaseReserved
  dsimp only
  split
  · exact fun _ h => h
  · rw [State.modCore, State.setCore_coreAt]
    split
    · next hk => rw [hk]; exact Core.reserve_waiters _
    · exact fun _ h => h

theorem State.dropWait_waits (s : State) (gk : Nat) (b : Bool) :
    ((s.dropWait gk b).coreAt (coreKey (s.group gk).die (s.group gk).core)).waits gk b = false := by
  rw [Core.waits_false_iff]
  intro w hw
  have hw := State.releaseReserved_waiters _ _ _ _ hw
  split at hw
  · rw [State.modCore_coreAt, if_pos rfl] at hw
    exact (Bool.not_eq_true' _).mp (List.mem_filter.1 hw).2
  · next h => exact (Core.waits_false_iff _ _ _).1 ((Bool.not_eq_true _).mp h) w hw

@[simp] theorem State.modGrp_cur (s : State) (f : Group → Group) : (s.modGrp f).cur = s.cur := rfl
@[simp] theorem State.modGrp_curB (s : State) (f : Group → Group) : (s.modGrp f).curB = s.curB := rfl
@[simp] theorem State.modGrp_coreAt (s : State) (f : Group → Group) (k : Nat) : (s.modGrp f).coreAt k = s.coreAt k := rfl
@[simp] theorem State.modGrp_group_cur (s : State) (f : Group → Group) : (s.modGrp f).group s.cur = f s.grp :=
  s.modGrp_grp f

/-- The core of the issuing group. -/
def State.ownCore (s : State) : Nat := coreKey s.grp.die s.grp.core

theorem State.releaseReserved_none {s : State} {b : Bool} (h : (s.coreAt s.ownCore).reservedFor s.cur b = none) :
    s.releaseReserved s.cur b = s := by
  unfold State.releaseReserved
  dsimp only
  split
  · rfl
  · next heq => exact absurd (h.symm.trans heq) nofun

theorem State.releaseReserved_some {s : State} {b : Bool} {i : Nat}
    (h : (s.coreAt s.ownCore).reservedFor s.cur b = some i) :
    s.releaseReserved s.cur b = s.modCore s.ownCore (fun c => (c.freeFault i).reserve) := by
  unfold State.releaseReserved
  dsimp only
  split
  · next heq => exact absurd (h.symm.trans heq) nofun
  · next heq =>
    obtain rfl : i = _ := Option.some.inj (h.symm.trans heq)
    rfl

theorem State.modGrp_ownCore {s : State} {f : Group → Group}
    (hf : (f s.grp).die = s.grp.die ∧ (f s.grp).core = s.grp.core) : (s.modGrp f).ownCore = s.ownCore := by
  rw [State.ownCore, State.modGrp_grp, hf.1, hf.2, State.ownCore]

theorem State.modGrp_releaseReserved (s : State) (f : Group → Group) (b : Bool)
    (hf : (f s.grp).die = s.grp.die ∧ (f s.grp).core = s.grp.core) :
    (s.modGrp f).releaseReserved s.cur b = (s.releaseReserved s.cur b).modGrp f := by
  have hk := State.modGrp_ownCore hf
  have hr : ((s.modGrp f).coreAt (s.modGrp f).ownCore).reservedFor (s.modGrp f).cur b
      = (s.coreAt s.ownCore).reservedFor s.cur b := by rw [hk]; rfl
  cases h : (s.coreAt s.ownCore).reservedFor s.cur b with
  | none => rw [State.releaseReserved_none h]; exact State.releaseReserved_none (hr.trans h)
  | some i =>
    rw [State.releaseReserved_some h]
    refine (State.releaseReserved_some (hr.trans h)).trans ?_
    rw [hk]
    rfl

/-- A slot of the issuing group taken out of its core's queue of waiters. -/
def State.unqueue (s : State) (b : Bool) : State :=
  s.modCore s.ownCore (fun c =>
    { c with waiters := c.waiters.filter (fun w => !(!w.engine && w.grp = s.cur && w.slotB = b)) })

theorem State.dropWait_eq (s : State) (b : Bool) : s.dropWait s.cur b
    = (if (s.coreAt s.ownCore).waits s.cur b then s.unqueue b else s).releaseReserved s.cur b := rfl

theorem State.modGrp_unqueue {s : State} {f : Group → Group} (b : Bool)
    (hf : (f s.grp).die = s.grp.die ∧ (f s.grp).core = s.grp.core) :
    (s.modGrp f).unqueue b = (s.unqueue b).modGrp f := by
  rw [State.unqueue, State.modGrp_ownCore hf]
  rfl

/-- A change of the issuing group commutes with a slot of it that waits no more. -/
theorem State.modGrp_dropWait (s : State) (f : Group → Group) (b : Bool)
    (hf : (f s.grp).die = s.grp.die ∧ (f s.grp).core = s.grp.core) :
    (s.modGrp f).dropWait s.cur b = (s.dropWait s.cur b).modGrp f := by
  refine ((s.modGrp f).dropWait_eq b).trans ?_
  rw [State.dropWait_eq, State.modGrp_ownCore hf, State.modGrp_unqueue b hf]
  rw [State.modGrp_coreAt, State.modGrp_cur]
  split
  · exact State.modGrp_releaseReserved (s.unqueue b) f b hf
  · exact State.modGrp_releaseReserved s f b hf

/-! Records pushed (R70, R72). -/

@[simp] theorem State.orFail_ok (s t : State) (act : Word) : s.orFail act (.ok t) = t := rfl

/-- Records put on the stack, the newest first. -/
def Group.pushRecs (g : Group) (rs : List DivRec) : Group := { g with recs := rs ++ g.recs }

theorem State.push_of_room {s : State} (h : s.grp.records < 4096) (hc : s.grp.recs.length < 8) (r : DivRec) :
    s.push s.cur r = .ok (s.modGrp (·.pushRecs [r])) := by
  have h : ¬ 4096 ≤ (s.group s.cur).records := Nat.not_le.2 h
  have hc : (s.group s.cur).recs.length < 8 := hc
  simp only [State.push, if_neg h, if_pos hc]
  rfl

theorem State.push_full {s : State} (h : 4096 ≤ s.grp.records) (r : DivRec) : s.push s.cur r = .error .divx :=
  if_pos h

/-- A record pushed where it is called for, and the state with it. -/
def State.pushIf (s : State) (p : Bool) (r : DivRec) : Except StackErr State :=
  if p then s.push s.cur r else .ok s
def State.pushedIf (s : State) (p : Bool) (r : DivRec) : State := if p then s.modGrp (·.pushRecs [r]) else s

theorem State.pushIf_of_room {s : State} (h : s.grp.records < 4096) (hc : s.grp.recs.length < 8) (p : Bool)
    (r : DivRec) : s.pushIf p r = .ok (s.pushedIf p r) := by
  cases p with
  | true => exact State.push_of_room h hc r
  | false => rfl

theorem State.pushedIf_modGrp (s : State) (p : Bool) (r : DivRec) (f : Group → Group) :
    (s.pushedIf p r).modGrp f = s.modGrp (fun g => f (g.pushRecs (if p then [r] else []))) := by
  cases p with
  | true => exact s.modGrp_modGrp (·.pushRecs [r]) f
  | false => rfl

/-! A partner that leaves its slot (R65, R70). -/

theorem State.partnerOut_keeps (s : State) : s.partnerOut = { s with cores := s.partnerOut.cores } := by
  unfold State.partnerOut
  split
  · rw [State.dropWait_cores]
  · rfl

@[simp] theorem State.partnerOut_grp (s : State) : s.partnerOut.grp = s.grp := by rw [State.partnerOut_keeps]; rfl
@[simp] theorem State.partnerOut_curB (s : State) : s.partnerOut.curB = s.curB := by rw [State.partnerOut_keeps]

/-- The partner, if there is one, put on the stack and its slot waiting no more. -/
def State.evictOther (s : State) : Except StackErr State :=
  if s.other.v then (s.push s.cur s.other.evicted).map (fun u => u.dropWait u.cur (!u.curB)) else .ok s

/-- The record of the partner, if there is one. -/
def State.partnerRecs (s : State) : List DivRec := if s.other.v then [pathRec s.other] else []

/-- The state once the partner, if there is one, stands on the stack. -/
def State.partnerStacked (s : State) : State :=
  if s.other.v then s.partnerOut.modGrp (·.pushRecs [pathRec s.other]) else s

theorem State.evictOther_of_room {s : State} (h : s.grp.records < 4096) (hc : s.grp.recs.length < 8) :
    s.evictOther = .ok s.partnerStacked := by
  unfold State.evictOther State.partnerStacked State.partnerOut
  split
  · rw [State.push_of_room h hc]
    exact congrArg Except.ok (s.modGrp_dropWait _ _ ⟨rfl, rfl⟩)
  · rfl

/-- A change of the issuing group after that is one from the state in which the partner has left its slot. -/
theorem State.partnerStacked_modGrp (s : State) (f : Group → Group) :
    s.partnerStacked.modGrp f = s.partnerOut.modGrp (fun g => f (g.pushRecs s.partnerRecs)) := by
  unfold State.partnerStacked State.partnerRecs
  split
  · exact State.modGrp_modGrp ..
  · next h => rw [State.partnerOut, if_neg h]; rfl

theorem State.partnerStacked_keeps (s : State) :
    s.partnerStacked = { s with cores := s.partnerStacked.cores, groups := s.partnerStacked.groups } := by
  unfold State.partnerStacked
  split
  · rw [State.partnerOut_keeps]; rfl
  · rfl

@[simp] theorem State.partnerStacked_grp (s : State) : s.partnerStacked.grp = s.grp.pushRecs s.partnerRecs := by
  unfold State.partnerStacked State.partnerRecs
  split
  · rw [State.modGrp_grp, State.partnerOut_grp]
  · rfl
@[simp] theorem State.partnerStacked_curB (s : State) : s.partnerStacked.curB = s.curB := by
  rw [State.partnerStacked_keeps]
@[simp] theorem State.partnerStacked_lat (s : State) : s.partnerStacked.lat = s.lat := by rw [State.partnerStacked_keeps]

theorem State.partnerStacked_room {s : State} (hl : s.grp.recs.length ≤ 6) (hr : s.grp.records ≤ 4094) :
    s.partnerStacked.grp.records < 4096 ∧ s.partnerStacked.grp.recs.length < 8 := by
  have hp : s.partnerRecs.length ≤ 1 := by
    unfold State.partnerRecs
    split <;> simp
  simp only [State.partnerStacked_grp, Group.pushRecs, Group.records, List.length_append] at hr ⊢
  omega

/-! The split of a path (R70). -/

/-- The record that keeps the join address of the path that splits. -/
def outerJoin (x : PcSlot) (jn : BitVec 24) : DivRec := { kind := .join, pc := jn, ja := x.ja, mask := x.own }

/-- The issuing slot and its partner after a split. -/
def Group.placeSplit (g : Group) (b : Bool) (x : PcSlot) (next : BitVec 24) (t n : Word) (tg jn : BitVec 24) : Group :=
  (g.setSlot (!b) { v := true, pc := tg, own := t, act := t, ja := jn }).setSlot b
    (PcSlot.goto_ { x with own := n, act := n, ja := jn, nj := false } next)

theorem State.split_eq (s : State) (t n : Word) (tg jn : BitVec 24) :
    s.split t n tg jn = s.evictOther.bind (fun u => (u.pushIf (!s.slot.nj) (outerJoin s.slot jn)).map (fun u =>
      u.modGrp (fun g => g.placeSplit u.curB s.slot u.lat.next t n tg jn))) := by
  have hplace : ∀ u : State, u.modGrp (fun g => g.placeSplit u.curB s.slot u.lat.next t n tg jn)
      = (u.putSlot u.cur (!u.curB) { v := true, pc := tg, own := t, act := t, ja := jn }).setSlot
        (PcSlot.goto_ { s.slot with own := n, act := n, ja := jn, nj := false } u.lat.next) :=
    fun u => by rw [State.putSlot_cur, State.setSlot, State.modGrp_modGrp]; rfl
  simp only [hplace]
  unfold State.split State.evictOther State.pushIf
  dsimp only
  cases ho : s.other.v
  · cases hn : s.slot.nj <;> rfl
  · cases hp : s.push s.cur s.other.evicted
    · rfl
    · cases hn : s.slot.nj <;> rfl

theorem State.pushedIf_curB (s : State) (p : Bool) (r : DivRec) : (s.pushedIf p r).curB = s.curB := by
  cases p <;> rfl
theorem State.pushedIf_lat (s : State) (p : Bool) (r : DivRec) : (s.pushedIf p r).lat = s.lat := by
  cases p <;> rfl

theorem State.split_of_room {s : State} (hl : s.grp.recs.length ≤ 6) (hr : s.grp.records ≤ 4094) (t n : Word)
    (tg jn : BitVec 24) :
    s.split t n tg jn = .ok (s.partnerOut.modGrp (fun g =>
      ((g.pushRecs s.partnerRecs).pushRecs (if !s.slot.nj then [outerJoin s.slot jn] else [])).placeSplit
        s.curB s.slot s.lat.next t n tg jn)) := by
  obtain ⟨hroom, hcache⟩ := State.partnerStacked_room hl hr
  rw [State.split_eq, State.evictOther_of_room (by omega) (by omega)]
  simp only [Except.bind, State.pushIf_of_room hroom hcache, Except.map, State.pushedIf_modGrp,
    State.partnerStacked_modGrp, State.pushedIf_curB, State.pushedIf_lat, State.partnerStacked_curB,
    State.partnerStacked_lat]

/-- A split fails where a record is to be pushed on a full stack. -/
theorem State.split_full {s : State} (h : 4096 ≤ s.grp.records) (hp : s.other.v = true ∨ s.slot.nj = false) (t n : Word)
    (tg jn : BitVec 24) : s.split t n tg jn = .error .divx := by
  rw [State.split_eq, State.evictOther]
  cases ho : s.other.v with
  | true => rw [State.push_full h]; rfl
  | false =>
    have hn : s.slot.nj = false := hp.resolve_left (by simp [ho])
    simp only [hn, Bool.false_eq_true, if_false, Except.bind, State.pushIf, Bool.not_false, if_true, State.push_full h]
    rfl

theorem exec_brd (b : Br) (j : Word) (s : State) : exec (.brd b j) s = execBrd b j s := rfl

/-- BRD with lanes on both sides and two good addresses splits the path. -/
theorem exec_brd_splits {s : State} {b : Br} {j : Word} {tg jc : BitVec 24}
    (ht : s.slot.own &&& s.guardMask b.g b.n ≠ 0) (hn : s.slot.own &&& ~~~s.guardMask b.g b.n ≠ 0)
    (hg : target s b.off = some tg) (hj : target s (j.extractLsb' 0 16) = some jc) :
    exec (.brd b j) s = .next (s.orFail (s.active b.g b.n)
      (s.split (s.slot.own &&& s.guardMask b.g b.n) (s.slot.own &&& ~~~s.guardMask b.g b.n) tg jc)) := by
  simp only [exec_brd, execBrd, brTarget_eq, if_neg ht, if_neg hn, hg, hj]

/-- Settles O16: the state after a split is the partner's leave and one change of the issuing group. -/
theorem divergentBranchSplitsThePath : Obligations.DivergentBranchSplitsThePath := by
  intro s b j x o t n act jn
  refine ⟨fun ht => ?_, fun ht hg => ?_, fun ht hn tg hg => ?_, fun ht hn hg hj => ?_, fun ht hn hl hr tg jc hg hj => ?_,
    fun ht hn hr hp hg hj => ?_, fun gk c => ⟨s.dropWait_cores gk c, s.dropWait_waits gk c⟩⟩
  · refine ⟨_, ?_, s.setSlot_slotsBecome _⟩
    rw [exec_brd, execBrd, if_pos ht]
    rfl
  · simp only [exec_brd, execBrd, brTarget_eq, hg]
    rw [if_neg ht]
  · refine ⟨_, ?_, s.setSlot_slotsBecome _⟩
    simp only [exec_brd, execBrd, brTarget_eq, hg]
    rw [if_neg ht, if_pos hn]
    rfl
  · obtain ⟨tg, hg⟩ := Option.isSome_iff_exists.1 hg
    have hj : target s (j.extractLsb' 0 16) = none := hj
    simp only [exec_brd, execBrd, brTarget_eq, hg, hj]
    rw [if_neg ht, if_neg hn]
  · rw [Runs, exec_brd_splits ht hn hg hj, State.split_of_room hl hr, State.orFail_ok]
    refine ⟨_, rfl, State.modGrp_pathsBecome ?_⟩
    rw [s.partnerOut_curB, s.partnerOut_grp]
    show Group.placeSplit _ _ _ _ _ _ _ _ = Group.withPaths _ _ _ _ ((if s.slot.nj then _ else _) ++ _ ++ _) _
    cases s.slot.nj <;> cases s.curB <;> rfl
  · obtain ⟨tg, hg⟩ := Option.isSome_iff_exists.1 hg
    obtain ⟨jc, hj⟩ := Option.isSome_iff_exists.1 hj
    rw [exec_brd_splits ht hn hg hj, State.split_full hr hp]
    rfl

end Sys2Proof.Machine
end

section
/-!
PROOF. Records popped, merges and exits (04_control R74 to R79, R85; 15_system R345), and the statement made of JOIN and
EXIT.
-/

namespace Sys2Proof.Machine

/-! Records popped (R74, R77). -/

theorem State.refillTop_of_cached {s : State} {gk : Nat}
    (h : (s.group gk).recs ≠ [] ∨ (s.group gk).spilled = 0) : s.refillTop gk = .ok s := by
  unfold State.refillTop
  refine if_pos ?_
  rcases h with h | h
  · simp [h]
  · simp [h]

/-- The records that the cache holds replaced. -/
def Group.withRecs (g : Group) (recs : List DivRec) : Group := { g with recs := recs }

/-- With no record of its own level nothing is popped. -/
theorem State.popIf_none_of_empty {s : State} {gk : Nat} (want : DivRec → Bool) (h : (s.group gk).ownRecords = 0) :
    State.popIf gk want stackFuel s = .ok (s, none) := by
  rw [stackFuel, State.popIf, if_pos h]

/-- The top record is not popped when it is not as wanted. -/
theorem State.popIf_none_of_top {s : State} {gk : Nat} {want : DivRec → Bool} (hs : (s.group gk).spilled = 0)
    (h : ∀ q ∈ (s.group gk).recs.head?, want q = false) : State.popIf gk want stackFuel s = .ok (s, none) := by
  by_cases hown : (s.group gk).ownRecords = 0
  · exact State.popIf_none_of_empty want hown
  rw [stackFuel, State.popIf, if_neg hown, State.refillTop_of_cached (.inr hs)]
  cases hr : (s.group gk).recs with
  | nil => simp [hr]
  | cons q t =>
    rw [hr] at h
    simp [hr, h q rfl]

/-- The top record is popped when it is as wanted and has lanes. -/
theorem State.popIf_top {s : State} {gk : Nat} {want : DivRec → Bool} {r : DivRec} {rest : List DivRec}
    (hown : (s.group gk).ownRecords ≠ 0) (hr : (s.group gk).recs = r :: rest) (hw : want r = true) (hm : r.mask ≠ 0) :
    State.popIf gk want stackFuel s = .ok (s.modGroup gk (·.withRecs rest), some r) := by
  rw [stackFuel, State.popIf, if_neg hown, State.refillTop_of_cached (.inl (by simp [hr]))]
  simp only [hr, hw, Bool.not_true, Bool.false_eq_true, if_false, if_pos hm]
  rfl

/-! Changes of the issuing group made by its number. -/

theorem State.modGrp_modGroup (s : State) (f h : Group → Group) :
    (s.modGrp f).modGroup s.cur h = s.modGrp (fun g => h (f g)) := s.modGrp_modGrp f h
theorem State.modGrp_putSlot (s : State) (f : Group → Group) (b : Bool) (x : PcSlot) :
    (s.modGrp f).putSlot s.cur b x = s.modGrp (fun g => (f g).setSlot b x) := s.modGrp_modGrp f (·.setSlot b x)
theorem State.modGrp_slotOf (s : State) (f : Group → Group) (b : Bool) :
    (s.modGrp f).slotOf s.cur b = (f s.grp).slot b := by rw [State.slotOf, State.modGrp_group_cur]

/-! Merges (R75, R76). -/


/-- No path to a join address stands on top of the stack. -/
def Group.NoPathTo (g : Group) (ja : BitVec 24) : Prop :=
  g.ownRecords = 0 ∨ (g.spilled = 0 ∧ ∀ q ∈ g.recs.head?, q.kind ≠ .path ∨ q.ja ≠ ja)

theorem State.popPath_none {s : State} {gk : Nat} {ja : BitVec 24} (b : Bool) (h : (s.group gk).NoPathTo ja) :
    s.popPath gk b ja = .ok (s, false) := by
  have hpop : State.popIf gk (DivRec.pathTo ja) stackFuel s = .ok (s, none) := by
    rcases h with h | ⟨hs, h⟩
    · exact State.popIf_none_of_empty _ h
    · refine State.popIf_none_of_top hs fun q hq => ?_
      rw [DivRec.pathTo, Bool.and_eq_false_iff, decide_eq_false_iff_not, decide_eq_false_iff_not]
      exact h q hq
  rw [State.popPath, hpop]

/-- The path that lives on after a merge, under the join address `ja` if there is one. -/
def merged (own : Word) (t ja : BitVec 24) (nj : Bool) : PcSlot := { v := true, pc := t, own, act := own, ja, nj }

theorem Group.setSlot_ownRecords (g : Group) (b : Bool) (x : PcSlot) : (g.setSlot b x).ownRecords = g.ownRecords := by
  cases b <;> rfl

/-- The slots after a merge: the path that lives on stands in slot `b`, the other slot is free. -/
def Group.mergeInto (g : Group) (b : Bool) (x : PcSlot) : Group := (g.setSlot (!b) {}).setSlot b x

theorem Group.mergeInto_ownRecords (g : Group) (b : Bool) (x : PcSlot) : (g.mergeInto b x).ownRecords = g.ownRecords := by
  cases b <;> rfl

theorem State.putSlots_merge (s : State) (b : Bool) (x : PcSlot) :
    (s.putSlot s.cur (!b) {}).putSlot s.cur b x = s.modGrp (·.mergeInto b x) := s.modGrp_putSlot (·.setSlot (!b) {}) b x

/-- A merge without a record leaves the path alone. -/
theorem State.merge_alone {s : State} (b : Bool) (own : Word) (t : BitVec 24) (h : s.grp.ownRecords = 0) :
    s.merge s.cur b own t = .ok (s.modGrp (·.mergeInto b (merged own t (s.slotOf s.cur b).ja true))) := by
  unfold State.merge
  dsimp only
  rw [State.putSlots_merge, State.popIf_none_of_empty]
  · rfl
  · rw [State.modGrp_group_cur, Group.mergeInto_ownRecords, h]

/-- A merge under a join record on top of the stack goes on under the record's join address. -/
theorem State.merge_join {s : State} (b : Bool) (own : Word) (t : BitVec 24) {r : DivRec} {rest : List DivRec}
    (h : s.grp.ownRecords ≠ 0) (hs : s.grp.spilled = 0) (hr : s.grp.recs = r :: rest) (hk : r.kind = .join)
    (hm : r.mask ≠ 0) (hrest : ∀ q ∈ rest.head?, q.kind ≠ .path ∨ q.ja ≠ r.ja) :
    s.merge s.cur b own t
      = .ok (s.modGrp (fun g => ((g.mergeInto b (merged own t (s.slotOf s.cur b).ja true)).withRecs rest).setSlot b
          (merged own t r.ja false))) := by
  unfold State.merge
  dsimp only
  rw [State.putSlots_merge, State.popIf_top (r := r) (rest := rest) ?_ ?_ (by simp [hk]) hm]
  · dsimp only
    rw [State.modGrp_modGroup, State.modGrp_putSlot, State.popPath_none]
    · rfl
    · rw [State.modGrp_group_cur]
      refine .inr ⟨?_, ?_⟩
      · simp [Group.mergeInto, Group.withRecs, hs]
      · simpa [Group.mergeInto, Group.withRecs] using hrest
  · rw [State.modGrp_group_cur, Group.mergeInto_ownRecords]; exact h
  · simp [Group.mergeInto, hr]

/-! TryMerge (R75). -/

theorem State.tryMerge_waits {s : State} {b : Bool} (hv : (s.slotOf s.cur (!b)).v = true)
    (ha : (s.slotOf s.cur (!b)).arr = false) : s.tryMerge s.cur b = .ok s := by
  simp [State.tryMerge, hv, ha]

theorem State.tryMerge_arrived {s : State} {b : Bool} (hv : (s.slotOf s.cur (!b)).v = true)
    (ha : (s.slotOf s.cur (!b)).arr = true) : s.tryMerge s.cur b
      = s.merge s.cur (!b) ((s.slotOf s.cur b).own ||| (s.slotOf s.cur (!b)).own) (s.slotOf s.cur b).pc := by
  simp [State.tryMerge, hv, ha]

theorem State.tryMerge_alone {s : State} {b : Bool} (hv : (s.slotOf s.cur (!b)).v = false) (h : s.grp.ownRecords = 0) :
    s.tryMerge s.cur b = s.merge s.cur b (s.slotOf s.cur b).own (s.slotOf s.cur b).pc := by
  simp only [State.tryMerge, hv, Bool.false_eq_true, if_false, State.popPath_none (!b) (.inl h : (s.group s.cur).NoPathTo _)]

/-! JOIN (R75). -/

theorem exec_join (b : Br) (s : State) : exec (.join b) s = execJoin b s := rfl

/-- The path that arrives at its join address. -/
def PcSlot.arrived (x : PcSlot) (t : BitVec 24) : PcSlot := { x.restored t with arr := true }

/-- At its own join address a path arrives and tries to merge. -/
theorem exec_join_here {s : State} {b : Br} {t : BitVec 24} (ht : target s b.off = some t) (hn : s.slot.nj = false)
    (hj : s.slot.ja = t) :
    exec (.join b) s = .next (s.orFail s.slot.act ((s.setSlot (s.slot.arrived t)).tryMerge s.cur s.curB)) := by
  have h : (s.slot.nj || decide (s.slot.ja ≠ t)) = false := by simp [hn, hj]
  simp only [exec_join, execJoin, brTarget_eq, ht, h, Bool.false_eq_true, if_false]
  rfl

theorem exec_join_elsewhere {s : State} {b : Br} {t : BitVec 24} (ht : target s b.off = some t)
    (h : ¬ (s.slot.nj = false ∧ s.slot.ja = t)) : exec (.join b) s = .next (s.gotoRestored t) := by
  have h : (s.slot.nj || decide (s.slot.ja ≠ t)) = true := by
    cases hn : s.slot.nj with
    | true => rfl
    | false => simpa [hn] using h
  simp only [exec_join, execJoin, brTarget_eq, ht, h, if_true]

@[simp] theorem State.setSlot_cur (s : State) (x : PcSlot) : (s.setSlot x).cur = s.cur := rfl
@[simp] theorem State.setSlot_slotOf_other (s : State) (x : PcSlot) :
    (s.setSlot x).slotOf s.cur (!s.curB) = s.other := s.setSlot_other x
@[simp] theorem State.setSlot_slotOf_self (s : State) (x : PcSlot) : (s.setSlot x).slotOf s.cur s.curB = x :=
  s.setSlot_slot x
theorem State.setSlot_grp (s : State) (x : PcSlot) : (s.setSlot x).grp = s.grp.setSlot s.curB x := s.modGrp_grp _
theorem State.setSlot_ownRecords (s : State) (x : PcSlot) : (s.setSlot x).grp.ownRecords = s.grp.ownRecords := by
  rw [State.setSlot_grp, Group.setSlot_ownRecords]

/-- JOIN of a path that stands at its join address. -/
theorem runs_join {s t' : State} {b : Br} {t : BitVec 24} {P : State → Prop} (ht : target s b.off = some t)
    (hn : s.slot.nj = false) (hj : s.slot.ja = t)
    (h : (s.setSlot (s.slot.arrived t)).tryMerge s.cur s.curB = .ok t') (hP : P t') : Runs (.join b) s P :=
  ⟨t', by rw [exec_join_here ht hn hj, h, State.orFail_ok], hP⟩

theorem runs_join_waits {s : State} {b : Br} {t : BitVec 24} (ht : target s b.off = some t) (hn : s.slot.nj = false)
    (hj : s.slot.ja = t) (hv : s.other.v = true) (ha : s.other.arr = false) :
    Runs (.join b) s (fun u => SlotsBecome s u (s.slot.arrived t) s.other) :=
  runs_join ht hn hj (State.tryMerge_waits (by simpa using hv) (by simpa using ha)) (s.setSlot_slotsBecome _)

/-- A path that arrives after its partner merges with it in the partner's slot. -/
theorem State.setSlot_tryMerge_arrived {s : State} {x : PcSlot} (hv : s.other.v = true) (ha : s.other.arr = true) :
    (s.setSlot x).tryMerge s.cur s.curB = (s.setSlot x).merge s.cur (!s.curB) (x.own ||| s.other.own) x.pc := by
  have h := State.tryMerge_arrived (s := s.setSlot x) (b := s.curB) (by simpa using hv) (by simpa using ha)
  simpa using h

theorem runs_join_merges {s : State} {b : Br} {t : BitVec 24} (ht : target s b.off = some t) (hn : s.slot.nj = false)
    (hj : s.slot.ja = t) (hv : s.other.v = true) (ha : s.other.arr = true) (h : s.grp.ownRecords = 0) :
    Runs (.join b) s (fun u => SlotsBecome s u {} (merged (s.slot.own ||| s.other.own) t s.other.ja true)) := by
  have hm := State.merge_alone (s := s.setSlot (s.slot.arrived t)) (!s.curB) (s.slot.own ||| s.other.own) t
    ((s.setSlot_ownRecords _).trans h)
  refine runs_join ht hn hj ((State.setSlot_tryMerge_arrived hv ha).trans hm) ?_
  rw [State.setSlot, State.modGrp_modGrp]
  refine State.modGrp_slotsBecome ?_
  rw [← State.setSlot, State.setSlot_cur, State.setSlot_slotOf_other]
  cases s.curB <;> rfl

theorem runs_join_merges_under {s : State} {b : Br} {t : BitVec 24} {r : DivRec} {rest : List DivRec}
    (ht : target s b.off = some t) (hn : s.slot.nj = false)
    (hj : s.slot.ja = t) (hv : s.other.v = true) (ha : s.other.arr = true) (h : s.grp.ownRecords ≠ 0)
    (hs : s.grp.spilled = 0) (hr : s.grp.recs = r :: rest) (hk : r.kind = .join)
    (hm : r.mask ≠ 0) (hrest : ∀ q ∈ rest.head?, q.kind ≠ .path ∨ q.ja ≠ r.ja) :
    Runs (.join b) s (fun u =>
      PathsBecome s u {} (merged (s.slot.own ||| s.other.own) t r.ja false) rest s.grp.calldepth) := by
  have hm := State.merge_join (s := s.setSlot (s.slot.arrived t)) (!s.curB) (s.slot.own ||| s.other.own) t
    (by rw [State.setSlot_ownRecords]; exact h) (by rw [State.setSlot_grp, Group.setSlot_spilled]; exact hs)
    (by rw [State.setSlot_grp, Group.setSlot_recs]; exact hr) hk hm hrest
  refine runs_join ht hn hj ((State.setSlot_tryMerge_arrived hv ha).trans hm) ?_
  rw [State.setSlot, State.modGrp_modGrp]
  refine State.modGrp_pathsBecome ?_
  cases s.curB <;> rfl

theorem runs_join_alone {s : State} {b : Br} {t : BitVec 24} (ht : target s b.off = some t) (hn : s.slot.nj = false)
    (hj : s.slot.ja = t) (hv : s.other.v = false) (h : s.grp.ownRecords = 0) :
    Runs (.join b) s (fun u => SlotsBecome s u (merged s.slot.own t s.slot.ja true) {}) := by
  have h := (s.setSlot_ownRecords (s.slot.arrived t)).trans h
  have hm := (State.tryMerge_alone (s := s.setSlot (s.slot.arrived t)) (b := s.curB) (by simpa using hv) h).trans
    (State.merge_alone s.curB _ _ h)
  refine runs_join ht hn hj hm ?_
  rw [State.setSlot_cur, State.setSlot_slotOf_self, State.setSlot, State.modGrp_modGrp]
  refine State.modGrp_slotsBecome ?_
  cases s.curB <;> rfl

/-! Exits (R78, R79, R85). -/

/-- Outside a handler, lanes that leave every record change the group alone. -/
theorem State.dropLanes_outside {s : State} (e : Word) (h : s.grp.traps = []) :
    s.dropLanes s.cur e = s.modGrp (·.dropLanes e) := by
  have h : ((s.modGrp (·.dropLanes e)).group s.cur).traps = [] := by rw [State.modGrp_group_cur]; exact h
  show (s.modGrp (·.dropLanes e)).keepXk s.cur e = _
  rw [State.keepXk, h]
  rfl

theorem State.leaveSlot_stays {s : State} {b : Bool} {e : Word} (h : (s.slotOf s.cur b).own &&& ~~~e ≠ 0) :
    s.leaveSlot s.cur b e = .ok (s.putSlot s.cur b { s.slotOf s.cur b with
      own := (s.slotOf s.cur b).own &&& ~~~e, act := (s.slotOf s.cur b).act &&& ~~~e }) := by
  simp only [State.leaveSlot, if_pos h]

/-- A slot left without lanes is freed. -/
def State.freeSlot (s : State) (b : Bool) : State := (s.dropWait s.cur b).putSlot s.cur b {}

@[simp] theorem State.dropWait_cur (s : State) (gk : Nat) (b : Bool) : (s.dropWait gk b).cur = s.cur := by
  rw [State.dropWait_cores]
@[simp] theorem State.dropWait_curB (s : State) (gk : Nat) (b : Bool) : (s.dropWait gk b).curB = s.curB := by
  rw [State.dropWait_cores]
@[simp] theorem State.dropWait_grp (s : State) (gk : Nat) (b : Bool) : (s.dropWait gk b).grp = s.grp := by
  rw [State.dropWait_cores]; rfl

theorem State.freeSlot_eq (s : State) (b : Bool) : s.freeSlot b = (s.dropWait s.cur b).modGrp (·.setSlot b {}) := by
  rw [State.freeSlot, ← State.putSlot_cur, State.dropWait_cur]
theorem State.freeSlot_cur (s : State) (b : Bool) : (s.freeSlot b).cur = s.cur := by
  rw [State.freeSlot_eq, State.modGrp_cur, State.dropWait_cur]
theorem State.freeSlot_grp (s : State) (b : Bool) : (s.freeSlot b).grp = s.grp.setSlot b {} := by
  rw [State.freeSlot_eq, State.modGrp_grp, State.dropWait_grp]

theorem State.slotOf_eq (s : State) (b : Bool) : s.slotOf s.cur b = s.grp.slot b := rfl

theorem State.freeSlot_slotOf_other (s : State) (b : Bool) : (s.freeSlot b).slotOf s.cur (!b) = s.slotOf s.cur (!b) := by
  rw [← s.freeSlot_cur b, State.slotOf_eq, State.freeSlot_grp, State.freeSlot_cur, Group.setSlot_slot_other]
  rfl

theorem State.leaveSlot_frees {s : State} {b : Bool} {e : Word} (h : (s.slotOf s.cur b).own &&& ~~~e = 0) :
    s.leaveSlot s.cur b e = if (s.slotOf s.cur (!b)).v then
        (if (s.slotOf s.cur (!b)).arr then (s.freeSlot b).tryMerge s.cur (!b) else .ok (s.freeSlot b))
      else State.settle s.cur 3 (s.freeSlot b) := by
  have h : ¬ (s.slotOf s.cur b).own &&& ~~~e ≠ 0 := not_not.2 h
  simp only [State.leaveSlot, if_neg h]
  rw [← State.freeSlot, State.freeSlot_slotOf_other]

theorem State.leaveSlot_partner {s : State} {b : Bool} {e : Word} (h : (s.slotOf s.cur b).own &&& ~~~e = 0)
    (hv : (s.slotOf s.cur (!b)).v = true) (ha : (s.slotOf s.cur (!b)).arr = false) :
    s.leaveSlot s.cur b e = .ok (s.freeSlot b) := by
  rw [State.leaveSlot_frees h, if_pos hv, ha]
  rfl

/-- The state once a group with no path and no record left stands at its refill point, or at none (R85). -/
def State.atRefill (s : State) : State :=
  s.grp.rp.elim s (fun r => s.modGrp (·.setSlot false { v := true, pc := r, nj := true }))

theorem State.settle_ended {s : State} (n : Nat) (ha : s.grp.slotA.v = false) (hb : s.grp.slotB.v = false)
    (h : s.grp.records = 0) : State.settle s.cur (n + 1) s = .ok s.atRefill := by
  have h : (s.group s.cur).records = 0 := h
  have hown : (s.group s.cur).ownRecords = 0 := by simp [Group.ownRecords, h]
  have hv : ¬ ((s.group s.cur).slotA.v || (s.group s.cur).slotB.v) = true := by
    rw [Bool.or_eq_true, not_or, Bool.not_eq_true, Bool.not_eq_true]; exact ⟨ha, hb⟩
  rw [State.settle]
  dsimp only
  rw [if_neg hv, if_pos hown, if_pos h, State.atRefill, show s.group s.cur = s.grp from rfl]
  cases s.grp.rp <;> rfl

theorem State.settle_running {s : State} (n : Nat) (h : s.grp.slotA.v = true ∨ s.grp.slotB.v = true) :
    State.settle s.cur (n + 1) s = .ok s := by
  have hv : ((s.group s.cur).slotA.v || (s.group s.cur).slotB.v) = true := (Bool.or_eq_true ..).mpr h
  rw [State.settle]
  exact if_pos hv

theorem Group.freed_slots {g : Group} {b : Bool} (h : (g.slot (!b)).v = false) :
    (g.setSlot b {}).slotA.v = false ∧ (g.setSlot b {}).slotB.v = false := by
  cases b <;> simpa [Group.setSlot, Group.slot] using h

/-- A slot left without lanes, with no partner and no record, leaves the group at its refill point. -/
theorem State.leaveSlot_last {s : State} {b : Bool} {e : Word} (h : (s.slotOf s.cur b).own &&& ~~~e = 0)
    (hv : (s.slotOf s.cur (!b)).v = false) (hr : s.grp.records = 0) :
    s.leaveSlot s.cur b e = .ok (s.freeSlot b).atRefill := by
  obtain ⟨ha, hb⟩ := Group.freed_slots (g := s.grp) (b := b) hv
  rw [State.leaveSlot_frees h, hv, if_neg Bool.false_ne_true, ← s.freeSlot_cur b]
  refine State.settle_ended 2 ?_ ?_ ?_ <;> rw [State.freeSlot_grp]
  · exact ha
  · exact hb
  · cases b <;> exact hr

/-! EXIT outside a handler (R78). -/

/-- The slot of an EXIT that has gone on, the lanes gone from every record. -/
def Group.exited (g : Group) (b : Bool) (y : PcSlot) (e : Word) : Group := (g.setSlot b y).dropLanes e

theorem State.cont_dropLanes {s : State} (e : Word) (h : s.grp.traps = []) :
    s.cont.dropLanes s.cur e = s.modGrp (fun g => g.exited s.curB (s.slot.advance s.lat) e) := by
  have h : s.cont.grp.traps = [] := by rw [State.cont, State.setSlot_grp, Group.setSlot_traps, h]
  refine (State.dropLanes_outside e h).trans ?_
  rw [State.cont, State.setSlot, State.modGrp_modGrp]
  rfl

/-- An update that keeps the group where it is, and so its core. -/
def KeepsCore (f : Group → Group) : Prop := ∀ g, (f g).die = g.die ∧ (f g).core = g.core

theorem State.modGrp_freeSlot (s : State) {f : Group → Group} (b : Bool) (hf : KeepsCore f) :
    (s.modGrp f).freeSlot b = (s.dropWait s.cur b).modGrp (fun g => (f g).setSlot b {}) := by
  rw [State.freeSlot_eq, State.modGrp_cur, State.modGrp_dropWait _ _ _ (hf _), State.modGrp_modGrp]

theorem Group.exited_keepsCore (b : Bool) (y : PcSlot) (e : Word) : KeepsCore (fun g => g.exited b y e) :=
  fun g => by cases b <;> exact ⟨rfl, rfl⟩

theorem State.exitLanes_of_ne {s : State} {e : Word} (he : e ≠ 0) :
    s.exitLanes e = (s.cont.dropLanes s.cur e).leaveSlot s.cur s.curB e := if_neg he

/-- The lanes that leave, with the slot where EXIT goes on. -/
theorem State.exitLanes_eq {s : State} {e : Word} (he : e ≠ 0) (h : s.grp.traps = []) :
    s.exitLanes e = (s.modGrp (fun g => g.exited s.curB (s.slot.advance s.lat) e)).leaveSlot s.cur s.curB e := by
  rw [State.exitLanes_of_ne he, State.cont_dropLanes e h]

theorem PcSlot.advance_own (x : PcSlot) (l : Latch) : (x.advance l).own = x.own := by
  unfold PcSlot.advance; split <;> rfl
theorem PcSlot.advance_act (x : PcSlot) (l : Latch) : (x.advance l).act = x.act := by
  unfold PcSlot.advance; split <;> rfl

theorem Group.exited_slot (g : Group) (b : Bool) (y : PcSlot) (e : Word) : (g.exited b y e).slot b = y := by
  cases b <;> rfl
theorem Group.exited_other (g : Group) (b : Bool) (y : PcSlot) (e : Word) :
    (g.exited b y e).slot (!b) = g.slot (!b) := by cases b <;> rfl
theorem Group.exited_records (g : Group) (b : Bool) (y : PcSlot) (e : Word) :
    (g.exited b y e).records = g.records := by
  have h : (g.exited b y e).recs.length = g.recs.length := by cases b <;> exact List.length_map _
  rw [Group.records, Group.records, h]
  cases b <;> rfl

theorem State.exitLanes_stays {s : State} {e : Word} (he : e ≠ 0) (h : s.grp.traps = [])
    (hown : s.slot.own &&& ~~~e ≠ 0) :
    s.exitLanes e = .ok (s.modGrp (fun g => (g.exited s.curB (s.slot.advance s.lat) e).setSlot s.curB
      { s.slot.advance s.lat with own := s.slot.own &&& ~~~e, act := s.slot.act &&& ~~~e })) := by
  have hy := s.modGrp_slotOf (fun g => g.exited s.curB (s.slot.advance s.lat) e) s.curB
  rw [Group.exited_slot] at hy
  rw [State.exitLanes_eq he h]
  refine (State.leaveSlot_stays (s := s.modGrp _) ?_).trans ?_
  · rw [State.modGrp_cur, hy, PcSlot.advance_own]; exact hown
  · rw [State.modGrp_cur, hy, PcSlot.advance_own, PcSlot.advance_act, State.modGrp_putSlot]

theorem State.exitLanes_partner {s : State} {e : Word} (he : e ≠ 0) (h : s.grp.traps = [])
    (hown : s.slot.own &&& ~~~e = 0) (hv : s.other.v = true) (ha : s.other.arr = false) :
    s.exitLanes e = .ok ((s.dropWait s.cur s.curB).modGrp (fun g =>
      (g.exited s.curB (s.slot.advance s.lat) e).setSlot s.curB {})) := by
  have hy := s.modGrp_slotOf (fun g => g.exited s.curB (s.slot.advance s.lat) e)
  rw [State.exitLanes_eq he h, ← State.modGrp_freeSlot _ _ (Group.exited_keepsCore _ _ _)]
  refine State.leaveSlot_partner (s := s.modGrp _) ?_ ?_ ?_
  · rw [State.modGrp_cur, hy, Group.exited_slot, PcSlot.advance_own]; exact hown
  · rw [State.modGrp_cur, hy, Group.exited_other]; exact hv
  · rw [State.modGrp_cur, hy, Group.exited_other]; exact ha

theorem State.exitLanes_last {s : State} {e : Word} (he : e ≠ 0) (h : s.grp.traps = [])
    (hown : s.slot.own &&& ~~~e = 0) (hv : s.other.v = false) (hr : s.grp.records = 0) :
    s.exitLanes e = .ok ((s.dropWait s.cur s.curB).modGrp (fun g =>
      (g.exited s.curB (s.slot.advance s.lat) e).setSlot s.curB {})).atRefill := by
  have hy := s.modGrp_slotOf (fun g => g.exited s.curB (s.slot.advance s.lat) e)
  rw [State.exitLanes_eq he h, ← State.modGrp_freeSlot _ _ (Group.exited_keepsCore _ _ _)]
  refine State.leaveSlot_last (s := s.modGrp _) ?_ ?_ ?_
  · rw [State.modGrp_cur, hy, Group.exited_slot, PcSlot.advance_own]; exact hown
  · rw [State.modGrp_cur, hy, Group.exited_other]; exact hv
  · rw [State.modGrp_grp, Group.exited_records]; exact hr

/-- The lanes `e` have left every record of the issuing group, and nothing else of `b` but its slots has changed. -/
def LanesGone (s : State) (e : Word) (b t : State) : Prop :=
  t.grp.recs = s.grp.recs.map (fun r => { r with mask := r.mask &&& ~~~e })
    ∧ t.grp.xs = (if s.grp.spilled = 0 then s.grp.xs else s.grp.xs ||| e)
    ∧ t.grp = { s.grp with slotA := t.grp.slotA, slotB := t.grp.slotB, recs := t.grp.recs, xs := t.grp.xs }
    ∧ OnlyGroup b t

theorem State.modGrp_lanesGone {s b : State} {f : Group → Group} {e : Word}
    (h : f b.grp = { s.grp.dropLanes e with slotA := (f b.grp).slotA, slotB := (f b.grp).slotB }) :
    LanesGone s e b (b.modGrp f) := by
  refine ⟨?_, ?_, ?_, onlyGroup_modGrp b f⟩ <;> rw [State.modGrp_grp, h] <;> rfl

theorem exec_exit (w : W0) (s : State) : exec (.exit w) s = execExit w s := rfl

theorem runs_exit {s t : State} {w : W0} {P : State → Prop} (h : s.exitLanes (s.activeW w) = .ok t) (hP : P t) :
    Runs (.exit w) s P := ⟨t, by rw [exec_exit, execExit, h, State.orFail_ok], hP⟩

theorem runs_exit_stays {s : State} {w : W0} (h : s.grp.traps = []) (he : s.activeW w ≠ 0)
    (hown : s.slot.own &&& ~~~s.activeW w ≠ 0) :
    Runs (.exit w) s (fun t => LanesGone s (s.activeW w) s t ∧ t.other = s.other
      ∧ t.slot = { s.slot.advance s.lat with
          own := s.slot.own &&& ~~~s.activeW w, act := s.slot.act &&& ~~~s.activeW w }) := by
  refine runs_exit (State.exitLanes_stays he h hown) ⟨State.modGrp_lanesGone ?_, ?_, ?_⟩
  · cases s.curB <;> rfl
  · rw [State.other, State.modGrp_grp, State.modGrp_curB, Group.setSlot_slot_other, Group.exited_other]
    rfl
  · rw [State.slot, State.modGrp_grp, State.modGrp_curB, Group.setSlot_slot_same]

/-- The group once the slot of an EXIT is freed. -/
theorem Group.exited_freed (g : Group) (b : Bool) (y : PcSlot) (e : Word) : (g.exited b y e).setSlot b {}
    = { g.dropLanes e with
        slotA := if b then g.slot (!b) else {}, slotB := if b then {} else g.slot (!b) } := by cases b <;> rfl

theorem runs_exit_partner {s : State} {w : W0} (h : s.grp.traps = []) (he : s.activeW w ≠ 0)
    (hown : s.slot.own &&& ~~~s.activeW w = 0) (hv : s.other.v = true) (ha : s.other.arr = false) :
    Runs (.exit w) s (fun t => LanesGone s (s.activeW w) (s.dropWait s.cur s.curB) t ∧ t.slot = {} ∧ t.other = s.other) := by
  refine runs_exit (State.exitLanes_partner he h hown hv ha) ⟨State.modGrp_lanesGone ?_, ?_, ?_⟩
  · rw [State.dropWait_grp, Group.exited_freed]
  · rw [State.slot, State.modGrp_grp, State.modGrp_curB, State.dropWait_curB, Group.setSlot_slot_same]
  · rw [State.other, State.modGrp_grp, State.modGrp_curB, State.dropWait_curB, State.dropWait_grp,
      Group.setSlot_slot_other, Group.exited_other]
    rfl

theorem runs_exit_last {s : State} {w : W0} (h : s.grp.traps = []) (he : s.activeW w ≠ 0)
    (hown : s.slot.own &&& ~~~s.activeW w = 0) (hv : s.other.v = false) (hr : s.grp.records = 0) :
    Runs (.exit w) s (fun t => LanesGone s (s.activeW w) (s.dropWait s.cur s.curB) t
      ∧ t.grp.slotB = (if s.curB then {} else s.other)
      ∧ t.grp.slotA = s.grp.rp.elim (if s.curB then s.other else {}) (fun r => { v := true, pc := r, nj := true })) := by
  refine runs_exit (State.exitLanes_last he h hown hv hr) ?_
  simp only [Group.exited_freed]
  rw [State.atRefill, State.modGrp_grp, State.dropWait_grp]
  change LanesGone _ _ _ (s.grp.rp.elim _ _) ∧ (s.grp.rp.elim _ _ : State).grp.slotB = _
    ∧ (s.grp.rp.elim _ _ : State).grp.slotA = _
  cases s.grp.rp with
  | none =>
    rw [Option.elim_none]
    refine ⟨State.modGrp_lanesGone ?_, ?_, ?_⟩
    · rw [State.dropWait_grp]
    · rw [State.modGrp_grp, State.dropWait_grp]; rfl
    · rw [State.modGrp_grp, State.dropWait_grp]; rfl
  | some r =>
    rw [Option.elim_some, State.modGrp_modGrp]
    refine ⟨State.modGrp_lanesGone ?_, ?_, ?_⟩
    · rw [State.dropWait_grp]; rfl
    · rw [State.modGrp_grp, State.dropWait_grp]; rfl
    · rw [State.modGrp_grp]; rfl

/-! EXIT in a handler (R79; 15_system R345). -/

/-- The bits of lanes that leave while the one handler runs are in its frame, none beside it. -/
def Group.xkStored (g : Group) : Group :=
  { g with traps := mapI g.traps (fun j t => if j = 0 then { t with xk := 0 } else t) }

theorem Group.xkStored_slot (g : Group) (b : Bool) : g.xkStored.slot b = g.slot b := by cases b <;> rfl

theorem State.keepXk_stored {v u t : State} {k : TrapCtx} {gk : Nat} {bs : List VByte} {e : Word}
    (hk : (v.group gk).traps = [k])
    (hr : v.groupRead gk (vaOf (BitVec.ofNat 64 (v.frameAddr (v.group gk) false)) + 8) 4 4 false = (u, .ok bs))
    (hs : u.engineStore (v.group gk).ctx (v.group gk).die (v.group gk).core
      (vaOf (BitVec.ofNat 64 (v.frameAddr (v.group gk) false)) + 8)
      (wordBytes [BitVec.ofNat 32 (vbytesNat bs) ||| (k.xk ||| e)]) = (t, none)) :
    v.keepXk gk e = t.modGroup gk Group.xkStored := by
  have hxk : ((v.group gk).traps.getD 0 {}).xk ||| e = k.xk ||| e := by rw [hk]; rfl
  have hlen : (v.group gk).traps.length = 1 := by rw [hk]; rfl
  rw [State.keepXk, hlen]
  simp only [List.range_one, List.foldl_cons, List.foldl_nil, Nat.zero_add, Nat.lt_irrefl, decide_false, hr, hxk, hs]
  rfl

/-- EXIT in a handler: the lanes leave the records and the frame's XK takes their bits, then they leave the slot. -/
theorem runs_exit_handler {s u t : State} {w : W0} {k : TrapCtx} {bs : List VByte} (he : s.activeW w ≠ 0)
    (hk : s.grp.traps = [k])
    (hr : (s.cont.modGrp (·.dropLanes (s.activeW w))).groupRead s.cur
      (vaOf (BitVec.ofNat 64 (s.framePlace s.grp false)) + 8) 4 4 false = (u, .ok bs))
    (hs : u.engineStore s.grp.ctx s.grp.die s.grp.core (vaOf (BitVec.ofNat 64 (s.framePlace s.grp false)) + 8)
      (wordBytes [BitVec.ofNat 32 (vbytesNat bs) ||| (k.xk ||| s.activeW w)]) = (t, none))
    (hcur : t.cur = s.cur) (hB : t.curB = s.curB) (hown : t.slot.own &&& ~~~s.activeW w ≠ 0) :
    Runs (.exit w) s (fun r => OnlyGroup t r ∧ r.other = t.other ∧ r.slot = { t.slot with
      own := t.slot.own &&& ~~~s.activeW w, act := t.slot.act &&& ~~~s.activeW w }) := by
  have hv : (s.cont.modGrp (·.dropLanes (s.activeW w))).group s.cur
      = (s.grp.setSlot s.curB (s.slot.advance s.lat)).dropLanes (s.activeW w) := by
    rw [State.cont, State.setSlot, State.modGrp_modGrp, State.modGrp_group_cur]
  have hdrop : s.cont.dropLanes s.cur (s.activeW w) = t.modGrp Group.xkStored := by
    have hfa : (s.cont.modGrp (·.dropLanes (s.activeW w))).frameAddr
        ((s.cont.modGrp (·.dropLanes (s.activeW w))).group s.cur) false = s.framePlace s.grp false := by
      rw [hv]
      cases s.curB <;> rfl
    have h := State.keepXk_stored (v := s.cont.modGrp (·.dropLanes (s.activeW w))) (gk := s.cur) (e := s.activeW w)
      (t := t) (u := u) (bs := bs) (k := k) ?_ ?_ ?_
    · refine Eq.trans h ?_
      rw [← hcur]
      rfl
    · rw [hv]; cases s.curB <;> exact hk
    · rw [hfa]; exact hr
    · rw [hfa, hv]; cases s.curB <;> exact hs
  have hslot : (t.modGrp Group.xkStored).slotOf t.cur t.curB = t.slot := by
    rw [State.modGrp_slotOf, Group.xkStored_slot]
    rfl
  have hleave := State.leaveSlot_stays (s := t.modGrp Group.xkStored) (b := t.curB) (e := s.activeW w)
    (by rw [State.modGrp_cur, hslot]; exact hown)
  rw [State.modGrp_cur, hslot, State.modGrp_putSlot, hcur, hB] at hleave
  have hexit := State.exitLanes_of_ne (s := s) he
  rw [hdrop, hleave] at hexit
  refine runs_exit hexit ⟨onlyGroup_modGrp t _, ?_, ?_⟩
  · rw [State.other, State.modGrp_grp, State.modGrp_curB, hB, Group.setSlot_slot_other, Group.xkStored_slot, ← hB]
    rfl
  · rw [State.slot, State.modGrp_grp, State.modGrp_curB, hB, Group.setSlot_slot_same]

/-- Settles O17: JOIN by the ways in which a path that arrives can merge, EXIT by what is left of its slot. -/
theorem joinsMergeAndExitsEndPaths : Obligations.JoinsMergeAndExitsEndPaths := by
  refine ⟨fun s b t ht => ⟨fun h => ?_, fun ⟨hn, hj⟩ => runs_join_waits ht hn hj, fun ⟨hn, hj⟩ => runs_join_merges ht hn hj,
    fun ⟨hn, hj⟩ hv ha hown hs r rest => runs_join_merges_under ht hn hj hv ha hown hs,
    fun ⟨hn, hj⟩ => runs_join_alone ht hn hj⟩,
    fun s w => ⟨fun he => ?_, fun he k u bs t => runs_exit_handler he, runs_exit_stays, runs_exit_partner,
      fun h he hown hv hr => ?_⟩⟩
  · exact ⟨_, exec_join_elsewhere ht h, s.setSlot_slotsBecome _⟩
  · have he : s.activeW w = 0 := he
    rw [exec_exit, execExit, State.exitLanes, if_pos he, State.orFail_ok]
  · obtain ⟨t, ht, hgone, hB, hA⟩ := runs_exit_last h he hown hv hr
    refine ⟨t, ht, hgone, hB, hA.trans ?_⟩
    cases s.grp.rp <;> rfl

end Sys2Proof.Machine
end

section
/-!
PROOF. Calls and returns (04_control R82, R83), and the statement made of them.
-/

namespace Sys2Proof.Machine

/-! Calls (R82). -/

theorem exec_call (b : Br) (s : State) : exec (.call b) s = execCall b s := rfl
theorem exec_callg (w : W0) (s : State) : exec (.callg w) s = execCallg w s := rfl
theorem exec_callx (w : W0) (imm : Word) (s : State) : exec (.callx w imm) s = execCallx w imm s := rfl

/-- CALLX goes on to the target of an entry that was read without a fault and without poison. -/
theorem exec_callx_entry {s s1 : State} {w : W0} {imm : Word} {bs : List VByte} (hg : s.guardW w = true)
    (hn : imm.toNat < (s.cr s.grp.ctx 8).toNat)
    (hr : s.groupRead s.cur (vaOf (BitVec.ofNat 64 (s.cr64 s.grp.ctx 6 + 8 * imm.toNat))) 8 4 true = (s1, .ok bs))
    (hp : anyPois bs = false) :
    exec (.callx w imm) s = .next ((s1.acquireAt s.cur 4).transfer (s1.acquireAt s.cur 4).unmasked w
      (BitVec.ofNat 64 (vbytesNat bs)) (fun t => t.callTo w)) := by
  have hcur : s1.cur = s.cur := (Served.of_fst hr (s.groupRead_served _ _ _ _ _)).cur
  simp only [exec_callx, execCallx, hg, if_true, State.withEntry, if_neg (Nat.not_le.2 hn), hr, hp, hcur,
    Bool.false_eq_true, if_false]
  rfl

theorem State.modGrp_congr {s : State} {f h : Group → Group} (e : f s.grp = h s.grp) : s.modGrp f = s.modGrp h :=
  congrArg s.setGrp e

/-- The issuing slot changed where it stands. -/
theorem State.setSlot_here (s : State) (h : PcSlot → PcSlot) :
    s.setSlot (h s.slot) = s.modGrp (fun g => g.setSlot s.curB (h (g.slot s.curB))) := rfl

/-- The partner, if there is one, put on the stack and its slot freed. -/
def State.evictFree (s : State) : Except StackErr State :=
  if s.other.v then (s.push s.cur s.other.evicted).map (fun u => u.freeSlot (!u.curB)) else .ok s

/-- A partner `o` put on the stack, its slot free. -/
def Group.evicted (g : Group) (b : Bool) (o : PcSlot) : Group :=
  if o.v then (g.pushRecs [pathRec o]).setSlot (!b) {} else g

/-- The state once the partner, if there is one, is a record and its slot free. -/
def State.partnerGone (s : State) : State :=
  if s.other.v then s.partnerOut.modGrp (·.evicted s.curB s.other) else s

theorem State.evictFree_of_room {s : State} (h : s.grp.records < 4096) (hc : s.grp.recs.length < 8) :
    s.evictFree = .ok s.partnerGone := by
  unfold State.evictFree State.partnerGone State.partnerOut
  split
  · next hv =>
    rw [State.push_of_room h hc]
    refine congrArg Except.ok
      ((s.modGrp_freeSlot (f := (·.pushRecs [s.other.evicted])) (!s.curB) fun _ => ⟨rfl, rfl⟩).trans ?_)
    simp only [Group.evicted, if_pos hv]
    rfl
  · rfl

/-- A change of the issuing group after that is one from the state in which the partner has left its slot. -/
theorem State.partnerGone_modGrp (s : State) (f : Group → Group) :
    s.partnerGone.modGrp f = s.partnerOut.modGrp (fun g => f (g.evicted s.curB s.other)) := by
  unfold State.partnerGone
  split
  · exact State.modGrp_modGrp _ (·.evicted s.curB s.other) f
  · next h =>
    rw [State.partnerOut, if_neg h]
    simp only [Group.evicted, if_neg h]

theorem State.partnerGone_keeps (s : State) :
    s.partnerGone = { s with cores := s.partnerGone.cores, groups := s.partnerGone.groups } := by
  unfold State.partnerGone
  split
  · rw [State.partnerOut_keeps]; rfl
  · rfl

theorem State.partnerGone_grp (s : State) : s.partnerGone.grp = s.grp.evicted s.curB s.other := by
  unfold State.partnerGone
  split
  · rw [State.modGrp_grp, State.partnerOut_grp]
  · next h => rw [Group.evicted, if_neg h]

theorem Group.evicted_recs (g : Group) (b : Bool) (o : PcSlot) :
    (g.evicted b o).recs = (if o.v then [pathRec o] else []) ++ g.recs := by
  unfold Group.evicted
  split
  · rw [Group.setSlot_recs]; rfl
  · rfl

theorem Group.evicted_frame (g : Group) (b : Bool) (o : PcSlot) : g.evicted b o = { g with
    slotA := (g.evicted b o).slotA, slotB := (g.evicted b o).slotB, recs := (g.evicted b o).recs } := by
  unfold Group.evicted
  split
  · cases b <;> rfl
  · rfl

theorem State.partnerGone_room {s : State} (hl : s.grp.recs.length ≤ 6) (hr : s.grp.records ≤ 4094) :
    s.partnerGone.grp.records < 4096 ∧ s.partnerGone.grp.recs.length < 8 := by
  have hp : (if s.other.v then [pathRec s.other] else []).length ≤ 1 := by split <;> simp
  rw [State.partnerGone_grp, Group.evicted_frame]
  simp only [Group.evicted_recs, Group.records, List.length_append] at hr ⊢
  omega

/-- The record that seals the caller's divergence state. -/
def sealRec (x : PcSlot) (next : BitVec 24) : DivRec :=
  { kind := .call, pc := next, nj := x.nj, ja := if x.nj then 0 else x.ja, mask := x.own }

/-- The caller's divergence state sealed in a record where there is any. -/
def Group.sealed (g : Group) (b p : Bool) (x : PcSlot) (next : BitVec 24) : Group :=
  if p then (g.pushRecs [sealRec x next]).setSlot b { x with nj := true } else g
def State.sealed (s : State) (p : Bool) (x : PcSlot) : State :=
  if p then s.modGrp (fun g => g.sealed s.curB p x s.lat.next) else s

theorem State.sealCall_eq (s : State) : s.sealCall = s.evictFree.bind (fun v =>
    if v.grp.ownRecords ≠ 0 || !s.slot.nj then
      (v.push v.cur (sealRec s.slot v.lat.next)).map (fun t => t.setSlot { t.slot with nj := true })
    else .ok v) := by
  unfold State.sealCall State.evictFree
  dsimp only
  cases ho : s.other.v
  · rfl
  · cases hp : s.push s.cur s.other.evicted
    · rfl
    · simp only [if_true]
      rfl

/-- The caller's divergence state is sealed when it is at some depth. -/
def State.seals (s : State) : Bool := s.partnerGone.grp.ownRecords ≠ 0 || !s.slot.nj

theorem State.partnerGone_slot (s : State) : s.partnerGone.slot = s.slot := by
  rw [State.slot, State.partnerGone_grp, show s.partnerGone.curB = s.curB by rw [State.partnerGone_keeps]]
  unfold Group.evicted
  split
  · rw [State.slot]; cases s.curB <;> rfl
  · rfl

theorem State.sealCall_of_room {s : State} (hl : s.grp.recs.length ≤ 6) (hr : s.grp.records ≤ 4094) :
    s.sealCall = .ok (s.partnerGone.sealed s.seals s.slot) := by
  obtain ⟨hroom, hcache⟩ := State.partnerGone_room hl hr
  rw [State.sealCall_eq, State.evictFree_of_room (by omega) (by omega)]
  rw [Except.bind]
  change (if s.seals then _ else _) = _
  rw [State.sealed]
  split
  · next hp =>
    rw [State.push_of_room hroom hcache]
    refine congrArg Except.ok (Eq.trans (State.setSlot_here _ (fun x => { x with nj := true })) ?_)
    rw [State.modGrp_modGrp]
    refine State.modGrp_congr ?_
    rw [Group.sealed, if_pos hp, ← State.partnerGone_slot]
    cases hb : s.partnerGone.curB <;> simp [State.slot, hb] <;> rfl
  · rfl

/-- The link and one call level more, then the slot at the target with its mask restored. -/
def Group.linked (g : Group) (b : Bool) (link : DWord) (t : BitVec 24) : Group :=
  let g : Group := { g.gput64 62 link with calldepth := g.calldepth + 1 }
  g.setSlot b ((g.slot b).restored t)

/-- The link of a call: the address of the clause after it. -/
def State.linkOf (s : State) : DWord := BitVec.ofNat 64 (s.codeBase s.grp.ctx + 4 * s.lat.next.toNat)

theorem State.callTo_eq (s : State) (w : W0) (t : BitVec 24) :
    s.callTo w t = s.orFail (s.activeW w) (s.sealCall.map (fun u => u.modGrp (fun g => g.linked u.curB u.linkOf t))) := by
  unfold State.callTo
  cases s.sealCall with
  | error e => rfl
  | ok u => exact congrArg (fun v => s.orFail (s.activeW w) (.ok v)) ((State.setSlot_here _ (·.restored t)).trans
      (State.modGrp_modGrp u _ _))

theorem State.partnerGone_sealed_modGrp (s : State) (p : Bool) (x : PcSlot) (f : Group → Group) :
    (s.partnerGone.sealed p x).modGrp f
      = s.partnerOut.modGrp (fun g => f ((g.evicted s.curB s.other).sealed s.curB p x s.lat.next)) := by
  have hl : s.partnerGone.lat = s.lat ∧ s.partnerGone.curB = s.curB := by
    rw [State.partnerGone_keeps]; exact ⟨rfl, rfl⟩
  cases p with
  | true =>
    rw [State.sealed, if_pos rfl, State.modGrp_modGrp, State.partnerGone_modGrp, hl.1, hl.2]
  | false => exact State.partnerGone_modGrp ..

theorem State.partnerGone_sealed_keeps (s : State) (p : Bool) (x : PcSlot) : s.partnerGone.sealed p x
    = { s with cores := (s.partnerGone.sealed p x).cores, groups := (s.partnerGone.sealed p x).groups } := by
  cases p with
  | true =>
    rw [State.sealed, if_pos rfl, State.partnerGone_keeps]
    rfl
  | false => exact s.partnerGone_keeps

theorem Group.evicted_ctx (g : Group) (b : Bool) (o : PcSlot) : (g.evicted b o).ctx = g.ctx := by
  rw [Group.evicted_frame]

theorem State.partnerGone_sealed_ctx (s : State) (p : Bool) (x : PcSlot) :
    (s.partnerGone.sealed p x).grp.ctx = s.grp.ctx := by
  cases p with
  | true =>
    rw [State.sealed, if_pos rfl, State.modGrp_grp, Group.sealed, if_pos rfl, Group.setSlot_ctx, State.partnerGone_grp]
    exact s.grp.evicted_ctx _ _
  | false => rw [State.sealed, if_neg Bool.false_ne_true, State.partnerGone_grp, Group.evicted_ctx]

theorem State.partnerGone_sealed_linkOf (s : State) (p : Bool) (x : PcSlot) :
    (s.partnerGone.sealed p x).linkOf = s.linkOf := by
  rw [State.linkOf, State.partnerGone_sealed_ctx, State.partnerGone_sealed_keeps]
  rfl

/-- What a call makes of the issuing group. -/
def Group.called (g : Group) (b p : Bool) (x o : PcSlot) (next : BitVec 24) (link : DWord) (t : BitVec 24) : Group :=
  ((g.evicted b o).sealed b p x next).linked b link t

theorem State.callTo_of_room {s : State} (hl : s.grp.recs.length ≤ 6) (hr : s.grp.records ≤ 4094) (w : W0)
    (t : BitVec 24) : s.callTo w t
      = s.partnerOut.modGrp (fun g => g.called s.curB s.seals s.slot s.other s.lat.next s.linkOf t) := by
  rw [State.callTo_eq, State.sealCall_of_room hl hr]
  rw [Except.map, State.orFail_ok]
  refine (State.partnerGone_sealed_modGrp s s.seals s.slot _).trans ?_
  rw [State.partnerGone_sealed_linkOf, show (s.partnerGone.sealed s.seals s.slot).curB = s.curB by
    rw [State.partnerGone_sealed_keeps]]
  rfl

theorem Group.ownRecords_of_recs {g h : Group} (hr : h.recs = g.recs) (hs : h.spilled = g.spilled)
    (ht : h.traps = g.traps) : h.ownRecords = g.ownRecords := by
  simp only [Group.ownRecords, Group.records, hr, hs, ht]

/-- The stack after a call. -/
theorem State.callRecs_eq (s : State) : callRecs s
    = (if s.seals then [sealRec s.slot s.lat.next] else [])
      ++ ((if s.other.v then [pathRec s.other] else []) ++ s.grp.recs) := by
  have hown : s.partnerGone.grp.ownRecords
      = ({ s.grp with recs := (if s.other.v then [pathRec s.other] else []) ++ s.grp.recs } : Group).ownRecords := by
    refine Group.ownRecords_of_recs ?_ ?_ ?_
    · rw [State.partnerGone_grp, Group.evicted_recs]
    · rw [State.partnerGone_grp, Group.evicted_frame]
    · rw [State.partnerGone_grp, Group.evicted_frame]
  have hseals : s.seals = true ↔ s.partnerGone.grp.ownRecords ≠ 0 ∨ (!s.slot.nj) = true := by
    rw [State.seals, Bool.or_eq_true, decide_eq_true_eq]
  rw [hown] at hseals
  simp only [callRecs, hseals, List.append_assoc]
  rfl

theorem State.nj_of_not_seals {s : State} (h : s.seals = false) : s.slot.nj = true := by
  rw [State.seals, Bool.or_eq_false_iff] at h
  simpa using h.2

theorem PcSlot.with_nj {x : PcSlot} (h : x.nj = true) : { x with nj := true } = x := by
  cases x
  subst h
  rfl

/-- A write of a register pair is a change of the file of group-wide registers. -/
theorem Group.gput64_file (n : Nat) (x : DWord) :
    ∃ G : SMap Word → SMap Word, ∀ g : Group, g.gput64 n x = { g with g := G g.g } :=
  ⟨fun m => (m.set n (lo32 x) 0).set (n + 1) (hi32 x) 0, fun _ => rfl⟩

/-- The slots, records and depth after a call, and the link, in one piece. -/
theorem Group.called_eq (g : Group) (b p : Bool) (next : BitVec 24) (link : DWord) (t : BitVec 24)
    (hp : p = false → (g.slot b).nj = true) :
    g.called b p (g.slot b) (g.slot (!b)) next link t
      = (g.withPaths b { (g.slot b).restored t with nj := true } (if (g.slot (!b)).v then {} else g.slot (!b))
          ((if p then [sealRec (g.slot b) next] else [])
            ++ ((if (g.slot (!b)).v then [pathRec (g.slot (!b))] else []) ++ g.recs))
          (g.calldepth + 1)).gput64 62 link := by
  obtain ⟨G, hG⟩ := Group.gput64_file 62 link
  unfold Group.called Group.evicted Group.linked
  simp only [hG]
  cases p with
  | true => cases (g.slot (!b)).v <;> cases b <;> rfl
  | false =>
    rw [PcSlot.with_nj (x := (g.slot b).restored t) (hp rfl)]
    cases (g.slot (!b)).v <;> cases b <;> rfl

/-- A call: the caller's divergence state sealed, the link written, the slot at the target (R82). -/
theorem State.callTo_called {s : State} (hl : s.grp.recs.length ≤ 6) (hr : s.grp.records ≤ 4094) (w : W0)
    (t : BitVec 24) : s.callTo w t = s.partnerOut.modGrp (fun g =>
      (g.withPaths s.curB { s.slot.restored t with nj := true } (if s.other.v then {} else s.other) (callRecs s)
        (g.calldepth + 1)).gput64 62 s.linkOf) := by
  rw [State.callTo_of_room hl hr]
  refine State.modGrp_congr ?_
  rw [State.partnerOut_grp, State.callRecs_eq]
  exact s.grp.called_eq s.curB s.seals s.lat.next s.linkOf t State.nj_of_not_seals

theorem Group.gput64_gget (g : Group) (n j : Nat) (x : DWord) :
    (g.gput64 n x).gget j = if j = n + 1 then hi32 x else if j = n then lo32 x else g.gget j := by
  rw [Group.gput64, Group.gput_gget, Group.gput_gget]

theorem Group.withPaths_gput64 (g : Group) (b : Bool) (x o : PcSlot) (recs : List DivRec) (depth n : Nat)
    (link : DWord) :
    let h := (g.withPaths b x o recs depth).gput64 n link
    h.slot b = x ∧ h.slot (!b) = o ∧ h.recs = recs ∧ h.calldepth = depth
      ∧ h = { g with slotA := h.slotA, slotB := h.slotB, recs := h.recs, calldepth := h.calldepth, g := h.g } := by
  obtain ⟨G, hG⟩ := Group.gput64_file n link
  simp only [hG]
  cases b <;> exact ⟨rfl, rfl, rfl, rfl, rfl⟩

theorem Group.withPaths_gget (g : Group) (b : Bool) (x o : PcSlot) (recs : List DivRec) (depth n : Nat) :
    (g.withPaths b x o recs depth).gget n = g.gget n := by cases b <;> rfl

/-- What a call leaves: the slots, the records, the call depth and the link alone differ. -/
theorem State.callTo_writes {s : State} (hl : s.grp.recs.length ≤ 6) (hr : s.grp.records ≤ 4094) (w : W0)
    (t : BitVec 24) :
    let u := s.callTo w t
    OnlyGroup s.partnerOut u ∧ u.slot = { s.slot.restored t with nj := true }
      ∧ u.other = (if s.other.v then {} else s.other)
      ∧ u.grp.recs = callRecs s ∧ u.grp.calldepth = s.grp.calldepth + 1
      ∧ u.grp.gget 62 = lo32 s.linkOf ∧ u.grp.gget 63 = hi32 s.linkOf
      ∧ (∀ n, n ≠ 62 → n ≠ 63 → u.grp.gget n = s.grp.gget n)
      ∧ u.grp = { s.grp with
          slotA := u.grp.slotA, slotB := u.grp.slotB, recs := u.grp.recs, calldepth := u.grp.calldepth, g := u.grp.g } := by
  obtain ⟨hx, ho, hrecs, hdepth, hframe⟩ := s.grp.withPaths_gput64 s.curB { s.slot.restored t with nj := true }
    (if s.other.v then {} else s.other) (callRecs s) (s.grp.calldepth + 1) 62 s.linkOf
  rw [State.callTo_called hl hr]
  refine ⟨onlyGroup_modGrp _ _, ?_⟩
  rw [State.slot.eq_1 (State.modGrp _ _), State.other.eq_1 (State.modGrp _ _), State.modGrp_grp, State.modGrp_curB,
    State.partnerOut_grp, State.partnerOut_curB]
  refine ⟨hx, ho, hrecs, hdepth, ?_, ?_, fun n h62 h63 => ?_, hframe⟩
  · rw [Group.gput64_gget]; rfl
  · rw [Group.gput64_gget]; rfl
  · rw [Group.gput64_gget, if_neg h63, if_neg h62, Group.withPaths_gget]

/-! Returns (R83). -/

theorem exec_ret (w : W0) (s : State) : exec (.ret w) s = execRet w s := rfl

/-- A return through a zero link exits the path's lanes (R83). -/
theorem exec_ret_exits {s t : State} {w : W0} (hg : s.guardW w = true) (hlink : s.rdG64 62 = 0)
    (h : s.restored.exitLanes s.slot.own = .ok t) : exec (.ret w) s = .next t := by
  simp only [exec_ret, execRet, hg, hlink, Bool.not_true, Bool.false_eq_true, if_false, if_true]
  rw [h, State.orFail_ok]

theorem State.restored_exitLanes_partner {s : State} (h : s.grp.traps = []) (hown : s.slot.own ≠ 0)
    (hv : s.other.v = true) (ha : s.other.arr = false) :
    ∃ f : Group → Group, s.restored.exitLanes s.slot.own = .ok ((s.dropWait s.cur s.curB).modGrp f)
      ∧ (f s.grp).slot s.curB = {} ∧ (f s.grp).slot (!s.curB) = s.other := by
  have hother : s.restored.other = s.other := s.setSlot_other _
  have hexit := State.exitLanes_partner (s := s.restored) hown
    (by rw [State.restored, State.setSlot_grp, Group.setSlot_traps, h])
    (by rw [State.restored, State.setSlot_slot, BitVec.and_not_self]) (by rw [hother, hv]) (by rw [hother, ha])
  have hdrop : s.restored.dropWait s.restored.cur s.restored.curB
      = (s.dropWait s.cur s.curB).modGrp (·.setSlot s.curB { s.slot with act := s.slot.own }) :=
    s.modGrp_dropWait _ _ (by rw [Group.setSlot_die, Group.setSlot_core]; exact ⟨rfl, rfl⟩)
  rw [hdrop, State.modGrp_modGrp, show s.restored.curB = s.curB from rfl] at hexit
  refine ⟨_, hexit, ?_, ?_⟩
  · rw [Group.setSlot_slot_same]
  · rw [Group.setSlot_slot_other, Group.exited_other, Group.setSlot_slot_other]
    rfl

theorem runs_ret_exits {s : State} {w : W0} (hg : s.guardW w = true) (hlink : s.rdG64 62 = 0) (h : s.grp.traps = [])
    (hown : s.slot.own ≠ 0) (hv : s.other.v = true) (ha : s.other.arr = false) :
    Runs (.ret w) s (fun t => t.slot = {} ∧ t.other = s.other ∧ OnlyGroup (s.dropWait s.cur s.curB) t) := by
  obtain ⟨f, hexit, hslot, hother⟩ := State.restored_exitLanes_partner h hown hv ha
  refine ⟨_, exec_ret_exits hg hlink hexit, ?_, ?_, onlyGroup_modGrp _ _⟩
  · rw [State.slot.eq_1 (State.modGrp _ _), State.modGrp_grp, State.modGrp_curB, State.dropWait_curB,
      State.dropWait_grp, hslot]
  · rw [State.other.eq_1 (State.modGrp _ _), State.modGrp_grp, State.modGrp_curB, State.dropWait_curB,
      State.dropWait_grp, hother]

theorem exec_ret_diverged {s : State} {w : W0} (hg : s.guardW w = true) (hlink : s.rdG64 62 ≠ 0)
    (hn : s.slot.nj = false) : exec (.ret w) s = .next (s.restored.raiseMask cDIVR (s.restored.activeW w)) := by
  simp only [exec_ret, execRet, hg, hn, Bool.not_true, Bool.not_false, Bool.false_eq_true, if_false, if_neg hlink,
    if_true]

theorem exec_ret_bad {s : State} {w : W0} (hg : s.guardW w = true) (hlink : s.rdG64 62 ≠ 0)
    (hn : s.slot.nj = true) (ht : s.clauseOf (s.rdG64 62) = none) :
    exec (.ret w) s = .next (s.restored.raiseMask cBADT (s.restored.activeW w) (s.rdG64 62)) := by
  simp only [exec_ret, execRet, hg, hn, Bool.not_true, Bool.false_eq_true, if_false, if_neg hlink, State.codeDest,
    s.codeIndex_eq, ht]

/-- A return through a link to native code, at no divergence. -/
theorem exec_ret_returns {s u : State} {w : W0} {t : BitVec 24} (hg : s.guardW w = true) (hlink : s.rdG64 62 ≠ 0)
    (hn : s.slot.nj = true) (ht : s.clauseOf (s.rdG64 62) = some t) (hl : s.l1Object s.grp.ctx s.grp.die t = none)
    (h : s.returnTo t = .ok u) : exec (.ret w) s = .next u := by
  simp only [exec_ret, execRet, hg, hn, Bool.not_true, Bool.false_eq_true, if_false, if_neg hlink, State.codeDest,
    s.codeIndex_eq, State.mapRead, ht, hl, h, Option.bind_some, State.orFail_ok]

/-- The caller's call level left. -/
def Group.lessCall (g : Group) : Group := { g with calldepth := g.calldepth - 1 }

/-- A return where the callee has no record goes to the link with its mask restored. -/
theorem State.returnTo_empty {s : State} (t : BitVec 24) (h : s.grp.ownRecords = 0) :
    s.returnTo t = .ok (s.modGrp (fun g => g.lessCall.setSlot s.curB (s.slot.restored t))) := by
  have hpop : State.popIf s.cur (fun r => r.kind = .call) stackFuel (s.modGrp Group.lessCall)
      = .ok (s.modGrp Group.lessCall, none) := State.popIf_none_of_empty _ (by rw [State.modGrp_group_cur]; exact h)
  unfold State.returnTo
  change (State.popIf s.cur _ stackFuel (s.modGrp Group.lessCall)).bind _ = _
  rw [hpop]
  refine congrArg Except.ok ((State.setSlot_here _ (·.restored t)).trans ((State.modGrp_modGrp s _ _).trans ?_))
  exact State.modGrp_congr (by cases hb : s.curB <;> simp [State.slot, hb] <;> rfl)

/-- A return under a call record goes to the link with the caller's join address (R83). -/
theorem State.returnTo_call {s : State} (t : BitVec 24) {r : DivRec} {rest : List DivRec} (hown : s.grp.ownRecords ≠ 0)
    (hs : s.grp.spilled = 0) (hr : s.grp.recs = r :: rest) (hk : r.kind = .call) (hm : r.mask ≠ 0)
    (hnj : r.nj = true ∨ ∀ q ∈ rest.head?, q.kind ≠ .path ∨ q.ja ≠ r.ja) :
    s.returnTo t = .ok (s.modGrp (fun g => (g.lessCall.withRecs rest).setSlot s.curB
      { s.slot.restored t with ja := r.ja, nj := r.nj })) := by
  have hpop : State.popIf s.cur (fun r => r.kind = .call) stackFuel (s.modGrp Group.lessCall)
      = .ok (s.modGrp (fun g => g.lessCall.withRecs rest), some r) := by
    have hg : (s.modGrp Group.lessCall).group s.cur = s.grp.lessCall := State.modGrp_group_cur s _
    rw [State.popIf_top (s := s.modGrp Group.lessCall) (r := r) (rest := rest) (hg ▸ hown) (hg ▸ hr)
      (decide_eq_true hk) hm, State.modGrp_modGroup]
  have hcaller : (s.modGrp (fun g => g.lessCall.withRecs rest)).setSlot
        { (s.modGrp (fun g => g.lessCall.withRecs rest)).slot with ja := r.ja, nj := r.nj }
      = s.modGrp (fun g => (g.lessCall.withRecs rest).setSlot s.curB { s.slot with ja := r.ja, nj := r.nj }) :=
    (State.modGrp_modGrp s _ _).trans (State.modGrp_congr (by
      rw [State.slot.eq_1 (State.modGrp _ _), State.modGrp_grp]
      cases hb : s.curB <;> simp [State.slot, hb] <;> rfl))
  have hgoto : (s.modGrp (fun g => (g.lessCall.withRecs rest).setSlot s.curB
        { s.slot with ja := r.ja, nj := r.nj })).gotoRestored t
      = s.modGrp (fun g => (g.lessCall.withRecs rest).setSlot s.curB
        { s.slot.restored t with ja := r.ja, nj := r.nj }) :=
    (State.setSlot_here _ (·.restored t)).trans ((State.modGrp_modGrp s _ _).trans (State.modGrp_congr (by
      cases hb : s.curB <;> simp [State.slot, hb] <;> rfl)))
  unfold State.returnTo
  change (State.popIf s.cur _ stackFuel (s.modGrp Group.lessCall)).bind _ = _
  rw [hpop]
  change (if r.nj = true then _ else _) = _
  rw [hcaller, hgoto]
  split
  · rfl
  · next hn =>
    have hpath := State.popPath_none (s := s.modGrp (fun g => (g.lessCall.withRecs rest).setSlot s.curB
      { s.slot with ja := r.ja, nj := r.nj })) (gk := s.cur) (ja := r.ja) (!s.curB) (by
        rw [State.modGrp_group_cur]
        exact .inr ⟨by rw [Group.setSlot_spilled]; exact hs,
          by rw [Group.setSlot_recs]; exact hnj.resolve_left hn⟩)
    simp only [State.modGrp_cur, State.modGrp_curB, hpath]
    exact congrArg Except.ok hgoto

theorem runs_ret_empty {s : State} {w : W0} {t : BitVec 24} (hg : s.guardW w = true) (hlink : s.rdG64 62 ≠ 0)
    (hn : s.slot.nj = true) (ht : s.clauseOf (s.rdG64 62) = some t) (hl : s.l1Object s.grp.ctx s.grp.die t = none)
    (h : s.grp.ownRecords = 0) :
    Runs (.ret w) s (fun u => PathsBecome s u (s.slot.restored t) s.other s.grp.recs (s.grp.calldepth - 1)) := by
  refine ⟨_, exec_ret_returns hg hlink hn ht hl (State.returnTo_empty t h), State.modGrp_pathsBecome ?_⟩
  unfold State.other
  cases s.curB <;> rfl

theorem runs_ret_call {s : State} {w : W0} {t : BitVec 24} {r : DivRec} {rest : List DivRec} (hg : s.guardW w = true)
    (hlink : s.rdG64 62 ≠ 0) (hn : s.slot.nj = true) (ht : s.clauseOf (s.rdG64 62) = some t)
    (hl : s.l1Object s.grp.ctx s.grp.die t = none) (hown : s.grp.ownRecords ≠ 0) (hs : s.grp.spilled = 0)
    (hr : s.grp.recs = r :: rest) (hk : r.kind = .call) (hm : r.mask ≠ 0)
    (hnj : r.nj = true ∨ ∀ q ∈ rest.head?, q.kind ≠ .path ∨ q.ja ≠ r.ja) :
    Runs (.ret w) s (fun u => PathsBecome s u
      { s.slot.restored t with ja := r.ja, nj := r.nj } s.other rest (s.grp.calldepth - 1)) := by
  refine ⟨_, exec_ret_returns hg hlink hn ht hl (State.returnTo_call t hown hs hr hk hm hnj),
    State.modGrp_pathsBecome ?_⟩
  unfold State.other
  cases s.curB <;> rfl

theorem exec_call_bad {s : State} {b : Br} (hg : s.guardG b.g b.n = true) (ht : target s b.off = none) :
    exec (.call b) s = .next (s.restored.raiseMask cBADT (s.restored.active b.g b.n)) := by
  simp only [exec_call, execCall, hg, if_true, brTarget_eq, ht, State.activeW]

theorem exec_call_goes {s : State} {b : Br} {t : BitVec 24} (hg : s.guardG b.g b.n = true)
    (ht : target s b.off = some t) :
    exec (.call b) s = .next (s.callTo { g := b.g, n := b.n, f := false, d := 0, a := 0, h := false } t) := by
  simp only [exec_call, execCall, hg, if_true, brTarget_eq, ht]

/-- Settles O18: a call seals the caller's paths and links; a return follows the link, exits or traps. -/
theorem callsLinkAndReturnsFollow : Obligations.CallsLinkAndReturnsFollow := by
  unfold Obligations.CallsLinkAndReturnsFollow
  refine ⟨fun s b w imm => ⟨fun hg => ?_, fun hg => ?_, fun hg ht => ?_, fun hg t ht => ?_, fun hg => ?_,
    fun hg hn => ?_, fun hg hn s1 bs hr hp => ?_, fun hl hr t => s.callTo_writes hl hr w t⟩,
    fun s w => ⟨fun hg => ?_, runs_ret_exits, fun hg hlink hn => ?_, fun hg hlink hn ht => ?_,
      fun hg hlink hn t ht hl h => runs_ret_empty hg hlink hn ht hl h,
      fun hg hlink hn t ht hl hown hs r rest hr hk hm hnj => runs_ret_call hg hlink hn ht hl hown hs hr hk hm hnj⟩⟩
  · simp [exec_call, execCall, hg]
  · exact ⟨by simp [exec_callg, execCallg, hg], by simp [exec_callx, execCallx, hg]⟩
  · exact exec_call_bad hg ht
  · exact exec_call_goes hg ht
  · rw [exec_callg, execCallg, if_pos hg]
    exact s.transfer_transfers s.restored w _ (fun u => u.callTo w)
  · simp only [exec_callx, execCallx, if_pos hg, State.withEntry, if_pos hn]
    rfl
  · rw [exec_callx_entry hg hn hr hp]
    exact (s1.acquireAt s.cur 4).transfer_transfers (s1.acquireAt s.cur 4).unmasked w _ (fun u => u.callTo w)
  · simp [exec_ret, execRet, hg]
  · exact exec_ret_diverged hg hlink hn
  · exact exec_ret_bad hg hlink hn ht

end Sys2Proof.Machine
end

section
/-!
PROOF. REFILL: items given to vacant lanes (04_control R84), and the statement made of it.
-/

namespace Sys2Proof.Machine

/-! Items given to vacant lanes (R84). -/

/-- The lanes that receive items. -/
def gotLanes (got : List (Nat × Word × Nat)) : Word := ofBits (fun L => decide (L ∈ got.map (·.1)))
/-- What lane `L` receives. -/
def gotBy (got : List (Nat × Word × Nat)) (L : Nat) : Option (Nat × Word × Nat) := got.find? (fun e => e.1 = L)

theorem gotLanes_getLsbD (got : List (Nat × Word × Nat)) {i : Nat} (hi : i < 32) :
    (gotLanes got).getLsbD i = decide (i ∈ got.map (·.1)) := by
  rw [gotLanes, ofBits, BitVec.getLsbD_ofFnLE, dif_pos hi]

theorem gotLanes_nil : gotLanes [] = 0#32 :=
  BitVec.eq_of_getLsbD_eq fun i hi => by simp [gotLanes_getLsbD _ hi]

theorem maskOf_or_gotLanes (L : Nat) (p : Word × Nat) (got : List (Nat × Word × Nat)) :
    maskOf (· = L) ||| gotLanes got = gotLanes ((L, p) :: got) := by
  refine BitVec.eq_of_getLsbD_eq fun i hi => ?_
  have hm : (maskOf (· = L) : Word).getLsbD i = decide (i = L) := by
    simpa [inMask, hi] using inMask_maskOf (· = L) i
  rw [BitVec.getLsbD_or, hm, gotLanes_getLsbD _ hi, gotLanes_getLsbD _ hi, ← Bool.decide_or, decide_eq_decide,
    List.map_cons, List.mem_cons]

theorem gotBy_none {got : List (Nat × Word × Nat)} {L : Nat} (h : L ∉ got.map (·.1)) : gotBy got L = none := by
  rw [gotBy, List.find?_eq_none]
  rintro ⟨j, p⟩ hj hL
  exact h (of_decide_eq_true hL ▸ List.mem_map.2 ⟨_, hj, rfl⟩)

/-- The items that the issuing group's core holds for its launch. -/
def State.itemsHere (s : State) : List (Word × Nat) := ((s.coreAt s.ownCore).items.getD s.grp.launch {}).items

/-- The lanes of `got` have their items: a word of register `d`, a work index and a place in the slot; the
core's queue holds `rest`. -/
structure ItemsGiven (s t : State) (d : Nat) (got : List (Nat × Word × Nat)) (rest : List (Word × Nat)) : Prop where
  keeps : t = { s with cores := t.cores, groups := t.groups }
  grp : t.grp = { s.grp with
    slotA := t.grp.slotA, slotB := t.grp.slotB, v := t.grp.v, vst := t.grp.vst, vx := t.grp.vx
    vpois := t.grp.vpois, workidx := t.grp.workidx }
  slot : t.slot = { s.slot with own := s.slot.own ||| gotLanes got }
  other : t.other = s.other
  word : ∀ n L, L < 32 → t.grp.vget n L
    = if n = d then (gotBy got L).elim (s.grp.vget n L) (·.2.1) else s.grp.vget n L
  index : ∀ L, t.grp.workidx.getD L 0 = (gotBy got L).elim (s.grp.workidx.getD L 0) (fun e => BitVec.ofNat 32 e.2.2)
  queue : t.itemsHere = rest

theorem ItemsGiven.nil (s : State) (d : Nat) : ItemsGiven s s d [] s.itemsHere where
  keeps := rfl
  grp := rfl
  slot := by rw [gotLanes_nil, BitVec.or_zero]
  other := rfl
  word n L hL := by split <;> rfl
  index L := rfl
  queue := rfl

theorem ItemsGiven.cons {s u t : State} {d L : Nat} {p : Word × Nat} {got : List (Nat × Word × Nat)}
    {mid rest : List (Word × Nat)} (h : ItemsGiven s u d [(L, p)] mid) (h' : ItemsGiven u t d got rest)
    (hL : L ∉ got.map (·.1)) : ItemsGiven s t d ((L, p) :: got) rest where
  keeps := by rw [h'.keeps, h.keeps]
  grp := by rw [h'.grp, h.grp]
  slot := by
    rw [h'.slot, h.slot, BitVec.or_assoc, ← maskOf_or_gotLanes L p [], gotLanes_nil, BitVec.or_zero,
      maskOf_or_gotLanes]
  other := h'.other.trans h.other
  word n j hj := by
    rw [h'.word n j hj, h.word n j hj]
    split
    · next hn =>
      by_cases hj : L = j
      · subst hj
        rw [gotBy_none hL]; simp [gotBy]
      · simp [gotBy, hj]
    · rfl
  index j := by
    rw [h'.index j, h.index j]
    by_cases hj : L = j
    · subst hj
      rw [gotBy_none hL]; simp [gotBy]
    · simp [gotBy, hj]
  queue := h'.queue

/-- What one item writes in its group, and the lane that the slot then has. -/
def Group.itemWritten (g : Group) (lc d L : Nat) (p : Word × Nat) : Group :=
  { g.writeRow lc d (maskOf (· = L)) (fun _ => p.1) with workidx := g.workidx.set L (BitVec.ofNat 32 p.2) 0 }
def PcSlot.gains (x : PcSlot) (L : Nat) : PcSlot := { x with own := x.own ||| maskOf (· = L) }
def Group.takeItem (g : Group) (lc d L : Nat) (p : Word × Nat) (b : Bool) : Group :=
  (g.itemWritten lc d L p).setSlot b ((g.slot b).gains L)

theorem Group.itemWritten_frame (g : Group) (lc d L : Nat) (p : Word × Nat) : g.itemWritten lc d L p = { g with
    v := (g.itemWritten lc d L p).v, vst := (g.itemWritten lc d L p).vst, vx := (g.itemWritten lc d L p).vx
    vpois := (g.itemWritten lc d L p).vpois, workidx := (g.itemWritten lc d L p).workidx } := by
  unfold Group.itemWritten
  generalize hr : g.writeRow lc d (maskOf (· = L)) (fun _ => p.1) = r
  have h : r = { g with v := r.v, vst := r.vst, vx := r.vx, vpois := r.vpois } := by
    rw [← hr]; exact g.writeRow_frame _ _ _ _
  rw [h]

theorem Group.itemWritten_slot (g : Group) (lc d L : Nat) (p : Word × Nat) (b : Bool) :
    (g.itemWritten lc d L p).slot b = g.slot b := by
  rw [Group.itemWritten_frame]
  cases b <;> rfl

theorem Group.itemWritten_vget (g : Group) (lc d L : Nat) (p : Word × Nat) (n j : Nat) (hj : j < 32) :
    (g.itemWritten lc d L p).vget n j = if n = d ∧ j = L then p.1 else g.vget n j := by
  have h : (g.itemWritten lc d L p).vget n j = (g.writeRow lc d (maskOf (· = L)) (fun _ => p.1)).vget n j := rfl
  rw [h, Group.writeRow_vget _ _ _ _ _ _ _ hj, inMask_maskOf]
  simp [hj]

/-- An item has left the core's queue, and the errors armed at the word it goes to are gone. -/
def State.dequeued (s : State) (d L : Nat) (q : List (Word × Nat)) : State :=
  (s.setCore s.ownCore { s.coreAt s.ownCore with
    items := (s.coreAt s.ownCore).items.set s.grp.launch { items := q } {} }).disarmReg s.cur d (maskOf (· = L))

/-- The state once one item has been given. -/
def State.takeItem (s : State) (d L : Nat) (p : Word × Nat) (q : List (Word × Nat)) : State :=
  (s.dequeued d L q).modGrp (fun g => g.takeItem s.lat.lc d L p s.curB)

theorem State.disarmReg_keeps (s : State) (gk n : Nat) (m : Word) :
    s.disarmReg gk n m = { s with cores := (s.disarmReg gk n m).cores } := by
  rcases s.disarmReg_cases gk n m with h | ⟨f, h⟩
  · rw [h]
  · rw [h]; rfl

theorem State.disarmReg_items (s : State) (gk n : Nat) (m : Word) (k : Nat) :
    ((s.disarmReg gk n m).coreAt k).items = (s.coreAt k).items := by
  unfold State.disarmReg
  dsimp only
  split
  · rfl
  · rw [State.modCore_coreAt]
    split
    · next h => rw [h]
    · rfl

theorem State.dequeued_keeps (s : State) (d L : Nat) (q : List (Word × Nat)) :
    s.dequeued d L q = { s with cores := (s.dequeued d L q).cores } := by
  unfold State.dequeued
  rw [State.disarmReg_keeps]
  rfl

theorem State.dequeued_items (s : State) (d L : Nat) (q : List (Word × Nat)) :
    (((s.dequeued d L q).coreAt s.ownCore).items.getD s.grp.launch {}).items = q := by
  rw [State.dequeued, State.disarmReg_items, State.setCore_coreAt_same, SMap.getD_set_same]

theorem State.takeItems_cons {s : State} {d L : Nat} {t : List Nat} {p : Word × Nat} {q : List (Word × Nat)}
    (h : s.itemsHere = p :: q) : s.takeItems d (L :: t) = (s.takeItem d L p q).takeItems d t := by
  have hq : ((s.coreAt (coreKey s.grp.die s.grp.core)).items.getD s.grp.launch {}).items = p :: q := h
  have hplace (u : State) (lc : Nat) : (u.modGrp (·.itemWritten lc d L p)).setSlot
      ((u.modGrp (·.itemWritten lc d L p)).slot.gains L) = u.modGrp (fun g => g.takeItem lc d L p u.curB) := by
    refine (State.setSlot_here _ (·.gains L)).trans ((State.modGrp_modGrp u _ _).trans (State.modGrp_congr ?_))
    rw [Group.itemWritten_slot]
    rfl
  have hu := hplace (s.dequeued d L q) s.lat.lc
  rw [State.takeItems, hq]
  refine congrArg (·.takeItems d t) (hu.trans ?_)
  rw [State.takeItem, State.dequeued_keeps]

theorem State.takeItem_keeps (s : State) (d L : Nat) (p : Word × Nat) (q : List (Word × Nat)) :
    s.takeItem d L p q = { s with cores := (s.takeItem d L p q).cores, groups := (s.takeItem d L p q).groups } := by
  rw [State.takeItem, State.dequeued_keeps]
  rfl

theorem State.takeItem_grp (s : State) (d L : Nat) (p : Word × Nat) (q : List (Word × Nat)) :
    (s.takeItem d L p q).grp = s.grp.takeItem s.lat.lc d L p s.curB := by
  rw [State.takeItem, State.modGrp_grp, State.dequeued_keeps]
  rfl

theorem State.takeItem_curB (s : State) (d L : Nat) (p : Word × Nat) (q : List (Word × Nat)) :
    (s.takeItem d L p q).curB = s.curB := by rw [State.takeItem_keeps]

theorem Group.takeItem_frame (g : Group) (lc d L : Nat) (p : Word × Nat) (b : Bool) :
    g.takeItem lc d L p b = { g with
      slotA := (g.takeItem lc d L p b).slotA, slotB := (g.takeItem lc d L p b).slotB
      v := (g.takeItem lc d L p b).v, vst := (g.takeItem lc d L p b).vst, vx := (g.takeItem lc d L p b).vx
      vpois := (g.takeItem lc d L p b).vpois, workidx := (g.takeItem lc d L p b).workidx } := by
  unfold Group.takeItem
  rw [Group.itemWritten_frame]
  cases b <;> rfl

theorem Group.takeItem_vget (g : Group) (lc d L : Nat) (p : Word × Nat) (b : Bool) (n j : Nat) (hj : j < 32) :
    (g.takeItem lc d L p b).vget n j = if n = d ∧ j = L then p.1 else g.vget n j := by
  rw [← Group.itemWritten_vget g lc d L p n j hj]
  cases b <;> rfl

theorem Group.takeItem_workidx (g : Group) (lc d L : Nat) (p : Word × Nat) (b : Bool) :
    (g.takeItem lc d L p b).workidx = g.workidx.set L (BitVec.ofNat 32 p.2) 0 :=
  Group.setSlot_workidx _ _ _

theorem State.takeItem_given (s : State) (d L : Nat) (p : Word × Nat) (q : List (Word × Nat)) :
    ItemsGiven s (s.takeItem d L p q) d [(L, p)] q where
  keeps := s.takeItem_keeps d L p q
  grp := by
    rw [State.takeItem_grp]
    exact s.grp.takeItem_frame _ _ _ _ _
  slot := by
    rw [State.slot, State.takeItem_curB, State.takeItem_grp, Group.takeItem, Group.setSlot_slot_same,
      ← maskOf_or_gotLanes L p [], gotLanes_nil, BitVec.or_zero]
    rfl
  other := by
    rw [State.other, State.takeItem_curB, State.takeItem_grp, Group.takeItem, Group.setSlot_slot_other,
      Group.itemWritten_slot]
    rfl
  word n j hj := by
    rw [State.takeItem_grp, Group.takeItem_vget _ _ _ _ _ _ _ _ hj]
    by_cases hn : n = d <;> by_cases hL : L = j <;> simp [gotBy, hn, hL, eq_comm]
  index j := by
    rw [State.takeItem_grp, Group.takeItem_workidx, SMap.getD_set]
    by_cases hL : L = j <;> simp [gotBy, hL, eq_comm]
  queue := by
    have hcore : (s.takeItem d L p q).itemsHere
        = (((s.dequeued d L q).coreAt (s.takeItem d L p q).ownCore).items.getD (s.takeItem d L p q).grp.launch {}).items := rfl
    rw [hcore, State.ownCore, State.takeItem_grp, Group.takeItem_frame]
    exact s.dequeued_items d L q

/-- The vacant lanes receive the items of the queue in order, as long as there are any. -/
theorem State.takeItems_given (s : State) (d : Nat) {lanes : List Nat} (hn : lanes.Nodup) :
    ItemsGiven s (s.takeItems d lanes) d (given lanes s.itemsHere) (s.itemsHere.drop (given lanes s.itemsHere).length) := by
  induction lanes generalizing s with
  | nil => exact .nil s d
  | cons L t ih =>
    obtain ⟨hL, ht⟩ := List.nodup_cons.1 hn
    cases hq : s.itemsHere with
    | nil =>
      have hs : s.takeItems d (L :: t) = s := by
        have hq : ((s.coreAt (coreKey s.grp.die s.grp.core)).items.getD s.grp.launch {}).items = [] := hq
        rw [State.takeItems, hq]
      have hnone := ItemsGiven.nil s d
      rw [hq] at hnone
      rwa [hs]
    | cons p q =>
      have hone := s.takeItem_given d L p q
      have hrest := ih (s.takeItem d L p q) ht
      rw [hone.queue] at hrest
      rw [State.takeItems_cons hq]
      refine hone.cons hrest fun h => hL ?_
      obtain ⟨e, he, rfl⟩ := List.mem_map.1 h
      exact (List.of_mem_zip he).1

/-! REFILL (R84). -/

theorem exec_refill (w : W0) (s : State) : exec (.refill w) s = execRefill w s := rfl

theorem State.refillActs_iff (s : State) : s.refillActs = true ↔ s.slot.nj = true ∧ s.other.v = false
    ∧ s.grp.records = 0 ∧ s.grp.calldepth = 0 ∧ s.grp.traps = [] := by
  simp [State.refillActs, and_assoc]

/-- The lanes of the issuing group that its slot does not own. -/
def State.vacant (s : State) : Word := s.grp.populated &&& ~~~s.slot.own

theorem State.refillWaits_iff (s : State) : s.refillWaits = true ↔
    ∃ o ∈ s.grp.pend, (∃ p ∈ o.v, inMask s.vacant (p.key % 32) = true) ∨ (∃ k ∈ o.dst, inMask s.vacant (k % 32) = true) := by
  simp [State.refillWaits, State.vacant]

theorem lanesOf_nodup (m : Word) : (lanesOf m).Nodup := List.nodup_range.filter _

/-- The group stands at this REFILL. -/
def State.atRefillClause (s : State) : State := s.modGrp (fun g => { g with rp := some s.lat.clause })

theorem State.atRefillClause_slot (s : State) : s.atRefillClause.slot = s.slot := by
  rw [State.slot, State.atRefillClause, State.modGrp_grp, State.modGrp_curB]
  cases hb : s.curB <;> simp [State.slot, hb] <;> rfl

theorem State.atRefillClause_other (s : State) : s.atRefillClause.other = s.other := by
  rw [State.other, State.atRefillClause, State.modGrp_grp, State.modGrp_curB]
  cases hb : s.curB <;> simp [State.other, hb] <;> rfl

theorem State.atRefillClause_grp (s : State) : s.atRefillClause.grp = { s.grp with rp := some s.lat.clause } :=
  s.modGrp_grp _

/-- What the path's Active lanes are, and whether there are any, after the items have been given. -/
def Group.admitted (g : Group) (b : Bool) (x : PcSlot) : Group :=
  (g.setSlot b { x with act := x.own }).gpput 0 (x.own ≠ 0)

/-- The path goes on with its items, or ends when it has no lane and there is no item left. -/
def State.afterItems (u : State) : State :=
  let v := (u.setSlot { u.slot with act := u.slot.own }).modGrp (fun g => g.gpput 0 (u.slot.own ≠ 0))
  if u.slot.own = 0 && v.itemsDone v.grp.launch then (v.setSlot {}).modGrp (fun g => { g with rp := none })
  else v.afterRefill

theorem execRefill_eq (w : W0) (s : State) : execRefill w s = .next (if !s.refillActs then s.cont
    else if s.refillWaits then s.holdIssue
    else (s.atRefillClause.takeItems w.d.toNat (lanesOf s.vacant)).afterItems) := rfl

theorem State.admitted_eq (u : State) : (u.setSlot { u.slot with act := u.slot.own }).modGrp
    (fun g => g.gpput 0 (u.slot.own ≠ 0)) = u.modGrp (·.admitted u.curB u.slot) := State.modGrp_modGrp u _ _

/-- The group at no refill point. -/
def Group.noRefill (g : Group) : Group := { g with rp := none }

theorem Group.noRefill_slot (g : Group) (b : Bool) : g.noRefill.slot b = g.slot b := by cases b <;> rfl

theorem Group.noRefill_gpget (g : Group) (n : Nat) : g.noRefill.gpget n = g.gpget n := rfl

theorem Group.setSlot_gpget (g : Group) (b : Bool) (x : PcSlot) (n : Nat) : (g.setSlot b x).gpget n = g.gpget n := by
  cases b <;> rfl

theorem State.afterItems_ends {u : State} (h : u.slot.own = 0) (hd : u.itemsDone u.grp.launch = true) :
    u.afterItems = u.modGrp (fun g => ((g.admitted u.curB u.slot).setSlot u.curB {}).noRefill) := by
  have hadm : (u.modGrp (·.admitted u.curB u.slot)).itemsDone (u.modGrp (·.admitted u.curB u.slot)).grp.launch = true := by
    rw [State.modGrp_grp, Group.admitted, Group.gpput_launch, Group.setSlot_launch]
    exact hd
  unfold State.afterItems
  rw [State.admitted_eq, decide_eq_true h]
  simp only [Bool.true_and, hadm, if_true]
  rw [State.setSlot, State.modGrp_modGrp, State.modGrp_modGrp]
  rfl

theorem Group.admitted_slot (g : Group) (b : Bool) (x : PcSlot) :
    (g.admitted b x).slot b = { x with act := x.own } := by
  cases b <;> simp [Group.admitted, Group.slot, Group.setSlot]

theorem Group.admitted_other (g : Group) (b : Bool) (x : PcSlot) : (g.admitted b x).slot (!b) = g.slot (!b) := by
  cases b <;> simp [Group.admitted, Group.slot, Group.setSlot]


theorem Group.admitted_gp0 (g : Group) (b : Bool) (x : PcSlot) :
    (g.admitted b x).gpget 0 = decide (x.own ≠ 0) := by
  rw [Group.admitted, Group.gpput_gpget, if_neg (by decide), if_pos rfl]

theorem State.afterItems_goesOn {u : State} (h : u.slot.own ≠ 0) (ht : u.transAt u.grp.ctx u.lat.clause = none) :
    u.afterItems = u.modGrp (fun g => (g.admitted u.curB u.slot).setSlot u.curB
      ({ u.slot with act := u.slot.own }.advance u.lat)) := by
  have hadm : (u.modGrp (·.admitted u.curB u.slot)).transAt (u.modGrp (·.admitted u.curB u.slot)).grp.ctx
      (u.modGrp (·.admitted u.curB u.slot)).lat.clause = none := by
    rw [State.modGrp_grp, Group.admitted, Group.gpput_ctx, Group.setSlot_ctx]
    exact ht
  unfold State.afterItems
  rw [State.admitted_eq, decide_eq_false h]
  simp only [Bool.false_and, Bool.false_eq_true, if_false, State.afterRefill, State.migrateTo, State.touchMig, hadm]
  refine (State.setSlot_here _ (·.advance u.lat)).trans ((State.modGrp_modGrp u _ _).trans (State.modGrp_congr ?_))
  rw [State.modGrp_curB, Group.admitted_slot]

/-- The lanes that receive items, with their items. -/
def State.got (s : State) : List (Nat × Word × Nat) := given (lanesOf s.vacant) s.itemsHere

theorem State.refill_given (s : State) (d : Nat) :
    ItemsGiven s.atRefillClause (s.atRefillClause.takeItems d (lanesOf s.vacant)) d s.got
      (s.itemsHere.drop s.got.length) := by
  have hhere : s.atRefillClause.itemsHere = s.itemsHere := by
    rw [State.itemsHere, State.ownCore, State.atRefillClause, State.modGrp_grp]
    rfl
  rw [State.got, ← hhere]
  exact s.atRefillClause.takeItems_given d (lanesOf_nodup _)

theorem exec_refill_acts {s : State} {w : W0} (ha : s.refillActs = true) (hw : s.refillWaits = false) :
    exec (.refill w) s = .next (s.atRefillClause.takeItems w.d.toNat (lanesOf s.vacant)).afterItems := by
  simp only [exec_refill, execRefill_eq, ha, hw, Bool.not_true, Bool.false_eq_true, if_false]

theorem Group.admitted_setSlot_vget (g : Group) (b : Bool) (x y : PcSlot) (n L : Nat) :
    ((g.admitted b x).setSlot b y).vget n L = g.vget n L := by
  simp [Group.admitted, Group.vget]

theorem Group.admitted_setSlot_frame (g : Group) (b : Bool) (x y : PcSlot) : (g.admitted b x).setSlot b y
    = { g with slotA := ((g.admitted b x).setSlot b y).slotA, slotB := ((g.admitted b x).setSlot b y).slotB
               gp := (g.admitted b x).gp } := by
  cases b <;> rfl

/-- A refill that leaves the path lanes: the words, work indices and lanes given (R84). -/
theorem runs_refill_admits {s : State} {w : W0} (ha : s.refillActs = true) (hw : s.refillWaits = false)
    (ht : s.transAt s.grp.ctx s.lat.clause = none) (hown : s.slot.own ||| gotLanes s.got ≠ 0) :
    Runs (.refill w) s (fun t =>
      t.slot = { s.slot with own := s.slot.own ||| gotLanes s.got, act := s.slot.own ||| gotLanes s.got }.advance s.lat
        ∧ t.other = s.other ∧ t.grp.rp = some s.lat.clause ∧ t.grp.gpget 0 = true
        ∧ (∀ n L, L < 32 → t.grp.vget n L
          = if n = w.d.toNat then (gotBy s.got L).elim (s.grp.vget n L) (·.2.1) else s.grp.vget n L)
        ∧ (∀ L, t.grp.workidx.getD L 0
          = (gotBy s.got L).elim (s.grp.workidx.getD L 0) (fun e => BitVec.ofNat 32 e.2.2))
        ∧ ((t.coreAt s.ownCore).items.getD s.grp.launch {}).items = s.itemsHere.drop s.got.length ∧ SameMem s t) := by
  have hg := s.refill_given w.d.toNat
  have hx := exec_refill_acts (w := w) ha hw
  generalize s.atRefillClause.takeItems w.d.toNat (lanesOf s.vacant) = u at hg hx
  have hkeep : u.curB = s.curB ∧ u.lat = s.lat ∧ u.mem = s.mem ∧ u.trans = s.trans := by
    rw [hg.keeps]; exact ⟨rfl, rfl, rfl, rfl⟩
  obtain ⟨hB, hlat, hmem, htrans⟩ := hkeep
  have hslot : u.slot = { s.slot with own := s.slot.own ||| gotLanes s.got } := by
    rw [hg.slot, State.atRefillClause_slot]
  have hfix : u.grp.ctx = s.grp.ctx ∧ u.ownCore = s.ownCore ∧ u.grp.launch = s.grp.launch
      ∧ u.grp.rp = some s.lat.clause := by
    rw [State.ownCore, hg.grp, State.atRefillClause_grp]
    exact ⟨rfl, rfl, rfl, rfl⟩
  obtain ⟨hctx, hcore, hlaunch, hrp⟩ := hfix
  have hne : u.slot.own ≠ 0 := by rw [hslot]; exact hown
  have hnative : u.transAt u.grp.ctx u.lat.clause = none := by
    rw [hctx, hlat, ← ht, State.transAt, State.transEntry, htrans]
    rfl
  rw [Runs, hx, State.afterItems_goesOn hne hnative]
  refine ⟨_, rfl, ?_⟩
  rw [State.slot.eq_1 (State.modGrp _ _), State.other.eq_1 (State.modGrp _ _), State.modGrp_grp, State.modGrp_curB]
  refine ⟨?_, ?_, ?_, ?_, fun n L hL => ?_, fun L => ?_, ?_, fun k => ?_⟩
  · rw [Group.setSlot_slot_same, hslot, hlat]
  · rw [Group.setSlot_slot_other, Group.admitted_other]
    exact hg.other.trans s.atRefillClause_other
  · rw [Group.admitted_setSlot_frame, hrp]
  · rw [Group.setSlot_gpget, Group.admitted_gp0, decide_eq_true hne]
  · rw [Group.admitted_setSlot_vget, hg.word n L hL, State.atRefillClause_grp]
    rfl
  · rw [Group.admitted_setSlot_frame, hg.index, State.atRefillClause_grp]
  · rw [← hg.queue, State.itemsHere, hcore, hlaunch]
    rfl
  · exact congrArg (·.getD k (memBlank k)) hmem

/-- No item is given where the queue is empty. -/
theorem State.takeItems_empty {s : State} (d : Nat) (lanes : List Nat) (h : s.itemsHere = []) :
    s.takeItems d lanes = s := by
  have hq : ((s.coreAt (coreKey s.grp.die s.grp.core)).items.getD s.grp.launch {}).items = [] := h
  cases lanes with
  | nil => rfl
  | cons L t => rw [State.takeItems, hq]

/-- A refill that leaves the path no lane ends it when no item is left (R84). -/
theorem runs_refill_ends {s : State} {w : W0} (ha : s.refillActs = true) (hw : s.refillWaits = false)
    (hq : s.itemsHere = []) (hown : s.slot.own = 0) (hd : s.itemsDone s.grp.launch = true) :
    Runs (.refill w) s (fun t => t.slot = {} ∧ t.other = s.other ∧ t.grp.rp = none ∧ t.grp.gpget 0 = false
      ∧ OnlyGroup s t) := by
  have hhere : s.atRefillClause.itemsHere = [] := by
    rw [State.itemsHere, State.ownCore, State.atRefillClause_grp]
    exact hq
  have hslot := s.atRefillClause_slot
  have hlaunch : s.atRefillClause.grp.launch = s.grp.launch := by rw [State.atRefillClause_grp]
  have hx := exec_refill_acts (w := w) ha hw
  rw [State.takeItems_empty _ _ hhere, State.afterItems_ends (hslot ▸ hown) (hlaunch ▸ hd), hslot,
    show s.atRefillClause.curB = s.curB from rfl, State.atRefillClause, State.modGrp_modGrp] at hx
  refine ⟨_, hx, ?_, ?_, ?_, ?_, onlyGroup_modGrp _ _⟩
  · rw [State.slot.eq_1 (State.modGrp _ _), State.modGrp_grp, State.modGrp_curB, Group.noRefill_slot,
      Group.setSlot_slot_same]
  · rw [State.other.eq_1 (State.modGrp _ _), State.modGrp_grp, State.modGrp_curB, Group.noRefill_slot,
      Group.setSlot_slot_other, Group.admitted_other]
    exact s.atRefillClause_grp ▸ s.atRefillClause_other
  · rw [State.modGrp_grp, Group.noRefill]
  · rw [State.modGrp_grp, Group.noRefill_gpget, Group.setSlot_gpget, Group.admitted_gp0, hown]
    rfl

/-- Settles O19: what each vacant lane receives, by induction on the vacant lanes. -/
theorem refillAdmitsItems : Obligations.RefillAdmitsItems := by
  unfold Obligations.RefillAdmitsItems
  intro s w x acts vacant waits ck q got own
  have hacts : s.refillActs = true ↔ acts := s.refillActs_iff
  have hwaits : s.refillWaits = true ↔ waits := s.refillWaits_iff
  refine ⟨fun ha => ?_, fun ha hw => ?_, fun ha hw ht hown => ?_, fun ha hw hown hd hq => ?_⟩
  · simp [exec_refill, execRefill_eq, Bool.eq_false_iff.2 (mt hacts.1 ha)]
  · simp [exec_refill, execRefill_eq, hacts.2 ha, hwaits.2 hw]
  · obtain ⟨t, hx, hslot, hother, hrp, hgp, hword, hindex, hqueue, hmem⟩ :=
      runs_refill_admits (w := w) (hacts.2 ha) (Bool.eq_false_iff.2 (mt hwaits.1 hw)) ht hown
    refine ⟨t, hx, hslot, hother, hrp, hgp, fun L hL => ?_, fun L => ?_, fun n L hn hL => ?_, hqueue, hmem⟩
    · rw [hword _ L hL, if_pos rfl]
      change (gotBy got L).elim _ _ = match gotBy got L with | some e => _ | none => _
      cases gotBy got L <;> rfl
    · rw [hindex L]
      change (gotBy got L).elim _ _ = match gotBy got L with | some e => _ | none => _
      cases gotBy got L <;> rfl
    · rw [hword n L hL, if_neg hn]
  · have hx : x.own = 0 := (BitVec.or_eq_zero_iff.1 hown).1
    exact runs_refill_ends (hacts.2 ha) (Bool.eq_false_iff.2 (mt hwaits.1 hw)) hq hx hd

end Sys2Proof.Machine
end

section
/-!
PROOF. Software traps, breakpoints and trap returns (04_control R88 to R90; 15_system R347), and the statement made of
them.
-/

namespace Sys2Proof.Machine

/-! A group reloaded from its frame (15_system R347). -/

/-- A row of writes leaves the word last written at each place it writes, and the rest as it was. -/
theorem Group.foldl_range_get {α : Type} {put : Group → Nat → α → Group} {get : Group → α} {norm : α → α} {j : Nat}
    (h : ∀ g n x, get (put g n x) = if j = n then norm x else get g) (k n : Nat) (x : Nat → α) (g : Group) :
    get ((List.range n).foldl (fun g i => put g (k + i) (x i)) g)
      = if k ≤ j ∧ j < k + n then norm (x (j - k)) else get g := by
  induction n with
  | zero => rw [if_neg (by omega)]; rfl
  | succ n ih =>
    rw [List.range_succ, List.foldl_append, List.foldl_cons, List.foldl_nil, h, ih]
    by_cases hj : j = k + n
    · rw [if_pos hj, if_pos (by omega), hj, Nat.add_sub_cancel_left]
    · rw [if_neg hj]
      exact if_congr (by omega) rfl rfl

/-- The words of the frame that go to lane predicates, group predicates, format registers and g56 to g63. -/
def Group.loadP (g : Group) (f : Nat → Word) : Group := (List.range 12).foldl (fun g i => g.pput i (f (24 + i))) g
def Group.loadGp (g : Group) (f : Nat → Word) : Group :=
  (List.range 3).foldl (fun g i => g.gpput i ((f 36).getLsbD i)) g
def Group.loadFm (g : Group) (f : Nat → Word) : Group :=
  (List.range 8).foldl (fun g i => g.fmput i (pair (f (40 + 2 * i)) (f (41 + 2 * i)))) g
def Group.loadG (g : Group) (f : Nat → Word) : Group := (List.range 8).foldl (fun g i => g.gput (56 + i) (f (56 + i))) g

theorem Group.loadP_pget (g : Group) (f : Nat → Word) {j : Nat} (hj : j < 12) : (g.loadP f).pget j = f (24 + j) := by
  have h := Group.foldl_range_get (put := Group.pput) (get := (·.pget j)) (norm := id)
    (fun g n x => g.pput_pget n j x) 0 12 (fun i => f (24 + i)) g
  simpa [Group.loadP, hj] using h

theorem Group.loadGp_gpget (g : Group) (f : Nat → Word) {j : Nat} (hj : j < 3) :
    (g.loadGp f).gpget j = (f 36).getLsbD j := by
  have h := Group.foldl_range_get (put := Group.gpput) (get := (·.gpget j)) (norm := id)
    (fun g n x => (g.gpput_gpget n j x).trans (if_neg (by omega))) 0 3 (fun i => (f 36).getLsbD i) g
  simpa [Group.loadGp, hj] using h

theorem Group.loadFm_fmget (g : Group) (f : Nat → Word) {j : Nat} (hj : j < 8) :
    (g.loadFm f).fmget j = pair (f (40 + 2 * j)) (f (41 + 2 * j)) &&& 0x3FFF07FFFF := by
  have h := Group.foldl_range_get (put := Group.fmput) (get := (·.fmget j)) (norm := (· &&& 0x3FFF07FFFF))
    (fun g n x => g.fmput_fmget n j x) 0 8 (fun i => pair (f (40 + 2 * i)) (f (41 + 2 * i))) g
  simpa [Group.loadFm, hj] using h

theorem Group.loadG_gget (g : Group) (f : Nat → Word) (j : Nat) :
    (g.loadG f).gget j = if 56 ≤ j ∧ j < 64 then f j else g.gget j := by
  have h := Group.foldl_range_get (put := Group.gput) (get := (·.gget j)) (norm := id)
    (fun g n x => g.gput_gget n j x) 56 8 (fun i => f (56 + i)) g
  refine h.trans ?_
  split
  · next hj => rw [show 56 + (j - 56) = j by omega]; rfl
  · rfl

theorem Group.foldl_pput_frame (x : Nat → Word) (l : List Nat) (g : Group) :
    l.foldl (fun g i => g.pput i (x i)) g = { g with p := (l.foldl (fun g i => g.pput i (x i)) g).p } := by
  induction l generalizing g with
  | nil => rfl
  | cons i t ih => rw [List.foldl_cons, ih]; rfl

theorem Group.foldl_gpput_frame (x : Nat → Bool) (l : List Nat) (g : Group) :
    l.foldl (fun g i => g.gpput i (x i)) g = { g with gp := (l.foldl (fun g i => g.gpput i (x i)) g).gp } := by
  induction l generalizing g with
  | nil => rfl
  | cons i t ih =>
    have h : g.gpput i (x i) = { g with gp := (g.gpput i (x i)).gp } := by unfold Group.gpput; split <;> rfl
    rw [List.foldl_cons, ih, h]

theorem Group.foldl_fmput_frame (x : Nat → DWord) (l : List Nat) (g : Group) :
    l.foldl (fun g i => g.fmput i (x i)) g = { g with fm := (l.foldl (fun g i => g.fmput i (x i)) g).fm } := by
  induction l generalizing g with
  | nil => rfl
  | cons i t ih => rw [List.foldl_cons, ih]; rfl

theorem Group.foldl_gput_frame (x : Nat → Word) (l : List Nat) (g : Group) :
    l.foldl (fun g i => g.gput (56 + i) (x i)) g = { g with g := (l.foldl (fun g i => g.gput (56 + i) (x i)) g).g } := by
  induction l generalizing g with
  | nil => rfl
  | cons i t ih => rw [List.foldl_cons, ih]; rfl

/-- The register words of a frame put in a group. -/
def Group.loadRegs (g : Group) (f : Nat → Word) : Group := (((g.loadP f).loadGp f).loadFm f).loadG f

theorem Group.loadRegs_frame (g : Group) (f : Nat → Word) : g.loadRegs f = { g with
    p := (g.loadP f).p, gp := ((g.loadP f).loadGp f).gp, fm := (((g.loadP f).loadGp f).loadFm f).fm
    g := (g.loadRegs f).g } := by
  have hg : g.loadRegs f = { ((g.loadP f).loadGp f).loadFm f with g := (g.loadRegs f).g } := Group.foldl_gput_frame _ _ _
  have hfm : ((g.loadP f).loadGp f).loadFm f
    = { (g.loadP f).loadGp f with fm := (((g.loadP f).loadGp f).loadFm f).fm } := Group.foldl_fmput_frame _ _ _
  have hgp : (g.loadP f).loadGp f = { g.loadP f with gp := ((g.loadP f).loadGp f).gp } := Group.foldl_gpput_frame _ _ _
  have hp : g.loadP f = { g with p := (g.loadP f).p } := Group.foldl_pput_frame _ _ _
  generalize g.loadRegs f = h4 at *
  generalize ((g.loadP f).loadGp f).loadFm f = h3 at *
  generalize (g.loadP f).loadGp f = h2 at *
  generalize g.loadP f = h1 at *
  rw [hg, hfm, hgp, hp]

/-- The slots and words of a group that its frame's words 4 to 20 and 38 give. -/
def Group.reloadSlots (g : Group) (f : Nat → Word) (k : TrapCtx) (a b : PcSlot) : Group :=
  { g with
    slotA := replaying k false a, slotB := replaying k true b, traps := g.traps.tail
    calldepth := (f 14).toNat
    rp := if (f 15).getLsbD 31 then some ((f 15).extractLsb' 0 24) else none
    fpstat := f 16 &&& 0x1F, memst := f 17 &&& 0xF, csw := f 18 &&& 0xFF
    cpyst := f 19 &&& 0xF0000000, mstst := f 20 &&& 0xF0000000
    tlatch := f 38 }

theorem Group.reload_eq (g : Group) (f : Nat → Word) (k : TrapCtx) (a b : PcSlot) :
    g.reload f k a b = (g.reloadSlots f k a b).loadRegs f := by
  have hreplay (x : PcSlot) (s : Bool) :
      (if k.replay && s = k.slotB && x.pc = k.pc && x.ins = k.ins && k.tlanes ≠ 0 then
        { x with only := some k.tlanes, again := none } else x) = replaying k s x := by
    rw [replaying]
    exact if_congr (by simp [and_assoc]) rfl rfl
  unfold Group.reload Group.reloadSlots
  simp only [hreplay]
  rfl

theorem Group.loadRegs_pget (g : Group) (f : Nat → Word) {j : Nat} (hj : j < 12) :
    (g.loadRegs f).pget j = f (24 + j) := by
  have h : (g.loadRegs f).p = (g.loadP f).p := by rw [g.loadRegs_frame]
  exact (congrArg (·.getD j 0) h).trans (g.loadP_pget f hj)

theorem Group.loadRegs_gpget (g : Group) (f : Nat → Word) {j : Nat} (hj : j < 3) :
    (g.loadRegs f).gpget j = (f 36).getLsbD j := by
  have h : (g.loadRegs f).gp = ((g.loadP f).loadGp f).gp := by rw [g.loadRegs_frame]
  rw [Group.gpget, h]
  exact (g.loadP f).loadGp_gpget f hj

theorem Group.loadRegs_fmget (g : Group) (f : Nat → Word) {j : Nat} (hj : j < 8) :
    (g.loadRegs f).fmget j = pair (f (40 + 2 * j)) (f (41 + 2 * j)) &&& 0x3FFF07FFFF := by
  have h : (g.loadRegs f).fm = (((g.loadP f).loadGp f).loadFm f).fm := by rw [g.loadRegs_frame]
  exact (congrArg (·.getD j 0) h).trans (((g.loadP f).loadGp f).loadFm_fmget f hj)

theorem Group.loadRegs_gget (g : Group) (f : Nat → Word) (j : Nat) :
    (g.loadRegs f).gget j = if 56 ≤ j ∧ j < 64 then f j else g.gget j := by
  have hg : (((g.loadP f).loadGp f).loadFm f).gget j = g.gget j := by
    rw [Group.loadFm, Group.foldl_fmput_frame, Group.loadGp, Group.foldl_gpput_frame, Group.loadP,
      Group.foldl_pput_frame]
    rfl
  rw [Group.loadRegs, Group.loadG_gget, hg]

/-! TRAP, BRK and TRET (R88 to R90). -/

theorem exec_trap (w : W0) (s : State) : exec (.trap w) s = execTrap w s := rfl
theorem exec_brk (w : W0) (s : State) : exec (.brk w) s = execBrk w s := rfl
theorem exec_tret (w : W0) (s : State) : exec (.tret w) s = execTret w s := rfl

/-- Word `n` of a frame that was read. -/
def frameWord (bs : List VByte) (n : Nat) : Word := (wordsLE (bs.map (·.val)) 96).getD n 0

/-- The slots that a frame gives, with what the kept slots add. -/
def frameSlot (bs : List VByte) (i : Nat) (keep : PcSlot) : PcSlot :=
  restoredSlot (PcSlot.ofFrame (frameWord bs i) (frameWord bs (i + 1)) (frameWord bs (i + 2)) (frameWord bs (i + 3))) keep

/-- TRET once the frame has been read. -/
def State.tretTo (s : State) (k : TrapCtx) (bs : List VByte) : State :=
  let a := frameSlot bs 4 k.keepA
  let b := frameSlot bs 8 k.keepB
  if !slotsOk a b then s.park cDBL s.slot.act 0
  else s.orFail s.slot.act ((s.modGrp (fun g => g.reload (frameWord bs) k a b)).dropGone s.cur (frameWord bs 2 ||| k.xk))

theorem exec_tret_reads {s u : State} {w : W0} {k : TrapCtx} {rest : List TrapCtx} {bs : List VByte}
    (hk : s.grp.traps = k :: rest) (ho : s.other.v = false) (hn : s.slot.nj = true) (hown : s.grp.ownRecords = 0)
    (hr : s.groupRead s.cur (vaOf (BitVec.ofNat 64 (s.framePlace s.grp (decide (1 < s.grp.traps.length))))) 384 4 false
      = (u, .ok bs)) : exec (.tret w) s = .next (u.tretTo k bs) := by
  have hr : s.groupRead s.cur (vaOf (BitVec.ofNat 64 (s.frameAddr s.grp (decide (1 < (k :: rest).length))))) 384 4 false
      = (u, .ok bs) := hk ▸ hr
  simp only [exec_tret, execTret, hk, ho, hn, hown, Bool.not_true, Bool.or_self, Bool.false_eq_true, if_false, hr,
    ne_eq, not_true_eq_false, decide_false]
  rfl

/-- The interrupted slots as a trap's frame gives them, before the lanes of XK leave. -/
def Group.resumed (g : Group) (k : TrapCtx) (bs : List VByte) : Group :=
  g.reload (frameWord bs) k (frameSlot bs 4 k.keepA) (frameSlot bs 8 k.keepB)

theorem replaying_v (k : TrapCtx) (b : Bool) (x : PcSlot) :
    (replaying k b x).v = x.v ∧ (replaying k b x).own = x.own ∧ (replaying k b x).act = x.act := by
  unfold replaying
  split <;> exact ⟨rfl, rfl, rfl⟩

theorem Group.resumed_slots (g : Group) (k : TrapCtx) (bs : List VByte) :
    (g.resumed k bs).slotA = replaying k false (frameSlot bs 4 k.keepA)
      ∧ (g.resumed k bs).slotB = replaying k true (frameSlot bs 8 k.keepB) := by
  rw [Group.resumed, Group.reload_eq, Group.loadRegs_frame]
  exact ⟨rfl, rfl⟩

/-- A slot loses its lanes in XK, if it has any (R89). -/
def State.dropGoneSlot (s : State) (gk : Nat) (b : Bool) (xk : Word) : Except StackErr State :=
  if (s.slotOf gk b).v && (s.slotOf gk b).own &&& xk ≠ 0 then s.leaveSlot gk b xk else .ok s

theorem State.dropGone_eq (s : State) (gk : Nat) (xk : Word) : s.dropGone gk xk
    = (s.dropGoneSlot gk false xk).bind (fun t => (t.dropGoneSlot gk true xk).bind (State.settle gk 3)) := rfl

theorem State.dropGoneSlot_none {s : State} {gk : Nat} {b : Bool} {xk : Word}
    (h : (s.slotOf gk b).v = false ∨ (s.slotOf gk b).own &&& xk = 0) : s.dropGoneSlot gk b xk = .ok s := by
  rw [State.dropGoneSlot, if_neg]
  rcases h with h | h <;> simp [h]

theorem State.dropGoneSlot_some {s : State} {gk : Nat} {b : Bool} {xk : Word}
    (hv : (s.slotOf gk b).v = true) (hx : (s.slotOf gk b).own &&& xk ≠ 0) :
    s.dropGoneSlot gk b xk = s.leaveSlot gk b xk := by
  rw [State.dropGoneSlot, if_pos (by simpa [hv] using hx)]

/-- A group none of whose lanes is gone stays as it is. -/
theorem State.dropGone_none {s : State} {xk : Word} (hv : s.grp.slotA.v = true ∨ s.grp.slotB.v = true)
    (ha : s.grp.slotA.own &&& xk = 0) (hb : s.grp.slotB.own &&& xk = 0) : s.dropGone s.cur xk = .ok s := by
  rw [State.dropGone_eq, State.dropGoneSlot_none (.inr ha), Except.bind, State.dropGoneSlot_none (.inr hb)]
  exact State.settle_running 2 hv

/-- The one slot loses the lanes that are gone, and goes on with the others. -/
theorem State.dropGone_first {s : State} {xk : Word} (ha : s.grp.slotA.v = true) (hb : s.grp.slotB.v = false)
    (hx : s.grp.slotA.own &&& xk ≠ 0) (h : s.grp.slotA.own &&& ~~~xk ≠ 0) : s.dropGone s.cur xk
      = .ok (s.modGrp (·.setSlot false { s.grp.slotA with
          own := s.grp.slotA.own &&& ~~~xk, act := s.grp.slotA.act &&& ~~~xk })) := by
  rw [State.dropGone_eq, State.dropGoneSlot_some (s := s) (b := false) ha hx, State.leaveSlot_stays (b := false) h, Except.bind, State.putSlot_cur]
  have hB : ((s.modGrp (·.setSlot false { s.slotOf s.cur false with
      own := (s.slotOf s.cur false).own &&& ~~~xk, act := (s.slotOf s.cur false).act &&& ~~~xk })).slotOf s.cur true).v = false := by
    rw [State.modGrp_slotOf]
    exact hb
  rw [State.dropGoneSlot_none (.inl hB), Except.bind]
  refine State.settle_running (s := s.modGrp _) 2 (.inl ?_)
  rw [State.modGrp_grp]
  exact ha

/-- The state with the interrupted group as its frame gives it. -/
theorem State.tretTo_resumes {s t : State} {k : TrapCtx} {bs : List VByte}
    (hok : slotsOk (frameSlot bs 4 k.keepA) (frameSlot bs 8 k.keepB) = true)
    (h : (s.modGrp (·.resumed k bs)).dropGone s.cur (frameWord bs 2 ||| k.xk) = .ok t) : s.tretTo k bs = t := by
  have h : (s.modGrp (fun g => g.reload (frameWord bs) k (frameSlot bs 4 k.keepA) (frameSlot bs 8 k.keepB))).dropGone
      s.cur (frameWord bs 2 ||| k.xk) = .ok t := h
  simp only [State.tretTo, hok, Bool.not_true, Bool.false_eq_true, if_false, h, State.orFail_ok]

theorem State.tretTo_loses {s : State} {k : TrapCtx} {bs : List VByte} {a b : PcSlot} {xk : Word}
    (ha : frameSlot bs 4 k.keepA = a) (hb : frameSlot bs 8 k.keepB = b) (hxk : frameWord bs 2 ||| k.xk = xk)
    (hok : slotsOk a b = true) (hav : a.v = true) (hbv : b.v = false) (hx : a.own &&& xk ≠ 0) (hleft : a.own &&& ~~~xk ≠ 0) :
    (s.tretTo k bs).grp.slotA.own = a.own &&& ~~~xk ∧ (s.tretTo k bs).grp.slotA.act = a.act &&& ~~~xk
      ∧ (s.tretTo k bs).grp.slotB.v = false ∧ OnlyGroup s (s.tretTo k bs) := by
  subst ha hb hxk
  obtain ⟨hA, hB⟩ := s.grp.resumed_slots k bs
  obtain ⟨hAv, hAown, hAact⟩ := replaying_v k false (frameSlot bs 4 k.keepA)
  obtain ⟨hBv, -, -⟩ := replaying_v k true (frameSlot bs 8 k.keepB)
  rw [← hA, ← s.modGrp_grp (·.resumed k bs)] at hAv hAown hAact
  rw [← hB, ← s.modGrp_grp (·.resumed k bs)] at hBv
  rw [← hAown] at hx hleft
  rw [State.tretTo_resumes hok (State.dropGone_first (s := s.modGrp _) (hAv.trans hav) (hBv.trans hbv) hx hleft),
    State.modGrp_modGrp]
  refine ⟨?_, ?_, ?_, onlyGroup_modGrp _ _⟩
  · rw [State.modGrp_grp, ← hAown]; rfl
  · rw [State.modGrp_grp, ← hAact]; rfl
  · have hB := hBv.trans hbv
    rw [State.modGrp_grp] at hB ⊢
    exact hB

/-- The interrupted group reloaded whole, where no lane is gone. -/
theorem State.tretTo_whole {s : State} {k : TrapCtx} {bs : List VByte} {a b : PcSlot} {f : Nat → Word}
    (ha : frameSlot bs 4 k.keepA = a) (hb : frameSlot bs 8 k.keepB = b) (hf : frameWord bs = f)
    (hxk : f 2 ||| k.xk = 0) (hok : slotsOk a b = true) (hv : a.v = true ∨ b.v = true) :
    s.tretTo k bs = s.modGrp (fun g => (g.reloadSlots f k a b).loadRegs f) := by
  subst ha hb hf
  obtain ⟨hA, hB⟩ := s.grp.resumed_slots k bs
  have hAv := (replaying_v k false (frameSlot bs 4 k.keepA)).1
  have hBv := (replaying_v k true (frameSlot bs 8 k.keepB)).1
  rw [← hA, ← s.modGrp_grp (·.resumed k bs)] at hAv
  rw [← hB, ← s.modGrp_grp (·.resumed k bs)] at hBv
  rw [← hAv, ← hBv] at hv
  rw [State.tretTo_resumes hok (State.dropGone_none (s := s.modGrp _) hv (by rw [hxk]; exact BitVec.and_zero)
    (by rw [hxk]; exact BitVec.and_zero))]
  exact State.modGrp_congr (Group.reload_eq ..)

theorem runs_tret_whole {s u : State} {w : W0} {k : TrapCtx} {a b : PcSlot} {f : Nat → Word}
    (hx : exec (.tret w) s = .next (u.modGrp (fun g => (g.reloadSlots f k a b).loadRegs f))) :
    Runs (.tret w) s (fun t => OnlyGroup u t
      ∧ t.grp.slotA = replaying k false a ∧ t.grp.slotB = replaying k true b
      ∧ t.grp.traps = u.grp.traps.tail ∧ t.grp.calldepth = (f 14).toNat
      ∧ t.grp.rp = (if (f 15).getLsbD 31 then some ((f 15).extractLsb' 0 24) else none)
      ∧ t.grp.fpstat = f 16 &&& 0x1F ∧ t.grp.memst = f 17 &&& 0xF ∧ t.grp.csw = f 18 &&& 0xFF
      ∧ t.grp.cpyst = f 19 &&& 0xF0000000 ∧ t.grp.mstst = f 20 &&& 0xF0000000
      ∧ t.grp.tlatch = f 38
      ∧ (∀ i, i < 12 → t.grp.pget i = f (24 + i)) ∧ (∀ i, i < 3 → t.grp.gpget i = (f 36).getLsbD i)
      ∧ (∀ i, i < 8 → t.grp.fmget i = pair (f (40 + 2 * i)) (f (41 + 2 * i)) &&& 0x3FFF07FFFF)
      ∧ (∀ i, i < 8 → t.grp.gget (56 + i) = f (56 + i))
      ∧ (∀ n, n < 56 → t.grp.gget n = u.grp.gget n)) := by
  refine ⟨_, hx, onlyGroup_modGrp _ _, ?_⟩
  rw [State.modGrp_grp]
  have hframe := (u.grp.reloadSlots f k a b).loadRegs_frame f
  have hp := fun i => (u.grp.reloadSlots f k a b).loadRegs_pget f (j := i)
  have hgp := fun i => (u.grp.reloadSlots f k a b).loadRegs_gpget f (j := i)
  have hfm := fun i => (u.grp.reloadSlots f k a b).loadRegs_fmget f (j := i)
  have hg := (u.grp.reloadSlots f k a b).loadRegs_gget f
  generalize (u.grp.reloadSlots f k a b).loadRegs f = h at *
  refine ⟨?_, ?_, ?_, ?_, ?_, ?_, ?_, ?_, ?_, ?_, ?_, hp, hgp, hfm, fun i hi => (hg _).trans (if_pos (by omega)),
    fun n hn => (hg n).trans (if_neg (by omega))⟩
  all_goals rw [hframe]; rfl

/-- A slot that still stands at its instruction keeps what no frame word holds (R89, R347). -/
theorem restoredSlot_same {x keep : PcSlot} (h : keep.v = true ∧ keep.pc = x.pc ∧ keep.ins = x.ins) :
    (restoredSlot x keep).only = keep.only ∧ (restoredSlot x keep).again = keep.again
      ∧ (x.slp = true → keep.slp = true → (restoredSlot x keep).wake = keep.wake
        ∧ (restoredSlot x keep).wpc = keep.wpc ∧ (restoredSlot x keep).wins = keep.wins) := by
  obtain ⟨hv, hpc, hins⟩ := h
  cases hx : x.slp <;> cases hk : keep.slp <;> simp [restoredSlot, hv, hpc, hins, hx, hk]

/-- A slot that stands elsewhere has nothing of the kept slot. -/
theorem restoredSlot_elsewhere {x keep : PcSlot} (h : ¬ (keep.v = true ∧ keep.pc = x.pc ∧ keep.ins = x.ins)) :
    (restoredSlot x keep).only = none ∧ (restoredSlot x keep).again = none := by
  have h : (keep.v && decide (keep.pc = x.pc) && decide (keep.ins = x.ins)) = false := by
    rw [Bool.eq_false_iff]; simpa [and_assoc] using h
  cases hx : x.slp <;> simp [restoredSlot, h, hx]

/-- What the frame gives is kept, Active less the lanes that the slot does not own. -/
theorem restoredSlot_frame (x keep : PcSlot) : restoredSlot x keep = { x with
    act := x.act &&& x.own, only := (restoredSlot x keep).only, again := (restoredSlot x keep).again
    wake := (restoredSlot x keep).wake, wpc := (restoredSlot x keep).wpc, wins := (restoredSlot x keep).wins } := by
  unfold restoredSlot
  dsimp only
  split
  · rfl
  · split <;> rfl

/-- Settles O22: a trap or park at the next instruction; a frame read back word by word. -/
theorem softwareTrapsAndTrapReturn : Obligations.SoftwareTrapsAndTrapReturn := by
  unfold Obligations.SoftwareTrapsAndTrapReturn
  intro s w m g nest
  refine ⟨fun hm => ?_, fun hm => ?_, fun hb => ?_, fun hm hb => ?_, fun ht => ?_, fun ht hd => ?_,
    fun k rest u bs hk ho hn hown hr => ?_, fun x keep => ?_⟩
  · have hm : s.activeW w = 0 := hm
    exact ⟨by simp [exec_trap, execTrap, hm], by simp [exec_brk, execBrk, hm]⟩
  · have hm : s.activeW w ≠ 0 := hm
    rw [exec_trap, execTrap, if_neg hm]
  · have hb : (s.cr s.grp.ctx 0).getLsbD 3 = false := hb
    simp only [exec_brk, execBrk, hb, Bool.not_false, Bool.or_true, if_true]
  · have hm : s.activeW w ≠ 0 := hm
    have hb : (s.cr s.grp.ctx 0).getLsbD 3 = true := hb
    simp only [exec_brk, execBrk, hb, Bool.not_true, Bool.or_false, decide_eq_true_eq, if_neg hm]
    rfl
  · have ht : s.grp.traps = [] := ht
    simp only [exec_tret, execTret, ht]
  · obtain ⟨k, rest, hk⟩ := List.exists_cons_of_ne_nil ht
    have hd : (s.other.v || !s.slot.nj || decide (s.grp.ownRecords ≠ 0)) = true := by
      rcases hd with hd | hd | hd
      · rw [hd]; rfl
      · rw [hd, Bool.not_false, Bool.or_true, Bool.true_or]
      · rw [decide_eq_true hd, Bool.or_true]
    have hk : s.grp.traps = k :: rest := hk
    simp only [exec_tret, execTret, hk, hd, if_true]
  · have hx := exec_tret_reads (w := w) hk ho hn hown hr
    refine ⟨fun hok => ?_, fun hok ha hb hxk hleft _ => ?_, fun hok hxk hv _ => ?_⟩
    · have hok : slotsOk (frameSlot bs 4 k.keepA) (frameSlot bs 8 k.keepB) = false := hok
      rw [hx, State.tretTo, hok]
      rfl
    · exact ⟨_, hx, State.tretTo_loses rfl rfl rfl hok ha hb hxk hleft⟩
    · rw [State.tretTo_whole rfl rfl rfl hxk hok hv] at hx
      exact runs_tret_whole hx
  · exact ⟨restoredSlot_frame x keep, fun h => ⟨(restoredSlot_same h).1, (restoredSlot_same h).2.1⟩,
      fun h => (restoredSlot_same h).2.2, fun h => restoredSlot_elsewhere h⟩

end Sys2Proof.Machine
end

section
/-!
PROOF. Sleeps that end, traps still to be taken, freed fault-buffer entries, the fault queue and lines dropped from an
L1 (04_control R87; 09_memory R162, R177; 15_system R344, R348).
-/

namespace Sys2Proof.Machine

/-! Sleeps that end and traps still to be taken (04_control R87; 15_system R344). -/

theorem exec_sleepWake (k : Nat) (b : Bool) (s : State) : exec (.sleepWake k b) s = execSleepWake k b s := rfl
theorem exec_trapEntry (k : Nat) (s : State) : exec (.trapEntry k) s = execTrapEntry k s := rfl

theorem PcSlot.slept_iff (x : PcSlot) (now : Nat) : x.slept now = true ↔
    x.v = true ∧ x.slp = true ∧ (now + 2 ^ 64 - x.wake % 2 ^ 64) % 2 ^ 64 < 2 ^ 63 := by
  simp only [PcSlot.slept, Bool.and_eq_true, decide_eq_true_eq, and_assoc]

theorem exec_sleepWake_eq (s : State) (k : Nat) (b : Bool) : exec (.sleepWake k b) s
    = .next (if (s.group k).live = true ∧ ((s.group k).slot b).slept (s.dieTime (s.group k).die) = true then
        s.setGroup k ((s.group k).setSlot b ((s.group k).slot b).woken) else s) := by
  rw [exec_sleepWake, execSleepWake]
  exact congrArg Host.Outcome.next (ite_and (s.group k).live _ _ _).symm

theorem exec_trapEntry_eq (s : State) (k : Nat) : exec (.trapEntry k) s
    = .next (if (s.group k).live = true ∧ (s.group k).away = false ∧ (s.group k).park = none ∧ (s.group k).trapPend ≠ none then
        (s.wakeSlots k).takeTrap k else s) := by
  rw [exec_trapEntry, execTrapEntry]
  refine congrArg Host.Outcome.next (if_congr ?_ rfl rfl)
  simp only [Bool.and_eq_true, Bool.not_eq_true', Option.isNone_iff_eq_none, Option.isSome_iff_ne_none, and_assoc]

/-! A freed fault-buffer entry (09_memory R177). -/

theorem exec_faultBufferEntryFree (k : Nat) (s : State) :
    exec (.faultBufferEntryFree k) s = .next (s.modCore k Core.reserve) := rfl

/-- An entry that no fault and no reservation uses. -/
def Core.Unused (c : Core) (i : Nat) : Prop := i < 64 ∧ (c.faults.getD i {}).used = false

theorem Core.freeEntry_none {c : Core} (h : ∀ i, ¬ c.Unused i) : c.freeEntry = none := by
  rw [Core.freeEntry, List.find?_eq_none]
  intro i hi hu
  exact h i ⟨List.mem_range.1 hi, by simpa using hu⟩

theorem Core.freeEntry_first {c : Core} {i : Nat} (h : c.Unused i) (hfirst : ∀ j, j < i → ¬ c.Unused j) :
    c.freeEntry = some i := by
  obtain ⟨hi, hu⟩ := h
  rw [Core.freeEntry, List.find?_range_eq_some]
  refine ⟨by rw [hu]; rfl, List.mem_range.2 hi, fun j hj => ?_⟩
  have hused : (c.faults.getD j {}).used ≠ false := fun h0 => hfirst j hj ⟨by omega, h0⟩
  simpa using hused

theorem Core.reserve_none {c : Core} (h : c.waiters = [] ∨ ∀ i, ¬ c.Unused i) : c.reserve = c := by
  unfold Core.reserve
  rcases h with h | h
  · rw [h]; cases c.freeEntry <;> rfl
  · rw [Core.freeEntry_none h]

/-- The entry reserved for a waiter. -/
def Waiter.entry (x : Waiter) : FaultEnt :=
  { used := true, reserved := true, engine := x.engine, matrix := x.matrix, grp := x.grp
    cmd := if x.engine then x.cmd else x.slotB.toNat, chunk := x.chunk }

theorem Core.reserve_first {c : Core} {i : Nat} {x : Waiter} {l : List Waiter} (h : c.Unused i)
    (hfirst : ∀ j, j < i → ¬ c.Unused j) (hw : c.waiters = x :: l) :
    c.reserve = { c with faults := c.faults.set i x.entry {}, waiters := l } := by
  have hb : (if x.slotB then 1 else 0 : Nat) = x.slotB.toNat := by cases x.slotB <;> rfl
  simp only [Core.reserve, Core.freeEntry_first h hfirst, hw, Waiter.entry, hb]

/-! The fault queue (15_system R348). -/

theorem exec_faultQueueEntry (s : State) : exec .faultQueueEntry s = execFaultQueueEntry s := rfl

theorem pair_toNat (lo hi : Word) : (pair lo hi).toNat = lo.toNat + 2 ^ 32 * hi.toNat := by
  rw [pair, BitVec.toNat_append, ← Nat.shiftLeft_add_eq_or_of_lt lo.isLt, Nat.shiftLeft_eq]
  omega

theorem wordBytes_length (e : List Word) : (wordBytes e).length = 4 * e.length := by
  induction e with
  | nil => rfl
  | cons w t ih =>
    rw [wordBytes, List.flatMap_cons, List.length_append, ← wordBytes, ih]
    simp [bytesLE]
    omega

theorem State.setMemBytes_keeps (s : State) (pk : Nat) (bs : List Byte) :
    s.setMemBytes pk bs = { s with mem := (s.setMemBytes pk bs).mem } := by
  induction bs generalizing s pk with
  | nil => rfl
  | cons b t ih => rw [State.setMemBytes, ih]; rfl

/-- Where the fault queue's next entry goes. -/
def State.fqPlace (s : State) : Nat :=
  let pa := (s.preg.getD 0x300 0).toNat + 2 ^ 32 * (s.preg.getD 0x301 0).toNat + 32 * (s.preg.getD 0x303 0).toNat
  if isDram pa then pa else 2 * 2 ^ 64 + pa

/-- The queue has no room. -/
def State.fqFull (s : State) : Prop :=
  ((s.preg.getD 0x303 0).toNat + 1) % s.fqSize = (s.preg.getD 0x304 0).toNat % s.fqSize

theorem exec_faultQueueEntry_stays {s : State} (h : s.faultQ = [] ∨ s.fqFull) : exec .faultQueueEntry s = .next s := by
  rw [exec_faultQueueEntry, execFaultQueueEntry]
  rcases h with h | h
  · rw [h]
  · cases hq : s.faultQ with
    | nil => rfl
    | cons e t => exact congrArg Host.Outcome.next (if_pos h)

/-- The state once the oldest entry is in the queue. -/
def State.fqTaken (s : State) (e : List Word) (l : List (List Word)) : State :=
  { s with mem := (s.setMemBytes s.fqPlace (wordBytes e)).mem, faultQ := l
           preg := s.preg.set 0x303 (BitVec.ofNat 32 (((s.preg.getD 0x303 0).toNat + 1) % s.fqSize)) 0
           msix := dedup (s.msix ++ [0]) }

theorem exec_faultQueueEntry_takes {s : State} {e : List Word} {l : List (List Word)} (hq : s.faultQ = e :: l)
    (h : ¬ s.fqFull) : exec .faultQueueEntry s = .next (s.fqTaken e l) := by
  rw [exec_faultQueueEntry, execFaultQueueEntry, hq]
  refine congrArg Host.Outcome.next ((if_neg h).trans ?_)
  have hm := s.setMemBytes_keeps s.fqPlace (wordBytes e)
  unfold State.fqTaken
  generalize hu : s.setMemBytes s.fqPlace (wordBytes e) = u at hm ⊢
  change State.interrupt { s.setMemBytes s.fqPlace (wordBytes e) with
    faultQ := l
    preg := (s.setMemBytes s.fqPlace (wordBytes e)).preg.set 0x303 (BitVec.ofNat 32
      (((s.preg.getD 0x303 0).toNat + 1) % (s.setMemBytes s.fqPlace (wordBytes e)).fqSize)) 0 } 0 = _
  rw [hu, hm]
  rfl

theorem State.fqTaken_memByte (s : State) (e : List Word) (l : List (List Word)) (a : Nat) :
    (s.fqTaken e l).memByte a
      = if s.fqPlace ≤ a ∧ a < s.fqPlace + 4 * e.length then (wordBytes e).getD (a - s.fqPlace) 0 else s.memByte a := by
  rw [← wordBytes_length, ← State.memByte_setMemBytes]
  rfl

theorem runs_faultQueueEntry_takes {s : State} {e : List Word} {l : List (List Word)} (hq : s.faultQ = e :: l)
    (h : ¬ s.fqFull) : Runs .faultQueueEntry s (fun t =>
      t.faultQ = l ∧ t.preg.getD 0x303 0 = BitVec.ofNat 32 (((s.preg.getD 0x303 0).toNat + 1) % s.fqSize) ∧ 0 ∈ t.msix
      ∧ (∀ i, i ≠ 0x303 → t.preg.getD i 0 = s.preg.getD i 0)
      ∧ (∀ i, i < 4 * e.length → t.memByte (s.fqPlace + i) = (wordBytes e).getD i 0)
      ∧ (∀ a, (a < s.fqPlace ∨ s.fqPlace + 4 * e.length ≤ a) → t.memByte a = s.memByte a)
      ∧ t.groups = s.groups ∧ t.teams = s.teams) := by
  refine ⟨_, exec_faultQueueEntry_takes hq h, rfl, SMap.getD_set_same _ _ _ _, ?_, fun i hi => SMap.getD_set_other _ _ _ hi,
    fun i hi => ?_, fun a ha => ?_, rfl, rfl⟩
  · exact (mem_dedup _ _).2 (List.mem_append_right _ (List.mem_singleton.2 rfl))
  · rw [State.fqTaken_memByte, if_pos (by omega), Nat.add_sub_cancel_left]
  · rw [State.fqTaken_memByte, if_neg (by omega)]

/-! A line dropped from an L1 (09_memory R162). -/

theorem exec_l1LineDrop (core line : Nat) (s : State) :
    exec (.l1LineDrop core line) s = .next (s.dropL1 (fun k => k = core) line) := rfl

/-- A table without the entries of some keys reads blank there, and elsewhere as before. -/
theorem SMap.getD_filter {α : Type} (m : SMap α) (p : Nat → Bool) (k : Nat) (d : α) :
    SMap.getD (m.filter (fun e => p e.1)) k d = if p k then m.getD k d else d := by
  induction m with
  | nil => split <;> rfl
  | cons e t ih =>
    obtain ⟨j, v⟩ := e
    rw [List.filter_cons, SMap.getD_cons]
    by_cases hjk : j = k
    · subst hjk
      cases hp : p j
      · simpa [hp] using ih
      · simp [SMap.getD_cons]
    · rw [if_neg hjk, ← ih]
      split
      · rw [SMap.getD_cons, if_neg hjk]
      · rfl

theorem State.dropL1_coreAt (s : State) (p : Nat → Bool) (line j : Nat) : (s.dropL1 p line).coreAt j
    = if p j then { s.coreAt j with l1 := (s.coreAt j).l1.filter (fun e => e.1 / 64 / 8 ≠ line) } else s.coreAt j := by
  refine SMap.getD_mapV s.cores j {} (fun k c =>
    if p k then { c with l1 := c.l1.filter (fun e => e.1 / 64 / 8 ≠ line) } else c) ?_
  split <;> rfl

theorem State.dropL1_l1 (s : State) (core line k : Nat) : ((s.dropL1 (fun j => j = core) line).coreAt core).l1.getD k {}
    = if k / 512 = line then {} else (s.coreAt core).l1.getD k {} := by
  have h := SMap.getD_filter (s.coreAt core).l1 (fun j => decide (j / 64 / 8 ≠ line)) k {}
  rw [State.dropL1_coreAt, if_pos (decide_eq_true rfl)]
  refine h.trans ?_
  rw [Nat.div_div_eq_div_mul]
  by_cases hk : k / (64 * 8) = line <;> simp [hk]

end Sys2Proof.Machine
end

section
/-!
PROOF. Pending lines that go home and lines that leave an L2 (11_visibility R242, R243; 17_cold R391).
-/

namespace Sys2Proof.Machine

/-! Folds whose steps each act on one place. -/

/-- A fold over elements with different places: what is read of one place changes by the step of the element
there, if there is one. -/
theorem foldl_at_place {σ α β : Type} {f : σ → α → σ} {place : α → Nat} {g : σ → β} {h : α → β → β} {i : Nat}
    {l : List α} (hf : ∀ s, ∀ a ∈ l, g (f s a) = if place a = i then h a (g s) else g s) (hn : (l.map place).Nodup) (s : σ) :
    g (l.foldl f s) = (l.find? (fun a => place a = i)).elim (g s) (fun a => h a (g s)) := by
  induction l generalizing s with
  | nil => rfl
  | cons a t ih =>
    obtain ⟨ha, ht⟩ := List.nodup_cons.1 hn
    rw [List.foldl_cons, ih (fun s b hb => hf s b (List.mem_cons_of_mem _ hb)) ht, hf s a List.mem_cons_self,
      List.find?_cons]
    by_cases hi : place a = i
    · have hnone : t.find? (fun b => decide (place b = i)) = none := by
        rw [List.find?_eq_none]
        intro b hb hbi
        exact ha (hi ▸ of_decide_eq_true hbi ▸ List.mem_map.2 ⟨b, hb, rfl⟩)
      rw [hnone, if_pos hi, decide_eq_true hi]
      rfl
    · rw [if_neg hi, decide_eq_false hi]

theorem range_find {n i : Nat} (h : i < n) : (List.range n).find? (fun j => decide (j = i)) = some i := by
  rw [List.find?_range_eq_some]
  refine ⟨decide_eq_true rfl, List.mem_range.2 h, fun j hj => ?_⟩
  simp only [Bool.not_eq_true', decide_eq_false_iff_not]
  omega

/-- The bits of a buffered byte laid over a byte. -/
def BCell.onto (c : BCell) (x : Byte) : Byte := (x &&& ~~~c.mask) ||| (c.val &&& c.mask)

theorem BCell.onto_of_mask {c : BCell} (h : c.mask = 0) (x : Byte) : c.onto x = x := by
  rw [BCell.onto, show c.mask = 0#8 from h, BitVec.not_zero, BitVec.and_allOnes, BitVec.and_zero, BitVec.or_zero]

/-- A table's entry laid over a byte: the blank entry lays nothing over it. -/
theorem find_onto_eq_getD (l : SMap BCell) (i : Nat) (x : Byte) :
    (l.find? (fun e => e.1 = i)).elim x (fun e => e.2.onto x) = (l.getD i {}).onto x := by
  induction l with
  | nil => exact (BCell.onto_of_mask rfl x).symm
  | cons e t ih =>
    obtain ⟨j, c⟩ := e
    rw [List.find?_cons, SMap.getD_cons]
    by_cases hj : j = i
    · rw [if_pos hj, decide_eq_true hj]; rfl
    · rw [if_neg hj, decide_eq_false hj]; exact ih

/-! What traffic towards the homes leaves of a die. -/

/-- A part of a die that none of its traffic towards the homes touches. -/
structure Die.Apart {β : Type} (p : Die → β) : Prop where
  ctrs : ∀ d x, p { d with ctrs := x } = p d
  skew : ∀ d x, p { d with skew := x } = p d
  dirty : ∀ d x, p { d with dirty := x } = p d
  clean : ∀ d x, p { d with clean := x } = p d
  armed : ∀ d x, p { d with armed := x } = p d
  guest : ∀ d x, p { d with guest := x } = p d

theorem State.modDie_part {β : Type} (p : Die → β) (s : State) (d : Nat) (f : Die → Die) (hf : ∀ x, p (f x) = p x)
    (n : Nat) : p ((s.modDie d f).die n) = p (s.die n) := by
  rw [State.modDie_die]
  split
  · next hn => rw [hn, hf]
  · rfl

theorem State.foldl_part {α β : Type} {f : State → α → State} {q : State → β} (h : ∀ s a, q (f s a) = q s) (l : List α)
    (s : State) : q (l.foldl f s) = q s :=
  List.foldlRecOn (motive := fun t => q t = q s) l f rfl (fun t ht a _ => (h t a).trans ht)

theorem State.farWrite_part {β : Type} {p : Die → β} (hc : ∀ d x, p { d with clean := x } = p d) (s : State)
    (home pk : Nat) (c : BCell) (n : Nat) : p ((s.farWrite home pk c).die n) = p (s.die n) :=
  State.modDie_part p (s.setMemByte pk _) home _ (fun d => hc d _) n

theorem State.writeOn_part {β : Type} {p : Die → β} (hc : ∀ d x, p { d with clean := x } = p d)
    (hd : ∀ d x, p { d with dirty := x } = p d) (s : State) (die : Nat) (q : Nat → Bool) (n : Nat) :
    p ((s.writeOn die q).die n) = p (s.die n) := by
  unfold State.writeOn
  dsimp only
  refine (State.modDie_part p _ die _ (fun d => hd d _) n).trans ?_
  refine List.foldlRecOn (motive := fun t : State => p (t.die n) = p (s.die n)) _ _ ?_
    (fun t ht _ _ => by rw [State.mergePois_die, ht])
  exact List.foldlRecOn (motive := fun t : State => p (t.die n) = p (s.die n)) _ _ rfl
    (fun t ht e _ => (t.farWrite_part hc die e.1 e.2 n).trans ht)

theorem State.acceptByte_part {β : Type} {p : Die → β} (hd : ∀ d x, p { d with dirty := x } = p d) (s : State)
    (home pk : Nat) (c : BCell) (n : Nat) : p ((s.acceptByte home pk c).die n) = p (s.die n) := by
  unfold State.acceptByte
  split
  · rfl
  · split
    · rfl
    · split
      · rfl
      · exact State.modDie_part p s home _ (fun d => hd d _) n

theorem State.disarm_part {β : Type} {p : Die → β} (ha : ∀ d x, p { d with armed := x } = p d) (s : State)
    (die sec : Nat) (cells : SMap BCell) (n : Nat) : p ((s.disarm die sec cells).die n) = p (s.die n) := by
  unfold State.disarm
  split
  · rfl
  · exact State.modDie_part p s die _ (fun d => ha d _) n

theorem State.acceptHome_part {β : Type} {p : Die → β} (hp : Die.Apart p) (s : State) (attr : PAttr) (sec : Nat)
    (cells : SMap BCell) (n : Nat) : p ((s.acceptHome attr sec cells).die n) = p (s.die n) := by
  have h := (State.disarm_part hp.armed (cells.foldl (fun s e => s.acceptByte attr.home (sec * 16 + e.1) e.2) s)
    attr.home sec cells n).trans (State.foldl_part (q := fun t : State => p (t.die n))
      (fun t e => t.acceptByte_part hp.dirty attr.home (sec * 16 + e.1) e.2 n) cells s)
  unfold State.acceptHome
  dsimp only
  split
  · exact (State.foldl_part (q := fun t : State => p (t.die n)) (fun t w => by rw [State.mergePois_die]) _ _).trans h
  · split
    · exact (State.writeOn_part hp.clean hp.dirty _ _ _ n).trans h
    · exact h

theorem State.guestMerge_part {β : Type} {p : Die → β} (hg : ∀ d x, p { d with guest := x } = p d) (s : State)
    (die sec : Nat) (cells : SMap BCell) (n : Nat) : p ((s.guestMerge die sec cells).die n) = p (s.die n) := by
  refine State.modDie_part p s die _ (fun d => ?_) n
  dsimp only
  split
  · exact hg d _
  · rfl

/-- A die with a line no longer pending. -/
def State.dropPending (s : State) (die line : Nat) : State :=
  s.modDie die (fun d => { d with pendH := d.pendH.set line {} {} })

theorem State.sendLine_pending {s : State} {die line : Nat} (h : (s.pline die line).have_ = true) :
    s.sendLine die line = (List.range 8).foldl (fun t i =>
      (t.acceptHome (s.pline die line).attr (line * 8 + i) (lineSec (s.pline die line).cells i)).guestMerge die
        (line * 8 + i) (lineSec (s.pline die line).cells i))
      ((s.dropPending die line).timeMsg die (s.pline die line).attr.home) := by
  simp only [State.sendLine, h, Bool.not_true, Bool.false_eq_true, if_false]
  rfl

/-- A line sent leaves of a die what giving it up leaves. -/
theorem State.sendLine_part {β : Type} {p : Die → β} (hp : Die.Apart p) {s : State} {die line : Nat}
    (h : (s.pline die line).have_ = true) (n : Nat) :
    p ((s.sendLine die line).die n) = p ((s.dropPending die line).die n) := by
  rw [State.sendLine_pending h]
  refine (State.foldl_part (q := fun t : State => p (t.die n)) (fun t i => ?_) _ _).trans
    (State.timeMsg_die p hp.ctrs hp.skew _ _ _ n)
  exact (State.guestMerge_part hp.guest _ _ _ _ n).trans (t.acceptHome_part hp _ _ _ n)

theorem Die.apart_pendH : Die.Apart (·.pendH) where
  ctrs _ _ := rfl
  skew _ _ := rfl
  dirty _ _ := rfl
  clean _ _ := rfl
  armed _ _ := rfl
  guest _ _ := rfl

theorem State.sendLine_pline (s : State) (die line n l : Nat) : (s.sendLine die line).pline n l
    = if (n = die ∧ l = line) ∧ (s.pline die line).have_ = true then {} else s.pline n l := by
  cases h : (s.pline die line).have_ with
  | false => rw [State.sendLine_of_not_pending s die line h, if_neg (by simp)]
  | true =>
    have hd := congrArg (SMap.getD · l {}) (State.sendLine_part Die.apart_pendH h n)
    refine hd.trans ((State.dropPending_pline s die line n l).trans ?_)
    simp

theorem State.sendLine_pline_other (s : State) (die line n : Nat) {l : Nat} (h : l ≠ line) :
    (s.sendLine die line).pline n l = s.pline n l := by
  rw [State.sendLine_pline, if_neg (fun hl => h hl.1.2)]

/-! Bytes of TIER 0 that a home accepts (R228). -/

theorem State.acceptByte_memByte (s : State) (home pk : Nat) (c : BCell) {a : Nat} (ha : a < 2 ^ 64) :
    (s.acceptByte home pk c).memByte a = if pk = a then c.onto (s.memByte a) else s.memByte a := by
  unfold State.acceptByte
  split
  · next hm => rw [BCell.onto_of_mask hm, ite_self]
  · split
    · rw [State.memByte_setMemByte]
      by_cases hp : a = pk
      · rw [if_pos hp, if_pos hp.symm, hp]; rfl
      · rw [if_neg hp, if_neg (Ne.symm hp)]
    · rw [if_neg (show ¬ pk = a by omega)]
      split <;> rfl

theorem State.disarm_mem (s : State) (die sec : Nat) (cells : SMap BCell) : (s.disarm die sec cells).mem = s.mem := by
  unfold State.disarm
  split <;> rfl

theorem State.mergePois_mem (s : State) (pk : Nat) (cs : List BCell) : (s.mergePois pk cs).mem = s.mem := by
  rw [State.mergePois_mpois]

/-- What a TIER 0 sector accepted at its home leaves of a byte. -/
theorem State.acceptHome_memByte (s : State) (attr : PAttr) {sec a : Nat} {cells : SMap BCell} (hsec : sec * 16 < 2 ^ 64)
    (ha : a < 2 ^ 64) (hn : (cells.map (fun e => sec * 16 + e.1)).Nodup) :
    (s.acceptHome attr sec cells).memByte a
      = (cells.find? (fun e => sec * 16 + e.1 = a)).elim (s.memByte a) (fun e => e.2.onto (s.memByte a)) := by
  have hbytes := foldl_at_place (f := fun (t : State) (e : Nat × BCell) => t.acceptByte attr.home (sec * 16 + e.1) e.2)
    (g := (·.memByte a)) (fun t e _ => t.acceptByte_memByte attr.home (sec * 16 + e.1) e.2 ha) hn s
  refine Eq.trans ?_ hbytes
  unfold State.acceptHome
  dsimp only
  rw [if_pos hsec]
  refine congrArg (·.getD a (memBlank a)) ((State.foldl_part (q := State.mem) (fun t w => ?_) _ _).trans
    (State.disarm_mem _ _ _ _))
  exact t.mergePois_mem _ _

theorem State.guestMerge_memByte (s : State) (die sec : Nat) (cells : SMap BCell) (a : Nat) :
    (s.guestMerge die sec cells).memByte a = s.memByte a := rfl

/-- The cells of a sector of a line, each at its place in memory. -/
theorem lineSec_nodup {cells : SMap BCell} (hn : (cells.map (·.1)).Nodup) (l i : Nat) :
    ((lineSec cells i).map (fun e => (l * 8 + i) * 16 + e.1)).Nodup := by
  rw [lineSec, List.map_map]
  refine List.Nodup.map_on (fun x hx y hy hxy => ?_) ((List.Nodup.of_map _ hn).filter _)
  obtain ⟨hx, hxi⟩ := List.mem_filter.1 hx
  obtain ⟨hy, hyi⟩ := List.mem_filter.1 hy
  have hxi := of_decide_eq_true hxi
  have hyi := of_decide_eq_true hyi
  exact List.inj_on_of_nodup_map hn hx hy (by simp only [Function.comp_apply] at hxy; omega)

/-- Only the sector that a byte of the line lies in has a cell for it. -/
theorem lineSec_find (cells : SMap BCell) {l i a : Nat} (ha : a / 128 = l) (x : Byte) :
    ((lineSec cells i).find? (fun e => (l * 8 + i) * 16 + e.1 = a)).elim x (fun e => e.2.onto x)
      = if i = a % 128 / 16 then (cellAt cells (a % 128)).onto x else x := by
  induction cells with
  | nil => split <;> simp [lineSec, cellAt, BCell.onto_of_mask]
  | cons e t ih =>
    obtain ⟨k, c⟩ := e
    rw [cellAt, SMap.getD_cons, lineSec, List.filter_cons]
    by_cases hk : k / 16 = i
    · simp only [hk, decide_true, if_true, List.map_cons, List.find?_cons]
      by_cases hr : k = a % 128
      · rw [decide_eq_true (by omega), if_pos hr, if_pos (by omega)]; rfl
      · rw [decide_eq_false (by omega), if_neg hr]; exact ih
    · simp only [hk, decide_false, Bool.false_eq_true, if_false]
      by_cases hr : k = a % 128
      · rw [if_neg (by omega)]
        refine ih.trans (if_neg (by omega))
      · rw [if_neg hr]; exact ih

/-- A pending TIER 0 line sent home lays its bytes over memory's. -/
theorem State.sendLine_memByte {s : State} {die l a : Nat} (h : (s.pline die l).have_ = true)
    (hn : ((s.pline die l).cells.map (·.1)).Nodup) (ha : a < 2 ^ 64) (hl : a / 128 = l) :
    (s.sendLine die l).memByte a = (cellAt (s.pline die l).cells (a % 128)).onto (s.memByte a) := by
  rw [State.sendLine_pending h]
  have hstep : ∀ t : State, ∀ i ∈ List.range 8,
      ((t.acceptHome (s.pline die l).attr (l * 8 + i) (lineSec (s.pline die l).cells i)).guestMerge die (l * 8 + i)
        (lineSec (s.pline die l).cells i)).memByte a
      = if i = a % 128 / 16 then (cellAt (s.pline die l).cells (a % 128)).onto (t.memByte a) else t.memByte a := by
    intro t i hi
    have hi := List.mem_range.1 hi
    rw [State.guestMerge_memByte, State.acceptHome_memByte _ _ (by omega) ha (lineSec_nodup hn l i), lineSec_find _ hl]
  have hfold := foldl_at_place (place := fun i => i) (g := (·.memByte a))
    (h := fun _ x => (cellAt (s.pline die l).cells (a % 128)).onto x) hstep (by simpa using List.nodup_range)
    ((s.dropPending die l).timeMsg die (s.pline die l).attr.home)
  refine hfold.trans ?_
  rw [range_find (by omega), Option.elim_some]
  have hm : ((s.dropPending die l).timeMsg die (s.pline die l).attr.home).memByte a = s.memByte a :=
    congrArg (·.getD a (memBlank a)) (State.timeMsg_mem _ _ _)
  rw [hm]

/-! A drain in the background (R242). -/

theorem exec_backgroundDrain (die n : Nat) (s : State) : exec (.backgroundDrain die n) s
    = .next (((s.pendLines die (fun _ x => !x.attr.swc)).take n).foldl (fun t l => t.sendLine die l) s) := rfl

/-- The lines sent are no longer pending, and no other line is touched. -/
theorem State.sendLines_pline (s : State) (die : Nat) (ls : List Nat) :
    (∀ l ∈ ls, ((ls.foldl (fun t l => t.sendLine die l) s).pline die l).have_ = false)
      ∧ ∀ l, l ∉ ls → (ls.foldl (fun t l => t.sendLine die l) s).pline die l = s.pline die l := by
  refine ⟨State.foldl_each (fun t l => t.sendLine die l) (fun l t => (t.pline die l).have_ = false)
    (fun t l => t.sendLine_sent die l) (fun t a b hb => (t.sendLine_homeward die a).stays_sent hb) ls s, fun l hl => ?_⟩
  refine List.foldlRecOn (motive := fun t : State => t.pline die l = s.pline die l) ls _ rfl fun t ht b hb => ?_
  rw [State.sendLine_pline_other t die b die (fun e : l = b => hl (e ▸ hb)), ht]

/-- What a drain in the background moves. -/
theorem runs_backgroundDrain (s : State) (die n : Nat) :
    let ls := (s.pendLines die (fun _ x => !x.attr.swc)).take n
    Runs (.backgroundDrain die n) s (fun t =>
      (∀ l ∈ ls, (t.pline die l).have_ = false) ∧ (∀ l, l ∉ ls → t.pline die l = s.pline die l)
      ∧ t.groups = s.groups ∧ t.teams = s.teams ∧ t.clusters = s.clusters ∧ t.cores = s.cores
      ∧ (∀ l, ls = [l] → (s.pline die l).have_ = true → ((s.pline die l).cells.map (·.1)).Nodup → ∀ a, a < 2 ^ 64 →
          a / 128 = l → t.memByte a = (cellAt (s.pline die l).cells (a % 128)).onto (s.memByte a))) := by
  intro ls
  obtain ⟨hsent, hkept⟩ := s.sendLines_pline die ls
  have hh := Homeward.foldl (fun t l => t.sendLine_homeward die l) ls s
  refine ⟨_, exec_backgroundDrain die n s, hsent, hkept, hh.groups, hh.teams, by rw [hh.only], by rw [hh.only],
    fun l hl hv hn a ha hla => ?_⟩
  change (ls.foldl (fun t l => t.sendLine die l) s).memByte a = _
  rw [hl]
  exact State.sendLine_memByte hv hn ha hla

/-! A line that leaves an L2 (R242, R243). -/

theorem State.farWrite_memByte (s : State) (home pk : Nat) (c : BCell) (a : Nat) :
    (s.farWrite home pk c).memByte a = if pk = a then c.onto (s.memByte a) else s.memByte a := by
  have h : (s.farWrite home pk c).memByte a = (s.setMemByte pk (c.onto (s.memByte pk))).memByte a := rfl
  rw [h, State.memByte_setMemByte]
  by_cases hp : a = pk
  · rw [if_pos hp, if_pos hp.symm, hp]
  · rw [if_neg hp, if_neg (Ne.symm hp)]

/-- A dirty byte that is written on lies over memory's. -/
theorem State.writeOn_memByte {s : State} {die : Nat} {q : Nat → Bool} {a : Nat} (hq : q a = true)
    (hs : s.served .write a = true) (hn : (s.die die).dirty.keys.Nodup) :
    (s.writeOn die q).memByte a = ((s.die die).dirty.getD a {}).onto (s.memByte a) := by
  have hget := SMap.getD_filter (s.die die).dirty (fun k => q k && s.served .write k) a {}
  rw [hq, hs, Bool.and_true, if_pos rfl] at hget
  have hnl : (((s.die die).dirty.filter (fun e => q e.1 && s.served .write e.1)).map (·.1)).Nodup :=
    hn.sublist (List.filter_sublist.map _)
  have hfold := foldl_at_place (f := fun (t : State) (e : Nat × BCell) => t.farWrite die e.1 e.2) (g := (·.memByte a))
    (fun t e _ => t.farWrite_memByte die e.1 e.2 a) hnl s
  rw [find_onto_eq_getD _ a (s.memByte a), hget] at hfold
  refine Eq.trans ?_ hfold
  unfold State.writeOn
  dsimp only
  exact congrArg (·.getD a (memBlank a)) (State.foldl_part (q := State.mem) (fun t w => t.mergePois_mem _ _) _ _)

theorem State.writeOn_dirty_where (s : State) (die : Nat) (q : Nat → Bool) :
    ((s.writeOn die q).die die).dirty = (s.die die).dirty.filter (fun e => !q e.1) := by
  unfold State.writeOn
  dsimp only
  rw [State.modDie_die, if_pos rfl]
  refine congrArg (List.filter _) (List.foldlRecOn (motive := fun t : State => (t.die die).dirty = (s.die die).dirty) _ _ ?_
    (fun t ht _ _ => by rw [State.mergePois_die, ht]))
  exact List.foldlRecOn (motive := fun t : State => (t.die die).dirty = (s.die die).dirty) _ _ rfl
    (fun t ht e _ => (t.farWrite_dirty die e.1 e.2 die).trans ht)

theorem State.sendLine_still {β : Type} {p : Die → β} (hp : Die.Apart p) (hpend : ∀ d x, p { d with pendH := x } = p d)
    (s : State) (die line n : Nat) : p ((s.sendLine die line).die n) = p (s.die n) := by
  cases h : (s.pline die line).have_ with
  | false => rw [s.sendLine_of_not_pending die line h]
  | true => exact (State.sendLine_part hp h n).trans (State.modDie_part p s die _ (fun d => hpend d _) n)

theorem State.sendOrdered_still {β : Type} {p : Die → β} (hp : Die.Apart p) (hpend : ∀ d x, p { d with pendH := x } = p d)
    (s : State) (die line n : Nat) : p ((s.sendOrdered die line).die n) = p (s.die n) := by
  have hsend := fun t l => State.sendLine_still hp hpend t die l n
  unfold State.sendOrdered
  dsimp only
  split
  · rfl
  · split
    · exact hsend _ _
    · exact (hsend _ _).trans (State.foldl_part (q := fun t : State => p (t.die n)) hsend _ _)

theorem State.sendOrdered_sent (s : State) (die line : Nat) : ((s.sendOrdered die line).pline die line).have_ = false := by
  unfold State.sendOrdered
  dsimp only
  split
  · next h => simpa using h
  · split
    · exact s.sendLine_sent die line
    · exact State.sendLine_sent _ die line

theorem State.sendOrdered_of_not_pending {s : State} {die line : Nat} (h : (s.pline die line).have_ = false) :
    s.sendOrdered die line = s := by simp [State.sendOrdered, h]

/-- The release summary of a die with a line's records joined to it. -/
def Die.summed (d : Die) (line : Nat) : SMap Nat :=
  (List.range 8).foldl (fun m x => m.set x (max (m.getD x 0) (d.relRec.getD (line * 16 + x) 0)) 0) d.relSum

/-- A die once a line's guest sectors are dropped and its release records joined to the summary. -/
def Die.lineRecorded (d : Die) (line : Nat) : Die :=
  { d with
    guest := d.guest.filter (fun e => e.1 / 8 ≠ line)
    relSum := d.summed line
    relRec := d.relRec.filter (fun e => e.1 / 16 ≠ line) }

/-- What a die holds of no line that has left. -/
def Die.lineDropped (d : Die) (line : Nat) : Die :=
  { d with
    flash := d.flash.filter (· ≠ line)
    flashOld := d.flashOld.filter (fun e => e.1 / 128 ≠ line)
    clean := d.clean.filter (fun e => e.1 / 8 ≠ line) }

theorem Die.lineRecorded_pendH (d : Die) (line : Nat) : (d.lineRecorded line).pendH = d.pendH := rfl
theorem Die.lineDropped_pendH (d : Die) (line : Nat) : (d.lineDropped line).pendH = d.pendH := rfl

theorem State.modDie_modDie (s : State) (n : Nat) (f g : Die → Die) :
    (s.modDie n f).modDie n g = s.modDie n (fun d => g (f d)) := by
  unfold State.modDie State.setDie
  simp only [State.die, SMap.getD_set_same, SMap.set_set]

/-- The state in which the dirty bytes of a line that leaves are written on. -/
def State.lineReady (s : State) (die line : Nat) : State := (s.sendOrdered die line).modDie die (·.lineRecorded line)

theorem State.modDie_memByte (s : State) (n : Nat) (f : Die → Die) (a : Nat) : (s.modDie n f).memByte a = s.memByte a := rfl

theorem State.evictLine_eq (s : State) (die line : Nat) : s.evictLine die line
    = ((s.lineReady die line).writeOn die (fun pk => pk / 128 = line)).modDie die (·.lineDropped line) := by
  unfold State.lineReady State.evictLine State.dropGuest State.foldRecords State.dropFlash
  simp only [State.modDie_modDie]
  rfl

theorem Die.summed_getD (d : Die) (line : Nat) {x : Nat} (hx : x < 8) :
    (d.summed line).getD x 0 = max (d.relSum.getD x 0) (d.relRec.getD (line * 16 + x) 0) := by
  have hstep : ∀ m : SMap Nat, ∀ y ∈ List.range 8,
      (m.set y (max (m.getD y 0) (d.relRec.getD (line * 16 + y) 0)) 0).getD x 0
        = if y = x then max (m.getD x 0) (d.relRec.getD (line * 16 + y) 0) else m.getD x 0 := by
    intro m y _
    rw [SMap.getD_set]
    by_cases hy : y = x
    · rw [if_pos hy, if_pos hy.symm, hy]
    · rw [if_neg hy, if_neg (Ne.symm hy)]
  have h := foldl_at_place (place := fun y => y) (g := fun m : SMap Nat => m.getD x 0)
    (h := fun y v => max v (d.relRec.getD (line * 16 + y) 0)) hstep (by simpa using List.nodup_range) d.relSum
  rw [range_find hx, Option.elim_some] at h
  rw [Die.summed, h]

/-- A line has left a die's L2: no copy of it is there, its records are in the summary, its dirty bytes are written
on, and groups, teams and clusters are as they were. -/
structure LineLeft (s : State) (die line : Nat) (t : State) : Prop where
  sent : (t.pline die line).have_ = false
  guest : ∀ k, k / 8 = line → (t.die die).guest.getD k {} = {}
  bytes : ∀ k, k / 128 = line → (t.die die).dirty.getD k {} = {} ∧ (t.die die).flashOld.getD k {} = {}
  flash : line ∉ (t.die die).flash
  clean : ∀ k, k / 8 = line → (t.die die).clean.getD k {} = {}
  records : ∀ x, x < 8 → (t.die die).relRec.getD (line * 16 + x) 0 = 0
    ∧ (t.die die).relSum.getD x 0 = max ((s.die die).relSum.getD x 0) ((s.die die).relRec.getD (line * 16 + x) 0)
  written : (s.die die).dirty.keys.Nodup → (s.pline die line).have_ = false → ∀ a, a / 128 = line →
    s.served .write a = true → t.memByte a = ((s.die die).dirty.getD a {}).onto (s.memByte a)
  others : t.groups = s.groups ∧ t.teams = s.teams ∧ t.clusters = s.clusters

theorem Die.apart_of_fields {β : Type} (f : SMap Nat → SMap Nat → Nat → β) :
    Die.Apart (fun d => f d.relRec d.relSum d.withdrawn) :=
  ⟨fun _ _ => rfl, fun _ _ => rfl, fun _ _ => rfl, fun _ _ => rfl, fun _ _ => rfl, fun _ _ => rfl⟩

/-- The release records and the withdrawn places of a die as a line that leaves finds them. -/
theorem State.sendOrdered_records (s : State) (die line n : Nat) :
    ((s.sendOrdered die line).die n).relRec = (s.die n).relRec ∧ ((s.sendOrdered die line).die n).relSum = (s.die n).relSum
      ∧ ((s.sendOrdered die line).die n).withdrawn = (s.die n).withdrawn :=
  ⟨State.sendOrdered_still (Die.apart_of_fields fun a _ _ => a) (fun _ _ => rfl) s die line n,
    State.sendOrdered_still (Die.apart_of_fields fun _ a _ => a) (fun _ _ => rfl) s die line n,
    State.sendOrdered_still (Die.apart_of_fields fun _ _ a => a) (fun _ _ => rfl) s die line n⟩

theorem State.lineReady_die (s : State) (die line : Nat) :
    (s.lineReady die line).die die = ((s.sendOrdered die line).die die).lineRecorded line := by
  rw [State.lineReady, State.modDie_die, if_pos rfl]

theorem State.evictLine_die (s : State) (die line : Nat) : (s.evictLine die line).die die
    = (((s.lineReady die line).writeOn die (fun pk => pk / 128 = line)).die die).lineDropped line := by
  rw [State.evictLine_eq, State.modDie_die, if_pos rfl]

/-- Of what neither the clean nor the dirty bytes hold, an evicted line leaves what its die recorded. -/
theorem State.evictLine_part {β : Type} {p : Die → β} (hc : ∀ d x, p { d with clean := x } = p d)
    (hd : ∀ d x, p { d with dirty := x } = p d) (hl : ∀ d line, p (Die.lineDropped d line) = p d) (s : State) (die line : Nat) :
    p ((s.evictLine die line).die die) = p (((s.sendOrdered die line).die die).lineRecorded line) := by
  rw [State.evictLine_die, hl, State.writeOn_part hc hd, State.lineReady_die]

theorem State.lineReady_still {s : State} {die line : Nat} (h : (s.pline die line).have_ = false) :
    s.lineReady die line = s.modDie die (·.lineRecorded line) := by
  rw [State.lineReady, State.sendOrdered_of_not_pending h]

theorem getD_filter_gone {α : Type} (m : SMap α) {p : Nat → Bool} {k : Nat} (d : α) (h : p k = false) :
    SMap.getD (m.filter (fun e => p e.1)) k d = d := by
  rw [SMap.getD_filter m p k d, h]
  rfl

/-! Nothing of the line is left in a die. -/

theorem Die.lineRecorded_guest (d : Die) {line k : Nat} (hk : k / 8 = line) : (d.lineRecorded line).guest.getD k {} = {} :=
  getD_filter_gone d.guest (p := fun k => decide (k / 8 ≠ line)) {} (by simp [hk])

theorem Die.lineRecorded_relRec (d : Die) (line : Nat) {x : Nat} (hx : x < 8) :
    (d.lineRecorded line).relRec.getD (line * 16 + x) 0 = 0 :=
  getD_filter_gone d.relRec (p := fun k => decide (k / 16 ≠ line)) 0 (by rw [decide_eq_false]; omega)

theorem Die.lineRecorded_relSum (d : Die) (line : Nat) {x : Nat} (hx : x < 8) :
    (d.lineRecorded line).relSum.getD x 0 = max (d.relSum.getD x 0) (d.relRec.getD (line * 16 + x) 0) := by
  rw [← d.summed_getD line hx, Die.lineRecorded]

theorem Die.lineDropped_flashOld (d : Die) {line k : Nat} (hk : k / 128 = line) :
    (d.lineDropped line).flashOld.getD k {} = {} :=
  getD_filter_gone d.flashOld (p := fun k => decide (k / 128 ≠ line)) {} (by simp [hk])

theorem Die.lineDropped_clean (d : Die) {line k : Nat} (hk : k / 8 = line) : (d.lineDropped line).clean.getD k {} = {} :=
  getD_filter_gone d.clean (p := fun k => decide (k / 8 ≠ line)) {} (by simp [hk])

theorem Die.lineDropped_flash (d : Die) (line : Nat) : line ∉ (d.lineDropped line).flash := by
  simp [Die.lineDropped]

theorem Die.lineRecorded_dirty (d : Die) (line : Nat) : (d.lineRecorded line).dirty = d.dirty := rfl
theorem Die.lineDropped_dirty (d : Die) (line : Nat) : (d.lineDropped line).dirty = d.dirty := rfl

theorem State.evictLine_left (s : State) (die line : Nat) : LineLeft s die line (s.evictLine die line) where
  sent := by
    have h : Homeward (s.sendOrdered die line) (s.evictLine die line) := by
      rw [State.evictLine_eq]
      exact ((State.modDie_homeward _ die _ (Die.lineRecorded_pendH _ line)).trans (State.writeOn_homeward _ die _)).trans
        (State.modDie_homeward _ die _ (Die.lineDropped_pendH _ line))
    exact h.stays_sent (s.sendOrdered_sent die line)
  guest k hk := by
    rw [State.evictLine_part (p := (·.guest)) (fun _ _ => rfl) (fun _ _ => rfl) (fun _ _ => rfl)]
    exact Die.lineRecorded_guest _ hk
  bytes k hk := by
    rw [State.evictLine_die]
    refine ⟨?_, Die.lineDropped_flashOld _ hk⟩
    rw [Die.lineDropped_dirty, State.writeOn_dirty_where]
    exact getD_filter_gone ((s.lineReady die line).die die).dirty (p := fun k => !decide (k / 128 = line)) {} (by simp [hk])
  flash := by
    rw [State.evictLine_die]
    exact Die.lineDropped_flash _ line
  clean k hk := by
    rw [State.evictLine_die]
    exact Die.lineDropped_clean _ hk
  records x hx := by
    obtain ⟨hrec, hsum, -⟩ := s.sendOrdered_records die line die
    rw [State.evictLine_part (p := (·.relRec)) (fun _ _ => rfl) (fun _ _ => rfl) (fun _ _ => rfl),
      State.evictLine_part (p := (·.relSum)) (fun _ _ => rfl) (fun _ _ => rfl) (fun _ _ => rfl), ← hrec, ← hsum]
    exact ⟨Die.lineRecorded_relRec _ line hx, Die.lineRecorded_relSum _ line hx⟩
  written hn hv a ha hs := by
    have hr := State.lineReady_still hv
    have hdirty : ((s.lineReady die line).die die).dirty = (s.die die).dirty := by
      rw [hr, State.modDie_die, if_pos rfl, Die.lineRecorded_dirty]
    have h := State.writeOn_memByte (s := s.lineReady die line) (die := die) (q := fun pk => pk / 128 = line)
      (decide_eq_true ha) (by rw [hr]; exact hs) (by rw [hdirty]; exact hn)
    rw [hdirty, show (s.lineReady die line).memByte a = s.memByte a by rw [hr, State.modDie_memByte]] at h
    rw [State.evictLine_eq, State.modDie_memByte, h]
  others := by
    have h := s.evictLine_served die line
    refine ⟨?_, ?_, ?_⟩
    all_goals rw [h.only]

/-- A place of a die's L2 withdrawn, with its repair record (17_cold R391). -/
def State.withdrawPlace (s : State) (die : Nat) : State :=
  (s.modDie die (fun d => { d with withdrawn := (s.die die).withdrawn + 1 })).appendRepair
    { type_ := 5, die, unit_ := (s.die die).withdrawn }

theorem exec_guestEviction (die line : Nat) (s : State) : exec (.guestEviction die line) s
    = .next (if !Config.freeBool (s.evictLine die line).freeCtr (2 ^ 73)
        || 2 ^ 21 ≤ ((s.evictLine die line).die die).withdrawn then s.evictLine die line
      else (s.evictLine die line).withdrawPlace die) := rfl

theorem State.appendRepair_keeps (s : State) (r : Repair) :
    s.appendRepair r = { s with repairs := (s.appendRepair r).repairs, therm := (s.appendRepair r).therm } := by
  unfold State.appendRepair
  split <;> rfl

theorem State.appendRepair_repairs {s : State} (h : s.repairs.length < 4096) (r : Repair) :
    (s.appendRepair r).repairs = s.repairs ++ [{ r with at_ := s.time }] := by
  rw [State.appendRepair, if_pos h]

theorem State.withdrawPlace_keeps (s : State) (die : Nat) : s.withdrawPlace die = { s with
    dies := (s.withdrawPlace die).dies, repairs := (s.withdrawPlace die).repairs, therm := (s.withdrawPlace die).therm } := by
  unfold State.withdrawPlace
  rw [State.appendRepair_keeps]
  rfl

theorem State.withdrawPlace_die (s : State) (die : Nat) :
    (s.withdrawPlace die).die die = { s.die die with withdrawn := (s.die die).withdrawn + 1 } := by
  have h : (s.withdrawPlace die).die die
      = (s.modDie die (fun d => { d with withdrawn := (s.die die).withdrawn + 1 })).die die := by
    rw [State.withdrawPlace, State.appendRepair_keeps]
    rfl
  rw [h, State.modDie_die, if_pos rfl]

/-- A place withdrawn holds as little of the line as before. -/
theorem LineLeft.withdrawPlace {s t : State} {die line : Nat} (h : LineLeft s die line t) :
    LineLeft s die line (t.withdrawPlace die) where
  sent := by rw [State.pline, State.withdrawPlace_die]; exact h.sent
  guest k hk := by rw [State.withdrawPlace_die]; exact h.guest k hk
  bytes k hk := by rw [State.withdrawPlace_die]; exact h.bytes k hk
  flash := by rw [State.withdrawPlace_die]; exact h.flash
  clean k hk := by rw [State.withdrawPlace_die]; exact h.clean k hk
  records x hx := by rw [State.withdrawPlace_die]; exact h.records x hx
  written hn hv a ha hs := by rw [State.withdrawPlace_keeps]; exact h.written hn hv a ha hs
  others := by rw [State.withdrawPlace_keeps]; exact h.others

theorem runs_guestEviction (s : State) (die line : Nat) : Runs (.guestEviction die line) s (fun t =>
    LineLeft s die line t ∧ (((t.die die).withdrawn = (s.die die).withdrawn ∧ t.repairs = s.repairs)
      ∨ ((t.die die).withdrawn = (s.die die).withdrawn + 1 ∧ (s.repairs.length < 4096 →
          t.repairs = s.repairs ++ [{ type_ := 5, die, unit_ := (s.die die).withdrawn, at_ := s.time }])))) := by
  have hw : ((s.evictLine die line).die die).withdrawn = (s.die die).withdrawn := by
    rw [State.evictLine_part (p := (·.withdrawn)) (fun _ _ => rfl) (fun _ _ => rfl) (fun _ _ => rfl)]
    exact (s.sendOrdered_records die line die).2.2
  have hleft := s.evictLine_left die line
  have hserved := s.evictLine_served die line
  have hkeep : (s.evictLine die line).repairs = s.repairs ∧ (s.evictLine die line).time = s.time := by
    rw [hserved.only]; exact ⟨rfl, rfl⟩
  obtain ⟨hrep, htime⟩ := hkeep
  rw [Runs, exec_guestEviction]
  generalize s.evictLine die line = u at *
  refine ⟨_, rfl, ?_⟩
  split
  · exact ⟨hleft, .inl ⟨hw, hrep⟩⟩
  · refine ⟨hleft.withdrawPlace, .inr ⟨?_, fun hr => ?_⟩⟩
    · rw [State.withdrawPlace_die, hw]
    · rw [State.withdrawPlace, State.appendRepair_repairs (by rw [← hrep] at hr; exact hr), hw, ← hrep, ← htime]
      rfl

end Sys2Proof.Machine
end

section
/-!
PROOF. Groups that retire and what goes to their teams and clusters (04_control R85; 11_visibility R225 to R229), and
the statement made of these events.
-/

namespace Sys2Proof.Machine

/-! Data that moves through the buffers below DEV (11_visibility R225 to R229). -/

/-- The fields of a team that its buffers' traffic leaves alone: how many groups it has left, whether it lives, its
launch and its cluster. -/
def Team.standing (t : Team) : Nat × Bool × Nat × Nat := (t.leftGroups, t.live, t.launch, t.cluster)

/-- Data has moved through the buffers: launches, and the standing of teams, clusters and groups, are as before. -/
structure Buffered (s t : State) : Prop where
  launches : t.launches = s.launches
  team : ∀ k, (t.team k).standing = (s.team k).standing
  cluster : ∀ k, (t.cluster k).leftTeams = (s.cluster k).leftTeams
  group : ∀ k, (t.group k).live = (s.group k).live ∧ (t.group k).team = (s.group k).team

theorem Buffered.refl (s : State) : Buffered s s := ⟨rfl, fun _ => rfl, fun _ => rfl, fun _ => ⟨rfl, rfl⟩⟩

theorem Buffered.trans {s t u : State} (h : Buffered s t) (k : Buffered t u) : Buffered s u where
  launches := k.launches.trans h.launches
  team j := (k.team j).trans (h.team j)
  cluster j := (k.cluster j).trans (h.cluster j)
  group j := ⟨(k.group j).1.trans (h.group j).1, (k.group j).2.trans (h.group j).2⟩

theorem Buffered.foldl {α : Type} {f : State → α → State} (h : ∀ s a, Buffered s (f s a)) (l : List α) (s : State) :
    Buffered s (l.foldl f s) :=
  List.foldlRecOn l f (Buffered.refl s) (fun t ht a _ => ht.trans (h t a))

/-- What leaves groups, teams, clusters and launches alone moves data at most. -/
theorem Buffered.of_eq {s t : State} (hg : t.groups = s.groups) (ht : t.teams = s.teams) (hc : t.clusters = s.clusters)
    (hl : t.launches = s.launches) : Buffered s t where
  launches := hl
  team k := by rw [State.team, ht]; rfl
  cluster k := by rw [State.cluster, hc]; rfl
  group k := by rw [State.group, hg]; exact ⟨rfl, rfl⟩

theorem Served.buffered {s t : State} (h : Served s t) : Buffered s t := by
  refine .of_eq ?_ ?_ ?_ ?_
  all_goals rw [h.only]

theorem State.setTeam_buffered (s : State) (k : Nat) (x : Team) (h : x.standing = (s.team k).standing) :
    Buffered s (s.setTeam k x) where
  launches := rfl
  team j := by
    rw [State.setTeam_team]
    split
    · next hj => rw [hj, h]
    · rfl
  cluster _ := rfl
  group _ := ⟨rfl, rfl⟩

theorem State.setCluster_buffered (s : State) (k : Nat) (x : Cluster) (h : x.leftTeams = (s.cluster k).leftTeams) :
    Buffered s (s.setCluster k x) where
  launches := rfl
  team _ := rfl
  cluster j := by
    rw [State.setCluster_cluster]
    split
    · next hj => rw [hj, h]
    · rfl
  group _ := ⟨rfl, rfl⟩

theorem State.setGroup_buffered (s : State) (k : Nat) (x : Group) (h : x.live = (s.group k).live)
    (ht : x.team = (s.group k).team) : Buffered s (s.setGroup k x) where
  launches := rfl
  team _ := rfl
  cluster _ := rfl
  group j := by
    rw [State.setGroup_group]
    split
    · next hj => rw [hj]; exact ⟨h, ht⟩
    · exact ⟨rfl, rfl⟩

theorem State.seq_buffered (s : State) (n : Nat) : Buffered s { s with seq := n } := .of_eq rfl rfl rfl rfl

theorem State.cswWhere_buffered (s : State) (p : Group → Bool) (bit : Word) : Buffered s (s.cswWhere p bit) where
  launches := rfl
  team _ := rfl
  cluster _ := rfl
  group k := by
    have h : (s.cswWhere p bit).group k = if (s.group k).live && p (s.group k) then
        { s.group k with csw := (s.group k).csw ||| bit } else s.group k :=
      SMap.getD_mapV s.groups k {} (fun _ g => if g.live && p g then { g with csw := g.csw ||| bit } else g) rfl
    rw [h]
    split <;> exact ⟨rfl, rfl⟩

theorem State.pendSec_served (s : State) (die sec : Nat) (attr : PAttr) (cells : SMap BCell) :
    Served s (s.pendSec die sec attr cells) := by
  unfold State.pendSec
  dsimp only
  refine .modDie ?_ die _
  refine .trans ?_ (State.disarm_homeward _ die sec cells).served
  exact .ite (s.sendOrdered_homeward die _).served (.refl s)

theorem State.acceptDev_served (s : State) (die : Nat) (e : SecEntry) : Served s (s.acceptDev die e) :=
  .ite (s.acceptHome_homeward _ _ _).served
    (.ite ((s.timeMsg_homeward _ _).trans (State.acceptHome_homeward _ _ _ _)).served
      ((s.l2Room_served _ _).trans (State.pendSec_served _ _ _ _ _)))

theorem State.spillMerge_buffered (s : State) (ck : Nat) : Buffered s (s.spillMerge ck) := by
  unfold State.spillMerge
  dsimp only
  split
  · exact .refl s
  · refine .trans ?_ (State.acceptDev_served _ _ _).buffered
    refine .trans ?_ (State.cswWhere_buffered _ _ _)
    exact s.setCluster_buffered ck _ rfl

theorem State.mergeAdd_buffered (s : State) (ck : Nat) (e : SecEntry) : Buffered s (s.mergeAdd ck e) := by
  unfold State.mergeAdd
  dsimp only
  split
  · exact s.setCluster_buffered ck _ rfl
  · refine .trans ?_ (State.setCluster_buffered _ ck _ rfl)
    refine .trans ?_ (State.seq_buffered _ _)
    split
    · exact s.spillMerge_buffered ck
    · split
      · split
        · exact .refl s
        · exact s.spillMerge_buffered _
      · exact .refl s

theorem State.spillTwb_buffered (s : State) (tk : Nat) : Buffered s (s.spillTwb tk) := by
  unfold State.spillTwb
  dsimp only
  split
  · exact .refl s
  · refine .trans ?_ (State.mergeAdd_buffered _ _ _)
    refine .trans ?_ (State.seq_buffered _ _)
    refine .trans ?_ (State.cswWhere_buffered _ _ _)
    exact s.setTeam_buffered tk _ rfl

theorem State.twbAdd_buffered (s : State) (tk : Nat) (e : SecEntry) : Buffered s (s.twbAdd tk e) := by
  unfold State.twbAdd
  dsimp only
  split
  · exact s.setTeam_buffered tk _ rfl
  · refine .trans ?_ (State.setTeam_buffered _ tk _ rfl)
    refine .trans ?_ (State.seq_buffered _ _)
    split
    · exact s.spillTwb_buffered tk
    · exact .refl s

theorem State.completeGsb_buffered (s : State) (gk : Nat) (p : SecEntry → Bool) : Buffered s (s.completeGsb gk p) := by
  refine .foldl (fun t e => ?_) _ s
  split
  · refine .trans (t.readSec_served gk e.sec e.attr 1 false false true false).buffered ?_
    exact State.setGroup_buffered _ gk _ rfl rfl
  · exact .refl t

theorem State.pushTeam_buffered (s : State) (gk : Nat) (p : SecEntry → Bool) : Buffered s (s.pushTeam gk p) := by
  refine .trans ?_ (.foldl (fun t e => t.twbAdd_buffered _ _) _ _)
  refine .trans ?_ (State.seq_buffered _ _)
  exact (s.completeGsb_buffered gk p).trans (State.setGroup_buffered _ gk _ rfl rfl)

theorem State.pushClus_buffered (s : State) (tk : Nat) (p : SecEntry → Bool) : Buffered s (s.pushClus tk p) := by
  refine .trans ?_ (.foldl (fun t e => t.mergeAdd_buffered _ _) _ _)
  refine .trans ?_ (State.seq_buffered _ _)
  exact s.setTeam_buffered tk _ rfl

/-- What a cluster pushes to DEV leaves groups, teams and launches alone. -/
theorem State.pushDev_served (s : State) (ck : Nat) (p : SecEntry → Bool) :
    Served (s.setCluster ck { s.cluster ck with merge := (s.cluster ck).merge.filter (fun e => !p e) }) (s.pushDev ck p) :=
  .foldl (fun t e => t.acceptDev_served _ e) _ _

/-! A team and a cluster that end (R229). -/

/-- The state once a team's bytes are with its cluster and its record is gone. -/
def State.teamGone (s : State) (tk : Nat) : State :=
  (((s.pushClus tk).setTeam tk {}).forgetOld (s.team tk).ctx).timeMsg (s.team tk).die commons

theorem State.forgetOld_keeps (s : State) (ctx : Nat) : s.forgetOld ctx = { s with cregOld := (s.forgetOld ctx).cregOld } := by
  unfold State.forgetOld
  split <;> rfl

theorem State.teamGone_keeps (s : State) (tk : Nat) : s.teamGone tk
    = { (s.pushClus tk).setTeam tk {} with cregOld := (s.teamGone tk).cregOld, dies := (s.teamGone tk).dies } := by
  unfold State.teamGone
  rw [State.timeMsg_dies, State.forgetOld_keeps]

/-- The retired team counted, its core's items given back and its batches gone. -/
def State.teamCounted (s : State) (tk : Nat) (t : Team) : State :=
  let s := (s.modLaunch t.launch (fun l => { l with retired := l.retired + 1 })).returnItems t.launch t.die t.core
  { s with batches := s.batches.filter (fun e => e.2.team ≠ tk) }

theorem State.endTeam_eq (s : State) (tk : Nat) : s.endTeam tk =
    let u := (s.teamGone tk).teamCounted tk (s.team tk)
    if (u.cluster (s.team tk).cluster).leftTeams ≤ 1 then u.endCluster (s.team tk).cluster
    else u.setCluster (s.team tk).cluster { u.cluster (s.team tk).cluster with
      leftTeams := (u.cluster (s.team tk).cluster).leftTeams - 1 } := rfl

/-- Items given back change a core's queue, the dies' time and the launch's returned items. -/
theorem State.returnItems_keeps (s : State) (lk die core : Nat) : s.returnItems lk die core
    = { s with cores := (s.returnItems lk die core).cores, dies := (s.returnItems lk die core).dies
               launches := (s.returnItems lk die core).launches } := by
  unfold State.returnItems
  dsimp only
  split
  · rfl
  · rw [State.timeMsg_dies]
    rfl

theorem State.modLaunch_returned_retired (s : State) (lk k : Nat) (f : Launch → List (Word × Nat)) :
    ((s.modLaunch lk (fun l => { l with returned := f l })).launch k).retired = (s.launch k).retired := by
  rw [State.modLaunch, State.setLaunch_launch]
  split
  · next h => rw [h]
  · rfl

theorem State.returnItems_retired (s : State) (lk die core k : Nat) :
    ((s.returnItems lk die core).launch k).retired = (s.launch k).retired := by
  unfold State.returnItems
  dsimp only
  split
  · rfl
  · rw [State.modLaunch_returned_retired, State.timeMsg_dies]
    rfl

theorem State.teamCounted_keeps (s : State) (tk : Nat) (t : Team) : (s.teamCounted tk t).groups = s.groups
    ∧ (s.teamCounted tk t).teams = s.teams ∧ (s.teamCounted tk t).clusters = s.clusters := by
  unfold State.teamCounted
  dsimp only
  rw [State.returnItems_keeps]
  exact ⟨rfl, rfl, rfl⟩

theorem State.teamCounted_retired (s : State) (tk : Nat) (t : Team) :
    ((s.teamCounted tk t).launch t.launch).retired = (s.launch t.launch).retired + 1 := by
  have h : ((s.teamCounted tk t).launch t.launch).retired
      = (((s.modLaunch t.launch (fun l => { l with retired := l.retired + 1 })).returnItems t.launch t.die t.core).launch
          t.launch).retired := rfl
  rw [h, State.returnItems_retired, State.modLaunch, State.setLaunch_launch_same]

/-- A cluster that ends leaves groups, teams and launches alone, and no record of itself. -/
theorem State.endCluster_ends (s : State) (ck : Nat) : (s.endCluster ck).groups = s.groups
    ∧ (s.endCluster ck).teams = s.teams ∧ (s.endCluster ck).launches = s.launches ∧ (s.endCluster ck).cluster ck = {} := by
  have h := s.pushDev_served ck (fun _ => true)
  refine ⟨?_, ?_, ?_, State.setCluster_cluster_same _ _ _⟩
  · exact (congrArg State.groups h.only).trans rfl
  · exact (congrArg State.teams h.only).trans rfl
  · exact (congrArg State.launches h.only).trans rfl

/-- What a team's end leaves: no team, one more retired, its cluster one team less or ended. -/
structure TeamEnded (s : State) (tk : Nat) (t : State) : Prop where
  group : ∀ k, (t.group k).live = (s.group k).live
  team : t.team tk = {}
  retired : (t.launch (s.team tk).launch).retired = (s.launch (s.team tk).launch).retired + 1
  less : 1 < (s.cluster (s.team tk).cluster).leftTeams →
    (t.cluster (s.team tk).cluster).leftTeams = (s.cluster (s.team tk).cluster).leftTeams - 1
  ended : (s.cluster (s.team tk).cluster).leftTeams ≤ 1 → t.cluster (s.team tk).cluster = {}

theorem State.endTeam_ended (s : State) (tk : Nat) : TeamEnded s tk (s.endTeam tk) := by
  have hb := s.pushClus_buffered tk (fun _ => true)
  have hgone := s.teamGone_keeps tk
  obtain ⟨hg, ht, hc⟩ := (s.teamGone tk).teamCounted_keeps tk (s.team tk)
  have hr := (s.teamGone tk).teamCounted_retired tk (s.team tk)
  rw [State.endTeam_eq]
  dsimp only
  generalize (s.teamGone tk).teamCounted tk (s.team tk) = u at *
  have hgroup : ∀ k, (u.group k).live = (s.group k).live := fun k => by
    rw [State.group, hg, hgone]; exact (hb.group k).1
  have hteam : u.team tk = {} := by
    rw [State.team, ht, hgone]; exact State.setTeam_team_same (s.pushClus tk) tk {}
  have hretired : (u.launch (s.team tk).launch).retired = (s.launch (s.team tk).launch).retired + 1 := by
    rw [hr, State.launch, State.launch, hgone]
    exact congrArg (fun m => (SMap.getD m (s.team tk).launch {}).retired + 1) hb.launches
  have hleft : (u.cluster (s.team tk).cluster).leftTeams = (s.cluster (s.team tk).cluster).leftTeams := by
    rw [State.cluster, hc, hgone]; exact hb.cluster _
  rw [hleft]
  split
  · next hle =>
    obtain ⟨eg, et, el, ec⟩ := u.endCluster_ends (s.team tk).cluster
    exact ⟨fun k => by rw [State.group, eg]; exact hgroup k, by rw [State.team, et]; exact hteam,
      by rw [State.launch, el]; exact hretired, fun h => absurd hle (by omega), fun _ => ec⟩
  · next hlt =>
    exact ⟨hgroup, hteam, hretired, fun _ => by rw [State.setCluster_cluster_same], fun h => absurd h hlt⟩

/-! A group that retires (04_control R85). -/

theorem exec_groupRetire (k : Nat) (s : State) :
    exec (.groupRetire k) s = .next (if (s.group k).ended then s.retire k else s) := rfl

theorem Group.ended_iff (g : Group) : g.ended = true ↔ g.live = true ∧ g.away = false ∧ g.slotA.v = false
    ∧ g.slotB.v = false ∧ g.recs = [] ∧ g.spilled = 0 ∧ (g.rp = none ∨ g.killed = true) ∧ g.pend = []
    ∧ g.trapPend = none ∧ g.park = none := by
  simp [Group.ended, Group.records, and_assoc]

/-- The state once a group's bytes are with its team and its row is free. -/
def State.groupGone (s : State) (gk : Nat) : State := (((s.pushTeam gk).freezeClocks gk).freeFaultsOf gk).setGroup gk {}

theorem State.retire_eq (s : State) (gk : Nat) : s.retire gk =
    if ((s.groupGone gk).team (s.group gk).team).leftGroups ≤ 1 then (s.groupGone gk).endTeam (s.group gk).team
    else (s.groupGone gk).setTeam (s.group gk).team { (s.groupGone gk).team (s.group gk).team with
      leftGroups := ((s.groupGone gk).team (s.group gk).team).leftGroups - 1
      rows := ((s.groupGone gk).team (s.group gk).team).rows - (s.group gk).ownRows } := rfl

/-- The clocks of a retired owner touch no buffer, no standing and no memory. -/
theorem State.freezeClocks_keeps (s : State) (gk : Nat) : s.freezeClocks gk = { s with teams := (s.freezeClocks gk).teams }
    ∧ ∀ k, ((s.freezeClocks gk).team k).standing = (s.team k).standing ∧ ((s.freezeClocks gk).team k).twb = (s.team k).twb := by
  unfold State.freezeClocks
  dsimp only
  split
  · exact ⟨rfl, fun _ => ⟨rfl, rfl⟩⟩
  · refine ⟨rfl, fun k => ?_⟩
    rw [State.modTeam, State.setTeam_team]
    split
    · next h => rw [h]; exact ⟨rfl, rfl⟩
    · exact ⟨rfl, rfl⟩

theorem State.freeFaultsOf_setGroup_keeps (s : State) (gk : Nat) (g : Group) : ((s.freeFaultsOf gk).setGroup gk g).teams = s.teams
    ∧ ((s.freeFaultsOf gk).setGroup gk g).clusters = s.clusters ∧ ((s.freeFaultsOf gk).setGroup gk g).launches = s.launches
    ∧ ((s.freeFaultsOf gk).setGroup gk g).mem = s.mem := ⟨rfl, rfl, rfl, rfl⟩

theorem State.groupGone_keeps (s : State) (gk : Nat) : (s.groupGone gk).teams = ((s.pushTeam gk).freezeClocks gk).teams
    ∧ (s.groupGone gk).clusters = (s.pushTeam gk).clusters ∧ (s.groupGone gk).launches = (s.pushTeam gk).launches
    ∧ (s.groupGone gk).mem = (s.pushTeam gk).mem := by
  obtain ⟨ht, hc, hl, hm⟩ := ((s.pushTeam gk).freezeClocks gk).freeFaultsOf_setGroup_keeps gk {}
  have h := ((s.pushTeam gk).freezeClocks_keeps gk).1
  refine ⟨ht, hc.trans ?_, hl.trans ?_, hm.trans ?_⟩
  all_goals rw [h]

/-- What a retiring group leaves of every team, cluster and launch, before its team is told. -/
theorem State.groupGone_standing (s : State) (gk : Nat) :
    (∀ k, ((s.groupGone gk).team k).standing = (s.team k).standing)
    ∧ (∀ k, ((s.groupGone gk).team k).twb = ((s.pushTeam gk).team k).twb)
    ∧ (∀ k, ((s.groupGone gk).cluster k).leftTeams = (s.cluster k).leftTeams)
    ∧ (∀ k, (s.groupGone gk).launch k = s.launch k) ∧ (∀ a, (s.groupGone gk).memByte a = (s.pushTeam gk).memByte a)
    ∧ (s.groupGone gk).group gk = {} := by
  have hb := s.pushTeam_buffered gk (fun _ => true)
  have hf := ((s.pushTeam gk).freezeClocks_keeps gk).2
  obtain ⟨ht, hc, hl, hm⟩ := s.groupGone_keeps gk
  refine ⟨fun k => ?_, fun k => ?_, fun k => ?_, fun k => ?_, fun a => ?_, State.setGroup_group_same _ _ _⟩
  · rw [State.team, ht]; exact (hf k).1.trans (hb.team k)
  · rw [State.team, ht]; exact (hf k).2
  · rw [State.cluster, hc]; exact hb.cluster k
  · rw [State.launch, hl, hb.launches]; rfl
  · rw [State.memByte, hm]; rfl

theorem Team.standing_eq {t u : Team} (h : t.standing = u.standing) :
    t.leftGroups = u.leftGroups ∧ t.live = u.live ∧ t.launch = u.launch ∧ t.cluster = u.cluster := by
  simpa [Team.standing] using h

/-- A group that retires while its team has others leaves the team one group less. -/
theorem State.retire_of_others {s : State} {gk : Nat} (h : 1 < (s.team (s.group gk).team).leftGroups) :
    ((s.retire gk).group gk).live = false
    ∧ ((s.retire gk).team (s.group gk).team).leftGroups = (s.team (s.group gk).team).leftGroups - 1
    ∧ ((s.retire gk).team (s.group gk).team).live = (s.team (s.group gk).team).live
    ∧ ((s.retire gk).team (s.group gk).team).twb = ((s.pushTeam gk).team (s.group gk).team).twb
    ∧ ∀ a, (s.retire gk).memByte a = (s.pushTeam gk).memByte a := by
  obtain ⟨ht, htwb, -, -, hm, hg⟩ := s.groupGone_standing gk
  obtain ⟨hleft, hlive, -, -⟩ := Team.standing_eq (ht (s.group gk).team)
  rw [State.retire_eq, if_neg (by omega), State.setTeam_team_same, State.setTeam_group_read, hg]
  exact ⟨rfl, by rw [hleft], hlive, htwb _, hm⟩

/-- The last group of a team that retires ends the team. -/
theorem State.retire_of_last {s : State} {gk : Nat} (h : (s.team (s.group gk).team).leftGroups ≤ 1) :
    ((s.retire gk).group gk).live = false ∧ (s.retire gk).team (s.group gk).team = {}
    ∧ ((s.retire gk).launch (s.team (s.group gk).team).launch).retired
      = (s.launch (s.team (s.group gk).team).launch).retired + 1
    ∧ (1 < (s.cluster (s.team (s.group gk).team).cluster).leftTeams →
      ((s.retire gk).cluster (s.team (s.group gk).team).cluster).leftTeams
        = (s.cluster (s.team (s.group gk).team).cluster).leftTeams - 1)
    ∧ ((s.cluster (s.team (s.group gk).team).cluster).leftTeams ≤ 1 →
      (s.retire gk).cluster (s.team (s.group gk).team).cluster = {}) := by
  obtain ⟨ht, -, hc, hl, -, hg⟩ := s.groupGone_standing gk
  obtain ⟨hleft, -, hlaunch, hcluster⟩ := Team.standing_eq (ht (s.group gk).team)
  have he := (s.groupGone gk).endTeam_ended (s.group gk).team
  rw [State.retire_eq, if_pos (by omega)]
  obtain ⟨egroup, eteam, eretired, eless, eended⟩ := he
  rw [hlaunch, hl] at eretired
  rw [hcluster, hc] at eless eended
  exact ⟨by rw [egroup, hg], eteam, eretired, eless, eended⟩

theorem exec_groupRetire_ended {s : State} {k : Nat} (h : (s.group k).ended = true) :
    exec (.groupRetire k) s = .next (s.retire k) := by
  rw [exec_groupRetire, if_pos h]

/-- Settles O45: what each of these events moves, and what it leaves alone. -/
theorem groupsEndAndLinesMove : Obligations.GroupsEndAndLinesMove := by
  unfold Obligations.GroupsEndAndLinesMove
  refine ⟨fun s k => ⟨fun h => ?_, fun h => ⟨_, exec_groupRetire_ended ((Group.ended_iff _).2 h), ?_, fun hl => ?_, fun hl => ?_⟩⟩,
    fun s k b => ⟨fun h => ?_, fun h => ?_⟩, fun s k => ⟨fun h => ?_, fun h => ?_⟩,
    fun s k => ⟨fun h => ?_, fun i x l hu hfirst hw => ?_⟩, fun s => ⟨fun h => ?_, fun e l hq h => ?_⟩,
    fun s die n => runs_backgroundDrain s die n, fun s die line => ?_, fun s core line => ?_⟩
  · rw [exec_groupRetire, if_neg (mt (Group.ended_iff _).1 h)]
  · by_cases hl : (s.team (s.group k).team).leftGroups ≤ 1
    · exact (State.retire_of_last hl).1
    · exact (State.retire_of_others (by omega)).1
  · exact (State.retire_of_others hl).2
  · obtain ⟨-, hteam, hretired, hless, hended⟩ := State.retire_of_last hl
    exact ⟨by rw [hteam], by rw [hteam], hretired, hless, fun hc => by rw [hended hc]; exact ⟨rfl, rfl⟩⟩
  · rw [exec_sleepWake_eq, if_neg (by rw [PcSlot.slept_iff]; exact h)]
  · rw [exec_sleepWake_eq, if_pos (by rw [PcSlot.slept_iff]; exact h)]
    rfl
  · rw [exec_trapEntry_eq, if_neg h]
  · rw [exec_trapEntry_eq, if_pos h]
  · refine ⟨_, exec_faultBufferEntryFree k s, fun j => ?_, fun _ => rfl, rfl⟩
    rw [State.modCore_coreAt, Core.reserve_none h]
    exact ite_eq_right_iff.2 (congrArg s.coreAt ·.symm)
  · refine ⟨_, exec_faultBufferEntryFree k s, ?_⟩
    dsimp only
    rw [State.modCore_coreAt, if_pos rfl, Core.reserve_first hu hfirst hw, SMap.getD_set_same]
    exact ⟨rfl, rfl, rfl, rfl, rfl, rfl, rfl, rfl, fun _ => rfl, rfl⟩
  · exact exec_faultQueueEntry_stays h
  · rw [pair_toNat]
    exact runs_faultQueueEntry_takes hq h
  · obtain ⟨t, hx, hleft, hplace⟩ := runs_guestEviction s die line
    obtain ⟨hg, ht, hc⟩ := hleft.others
    exact ⟨t, hx, hleft.sent, hleft.guest, hleft.bytes, hleft.flash, hleft.clean, hleft.records, hleft.written, hplace,
      hg, ht, hc⟩
  · refine ⟨_, exec_l1LineDrop core line s, s.dropL1_l1 core line, fun j hj => ?_, fun _ => rfl, rfl, rfl, rfl⟩
    rw [State.dropL1_coreAt, decide_eq_false hj]
    rfl

end Sys2Proof.Machine
end

section
/-!
PROOF. The integer and address instructions (05_integer R95 to R107), and the statements made of them.
-/

namespace Sys2Proof.Machine

/-! Operands after their modifiers (02_encoding R35). -/

theorem intMod_eq (ab ng : Bool) (x : Word) : intMod ab ng x = modified ab ng x := by
  simp only [intMod, modified, BitVec.msb_eq_toInt]

theorem State.srcA_eq (s : State) (w : W0) (r : Alu) (L : Nat) : s.srcA w r L = s.aOp w r L := intMod_eq ..

theorem State.srcB_eq (s : State) (r : Alu) (L : Nat) : s.srcB r L = s.bOp r L := intMod_eq ..

theorem State.srcC_eq (s : State) (r : Alu) (L : Nat) :
    s.srcC r L = modified false r.nc (s.rd r.c.toNat L) := intMod_eq ..

/-! Products (R97). -/

theorem mulHigh_eq (unsigned : Bool) (x y : Word) :
    mulHigh (!unsigned) x y = BitVec.ofInt 32 (asInt unsigned x * asInt unsigned y / 2 ^ 32) := by
  cases unsigned with
  | false => rfl
  | true => exact (BitVec.ofInt_natCast 32 _).symm.trans (by norm_cast)

theorem mulWide_eq (unsigned : Bool) (x y : Word) :
    mulWide (!unsigned) x y = BitVec.ofInt 64 (asInt unsigned x * asInt unsigned y) := by
  have hx := extended_eq_ofInt (!unsigned) x
  have hy := extended_eq_ofInt (!unsigned) y
  rw [Bool.not_not] at hx hy
  rw [BitVec.ofInt_mul, ← hx, ← hy]
  cases unsigned <;> rfl

theorem byteOf_eq (signed : Bool) (x : Word) (i : Nat) : byteOf signed x i = byteAs signed x i := by
  cases signed <;> rfl

theorem dot4_eq (sa sb : Bool) (x y z : Word) :
    dot4 sa sb x y z
      = BitVec.ofInt 32 (z.toInt + ((List.range 4).map (fun i => byteAs sa x i * byteAs sb y i)).sum) := by
  simp only [dot4, byteOf_eq]
  congr 1
  simp [List.range_succ]
  ring

/-! Counts, reversal and absolute value (R101, R102). -/

theorem reverse_eq_ofBits (x : Word) : x.reverse = ofBits (fun i => x.getLsbD (31 - i)) := by
  refine BitVec.eq_of_getLsbD_eq fun i hi => ?_
  rw [BitVec.getLsbD_reverse, BitVec.getMsbD_eq_getLsbD, ofBits, BitVec.getLsbD_ofFnLE]
  simp [hi]

theorem clzW_eq (x : Word) : clzW x = leadingZeros x := by
  have hbit : ∀ i ∈ List.range 32, x.reverse.toNat.testBit i = x.getLsbD (31 - i) := fun i hi => by
    rw [BitVec.testBit_toNat, BitVec.getLsbD_reverse, BitVec.getMsbD_eq_getLsbD]
    simp [List.mem_range.1 hi]
  rw [clzW, ctz, leadingZeros, List.find?_congr hbit]

theorem intMod_abs_eq (x : Word) : intMod true false x = BitVec.ofInt 32 |x.toInt| := by
  rw [intMod_eq, modified]
  by_cases h : x.toInt < 0
  · simp [h, abs_of_neg h, BitVec.ofInt_neg]
  · simp [h, abs_of_nonneg (not_lt.1 h)]

/-! Saturation and the integer types (R106, R107). -/

theorem clampZ_eq {v lo hi : Int} (h : lo ≤ hi) : clampZ v lo hi = max lo (min v hi) := by
  unfold clampZ
  split
  · omega
  · split <;> omega

/-- The clamps of the model are those to the range of a type. -/
theorem clampZ_signed_eq (n : Nat) (v : Int) :
    clampZ v (-(2 ^ (n - 1))) (2 ^ (n - 1) - 1) = saturated (n, true) v :=
  clampZ_eq (by have : (0 : Int) < 2 ^ (n - 1) := by positivity
                omega)

theorem clampZ_unsigned_eq (n : Nat) (v : Int) : clampZ v 0 (2 ^ n - 1) = saturated (n, false) v :=
  clampZ_eq (by have : (0 : Int) < 2 ^ n := by positivity
                omega)

theorem addSat_eq (unsigned sub : Bool) (x y : Word) :
    addSat (!unsigned) sub x y = BitVec.ofInt 32 (saturated (32, !unsigned)
      (if sub then asInt unsigned x - asInt unsigned y else asInt unsigned x + asInt unsigned y)) := by
  cases unsigned with
  | false => exact congrArg (BitVec.ofInt 32) (clampZ_signed_eq 32 _)
  | true => exact congrArg (BitVec.ofInt 32) (clampZ_unsigned_eq 32 _)

theorem clampTy_eq (t : Nat × Bool) (v : Int) : clampTy t v = BitVec.ofInt 64 (saturated t v) := by
  obtain ⟨n, signed⟩ := t
  cases signed with
  | false => exact congrArg (BitVec.ofInt 64) (clampZ_unsigned_eq n v)
  | true => exact congrArg (BitVec.ofInt 64) (clampZ_signed_eq n v)

/-- The low bits of a word sign-extended. -/
theorem sext_toNat {n : Nat} (w : Nat) (x : BitVec n) : sext w x.toNat = (x.setWidth w).toInt := by
  rw [BitVec.toInt_eq_toNat_cond, BitVec.toNat_setWidth, sext]
  cases w with
  | zero => simp [Nat.mod_one]
  | succ w => simp only [Nat.add_sub_cancel, Nat.pow_succ']; grind

theorem readTy_eq (t : Nat × Bool) (x : DWord) : readTy t x = lowAs t x := by
  obtain ⟨n, signed⟩ := t
  cases signed with
  | false => exact congrArg Nat.cast (BitVec.toNat_setWidth ..).symm
  | true => exact sext_toNat n x

/-- The type codes 6 to 13, in their order. -/
theorem intTy_eq {k : Nat} (hk : k ≤ 7) : intTy (k + 6) = intType k := by
  revert k
  decide

/-! Bit fields (R100). -/

theorem fieldWidth_eq (p k : Nat) : fieldWidth p k = usable p k := rfl

/-- A position at or past the end of the word is as good as the end. -/
theorem toNat_div_two_pow_min (x : Word) (p : Nat) : x.toNat / 2 ^ min p 32 = x.toNat / 2 ^ p := by
  rcases Nat.le_total p 32 with h | h
  · rw [Nat.min_eq_left h]
  · rw [Nat.min_eq_right h, Nat.div_eq_of_lt x.isLt,
      Nat.div_eq_of_lt (x.isLt.trans_le (Nat.pow_le_pow_right (by decide) h))]

/-- A field of `k` bits as a signed value. -/
theorem sext_of_lt {k f : Nat} (h : f < 2 ^ k) : sext k f = if 2 ^ (k - 1) ≤ f then (f : Int) - 2 ^ k else f := by
  rw [sext, Nat.mod_eq_of_lt h]
  grind

theorem bfeVal_eq (signed : Bool) (x : Word) (p k : Nat) : bfeVal signed x p k = extracted signed x p k := by
  simp only [bfeVal, extracted, toNat_div_two_pow_min]
  rw [fieldWidth_eq]
  have hf : x.toNat / 2 ^ p % 2 ^ usable p k < 2 ^ usable p k := Nat.mod_lt _ (Nat.two_pow_pos _)
  by_cases h : (signed && decide (0 < usable p k)) = true
  · rw [if_pos h, h, sext_of_lt hf]
    simp only [Bool.true_and, decide_eq_true_iff]
  · rw [if_neg h, Bool.eq_false_iff.2 h]
    exact (BitVec.ofInt_natCast ..).symm

/-- The bits that a field covers. -/
theorem getLsbD_fieldMask {p k i : Nat} (hi : i < 32) :
    (BitVec.ofNat 32 ((2 ^ k - 1) * 2 ^ p)).getLsbD i = decide (p ≤ i ∧ i < p + k) := by
  rw [BitVec.getLsbD_ofNat, Nat.testBit_mul_two_pow, Nat.testBit_two_pow_sub_one]
  grind

theorem bfiVal_eq (d x : Word) (p k : Nat) : bfiVal d x p k = inserted d x p k := by
  refine BitVec.eq_of_getLsbD_eq fun i hi => ?_
  rw [inserted, ofBits, BitVec.getLsbD_ofFnLE, dif_pos hi, bfiVal, fieldWidth_eq]
  by_cases hp : p < 32
  · rw [if_pos hp, BitVec.getLsbD_or, BitVec.getLsbD_and, BitVec.getLsbD_and, BitVec.getLsbD_not,
      getLsbD_fieldMask hi, BitVec.getLsbD_shiftLeft]
    by_cases hin : p ≤ i ∧ i < p + usable p k
    · simp [hin, hi, not_lt.2 hin.1]
    · simp [hin, hi]
  · have hempty : ¬(p ≤ i ∧ i < p + usable p k) := by omega
    rw [if_neg hp, if_neg hempty]

/-! The forms of the instructions. -/

/-- An instruction of two sources, its value in the model's terms and in the manual's. -/
theorem lane2_binary {s : State} {i : Instr} {w : W0} {r : Alu} {f g : Word → Word → Word}
    (he : exec i s = .next (s.lane2 w r f)) (hfg : ∀ x y, f x y = g x y) : Binary s i w r g := by
  obtain rfl : f = g := funext₂ hfg
  unfold Binary
  simp only [← State.srcA_eq, ← State.srcB_eq]
  exact laneExecL_writes s i w _ _ _ he

/-- An instruction of one source. -/
theorem lane1_unary {s : State} {i : Instr} {w : W0} {f g : Word → Word}
    (he : exec i s = .next (s.lane1 w f)) (hfg : ∀ x, f x = g x) : Unary s i w g := by
  obtain rfl : f = g := funext hfg
  exact laneExecL_writes s i w _ _ _ he

/-- A 64-bit instruction of two sources. -/
theorem lane2w_writes {s : State} {i : Instr} {w : W0} {r : Alu} {f : DWord → DWord → DWord}
    (he : exec i s = .next (s.lane2w w r f)) :
    WritesLanes s i w (fun _ => readsAB64 w r) (fun L => two w.d.toNat (f (s.rd64 w.a.toNat L) (s.bOp64 r L))) :=
  laneExecL_writes64 s i w _ _ _ he

/-- A shift whose TY is not the instruction's 64-bit type shifts words. -/
theorem laneShift_writes {s : State} {i : Instr} {w : W0} {r : Alu} {wide : Nat} {f g : Word → Word → Word}
    {f64 : DWord → Word → DWord} (he : exec i s = .next (s.laneShift w r wide f f64)) (ht : r.ty.toNat ≠ wide)
    (hfg : ∀ x n, f x n = g x n) :
    WritesLanes s i w (fun _ => w.a.toNat :: regsB r)
      (fun L => one w.d.toNat (g (s.rd w.a.toNat L) (s.shiftCount r L))) := by
  obtain rfl : f = g := funext₂ hfg
  rw [State.laneShift, if_neg ht] at he
  exact laneExecL_writes s i w _ _ _ he

/-- A shift whose TY is the instruction's 64-bit type shifts pairs. -/
theorem laneShift_writes64 {s : State} {i : Instr} {w : W0} {r : Alu} {wide : Nat} {f : Word → Word → Word}
    {f64 g : DWord → Word → DWord} (he : exec i s = .next (s.laneShift w r wide f f64)) (ht : r.ty.toNat = wide)
    (hfg : ∀ x n, f64 x n = g x n) :
    WritesLanes s i w (fun _ => w.a.toNat :: (w.a.toNat + 1) :: regsB r)
      (fun L => two w.d.toNat (g (s.rd64 w.a.toNat L) (s.shiftCount r L))) := by
  obtain rfl : f64 = g := funext₂ hfg
  rw [State.laneShift, if_pos ht] at he
  exact laneExecL_writes64 s i w _ _ _ he

/-- Settles O3: each is of a common lane form, its value put in the manual's terms by the lemmas above. -/
theorem integerWordsAndProducts : Obligations.IntegerWordsAndProducts := by
  refine ⟨fun s w r imm => ?_, fun s w r => ⟨?_, ?_, ?_, ?_, ?_⟩⟩
  · exact ⟨lane1_unary rfl fun _ => rfl, laneExecL_writes s _ w _ _ _ rfl, lane2_binary rfl fun _ _ => rfl,
      lane2_binary rfl fun _ _ => rfl, lane2_binary rfl fun _ _ => rfl, lane2_binary rfl fun _ _ => rfl,
      lane2_binary rfl fun _ _ => rfl, lane1_unary rfl fun _ => rfl, lane1_unary rfl popcW_eq, lane1_unary rfl clzW_eq,
      lane1_unary rfl reverse_eq_ofBits, lane2_binary rfl (minInt_eq _), lane2_binary rfl (maxInt_eq _),
      lane1_unary rfl intMod_abs_eq, lane2_binary rfl (addSat_eq _ _)⟩
  · exact lane2_binary rfl fun _ _ => rfl
  · exact lane2_binary rfl (mulHigh_eq _)
  · simp only [← State.srcA_eq, ← State.srcC_eq, ← intMod_eq r.ab]
    exact laneExecL_writes s _ w _ _ _ rfl
  · simp only [← mulWide_eq]
    exact laneExecL_writes64 s _ w _ _ _ rfl
  · simp only [← dot4_eq]
    exact laneExecL_writes s _ w _ _ _ rfl

/-- Settles O4, by the forms of 64-bit sums and of shifts. -/
theorem integerPairsShiftsAndAddress : Obligations.IntegerPairsShiftsAndAddress := by
  refine fun s w r =>
    ⟨lane2w_writes rfl, lane2w_writes rfl, fun ht => ⟨?_, ?_⟩, fun ht => ⟨?_, ?_⟩, fun ht => ?_, fun ht => ?_, ?_⟩
  · exact laneShift_writes rfl ht shlBy_eq
  · exact laneShift_writes rfl ht shrBy_eq
  · exact laneShift_writes64 rfl ht shlBy_eq
  · exact laneShift_writes64 rfl ht shrBy_eq
  · exact laneShift_writes rfl ht sarBy_eq
  · exact laneShift_writes64 rfl ht sarBy_eq
  · simp only [← leaVal_eq]
    exact laneExecL_writes64 s _ w _ _ _ rfl

/-- Settles O5: the form that the type chooses, its value put in the manual's terms by the lemmas above. -/
theorem integerFieldsCompareSelectConvert : Obligations.IntegerFieldsCompareSelectConvert := by
  refine fun s w r => ⟨?_, ?_, fun hw => ?_, fun hw => ?_, fun ht => ?_, fun ht => ?_, fun hlo hhi hs => ?_⟩
  · simp only [← bfeVal_eq]
    exact laneExecL_writes s _ w _ _ _ rfl
  · simp only [← bfiVal_eq]
    exact laneExecL_writes s _ w _ _ _ rfl
  · simp only [← cmpInt_eq]
    exact laneExecL_writesP s _ w _ _ _ (congrArg Host.Outcome.next (if_pos hw))
  · simp only [← cmpInt_eq, ← State.srcA_eq, ← State.srcB_eq]
    exact laneExecL_writesP s _ w _ _ _ (congrArg Host.Outcome.next (if_neg (Bool.eq_false_iff.1 hw)))
  · exact laneExecL_writes s _ w _ _ _ (congrArg Host.Outcome.next (if_neg ht))
  · exact laneExecL_writes64 s _ w _ _ _ (congrArg Host.Outcome.next (if_pos ht))
  · obtain ⟨k, hk⟩ := Nat.exists_eq_add_of_le' hlo
    have hd : intTy r.ty.toNat = intType (r.ty.toNat - 6) := by
      rw [hk, Nat.add_sub_cancel, intTy_eq (by omega)]
    simp only [← clampTy_eq, ← readTy_eq, ← hd, ← intTy_eq hs]
    have he : exec (.icvt w r) s = execIcvt w r s := rfl
    by_cases hwide : (intTy r.ty.toNat).1 = 64
    · simp only [hwide, if_true]
      exact laneExecL_writes64 s _ w _ _ _ (by simp only [he, execIcvt, hwide, if_true]; rfl)
    · simp only [hwide, if_false]
      exact laneExecL_writes s _ w _ _ _ (by simp only [he, execIcvt, hwide, if_false]; rfl)

end Sys2Proof.Machine
end

section
/-!
PROOF. Predicates combined and moved (07_lanes R127, R132, R133), and the statement made of PLOP and PMOV.
-/

namespace Sys2Proof.Machine

/-! Words given by their bits. -/

theorem getLsbD_ofBits (f : Nat → Bool) {i : Nat} (hi : i < 32) : (ofBits f).getLsbD i = f i := by
  rw [ofBits, BitVec.getLsbD_ofFnLE, dif_pos hi]

/-- A word that bits are joined to one after the other has the bits of all of them. -/
theorem foldl_bits_getLsbD (b : Nat → Bool) (k : Nat) {i : Nat} (hi : i < 32) :
    ((List.range k).foldl (fun (acc : Word) n => if b n then acc ||| BitVec.ofNat 32 (2 ^ n) else acc) 0).getLsbD i
      = (decide (i < k) && b i) := by
  induction k with
  | zero => simp
  | succ k ih =>
    rw [List.range_succ, List.foldl_append, List.foldl_cons, List.foldl_nil]
    have hbit : (BitVec.ofNat 32 (2 ^ k)).getLsbD i = decide (k = i) := by
      rw [BitVec.getLsbD_ofNat, Nat.testBit_two_pow, decide_eq_true hi, Bool.true_and]
    have hlt : decide (i < k + 1) = (decide (i < k) || decide (k = i)) := by
      rw [← Bool.decide_or, decide_eq_decide]
      omega
    rw [hlt, Bool.and_or_distrib_right, ← ih]
    split
    · next hb =>
      rw [BitVec.getLsbD_or, hbit]
      by_cases hk : k = i
      · subst hk; simp [hb]
      · simp [hk]
    · next hb =>
      by_cases hk : k = i
      · subst hk; simp [hb]
      · simp [hk]

/-! Predicates as sources (R127). -/

theorem State.pred_eq (s : State) (n L : Nat) : s.pred n L = s.predOp n L := rfl

theorem State.pall_eq (s : State) (L : Nat) : s.pall L = ofBits (fun n => decide (n < 16) && s.predOp n L) :=
  BitVec.eq_of_getLsbD_eq fun i hi => by
    rw [State.pall, foldl_bits_getLsbD _ _ hi, getLsbD_ofBits _ hi, State.pred_eq]

/-! All lane predicates written from one word (R133). -/

theorem lookup_map_range {α : Type} (f : Nat → α) (k j : Nat) :
    ((List.range k).map (fun n => (n, f n))).lookup j = if j < k then some (f j) else none := by
  induction k with
  | zero => rfl
  | succ k ih =>
    rw [List.range_succ, List.map_append, List.lookup_append, ih]
    by_cases hk : j = k
    · subst hk; simp
    · have hb : (j == k) = false := by simpa using hk
      have hlt : j < k + 1 ↔ j < k := by omega
      simp [List.lookup, hb, hlt]

/-- Lane predicates 0 to `k - 1` written one after the other. -/
def State.wrPs (s : State) (k : Nat) (m : Word) (f : Nat → Nat → Bool) : State :=
  (List.range k).foldl (fun t n => t.wrP n m (f n)) s

theorem State.wrPs_succ (s : State) (k : Nat) (m : Word) (f : Nat → Nat → Bool) :
    s.wrPs (k + 1) m f = (s.wrPs k m f).wrP k m (f k) := by
  rw [State.wrPs, List.range_succ, List.foldl_append]
  rfl

theorem State.wrPs_written (s : State) (k : Nat) (m : Word) (f : Nat → Nat → Bool) :
    PredsWritten s (s.wrPs (k + 1) m f) m false (fun L => (List.range (k + 1)).map (fun n => (n, f n L))) := by
  induction k with
  | zero => exact s.wrP_written 0 m (f 0)
  | succ k ih =>
    obtain ⟨⟨honly, hmem⟩, hget, hframe⟩ := ih
    obtain ⟨⟨honly', hmem'⟩, hget', hframe'⟩ := (s.wrPs (k + 1) m f).wrP_written (k + 1) m (f (k + 1))
    rw [State.wrPs_succ]
    refine ⟨⟨?_, fun j => (hmem' j).trans (hmem j)⟩, fun n L hL => ?_, ?_⟩
    · rw [honly', honly]; simp
    · rw [hget' n L hL, hget n L hL, lookup_map_range, lookup_map_range]
      by_cases hk : n = k + 1
      · subst hk; simp
      · have hb : (n == k + 1) = false := by simpa using hk
        have hlt : n < k + 1 + 1 ↔ n < k + 1 := by omega
        simp only [List.lookup, hb, hlt, Option.getD_none]
        split <;> rfl
    · rw [hframe', hframe]; rfl

/-! The statement of PLOP and PMOV. -/

theorem exec_plop (w : W0) (r : Alu) (s : State) : exec (.plop w r) s = execPlop w r s := rfl
theorem exec_pmov (w : W0) (r : Alu) (s : State) : exec (.pmov w r) s = execPmov w r s := rfl

/-- Settles O6: each form writes one register, one predicate or, by `State.wrPs_written`, all predicates. -/
theorem predicatesCombinedAndMoved : Obligations.PredicatesCombinedAndMoved := by
  refine fun s w r => ⟨?_, fun h => ?_, fun h => ?_, fun h => ?_, fun h => ?_⟩
  · simp only [← plopBit_eq, ← State.pred_eq]
    exact laneExecL_writesP s _ w _ _ _ rfl
  · simp only [← State.pall_eq]
    exact laneExecL_writes s _ w _ _ _ (by simp only [exec_pmov, execPmov, h]; rfl)
  · exact laneExecL_form s _ w _ (fun t ok => t.wrPs 12 ok fun n L => (s.rd w.a.toNat L).getLsbD n) _
      (by simp only [exec_pmov, execPmov, h]; rfl) (fun m => s.wrPs_written 11 m _)
      (fun m => State.setMemst_predsWritten s _ m _ ((s.setMemst memstLAPSE).wrPs_written 11 m _))
  · exact laneExecL_writes s _ w _ _ _ (by simp only [exec_pmov, execPmov, h]; rfl)
  · exact laneExecL_writesP s _ w _ _ _ (by simp only [exec_pmov, execPmov, h]; rfl)

end Sys2Proof.Machine
end

section
/-!
PROOF. Votes and words exchanged between lanes (07_lanes R130, R131, R134 to R137), and the statement made of them.
-/

namespace Sys2Proof.Machine

/-! Masks and their lanes. -/

theorem maskOf_eq_ofBits (f : Nat → Bool) : maskOf f = ofBits f :=
  BitVec.eq_of_getLsbD_eq fun i hi => by
    have h := inMask_maskOf f i
    rwa [inMask, decide_eq_true hi, Bool.true_and, ← getLsbD_ofBits f hi] at h

theorem and_maskOf_eq (m : Word) (f : Nat → Bool) : m &&& maskOf f = ofBits (fun L => inMask m L && f L) :=
  BitVec.eq_of_getLsbD_eq fun i hi => by
    rw [maskOf_eq_ofBits, BitVec.getLsbD_and, getLsbD_ofBits _ hi, getLsbD_ofBits _ hi, inMask]

theorem ofBits_mem_lanesOf (m : Word) : ofBits (fun L => decide (L ∈ lanesOf m)) = m :=
  BitVec.eq_of_getLsbD_eq fun i hi => by
    rw [getLsbD_ofBits _ hi, Bool.eq_iff_iff, decide_eq_true_iff, mem_lanesOf]
    simp [hi, inMask]

theorem lanesOf_inj {m n : Word} : lanesOf m = lanesOf n ↔ m = n :=
  ⟨fun h => by rw [← ofBits_mem_lanesOf m, h, ofBits_mem_lanesOf], congrArg lanesOf⟩

theorem lanesOf_eq_nil {m : Word} : lanesOf m = [] ↔ m = 0 := lanesOf_inj (n := 0)

theorem votes_eq (m p : Word) : votes m p = lanesOf (p &&& m) := by
  simp [votes, lanesOf, List.filter_filter, inMask]

theorem votes_eq_nil {m p : Word} : votes m p = [] ↔ p &&& m = 0 := by rw [votes_eq, lanesOf_eq_nil]

theorem votes_eq_lanesOf {m p : Word} : votes m p = lanesOf m ↔ p &&& m = m := by rw [votes_eq, lanesOf_inj]

/-- The set bits below a lane are the mask's lanes below it. -/
theorem popCount_eq_length (m : Word) {n : Nat} (hn : n ≤ 32) :
    popCount n m.toNat = ((lanesOf m).filter (fun K => decide (K < n))).length := by
  have hbelow : (List.range 32).filter (fun K => decide (K < n)) = List.range n := by
    rw [← List.Ico.zero_bot, List.Ico.filter_lt_of_ge hn, List.Ico.zero_bot]
  rw [popCount, lanesOf, List.filter_comm, hbelow]
  rfl

/-! Instructions that read words of other lanes (R130). -/

section
variable {s : State} {i : Instr} {m : Word} {ws : List LaneWord} {eff : State → State}

theorem crossExec_form {P : State → State → Bool → Prop} (he : exec i s = .next (s.crossExec m ws eff))
    (h0 : P s (eff s) false) (h1 : P s (eff (s.setMemst memstLAPSE)) true) : CrossForm s i m ws P := by
  simp only [CrossForm, he, State.crossExec]
  refine ⟨fun hm => ?_, fun hm hx hp => ?_, fun hm hx => ?_, fun hm hx hp => ?_⟩
  · rw [if_pos hm]
  · refine ⟨eff (if ws.any (fun x => s.grp.rdLapse s.lat.lc x.1 x.2) then s.setMemst memstLAPSE else s), ?_, ?_⟩
    · rw [if_neg hm, if_neg (by simp [hx]), if_neg (by simp [hp])]
    · cases ws.any (fun x => s.grp.rdLapse s.lat.lc x.1 x.2) with
      | false => exact h0
      | true => exact h1
  · rw [if_neg hm, if_pos hx]
  · rw [if_neg hm, if_neg (by simp [hx]), if_pos hp]

/-- Lane registers written, LAPSE recorded before. -/
theorem crossExec_writes {P : State → State → Bool → Prop} {val : Nat → List (Nat × Word)}
    (he : exec i s = .next (s.crossExec m ws eff)) (hw : ∀ t, LanesWritten t (eff t) m false val)
    (hP : ∀ u l, LanesWritten s u m l val → P s u l) : CrossForm s i m ws P :=
  crossExec_form he (hP _ _ (hw s)) (hP _ _ (State.setMemst_written s _ m _ (hw _)))

end

/-! One register or a pair, as the type says (R128). -/

theorem tyPair_iff (r : Alu) : tyPair r = true ↔ r.ty.toNat = 4 := decide_eq_true_iff

theorem State.wrTyped_written (s : State) (r : Alu) (d : Nat) (m : Word) (f64 : Nat → DWord) (f : Nat → Word) :
    LanesWritten s (if tyPair r then s.wr64 d m f64 else s.wr d m f) m false
      (fun L => if r.ty.toNat = 4 then two d (f64 L) else one d (f L)) := by
  simp only [tyPair_iff]
  split
  · exact s.wr64_written d m f64
  · exact s.wr_written d m f

theorem State.wrGTyped_written (s : State) (r : Alu) (d : Nat) (x64 : DWord) (x : Word) :
    GroupWritten s (if tyPair r then s.wrG64 d x64 else s.wrG d x)
      (if r.ty.toNat = 4 then two d x64 else one d x) := by
  simp only [tyPair_iff]
  split
  · exact s.wrG64_written d x64
  · exact s.wrG_written d x

/-! The words and lanes that these instructions name. -/

theorem wordsA_eq (w : W0) (r : Alu) : wordsA w r = laneWords w r := by
  funext L
  simp only [wordsA, laneWords, tyPair_iff]

theorem shflLane_eq (mode L b : Nat) : shflLane mode L b = sourceLane mode L b := by
  have hrange : ∀ j : Int, (if 0 ≤ j && j ≤ 31 then j.toNat else L) = if j < 0 ∨ 31 < j then L else j.toNat :=
    fun j => by
      by_cases hj : j < 0 ∨ 31 < j
      · rw [if_pos hj, if_neg (by simp; omega)]
      · rw [if_neg hj, if_pos (by simp; omega)]
  exact hrange _

theorem State.laneIdx_eq (s : State) (r : Alu) : s.laneIdx r = s.laneNo r := by
  unfold State.laneIdx State.laneNo immForm
  split <;> rfl

/-- An operand of a type read as a 64-bit value tells operands of that type apart. -/
theorem operand_inj (s : State) (w : W0) (r : Alu) (K L : Nat) :
    ((if tyPair r then s.rd64 w.a.toNat K else (s.rd w.a.toNat K).setWidth 64)
        = if tyPair r then s.rd64 w.a.toNat L else (s.rd w.a.toNat L).setWidth 64)
      ↔ if r.ty.toNat = 4 then s.rd64 w.a.toNat K = s.rd64 w.a.toNat L
        else s.rd w.a.toNat K = s.rd w.a.toNat L := by
  simp only [tyPair_iff]
  split
  · rfl
  · exact ⟨fun h => by simpa using congrArg (BitVec.setWidth 32) h, congrArg _⟩

/-! The statement of these instructions. -/

theorem exec_vote (w : W0) (r : Alu) (s : State) : exec (.vote w r) s = execVote w r s := rfl
theorem exec_ballot (w : W0) (r : Alu) (s : State) : exec (.ballot w r) s = execBallot w r s := rfl
theorem exec_wrlane (w : W0) (r : Alu) (s : State) : exec (.wrlane w r) s = execWrlane w r s := rfl

/-- What VOTE writes, of the Active lanes' predicate bits (R134). -/
theorem exec_vote_active {w : W0} {r : Alu} {s : State} (hm : s.activeW w ≠ 0) :
    exec (.vote w r) s = .next (s.wrGP w.d.toNat
      (match r.opx.toNat with
        | 0 => decide (votes (s.activeW w) (s.grp.pget w.a.toNat) ≠ [])
        | 1 => decide (votes (s.activeW w) (s.grp.pget w.a.toNat) = lanesOf (s.activeW w))
        | _ => decide (votes (s.activeW w) (s.grp.pget w.a.toNat) = []
            ∨ votes (s.activeW w) (s.grp.pget w.a.toNat) = lanesOf (s.activeW w)))).cont := by
  rw [exec_vote, execVote, if_neg hm]
  generalize r.opx.toNat = mode
  congr 3
  match mode with
  | 0 => exact decide_eq_decide.2 votes_eq_nil.not.symm
  | 1 => exact decide_eq_decide.2 votes_eq_lanesOf.symm
  | _ + 2 => exact decide_eq_decide.2 (or_congr votes_eq_nil votes_eq_lanesOf).symm

theorem exec_prank (w : W0) (r : Alu) (s : State) : exec (.prank w r) s
    = .next (s.laneExec (s.activeW w) [] (fun t ok => t.wr w.d.toNat ok (fun L => BitVec.ofNat 32
        (popCount (if r.opx.getLsbD 0 then L + 1 else L) (s.grp.pget w.a.toNat &&& s.activeW w).toNat)))) := rfl

/-- The rank of a lane (R134). -/
theorem popCount_votes (m p : Word) (imm : Bool) {L : Nat} (hL : L < 32) :
    popCount (if imm then L + 1 else L) (p &&& m).toNat
      = ((votes m p).filter (fun K => if imm then decide (K ≤ L) else decide (K < L))).length := by
  rw [votes_eq, popCount_eq_length _ (by split <;> omega)]
  cases imm with
  | false => rfl
  | true => simp only [if_true, Nat.lt_succ_iff]

/-- What a lane instruction writes depends on the values of the 32 lanes alone. -/
theorem WritesLanes.congr {s : State} {i : Instr} {w : W0} {rd : Nat → List Nat} {v v' : Nat → List (Nat × Word)}
    (h : WritesLanes s i w rd v) (hv : ∀ L, L < 32 → v L = v' L) : WritesLanes s i w rd v' := by
  obtain ⟨hclean, htrap⟩ := h
  refine ⟨fun hc => ?_, fun hc => ?_⟩
  · obtain ⟨u, he, hw⟩ := hclean hc
    exact ⟨u, he, hw.congr hv⟩
  · obtain ⟨u, he, hw⟩ := htrap hc
    exact ⟨u, he, hw.congr hv⟩

/-- Settles O7: the votes are the lanes of one mask; the words that SHFL, RDLANE and MATCH read and the lanes they name
are the manual's, and what they write follows from `crossExec_form`. -/
theorem lanesVoteAndExchangeWords : Obligations.LanesVoteAndExchangeWords := by
  refine ⟨fun s w r => ⟨fun hm => ?_, fun hm => ?_, fun hm => ?_, ?_⟩, fun s w r => ⟨?_, ?_, ?_, ?_⟩⟩
  · simp only [exec_vote, exec_ballot, execVote, execBallot, if_pos hm, and_self]
  · exact ⟨_, exec_vote_active hm, s.wrGP_written _ _⟩
  · refine ⟨_, by simp only [exec_ballot, execBallot, if_neg hm]; rfl, ?_⟩
    rw [votes_eq, ofBits_mem_lanesOf]
    exact s.wrG_written _ _
  · refine (laneExecL_writes s _ w _ _ _ (exec_prank w r s)).congr fun L hL => ?_
    rw [popCount_votes _ _ _ hL]
    rfl
  · simp only [← shflLane_eq, ← wordsA_eq]
    exact crossExec_writes rfl (fun t => t.wrTyped_written r _ _ _ _) fun _ _ => id
  · simp only [← State.laneIdx_eq, ← wordsA_eq]
    exact crossExec_form rfl (s.wrGTyped_written r _ _ _) ((s.setMemst memstLAPSE).wrGTyped_written r _ _ _)
  · simp only [← State.laneIdx_eq, ← maskOf_eq_ofBits]
    refine ⟨_, ?_, s.wrTyped_written r _ _ _ _⟩
    rw [exec_wrlane, execWrlane]
    split <;> rfl
  · simp only [← wordsA_eq]
    refine crossExec_writes rfl (fun t => t.wr_written _ _ _) fun u l h => h.congr fun L _ => ?_
    simp only [and_maskOf_eq, operand_inj]

end Sys2Proof.Machine
end

section
/-!
PROOF. The fixed tree of LRED (07_lanes R138, R139), and the statement made of it.
-/

namespace Sys2Proof.Machine

/-! The tree (R138). -/

/-- The operation of a node on results with flags: its value, and the flags below it joined to its own. -/
def joinFlags (op : Nat → Nat → FRes) (x y : FRes) : FRes := ((op x.1 y.1).1, (op x.1 y.1).2 ||| x.2 ||| y.2)

theorem lredNode_eq (m : Word) (val : Nat → Nat) (op : Nat → Nat → FRes) (n lo : Nat) :
    lredNode m val op n lo = reduceTree m (fun L => (val L, 0)) (joinFlags op) n lo := by
  induction n generalizing lo with
  | zero => rfl
  | succ n ih =>
    rw [lredNode, reduceTree, ih, ih]
    cases reduceTree m (fun L => (val L, 0)) (joinFlags op) n lo <;>
      cases reduceTree m (fun L => (val L, 0)) (joinFlags op) n (lo + 2 ^ n) <;> rfl

/-- A map that carries one operation to another carries the tree of the one to the tree of the other. -/
theorem reduceTree_map {α β : Type} {g : α → β} {op : α → α → α} {op' : β → β → β}
    (h : ∀ x y, op' (g x) (g y) = g (op x y)) (m : Word) (val : Nat → α) (n lo : Nat) :
    reduceTree m (fun L => g (val L)) op' n lo = (reduceTree m val op n lo).map g := by
  induction n generalizing lo with
  | zero => rw [reduceTree, reduceTree]; split <;> rfl
  | succ n ih =>
    rw [reduceTree, reduceTree, ih, ih]
    cases reduceTree m val op n lo <;> cases reduceTree m val op n (lo + 2 ^ n) <;> simp [h]

/-- The operations of LRED on integer types, which raise no flag. -/
theorem lredOp_integer {r : Alu} (ht : r.ty.toNat ≠ 16) (x y : Word) :
    lredOp r x.toNat y.toNat = ((reduceOp r x y).toNat, 0) := by
  have hs : decide (r.ty.toNat ≠ 12) = !decide (r.ty.toNat = 12) := decide_not
  simp only [lredOp, if_neg ht, BitVec.ofNat_toNat, BitVec.setWidth_eq, hs, minInt_eq, maxInt_eq]
  rfl

/-- The tree of LRED on integer types. -/
theorem lredNode_integer {r : Alu} (ht : r.ty.toNat ≠ 16) (s : State) (a : BitVec 8) (m : Word) (n lo : Nat) :
    lredNode m (s.bits32 a) (lredOp r) n lo
      = (reduceTree m (fun L => s.rd a.toNat L) (reduceOp r) n lo).map (fun x => (x.toNat, 0)) := by
  rw [lredNode_eq]
  exact reduceTree_map (g := fun x : Word => (x.toNat, 0))
    (fun x y => by simp [joinFlags, lredOp_integer ht]) m _ n lo

/-- The operations of LRED on binary32 (R138). -/
def reduceFloat (r : Alu) (x y : Nat) : FRes :=
  match r.opx.toNat % 8 with
  | 0 => rSum f32 r.rnd.toNat (f32.decode x) (f32.decode y)
  | 1 => f32.minMax false x y
  | _ => f32.minMax true x y

theorem lredOp_float {r : Alu} (ht : r.ty.toNat = 16) : lredOp r = reduceFloat r := by
  funext x y
  rw [lredOp, if_pos ht]
  rfl

/-! FPSTAT and MEMST of a reduction. -/

theorem State.setMemst_orFpstat (s : State) (b : Word) (fl : Nat) :
    (s.setMemst b).orFpstat fl = (s.orFpstat fl).setMemst b := by
  simp only [State.setMemst, State.orFpstat, State.modGrp_modGrp]

/-- No flags joined to FPSTAT leave what is written as it is. -/
theorem LanesWritten.of_orFpstat_zero {s u : State} {m : Word} {l : Bool} {val : Nat → List (Nat × Word)}
    (h : LanesWritten (s.orFpstat 0) u m l val) : LanesWritten s u m l val := by
  obtain ⟨⟨honly, hmem⟩, hget, hframe⟩ := h
  have hg : (s.orFpstat 0).grp = s.grp := by simp [State.orFpstat]
  have hd : (s.orFpstat 0).disarmRegs ((val 0).map (·.1)) m = (s.disarmRegs ((val 0).map (·.1)) m).orFpstat 0 :=
    s.modGrp_disarmRegs _ _ _ (fun _ => ⟨rfl, rfl⟩)
  rw [hd] at honly hmem
  rw [hg] at hget hframe
  refine ⟨⟨?_, hmem⟩, hget, hframe⟩
  rw [honly]
  simp [State.orFpstat, State.modGrp]

/-- One register read in each lane of a mask lapses where one of its words does. -/
theorem State.lapses_register (s : State) (m : Word) (n : Nat) : s.lapses m (fun _ => [n])
    = ((lanesOf m).map (fun L => (n, L))).any (fun x => s.grp.rdLapse s.lat.lc x.1 x.2) := by
  simp [State.lapses, List.any_map, Function.comp_def]

/-- One register that reads clean in each lane of a mask has no word that traps. -/
theorem ReadsClean.register_words {s : State} {m : Word} {n : Nat} (hc : ReadsClean s m (fun _ => [n])) :
    ((lanesOf m).map (fun L => (n, L))).any
      (fun x => s.grp.rdErx s.lat.lc x.1 x.2 || s.grp.rdPois s.lat.lc x.1 x.2) = false := by
  rw [List.any_map, List.any_eq_false]
  intro L hL
  obtain ⟨hlt, hm⟩ := (mem_lanesOf m L).1 hL
  obtain ⟨hx, hp⟩ := hc L hlt hm n (List.mem_singleton.2 rfl)
  simp [hx, hp]

/-! The statement of LRED. -/

section
variable {w : W0} {r : Alu} {s : State} {res : FRes}

theorem exec_lred (w : W0) (r : Alu) (s : State) : exec (.lred w r) s = execLred w r s := rfl

/-- A reduction that raises no enabled exception is of the common cross-lane form. -/
theorem exec_lred_crossExec (hr : (lredNode (s.activeW w) (s.bits32 w.a) (lredOp r) 5 0).getD (0, 0) = res)
    (hfl : res.2 &&& s.grp.fpte = 0) :
    exec (.lred w r) s = .next (s.crossExec (s.activeW w) ((lanesOf (s.activeW w)).map (fun L => (w.a.toNat, L)))
      (fun t => (t.orFpstat res.2).wr w.d.toNat (s.activeW w) (fun _ => BitVec.ofNat 32 res.1))) := by
  rw [exec_lred, execLred, hr, if_neg (by simp [hfl])]

/-- An enabled exception traps every Active lane at the next instruction (R139). -/
theorem exec_lred_trap (hr : (lredNode (s.activeW w) (s.bits32 w.a) (lredOp r) 5 0).getD (0, 0) = res)
    (hfl : res.2 &&& s.grp.fpte ≠ 0) (hc : ReadsClean s (s.activeW w) (fun _ => [w.a.toNat])) :
    exec (.lred w r) s = .next ((((if s.lapses (s.activeW w) (fun _ => [w.a.toNat]) then s.setMemst 8
        else s).orFpstat res.2).cont).raise
      ((lanesOf (s.activeW w)).map (fun L => { lane := L, cause := cFPX, lexc := res.2 })) false) := by
  rw [exec_lred, execLred, hr, if_pos (by rw [hc.register_words, decide_eq_true hfl]; rfl), s.lapses_register]
  rfl

end

/-- Settles O8: the model's tree is the manual's, `lredNode_integer` on integer types and `lredNode_eq` on binary32. -/
theorem reductionFollowsTheFixedTree : Obligations.ReductionFollowsTheFixedTree := by
  intro s w r m ws val op res
  have hfloat : r.ty.toNat = 16 → (lredNode m (s.bits32 w.a) (lredOp r) 5 0).getD (0, 0) = res := fun ht => by
    rw [lredNode_eq, lredOp_float ht]
    rfl
  refine ⟨fun ht => ?_, fun ht hfl => ?_, fun ht hfl hc => exec_lred_trap (hfloat ht) hfl hc⟩
  · have hint : (lredNode m (s.bits32 w.a) (lredOp r) 5 0).getD (0, 0)
        = (((reduceTree m (fun L => s.rd w.a.toNat L) (reduceOp r) 5 0).getD 0).toNat, 0) := by
      rw [lredNode_integer ht]
      cases reduceTree m (fun L => s.rd w.a.toNat L) (reduceOp r) 5 0 <;> rfl
    refine crossExec_writes (exec_lred_crossExec hint (Nat.zero_and _)) (fun t => ?_) fun _ _ => id
    simpa using ((t.orFpstat 0).wr_written _ _ _).of_orFpstat_zero
  · refine crossExec_form (exec_lred_crossExec (hfloat ht) hfl) ((s.orFpstat res.2).wr_written _ _ _) ?_
    rw [State.setMemst_orFpstat]
    exact State.setMemst_written _ _ _ _ (((s.orFpstat res.2).setMemst memstLAPSE).wr_written _ _ _)

end Sys2Proof.Machine
end

section
/-!
PROOF. Source modifiers on a floating-point operand of FCVT (06_float R117; 08_formats R157), and the statement of the
conversions that they refute.
-/

namespace Sys2Proof.Machine

/-- FCVT reads sources of the format with their sign after the modifiers, their other bits as they are (R117). -/
def ReadsAsSigned (f : FFmt) : Prop :=
  ∀ (r : Alu) (x : Nat), (CvtTy.flt f).read r x = f.decode (signed f r.aa r.na x)

/-- The low `n` bits of a number, and a sign at bit `n`. -/
def withSign (n x : Nat) (neg : Bool) : Nat := x % 2 ^ n + if neg then 2 ^ n else 0

theorem mod_two_pow_succ_eq_withSign (n x : Nat) : x % 2 ^ (n + 1) = withSign n x (x.testBit n) := by
  rw [withSign, Nat.mod_pow_succ, Nat.testBit_eq_decide_div_mod_eq]
  rcases Nat.mod_two_eq_zero_or_one (x / 2 ^ n) with h | h <;> simp [h]

theorem withSign_mod (n x : Nat) (neg : Bool) : withSign n x neg % 2 ^ n = withSign n x false := by
  cases neg <;> simp [withSign]

theorem withSign_testBit (n x : Nat) (neg : Bool) : (withSign n x neg).testBit n = neg := by
  have hlow : (x % 2 ^ n).testBit n = false := Nat.testBit_lt_two_pow (Nat.mod_lt _ (Nat.two_pow_pos n))
  cases neg with
  | false => exact hlow
  | true => rw [withSign, if_pos rfl, Nat.add_comm, Nat.testBit_two_pow_add_eq, hlow, Bool.not_false]

/-- The sign bit subtracted where it is set and added where it is clear is the sign bit inverted. -/
theorem withSign_inverted (n x : Nat) (neg : Bool) :
    (if (withSign n x neg).testBit n then withSign n x neg - 2 ^ n else withSign n x neg + 2 ^ n)
      = withSign n x !neg := by
  rw [withSign_testBit]
  cases neg <;> simp [withSign]

/-- In a format of at least one bit the modifiers of the model are those of the manual: AA clears the sign bit, and
NA inverts what AA leaves of it. -/
theorem FFmt.modify_eq_signed {f : FFmt} (hf : 0 < f.eb + f.p) (ab ng : Bool) (x : Nat) :
    f.modify ab ng x = signed f ab ng x := by
  obtain ⟨n, hn⟩ := Nat.exists_eq_add_one_of_ne_zero hf.ne'
  have hab : (if ab then withSign n x (x.testBit n) % 2 ^ n else withSign n x (x.testBit n))
      = withSign n x (if ab then false else x.testBit n) := by
    cases ab with
    | false => rfl
    | true => exact withSign_mod ..
  simp only [FFmt.modify, FFmt.width, FFmt.signBit, hn, Nat.add_sub_cancel, mod_two_pow_succ_eq_withSign, hab,
    withSign_inverted]
  rw [signed, FFmt.signBit, hn]
  cases ng <;> simp [withSign]

/-- The format of no bits, whose sign bit would be bit 0. -/
def bitless : FFmt := ⟨0, 0⟩

/-- An instruction word without modifiers. -/
def unmodified : Alu :=
  { b := 0, c := 0, ty := 0, rnd := 0, na := false, aa := false, nb := false, ab := false, nc := false, opx := 0 }

/-- Of the operand 1 the model keeps the format's low bits, of which there are none. -/
theorem bitless_read : (CvtTy.flt bitless).read unmodified 1 = .inf false := by decide

/-- The statement takes bit 0 of the operand 1 for its sign. -/
theorem bitless_decode_signed :
    bitless.decode (signed bitless unmodified.aa unmodified.na 1) = .inf true := by decide

theorem not_readsAsSigned_bitless : ¬ ReadsAsSigned bitless := by
  intro h
  have hone := h unmodified 1
  rw [bitless_read, bitless_decode_signed] at hone
  exact absurd hone (by decide)

/-- A format is read as the statement says exactly when it has a bit, as every format of the scalar forms does. -/
theorem readsAsSigned_iff (f : FFmt) : ReadsAsSigned f ↔ 0 < f.eb + f.p := by
  constructor
  · intro h
    by_contra hf
    obtain ⟨heb, hp⟩ := Nat.add_eq_zero_iff.1 (Nat.eq_zero_of_not_pos hf)
    obtain rfl : f = bitless := congrArg₂ FFmt.mk heb hp
    exact not_readsAsSigned_bitless h
  · intro hf r x
    rw [← FFmt.modify_eq_signed hf]
    rfl

/-- Refutes O14: its second clause has FCVT read a source in every `FFmt`, also in the one of no bits, in which the
model reads 1 as plus infinity and the statement as minus infinity; `readsAsSigned_iff` says that no other format
breaks that clause. -/
theorem not_formatConversions : ¬ Obligations.FormatConversions := by
  rintro ⟨-, hconv, -⟩
  have hread : ReadsAsSigned bitless := fun r x =>
    (hconv r bitless 32 x 0 false false false {} (.inl rfl) (by decide)).1
  exact absurd ((readsAsSigned_iff bitless).1 hread) (by decide)

end Sys2Proof.Machine
end

section
/-!
PROOF. Loads and stores whose lanes pass every check (03_groupwide R57, R58; 09_memory R180 to R188), and the statements
made of them.
-/

namespace Sys2Proof.Machine

/-- The positions of a list with its elements are those of the library. -/
theorem mapI_eq_mapIdx {α β : Type} (l : List α) (f : Nat → α → β) : mapI l f = l.mapIdx f := by
  refine List.ext_getElem (by simp [mapI]) fun i h1 h2 => ?_
  simp [mapI]

/-- A counted instruction none of whose lanes traps. -/
theorem State.finishCounted_none (s : State) (f : Bool) (go : Bool) (o : PendOp) :
    s.finishCounted f [] go o = (s.issueOp f o).cont := by
  cases go <;> rfl

/-- A load that meets no poison: every lane's words are left to the completion. -/
theorem State.performLoad_all (u : State) {w : W0} {m : MemF} (md : LoadMode) (addr : Nat → DWord) (accs : List LaneAcc)
    (h : ∀ x ∈ (u.loadLanes u.cur md m.e m.ty.toNat accs).2, x.pois = false) :
    let r := u.loadLanes u.cur md m.e m.ty.toNat accs
    u.performLoad w m md addr [] accs = ((r.1.orFpstat (r.2.foldl (fun acc x => acc ||| x.fl) 0)).issueOp w.f
      { kind := .load, acq := md.acqOp, v := loadPend w.d.toNat r.2 }).cont := by
  intro r
  have hbad : r.2.filter (·.pois) = [] := by simpa [List.filter_eq_nil_iff] using h
  have hgood : r.2.filter (fun x => !x.pois) = r.2 := by simpa [List.filter_eq_self] using h
  simp only [State.performLoad]
  rw [hbad, hgood, List.map_nil, List.append_nil, State.finishCounted_none]

section
variable {s : State} {i : Instr} {w : W0} {m : MemF} {regs : List Nat} {addr : Nat → DWord} {al : Nat → Bool}

/-- A lane access that passes every check goes on with no trap. -/
theorem State.Clear.access {s u : State} {acc : Acc} {accs : List LaneAcc}
    (h : s.Clear w acc m.e (tySize m.ty.toNat) regs addr al u accs)
    (k : State → List LaneTrap → List LaneAcc → State) :
    s.laneAccess (s.activeW w) m acc regs addr al k = k u [] accs := by
  obtain ⟨hclean, hgo⟩ := h
  exact State.laneAccess_go (by rw [State.readSources_clean hclean]; exact hgo) k

theorem laneLoad_runs {md : LoadMode} (he : exec i s = .next (s.laneLoad w m regs addr al md)) :
    LoadRuns s i w m regs addr al md := by
  intro ha u accs hclear r hp
  rw [he, State.laneLoad, State.ordered_free ha (by simp), hclear.access, State.performLoad_all _ _ _ _ hp]
  rfl

theorem laneStoreAt_runs {dflt : Nat} (he : exec i s = .next (s.laneStoreAt w m regs addr al dflt)) :
    StoreRuns s i w m regs addr al dflt := by
  intro ha hr u accs hclear out
  rw [he, State.laneStoreAt, State.ordered_free ha hr, hclear.access]
  exact congrArg _ (State.finishCounted_none ..)

end

/-- Settles O25: each lane load is `State.laneLoad` of its addresses, and GLD is `State.groupAccess`. -/
theorem loadsDeliverTheirWords : Obligations.LoadsDeliverTheirWords := by
  intro s w m
  dsimp only
  refine ⟨laneLoad_runs rfl, ?_, laneLoad_runs rfl, fun ha hg => ?_, fun ha hg hc hal u x hr hl hp => ?_⟩
  · have h : LoadRuns s (.ldw w m) w m [] _ _ _ := laneLoad_runs rfl
    rw [s.blockAlign_eq w m] at h
    exact h
  · rw [exec_gld, execGld, State.ordered_free ha (by simp), hg]
    rfl
  · have hgo := State.groupAccess_go (acc := .r) hc hal hr hl
    rw [exec_gld_guarded m hg ha]
    refine congrArg _ ((hgo _).trans ?_)
    exact if_neg (by rw [hp]; decide)

/-! The bytes of words, and what GST stores. -/

theorem bytesLE_word (x : Word) : bytesLE 4 x.toNat = (List.range 4).map (fun i => x.extractLsb' (8 * i) 8) := by
  refine List.map_congr_left fun i _ => BitVec.eq_of_toNat_eq ?_
  simp [Nat.shiftRight_eq_div_pow, Nat.pow_mul]

theorem wordBytes_getElem? (ws : List Word) (i : Nat) :
    (wordBytes ws)[i]? = ws[i / 4]?.map (fun x => x.extractLsb' (8 * (i % 4)) 8) := by
  induction ws generalizing i with
  | nil => rfl
  | cons x t ih =>
    have hcons : wordBytes (x :: t) = bytesLE 4 x.toNat ++ wordBytes t := rfl
    have hlen : (bytesLE 4 x.toNat).length = 4 := by simp [bytesLE]
    rw [hcons]
    by_cases hi : i < 4
    · rw [List.getElem?_append_left (by omega), bytesLE_word, Nat.div_eq_of_lt hi, Nat.mod_eq_of_lt hi]
      simp [hi]
    · obtain ⟨k, rfl⟩ := Nat.exists_eq_add_of_le (Nat.le_of_not_lt hi)
      rw [List.getElem?_append_right (by omega), hlen, ih]
      simp [Nat.add_comm 4 k]

theorem lowBytes_eq_map {n : Nat} {ws : List Word} (h : n ≤ 4 * ws.length) :
    lowBytes n ws = (List.range n).map (fun i => (ws.getD (i / 4) 0).extractLsb' (8 * (i % 4)) 8) := by
  have hlen : (lowBytes n ws).length = n := by rw [lowBytes, List.length_take, wordBytes_length]; omega
  refine List.ext_getElem? fun i => ?_
  by_cases hi : i < n
  · have hw : i / 4 < ws.length := by omega
    rw [lowBytes, List.getElem?_take_of_lt hi, wordBytes_getElem?]
    simp [hi, hw]
  · rw [List.getElem?_eq_none (by omega), List.getElem?_eq_none (by simpa using hi)]

theorem tySize_le (ty : Nat) : tySize ty ≤ 4 * tyRegs ty := by
  unfold tyRegs tySize
  split_ifs <;> decide

theorem pieceBytes_eq_map (x : Xl) (n : Nat) (b : Nat → Byte) : pieceBytes x ((List.range n).map b)
    = (List.range n).map (fun i => { pk := x.pk + i, attr := x.attr, val := b i }) := by
  rw [pieceBytes, mapI_eq_mapIdx]
  exact List.ext_getElem (by simp) fun i _ _ => by simp

/-- Settles O26: each lane store is `State.laneStoreAt` of its addresses; the bytes of GST are those of its words. -/
theorem storesCarryTheirBytes : Obligations.StoresCarryTheirBytes := by
  intro s w m
  dsimp only
  refine ⟨laneStoreAt_runs rfl, ?_, laneStoreAt_runs rfl, fun ha hr hg => ?_, fun ha hr hg hc hal u x ht hl => ?_⟩
  · have h : StoreRuns s (.stw w m) w m [] _ _ _ := laneStoreAt_runs rfl
    rw [s.blockAlign_eq w m] at h
    exact h
  · rw [exec_gst, execGst, State.ordered_free ha hr, hg]
    rfl
  · have hgo := State.groupAccess_go (acc := .w) hc hal ht hl
    rw [exec_gst_guarded m hg ha hr]
    refine congrArg _ ((hgo _).trans ?_)
    rw [lowBytes_eq_map (by simpa using tySize_le m.ty.toNat), pieceBytes_eq_map]
    rfl

end Sys2Proof.Machine
end

section
/-!
PROOF. Translations that no cached copy answers (09_memory R168 to R175), and the statement made of them.
-/

namespace Sys2Proof.Machine

/-! Numbers and their bytes. -/

theorem natLE_bytesLE (n x : Nat) : natLE (bytesLE n x) = x % 256 ^ n := by
  induction n generalizing x with
  | zero => simp [bytesLE, natLE, Nat.mod_one]
  | succ n ih =>
    have hcons : bytesLE (n + 1) x = BitVec.ofNat 8 x :: bytesLE n (x / 256) := by
      rw [bytesLE, List.range_succ_eq_map]
      simp [bytesLE, Nat.div_div_eq_div_mul, Nat.pow_succ']
    rw [hcons, natLE, ih, BitVec.toNat_ofNat]
    show x % 256 + 256 * (x / 256 % 256 ^ n) = x % 256 ^ (n + 1)
    rw [Nat.pow_succ', Nat.mod_mul]

@[simp] theorem bytesLE_length (n x : Nat) : (bytesLE n x).length = n := by simp [bytesLE]

/-- A number stored in memory reads back. -/
theorem State.memNat_setMemBytes (s : State) (k n x : Nat) : (s.setMemBytes k (bytesLE n x)).memNat k n = x % 256 ^ n := by
  have hread : (List.range n).map (fun i => (s.setMemBytes k (bytesLE n x)).memByte (k + i)) = bytesLE n x := by
    refine List.ext_getElem (by simp) fun i h1 h2 => ?_
    have hi : i < n := by simpa using h1
    simp [State.memByte_setMemBytes, hi]
  rw [State.memNat, hread, natLE_bytesLE]

/-! What a walk reads where its die holds nothing pending. -/

theorem State.pline_of_empty {s : State} {die : Nat} (h : (s.die die).pendH = []) (line : Nat) : s.pline die line = {} := by
  rw [State.pline, h, SMap.getD_nil]

theorem State.tableEntry_of_empty {s : State} {die : Nat} (h : (s.die die).pendH = []) (pk : Nat) :
    s.tableEntry die pk = BitVec.ofNat 64 (s.memNat pk 8) := by
  have hbyte : ∀ k, s.tableByte die k = s.memByte k := fun k => by
    have hover : s.memByte k &&& ~~~0 ||| 0 &&& 0 = s.memByte k := BitVec.or_zero.trans BitVec.and_allOnes
    rw [State.tableByte, State.pline_of_empty h, if_neg (by decide)]
    exact hover
  simp only [State.tableEntry, State.memNat, hbyte]

theorem State.sendFor_of_empty {s : State} {die : Nat} (h : (s.die die).pendH = []) (pk : Nat) : s.sendFor die pk = s := by
  simp [State.sendFor, State.sendOrdered, State.pline_of_empty h]

theorem State.walkSends_mem {s : State} {die : Nat} (h : (s.die die).pendH = []) (ctx va : Nat) :
    (s.walkSends ctx die va).mem = s.mem := by
  refine (List.foldlRecOn (motive := fun t : State => t.mem = s.mem ∧ (t.die die).pendH = []) _ _ ⟨rfl, h⟩
    fun t ht a _ => ?_).1
  obtain ⟨hmem, hp⟩ := ht
  rw [State.sendFor_of_empty hp, State.roundTrip]
  simp [State.timeMsg_pendH, hmem, hp]

/-- The leaf of a walk is a table entry as the walker reads it. -/
theorem State.walkFrom_leaf {s : State} {die va fuel level table at_ : Nat} {e : DWord} {big : Bool}
    (h : s.walkFrom die va fuel level table = .leaf at_ e big) : e = s.tableEntry die at_ := by
  induction fuel generalizing level table with
  | zero => simp [State.walkFrom] at h
  | succ fuel ih =>
    simp only [State.walkFrom] at h
    split_ifs at h
    · obtain ⟨rfl, rfl, -⟩ := Walk.leaf.inj h
      rfl
    · exact ih h

/-! The walk's answer, and the leaf marked (R173). -/

theorem State.walkSends_privileged (s : State) (ctx die va c : Nat) :
    (s.walkSends ctx die va).privileged c = s.privileged c := by
  rw [(s.walkSends_served ctx die va).only]
  rfl

section
variable {s : State} {ctx die va : Nat} {acc : Acc}

theorem State.walkFill_fault {c : Nat} (h : s.walk ctx die va = .fault c) :
    s.walkFill ctx die va acc = (s.walkSends ctx die va, .error c) := by
  simp only [State.walkFill, h]

theorem State.walkFill_denied {at_ : Nat} {e : DWord} {big : Bool} (h : s.walk ctx die va = .leaf at_ e big)
    (hd : leafDenies e acc (s.privileged ctx) = true) :
    s.walkFill ctx die va acc = (s.walkSends ctx die va, .error cTPROT) := by
  simp only [State.walkFill, h, State.walkSends_privileged, hd, if_true]

theorem State.walkFill_leaf {at_ : Nat} {e : DWord} {big : Bool} (h : s.walk ctx die va = .leaf at_ e big)
    (hd : leafDenies e acc (s.privileged ctx) = false) (hf : pteFmt e = 0) :
    s.walkFill ctx die va acc = ((s.walkSends ctx die va).touchLeaf at_ e acc.writes,
      .ok { ctx, page := va / pageSize big, leaf := touched e acc.writes, big }) := by
  simp only [State.walkFill, h, State.walkSends_privileged, hd, hf, Bool.false_eq_true, if_false, if_true]

end

theorem State.countMiss_mem (s : State) (ctx die : Nat) (core : Option Nat) (va : Nat) (fresh : Except Nat TlbEnt) :
    (s.countMiss ctx die core va fresh).mem = s.mem := by
  unfold State.countMiss
  cases core <;> dsimp only <;> split_ifs <;> rfl

theorem State.keep_mem (s : State) (die : Nat) (core : Option Nat) (e : TlbEnt) : (s.keep die core e).mem = s.mem := by
  cases core <;> rfl

section
variable {s u : State} {ctx die va : Nat} {acc : Acc} {core : Option Nat} (hh : s.heldFor ctx die core va = [])
include hh

/-- A translation that nothing held answers is the walk's. -/
theorem State.translate_fault {c : Nat} (hw : s.walkFill ctx die va acc = (u, .error c)) :
    (s.translate ctx die va acc core).2 = .error c ∧ (s.translate ctx die va acc core).1.mem = u.mem := by
  simp only [State.translate, hw, hh, List.filter_nil, State.chooseHeld, State.countMiss_mem, and_self]

theorem State.translate_leaf {f : TlbEnt} (hw : s.walkFill ctx die va acc = (u, .ok f)) :
    (s.translate ctx die va acc core).2 = .ok (f.xl va) ∧ (s.translate ctx die va acc core).1.mem = u.mem := by
  simp only [State.translate, hw, hh, List.filter_nil, State.chooseHeld, State.keep_mem, State.countMiss_mem, and_self]

end

/-! The marks A and D of a leaf (R173). -/

/-- The marks that a walk for a load and for a store sets. -/
def leafMarks (wr : Bool) : DWord := if wr then 0x60 else 0x20

theorem touched_eq (e : DWord) (wr : Bool) : touched e wr = e ||| leafMarks wr := by
  cases wr with
  | false => exact BitVec.or_zero
  | true => exact BitVec.or_assoc e 0x20 0x40

theorem leafMarks_getLsbD {i : Nat} (hi : 7 ≤ i) (wr : Bool) : (leafMarks wr).getLsbD i = false := by
  have hlt : (leafMarks wr).toNat < 2 ^ 7 := by cases wr <;> decide
  exact Nat.testBit_lt_two_pow (hlt.trans_le (Nat.pow_le_pow_right (by decide) hi))

theorem touched_field {lo : Nat} (hlo : 7 ≤ lo) (e : DWord) (wr : Bool) (n : Nat) :
    (touched e wr).extractLsb' lo n = e.extractLsb' lo n := by
  refine BitVec.eq_of_getLsbD_eq fun i hi => ?_
  simp [touched_eq, hi, leafMarks_getLsbD (show 7 ≤ lo + i by omega)]

/-- The marks of a leaf are no part of the place it gives. -/
theorem leafXl_touched (e : DWord) (wr big : Bool) (va : Nat) :
    leafXl (touched e wr) big va = { leafXl e big va with leaf := touched e wr } := by
  have hswc : pteSwc (touched e wr) = pteSwc e := by
    rw [pteSwc, touched_eq, BitVec.getLsbD_or, leafMarks_getLsbD (by decide), Bool.or_false, pteSwc]
  simp only [leafXl, pteTier, pteHome, pteIlv, pteFrame, pteFmt, pteCp, hswc,
    touched_field (show 7 ≤ 7 by decide), touched_field (show 7 ≤ 9 by decide), touched_field (show 7 ≤ 12 by decide),
    touched_field (show 7 ≤ 16 by decide), touched_field (show 7 ≤ 52 by decide), touched_field (show 7 ≤ 60 by decide)]

/-- An unmarked leaf takes the marks where memory holds it, and no other byte changes. -/
theorem State.touchLeaf_reads {s : State} {at_ : Nat} {e : DWord} (he : e = BitVec.ofNat 64 (s.memNat at_ 8)) (wr : Bool) :
    (∀ k, k < at_ ∨ at_ + 8 ≤ k → (s.touchLeaf at_ e wr).memByte k = s.memByte k)
    ∧ (touched e wr = e → s.touchLeaf at_ e wr = s)
    ∧ (touched e wr ≠ e → (s.touchLeaf at_ e wr).memNat at_ 8 = (touched e wr).toNat) := by
  have hor : BitVec.ofNat 64 (s.memNat at_ 8) ||| touched e wr = touched e wr := by
    rw [← he, touched_eq, ← BitVec.or_assoc, BitVec.or_self]
  refine ⟨fun k hk => ?_, fun h => if_pos h, fun h => ?_⟩
  · rw [State.touchLeaf]
    split
    · rfl
    · rw [State.memByte_setMemBytes, bytesLE_length, if_neg (by omega)]
  · rw [State.touchLeaf, if_neg h, hor, State.memNat_setMemBytes]
    exact Nat.mod_eq_of_lt (touched e wr).isLt

theorem or_eq_self_iff {w : Nat} (x m : BitVec w) : x ||| m = x ↔ x &&& m = m := by
  simp only [BitVec.eq_of_getLsbD_eq_iff, BitVec.getLsbD_or, BitVec.getLsbD_and]
  refine forall₂_congr fun i _ => ?_
  cases x.getLsbD i <;> cases m.getLsbD i <;> decide

/-- A leaf is as the walk leaves it where it has A, and D for a store. -/
theorem touched_eq_self_iff (e : DWord) (wr : Bool) : touched e wr = e ↔ e &&& leafMarks wr = leafMarks wr := by
  rw [touched_eq, or_eq_self_iff]

theorem touched_of_both {e : DWord} (h : e &&& 0x60 = 0x60) (wr : Bool) : touched e wr = e := by
  rw [touched_eq_self_iff]
  have hsub : leafMarks wr = 0x60 &&& leafMarks wr := by cases wr <;> decide
  rw [hsub, ← BitVec.and_assoc, h]

/-- Settles O29: the walk's answer is `State.walkFill_fault`, `State.walkFill_denied` or `State.walkFill_leaf`, and the
marks are `State.touchLeaf_reads`. -/
theorem translationTakesTheLeaf : Obligations.TranslationTakesTheLeaf := by
  intro s ctx die va acc core
  dsimp only
  intro hh
  have hwr : decide (acc = .w ∨ acc = .rw) = acc.writes := by cases acc <;> rfl
  have hgroups : (s.translate ctx die va acc core).1.groups = s.groups := by
    rw [(s.translate_served ctx die va acc core).only]
  have hbyte : ∀ {t u : State}, t.mem = u.mem → ∀ k, t.memByte k = u.memByte k := fun h k => by
    rw [State.memByte, h, State.memByte]
  have hfault : ∀ c, s.walkFill ctx die va acc = (s.walkSends ctx die va, .error c) →
      (s.translate ctx die va acc core).2 = .error c ∧ (s.translate ctx die va acc core).1.groups = s.groups
        ∧ ((s.die die).pendH = [] → SameMem s (s.translate ctx die va acc core).1) := fun c hw => by
    obtain ⟨hans, hm⟩ := State.translate_fault hh hw
    exact ⟨hans, hgroups, fun hp => hbyte (hm.trans (State.walkSends_mem hp ctx va))⟩
  rw [hwr]
  refine ⟨fun c hw => hfault c (State.walkFill_fault hw), fun at_ e big hw hd => hfault _ (State.walkFill_denied hw hd),
    fun at_ e big hw hd hf => ?_⟩
  obtain ⟨hans, hm⟩ := State.translate_leaf hh (State.walkFill_leaf hw hd hf)
  refine ⟨hans.trans ?_, hgroups, fun hp => ?_⟩
  · have hxl : ({ ctx, page := va / pageSize big, leaf := touched e acc.writes, big } : TlbEnt).xl va
        = leafXl (touched e acc.writes) big va := rfl
    rw [hxl, leafXl_touched, touched_eq]
    rfl
  · have hsends := hbyte (State.walkSends_mem hp ctx va)
    have he : e = BitVec.ofNat 64 ((s.walkSends ctx die va).memNat at_ 8) := by
      rw [State.walkFrom_leaf hw, State.tableEntry_of_empty hp]
      simp only [State.memNat, hsends]
    obtain ⟨hout, hkept, hset⟩ := State.touchLeaf_reads he acc.writes
    have hnat : (s.translate ctx die va acc core).1.memNat at_ 8
        = ((s.walkSends ctx die va).touchLeaf at_ e acc.writes).memNat at_ 8 := by
      simp only [State.memNat, hbyte hm]
    refine ⟨fun k hk => ((hbyte hm k).trans (hout k hk)).trans (hsends k), fun hboth k => ?_, fun hnot hw' => ?_,
      fun hnot hw' => ?_⟩
    · rw [hbyte hm, hkept (touched_of_both hboth _), hsends]
    · rw [hw'] at hset hnat
      rw [hnat, hset (by rwa [Ne, touched_eq_self_iff]), touched_eq]
      rfl
    · rw [hw'] at hset hnat
      rw [hnat, hset (by rw [Ne, touched_eq_self_iff]; intro h; exact absurd (hnot.symm.trans h) (by decide)), touched_eq]
      rfl

end Sys2Proof.Machine
end

section
/-!
PROOF. LDS and STS (09_memory R190 to R192), and the statement made of them.
-/

namespace Sys2Proof.Machine

/-! What the stores of an allocation keep (10_allocation R207). -/

/-- A write of plain bytes renews no row: it changes the bytes, and the marks of words written whole. -/
theorem Alloc.write_plain {a : Alloc} (h : a.cls = 0) (lc : Nat) (bs : List SpadByte) :
    a.write lc bs = { a with
      pois := (a.write lc bs).pois, arm := (a.write lc bs).arm
      data := bs.foldl (fun d b => d.set b.1 ((d.getD b.1 0 &&& ~~~b.2.2) ||| (b.2.1 &&& b.2.2)) 0) a.data } := by
  have hrows : ∀ (rows : List Nat) (f : Nat → Word), rows.foldl (fun a row => a.renewRow lc row (f row)) a = a := fun rows f =>
    List.foldlRecOn (motive := (· = a)) rows _ rfl fun b hb _ _ => by rw [hb, Alloc.renewRow, if_pos h]
  simp only [Alloc.write, hrows]

theorem Alloc.renewRow_kind (a : Alloc) (lc row : Nat) (m : Word) :
    (a.renewRow lc row m).size = a.size ∧ (a.renewRow lc row m).cls = a.cls ∧ (a.renewRow lc row m).pois = a.pois := by
  unfold Alloc.renewRow
  split
  · exact ⟨rfl, rfl, rfl⟩
  · exact ⟨rfl, rfl, rfl⟩

/-- A write keeps an allocation's size and class, and poisons no word. -/
theorem Alloc.write_kind (a : Alloc) (lc : Nat) (bs : List SpadByte) :
    (a.write lc bs).size = a.size ∧ (a.write lc bs).cls = a.cls ∧ (a.pois = [] → (a.write lc bs).pois = []) := by
  have hrows : ∀ (rows : List Nat) (f : Nat → Word), let b := rows.foldl (fun a row => a.renewRow lc row (f row)) a
      b.size = a.size ∧ b.cls = a.cls ∧ b.pois = a.pois := fun rows f =>
    List.foldlRecOn (motive := fun b : Alloc => b.size = a.size ∧ b.cls = a.cls ∧ b.pois = a.pois) rows _ ⟨rfl, rfl, rfl⟩
      fun b hb row _ => by
        obtain ⟨h1, h2, h3⟩ := b.renewRow_kind lc row (f row)
        exact ⟨h1.trans hb.1, h2.trans hb.2.1, h3.trans hb.2.2⟩
  obtain ⟨hsize, hcls, hpois⟩ := hrows (dedup (bs.map (fun b => b.1 / 128)))
    (fun row => maskOf (fun i => bs.any (fun b => b.1 / 4 = 32 * row + i)))
  refine ⟨hsize, hcls, fun hp => ?_⟩
  exact List.foldlRecOn (motive := (· = [])) _ _ (hpois.trans hp) fun b hb w _ => by rw [hb]; rfl

/-- What every store of the group's operations keeps, all of them keep. -/
theorem State.afterSts_of_write (s : State) (tk gk h : Nat) (a : Alloc) (ops : List PendOp) (P : Alloc → Prop) (ha : P a)
    (hw : ∀ b lc, ∀ op ∈ ops, P b → P (b.write lc op.sts)) : P (s.afterSts tk gk h a ops) :=
  List.foldlRecOn _ _ ha fun b hb op hop => hw b _ op (List.mem_of_mem_filter hop) hb

theorem State.afterSts_kind (s : State) (tk gk h : Nat) (a : Alloc) (ops : List PendOp) :
    (s.afterSts tk gk h a ops).size = a.size ∧ (s.afterSts tk gk h a ops).cls = a.cls
      ∧ (a.pois = [] → (s.afterSts tk gk h a ops).pois = []) :=
  s.afterSts_of_write tk gk h a ops (fun b => b.size = a.size ∧ b.cls = a.cls ∧ (a.pois = [] → b.pois = [])) ⟨rfl, rfl, id⟩
    fun b lc op _ hb => by
      obtain ⟨h1, h2, h3⟩ := b.write_kind lc op.sts
      exact ⟨h1.trans hb.1, h2.trans hb.2.1, fun hp => h3 (hb.2.2 hp)⟩

theorem Alloc.bound_congr {a b : Alloc} (h : a.size = b.size) : a.bound = b.bound := by rw [Alloc.bound, Alloc.bound, h]

/-- A byte that no store writes stays. -/
theorem State.afterSts_unwritten (s : State) (tk gk h : Nat) {a : Alloc} {ops : List PendOp} {o : Nat} (hc : a.cls = 0)
    (ho : ∀ op ∈ ops, ∀ b ∈ op.sts, b.1 ≠ o) : (s.afterSts tk gk h a ops).data.getD o 0 = a.data.getD o 0 :=
  (s.afterSts_of_write tk gk h a ops (fun b => b.cls = 0 ∧ b.data.getD o 0 = a.data.getD o 0) ⟨hc, rfl⟩
    fun b lc op hop hb => by
      rw [Alloc.write_plain hb.1]
      refine ⟨hb.1, (List.foldlRecOn (motive := fun d : SMap Byte => d.getD o 0 = b.data.getD o 0) _ _ rfl
        fun d hd x hx => ?_).trans hb.2⟩
      rw [SMap.getD_set_other _ _ _ (ho op hop x hx).symm, hd]).2

theorem overwritten (x b : Byte) : (x &&& ~~~0xFF) ||| (b &&& 0xFF) = b := by
  have hall : b &&& 0xFF = b := BitVec.and_allOnes
  have hnone : x &&& ~~~0xFF = 0 := BitVec.and_zero
  rw [hall, hnone]
  exact BitVec.zero_or

/-- The last store of a whole byte is what is read. -/
theorem State.afterSts_last (s : State) (tk gk h : Nat) {a : Alloc} (ops : List PendOp) {op : PendOp} {o : Nat} {b : Byte}
    (hc : a.cls = 0) (hk : op.kind = .sts) (hh : op.sh = h) (hs : op.sts = [(o, b, 0xFF)]) :
    (s.afterSts tk gk h a (ops ++ [op])).data.getD o 0 = b := by
  have hcls := (s.afterSts_kind tk gk h a ops).2.1.trans hc
  have hlast : s.afterSts tk gk h a (ops ++ [op])
      = (s.afterSts tk gk h a ops).write (s.allocClock tk (s.afterSts tk gk h a ops) (some (gk, op.lc))) op.sts := by
    simp [State.afterSts, List.filter_append, hk, hh, hs]
  rw [hlast, Alloc.write_plain hcls, hs]
  exact (SMap.getD_set_same _ _ _ _).trans (overwritten _ b)

/-! The scratchpad as a plain access finds it (R190). -/

/-- The status bits and flags that an access records are those of its group. -/
theorem State.setMemst_orFpstat_zero (s : State) (bits : Word) : (s.setMemst bits).orFpstat 0 = s.setMemst bits := by
  simp only [State.setMemst, State.orFpstat, State.modGrp_modGrp]
  exact congrArg s.modGrp (funext fun g => by simp)

/-- The state in which the lapse of some registers read is recorded. -/
def State.lapsed (s : State) (m : Word) (regs : List Nat) : State :=
  if s.lapses m (fun _ => regs) then s.setMemst memstLAPSE else s

theorem State.lapsed_memst (s : State) (m : Word) (regs : List Nat) (bits : Word) :
    ∃ b, (s.lapsed m regs).setMemst bits = s.setMemst b := by
  unfold State.lapsed
  split
  · exact ⟨memstLAPSE ||| bits, by simp only [State.setMemst, State.modGrp_modGrp, BitVec.or_assoc]⟩
  · exact ⟨bits, rfl⟩

theorem State.lapsed_status (s : State) (m : Word) (regs : List Nat) (bits : Word) (fl : Nat) :
    let u := ((s.lapsed m regs).setMemst bits).orFpstat fl
    OnlyGroup s u ∧ u.grp = { s.grp with memst := u.grp.memst, fpstat := u.grp.fpstat } := by
  obtain ⟨b, hb⟩ := s.lapsed_memst m regs bits
  dsimp only
  rw [hb, State.setMemst, State.orFpstat, State.modGrp_modGrp]
  exact ⟨onlyGroup_modGrp s _, by rw [State.modGrp_grp]⟩

theorem State.readSources_lapsed {s : State} {m : Word} {regs : List Nat} (h : ReadsClean s m (fun _ => regs)) :
    s.readSources m (fun _ => regs) = (s.lapsed m regs, [], m) := State.readSources_clean h

theorem Alloc.laneAt_plain (a : Alloc) (size : Nat) (wr : Bool) (L o : Nat) : a.laneAt false size wr L o = {
    lane := L, gap := decide (a.size < spadStart o size + size), memst := spadNote a o size
    offs := if a.size < spadStart o size + size then [] else (List.range size).map (spadStart o size + ·) } := by
  by_cases hgap : a.size < spadStart o size + size
  · have h' : a.size < o - o % size + size := hgap
    simp [Alloc.laneAt, spadNote, spadStart, h', memstSPMIS, memstSPGAP]
  · have h' : ¬ a.size < o - o % size + size := hgap
    simp [Alloc.laneAt, spadNote, spadStart, h', memstSPMIS]

/-! What the lanes of an access give (R190). -/

/-- The status bit of a scratchpad load that finds an expired word. -/
def State.spadLapse (s : State) (a : Alloc) (l : List LaneSpad) : Word :=
  if l.any (fun x => (a.read (s.issueClock a) (x.offs.filter (· < a.size))).expired) then memstLAPSE else 0

section
variable {s : State} {w : W0} {m : MemF} (ha : s.acquireOut s.cur = false)
include ha

theorem exec_lds_unbound (hc : ReadsClean s (s.activeW w) (fun _ => spadRegs m))
    (hb : (s.ownAlloc w.a.toNat).bound = false) (hact : s.activeW w ≠ 0) :
    exec (.lds w m) s = .next ((((s.lapsed (s.activeW w) (spadRegs m)).setMemst memstSPNH).issueOp w.f
      { kind := .load, v := loadPend w.d.toNat ((lanesOf (s.activeW w)).map (fun L =>
          { lane := L, words := List.replicate (tyRegs m.ty.toNat) 0 })) }).cont) := by
  show execLds w m s = _
  simp only [execLds, State.readSources_lapsed hc, State.ordered_free ha, hb, hact, Bool.not_false, if_true, if_false,
    State.finishCounted_none, Bool.false_eq_true, false_implies]

theorem exec_lds_bound (hc : ReadsClean s (s.activeW w) (fun _ => spadRegs m)) {a : Alloc} (ho : s.ownAlloc w.a.toNat = a)
    (hb : a.bound = true) {good : List LaneSpad} (hg : (s.lapsed (s.activeW w) (spadRegs m)).spadSplit w.a.toNat a false
      ((lanesOf (s.activeW w)).map (fun L => a.laneAt m.e (tySize m.ty.toNat) false L (s.spadOff m a L))) = ([], good)) :
    exec (.lds w m) s = .next (((((s.lapsed (s.activeW w) (spadRegs m)).setMemst
        (good.foldl (fun acc x => acc ||| x.memst) (s.spadLapse a good))).orFpstat
        (good.foldl (fun acc x => acc ||| ((s.lapsed (s.activeW w) (spadRegs m)).spadLoad a m.e m.ty.toNat x).2) 0)).issueOp w.f
      { kind := .load, v := loadPend w.d.toNat (good.map (fun x =>
          { lane := x.lane, words := ((s.lapsed (s.activeW w) (spadRegs m)).spadLoad a m.e m.ty.toNat x).1 })) }).cont) := by
  show execLds w m s = _
  simp only [execLds, State.readSources_lapsed hc, State.ordered_free ha, ho, hb, hg, Bool.not_true, Bool.false_eq_true,
    if_false, List.append_nil, State.finishCounted_none, List.map_map, List.foldl_map, false_implies]
  rfl

theorem exec_sts_unbound (hc : ReadsClean s (s.activeW w) (fun _ => spadRegs m ++ dataRegs w m.ty.toNat))
    (hb : ((s.team s.grp.team).alloc w.a.toNat).bound = false) (hact : s.activeW w ≠ 0) :
    exec (.sts w m) s = .next ((((s.lapsed (s.activeW w) (spadRegs m ++ dataRegs w m.ty.toNat)).setMemst memstSPNH).issueOp
      w.f { kind := .sts }).cont) := by
  show execSts w m s = _
  simp only [execSts, State.readSources_lapsed hc, State.ordered_free ha, hb, hact, Bool.not_false, if_true, if_false,
    State.finishCounted_none, Bool.false_eq_true, false_implies]

theorem exec_sts_bound (hc : ReadsClean s (s.activeW w) (fun _ => spadRegs m ++ dataRegs w m.ty.toNat)) {a : Alloc}
    (ho : (s.team s.grp.team).alloc w.a.toNat = a) (hb : a.bound = true) {good : List LaneSpad}
    (hg : (s.lapsed (s.activeW w) (spadRegs m ++ dataRegs w m.ty.toNat)).spadSplit w.a.toNat a true
      ((lanesOf (s.activeW w)).map (fun L => a.laneAt m.e (tySize m.ty.toNat) true L (s.spadOff m a L))) = ([], good)) :
    exec (.sts w m) s = .next (((((s.lapsed (s.activeW w) (spadRegs m ++ dataRegs w m.ty.toNat)).setMemst
        (good.foldl (fun acc x => acc ||| x.memst) 0)).orFpstat (good.foldl (fun acc x => acc |||
          (spadStore s.freeCtr a m.e (tySize m.ty.toNat) s.level1
            ((dataRegs w m.ty.toNat).map (fun n => s.rd n x.lane)) x).2) 0)).issueOp w.f
      { kind := .sts, sh := w.a.toNat, sts := (good.flatMap (fun x => (spadStore s.freeCtr a m.e (tySize m.ty.toNat)
          s.level1 ((dataRegs w m.ty.toNat).map (fun n => s.rd n x.lane)) x).1)).filter (fun b => b.1 < a.size) }).cont) := by
  show execSts w m s = _
  simp only [execSts, State.readSources_lapsed hc, State.ordered_free ha, ho, hb, hg, Bool.not_true, Bool.false_eq_true,
    if_false, List.append_nil, State.finishCounted_none, List.flatMap_map, List.foldl_map, false_implies]

end

/-! Plain allocations. -/

theorem State.lapsed_spadLocked {s : State} (hl : (s.coreAt (coreKey s.grp.die s.grp.core)).locks = []) (m : Word)
    (regs : List Nat) (h : Nat) (wr : Bool) (offs : List Nat) :
    (s.lapsed m regs).spadLocked (s.lapsed m regs).cur h wr offs = false := by
  have hcore : ∀ u : State, u.cores = s.cores → u.grp.die = s.grp.die → u.grp.core = s.grp.core →
      u.spadLocked u.cur h wr offs = false := fun u hk hd hc => by
    have hlocks : (u.coreAt (coreKey u.grp.die u.grp.core)).locks = [] := by rw [hd, hc, State.coreAt, hk]; exact hl
    show (u.coreAt (coreKey u.grp.die u.grp.core)).locks.any _ = false
    rw [hlocks, List.any_nil]
  unfold State.lapsed
  split
  · exact hcore _ rfl (by rw [State.setMemst, State.modGrp_grp]) (by rw [State.setMemst, State.modGrp_grp])
  · exact hcore _ rfl rfl rfl

section
variable {s : State} {a : Alloc} (hcls : a.cls = 0)
include hcls

theorem Alloc.unreadable_plain (lc o : Nat) : a.unreadable lc o = false := by simp [Alloc.unreadable, hcls]

theorem State.spadLapse_plain (l : List LaneSpad) : s.spadLapse a l = 0 := by
  simp [State.spadLapse, Alloc.read, Alloc.unreadable_plain hcls]

/-- No lane of an access to a plain allocation traps. -/
theorem State.spadSplit_plain (hp : a.pois = []) (hl : (s.coreAt (coreKey s.grp.die s.grp.core)).locks = []) (m : Word)
    (regs : List Nat) (h : Nat) (wr : Bool) (l : List LaneSpad) : (s.lapsed m regs).spadSplit h a wr l = ([], l) := by
  have hnone : ∀ x, (s.lapsed m regs).spadTrap h a wr x = none := fun x => by
    simp [State.spadTrap, State.lapsed_spadLocked hl, hcls, Alloc.read, Alloc.poisoned, hp]
  simp [State.spadSplit, hnone]

theorem State.spadLoad_plain (ty L o : Nat) : s.spadLoad a false ty (a.laneAt false (tySize ty) false L o)
    = (if decide (a.size < spadStart o (tySize ty) + tySize ty) then List.replicate (tyRegs ty) 0
        else loadWords ty ((List.range (tySize ty)).map (fun i => a.data.getD (spadStart o (tySize ty) + i) 0)), 0) := by
  rw [Alloc.laneAt_plain]
  by_cases hgap : a.size < spadStart o (tySize ty) + tySize ty
  · simp [State.spadLoad, hgap]
  · have hin : ∀ i ∈ List.range (tySize ty), spadStart o (tySize ty) + i < a.size := fun i hi => by
      have := List.mem_range.1 hi
      omega
    simp only [State.spadLoad, hgap, decide_false, Bool.false_eq_true, if_false, List.map_map]
    refine congrArg (fun bs => (loadWords ty bs, 0)) (List.map_congr_left fun i hi => ?_)
    simp [hin i hi, Alloc.unreadable_plain hcls]

end

/-- What STS stores of a lane's plain access: nothing in the gap, its bytes otherwise, all within the allocation. -/
theorem spadStore_plain (fresh : Nat) (a : Alloc) (ty : Nat) (level1 : Bool) {ws : List Word} (hw : ws.length = tyRegs ty)
    (L o : Nat) : (spadStore fresh a false (tySize ty) level1 ws (a.laneAt false (tySize ty) true L o)).1
      = (if decide (a.size < spadStart o (tySize ty) + tySize ty) then []
        else mapI (lowBytes (tySize ty) ws) (fun i b => (spadStart o (tySize ty) + i, b, 0xFF))) := by
  rw [Alloc.laneAt_plain]
  by_cases hgap : a.size < spadStart o (tySize ty) + tySize ty
  · simp [spadStore, hgap]
  · have hlen : (lowBytes (tySize ty) ws).length = tySize ty := by
      rw [lowBytes_eq_map (by rw [hw]; exact tySize_le ty), List.length_map, List.length_range]
    simp only [spadStore, hgap, decide_false, Bool.false_eq_true, if_false, mapI_eq_mapIdx]
    refine List.ext_getElem (by simp) fun i h1 h2 => ?_
    have hi : i < tySize ty := by simpa [hlen] using h1
    simp [hi]

/-- The bytes that STS stores of a plain access lie within the allocation. -/
theorem spadStore_plain_lt (fresh : Nat) (a : Alloc) (ty : Nat) (level1 : Bool) {ws : List Word} (hw : ws.length = tyRegs ty)
    (L o : Nat) : ∀ b ∈ (spadStore fresh a false (tySize ty) level1 ws (a.laneAt false (tySize ty) true L o)).1,
      b.1 < a.size := by
  intro b hb
  rw [spadStore_plain _ _ _ _ hw, mapI_eq_mapIdx] at hb
  split at hb
  · exact absurd hb List.not_mem_nil
  · next hgap =>
    rw [decide_eq_true_eq] at hgap
    obtain ⟨i, hi, rfl⟩ := List.mem_mapIdx.1 hb
    have hlow : (lowBytes (tySize ty) ws).length ≤ tySize ty := List.length_take_le ..
    show spadStart o (tySize ty) + i < a.size
    omega

theorem spadStore_plain_flags (fresh : Nat) (a : Alloc) (size : Nat) (level1 : Bool) (ws : List Word) (L o : Nat) :
    (spadStore fresh a false size level1 ws (a.laneAt false size true L o)).2 = 0 := by
  rw [Alloc.laneAt_plain, spadStore]
  split_ifs <;> rfl

/-- The wrapped offset of a lane is that of the allocation as it stands, whatever stores are still to land. -/
theorem State.spadOff_plain (s : State) {m : MemF} (he : m.e = false) {a b : Alloc} (hs : b.size = a.size) (L : Nat) :
    s.spadOff m b L = s.spadPlace m a L := by
  simp only [State.spadOff, State.spadPlace, memUnit, he, Alloc.z2, hs, Bool.false_eq_true, if_false]

theorem foldl_or_eq_zero {α : Type} (l : List α) (f : α → Nat) (h : ∀ x ∈ l, f x = 0) :
    l.foldl (fun acc x => acc ||| f x) 0 = 0 :=
  List.foldlRecOn (motive := (· = 0)) l _ rfl fun b hb x hx => by rw [hb, h x hx]; rfl

section
variable {s : State} {w : W0} {m : MemF} (ha : s.acquireOut s.cur = false) (he : m.e = false)
  (hp : s.PlainAlloc ((s.team s.grp.team).alloc w.a.toNat))
include ha he hp

theorem exec_lds_plain (hc : ReadsClean s (s.activeW w) (fun _ => spadRegs m)) :
    let a := (s.team s.grp.team).alloc w.a.toNat
    let size := tySize m.ty.toNat
    let at_ := fun L => s.spadPlace m a L
    let gap := fun L => decide (a.size < spadStart (at_ L) size + size)
    let data := fun L => (List.range size).map (fun i => (s.ownAlloc w.a.toNat).data.getD (spadStart (at_ L) size + i) 0)
    exec (.lds w m) s = .next ((((s.lapsed (s.activeW w) (spadRegs m)).setMemst
        ((lanesOf (s.activeW w)).foldl (fun acc L => acc ||| spadNote a (at_ L) size) 0)).issueOp w.f
      { kind := .load, v := loadPend w.d.toNat ((lanesOf (s.activeW w)).map (fun L =>
          { lane := L, words := if gap L then List.replicate (tyRegs m.ty.toNat) 0
                                else loadWords m.ty.toNat (data L) })) }).cont) := by
  obtain ⟨hb, hcls, hl, hpois⟩ := hp
  obtain ⟨hsize, hcls', hpois'⟩ := s.afterSts_kind s.grp.team s.cur w.a.toNat ((s.team s.grp.team).alloc w.a.toNat) s.grp.pend
  have hcls' : (s.ownAlloc w.a.toNat).cls = 0 := hcls'.trans hcls
  have hsize : (s.ownAlloc w.a.toNat).size = _ := hsize
  have hgood := State.spadSplit_plain hcls' (hpois' hpois) hl (s.activeW w) (spadRegs m) w.a.toNat false
  intro a size at_ gap data
  rw [exec_lds_bound ha hc rfl ((Alloc.bound_congr hsize).trans hb) (hgood _), State.spadLapse_plain hcls',
    foldl_or_eq_zero _ _ ?_, State.setMemst_orFpstat_zero]
  · simp only [List.foldl_map, List.map_map, Function.comp_def, he, State.spadLoad_plain hcls']
    simp only [Alloc.laneAt_plain, s.spadOff_plain he hsize, spadNote, hsize]
    rfl
  · intro x hx
    obtain ⟨L, -, rfl⟩ := List.mem_map.1 hx
    rw [he, State.spadLoad_plain hcls']

theorem exec_sts_plain (hc : ReadsClean s (s.activeW w) (fun _ => spadRegs m ++ dataRegs w m.ty.toNat)) :
    let a := (s.team s.grp.team).alloc w.a.toNat
    let size := tySize m.ty.toNat
    let at_ := fun L => s.spadPlace m a L
    let gap := fun L => decide (a.size < spadStart (at_ L) size + size)
    exec (.sts w m) s = .next ((((s.lapsed (s.activeW w) (spadRegs m ++ dataRegs w m.ty.toNat)).setMemst
        ((lanesOf (s.activeW w)).foldl (fun acc L => acc ||| spadNote a (at_ L) size) 0)).issueOp w.f
      { kind := .sts, sh := w.a.toNat, sts := (lanesOf (s.activeW w)).flatMap (fun L => if gap L then [] else
          mapI (lowBytes size ((dataRegs w m.ty.toNat).map (fun n => s.rd n L)))
            (fun i b => (spadStart (at_ L) size + i, b, 0xFF))) }).cont) := by
  obtain ⟨hb, hcls, hl, hpois⟩ := hp
  have hgood := State.spadSplit_plain hcls hpois hl (s.activeW w) (spadRegs m ++ dataRegs w m.ty.toNat) w.a.toNat true
  intro a size at_ gap
  have hws : ∀ L, ((dataRegs w m.ty.toNat).map (fun n => s.rd n L)).length = tyRegs m.ty.toNat := fun L => by
    simp [dataRegs]
  rw [exec_sts_bound ha hc rfl hb (hgood _), foldl_or_eq_zero _ _ ?_, State.setMemst_orFpstat_zero]
  · rw [List.filter_eq_self.2 ?_]
    · simp only [List.foldl_map, List.flatMap_map, he, spadStore_plain _ _ _ _ (hws _)]
      simp only [Alloc.laneAt_plain, s.spadOff_plain he rfl]
      rfl
    · intro b hb
      obtain ⟨x, hx, hb⟩ := List.mem_flatMap.1 hb
      obtain ⟨L, -, rfl⟩ := List.mem_map.1 hx
      rw [he] at hb
      exact decide_eq_true (spadStore_plain_lt _ _ _ _ (hws _) _ _ b hb)
  · intro x hx
    obtain ⟨L, -, rfl⟩ := List.mem_map.1 hx
    rw [he, spadStore_plain_flags]

end

/-- Settles O30: the plain forms are `exec_lds_plain` and `exec_sts_plain`, the others the accesses of a bound handle. -/
theorem scratchpadAccesses : Obligations.ScratchpadAccesses := by
  intro s w m ha
  dsimp only
  refine ⟨fun hc hb hact => ?_, fun hc he hp => exec_lds_plain ha he hp hc, fun hc hb hact => exec_sts_unbound ha hc hb hact,
    fun hc he hp => exec_sts_plain ha he hp hc, fun hc hb good hg => ?_, fun hc hb good hg => ?_,
    fun ops o hcls => ⟨s.afterSts_unwritten _ _ _ hcls, fun op b hk hh hs => s.afterSts_last _ _ _ ops hcls hk hh hs⟩⟩
  · exact exec_lds_unbound ha hc ((Alloc.bound_congr (s.afterSts_kind ..).1).trans hb) hact
  · exact ⟨_, exec_lds_bound ha hc rfl ((Alloc.bound_congr (s.afterSts_kind ..).1).trans hb) hg, _, rfl,
      s.lapsed_status _ _ _ _⟩
  · exact ⟨_, exec_sts_bound ha hc rfl hb hg, _, rfl, s.lapsed_status _ _ _ _⟩

end Sys2Proof.Machine
end

section
/-!
PROOF. APPEND, APSYNC, PREF and CSTAT (09_memory R189, R194 to R197; 11_visibility R253), and the statement made of
them.
-/

namespace Sys2Proof.Machine

/-! APPEND (R195). -/

theorem exec_append (w : W0) (r : RRaw) (s : State) : exec (.append w r) s = execAppend w r s := rfl

/-- An APPEND completed: its result, and the place that an APSYNC awaits. -/
def State.appended (s : State) (w : W0) (lk : Nat) (x : DWord) (p : Option (Nat × Nat)) : State :=
  (s.issueOp w.f { kind := .append, log := some (p.getD (lk, (s.log lk).order))
                   g := [{ key := w.d.toNat, val := lo32 x }, { key := w.d.toNat + 1, val := hi32 x }] }).cont

/-- The place in its log that an APPEND of a guarded group takes, once its source is known (R195). -/
theorem appendGives_of_bytes {s u : State} {w : W0} {r : RRaw} {n lk : Nat} {bs : List Byte}
    (h : exec (.append w r) s = .next ((u.appendBytes lk n bs).1.appended w lk (u.appendBytes lk n bs).2.1
      (u.appendBytes lk n bs).2.2)) : AppendGives s u w r n lk bs := by
  have hround : roundUp n 16 = (n + 15) / 16 * 16 := rfl
  refine ⟨fun hno => ?_, fun hb hle => ?_⟩
  · rw [h, State.appendBytes, if_pos (by simpa [hround] using hno)]
    rfl
  · rw [h, State.appendBytes, if_neg (by simp [hround, hb, hle])]
    rfl

section
variable {s : State} {w : W0} (r : RRaw) (ha : s.acquireOut s.cur = false)
include ha

theorem exec_append_unguarded (hg : s.guardW w = false) : exec (.append w r) s = .next ((s.issueOp w.f {}).cont) := by
  rw [exec_append, execAppend, State.ordered_free ha (by simp), hg]
  rfl

section
variable (hg : s.guardW w = true)
include hg

/-- An APPEND of no byte, or of more than 16 MiB, gives all ones. -/
theorem exec_append_size (hn : (s.rdG r.b.toNat).toNat = 0 ∨ 2 ^ 24 < (s.rdG r.b.toNat).toNat) :
    exec (.append w r) s
      = .next (s.appended w (logKey s.grp.ctx r.c.toNat) (BitVec.allOnes 64) none) := by
  rw [exec_append, execAppend, State.ordered_free ha (by simp), hg]
  dsimp only
  rw [if_neg (by decide), if_pos (by simpa using hn)]
  rfl

variable (h0 : (s.rdG r.b.toNat).toNat ≠ 0) (h24 : (s.rdG r.b.toNat).toNat ≤ 2 ^ 24)
include h0 h24

theorem exec_append_bad (hbad : (rangeBad (s.rdG64 w.a.toNat) (s.rdG r.b.toNat).toNat).isSome = true) :
    let u := s.appendBytes (logKey s.grp.ctx r.c.toNat) (s.rdG r.b.toNat).toNat
      ((List.range (s.rdG r.b.toNat).toNat).map (fun i => Config.freeByte s.freeCtr (2 ^ 100 + i)))
    exec (.append w r) s = .next (u.1.appended w (logKey s.grp.ctx r.c.toNat) u.2.1 u.2.2) := by
  rw [exec_append, execAppend, State.ordered_free ha (by simp), hg]
  dsimp only
  rw [if_neg (by decide), if_neg (by simpa [h0] using h24), if_pos hbad]
  rfl

theorem exec_append_read (hok : rangeBad (s.rdG64 w.a.toNat) (s.rdG r.b.toNat).toNat = none) {u : State} {bs : List VByte}
    (hr : s.engineRead s.grp.ctx s.grp.die (vaOf (s.rdG64 w.a.toNat)) (s.rdG r.b.toNat).toNat (some s.grp.core) = (u, .ok bs)) :
    let v := u.appendBytes (logKey s.grp.ctx r.c.toNat) (s.rdG r.b.toNat).toNat (u.openBytes (vaOf (s.rdG64 w.a.toNat)) bs)
    exec (.append w r) s = .next (v.1.appended w (logKey s.grp.ctx r.c.toNat) v.2.1 v.2.2) := by
  rw [exec_append, execAppend, State.ordered_free ha (by simp), hg]
  dsimp only
  rw [if_neg (by decide), if_neg (by simpa [h0] using h24), if_neg (by simp [hok]), hr]
  rfl

end

end

/-- Bytes without poison are what their source holds. -/
theorem State.openBytes_clean (s : State) (va : Nat) {bs : List VByte} (h : anyPois bs = false) :
    s.openBytes va bs = bs.map (·.val) := by
  have hclean : ∀ b ∈ bs, b.pois = false := by simpa [anyPois] using h
  rw [State.openBytes, mapI_eq_mapIdx]
  refine List.ext_getElem (by simp) fun i h1 h2 => ?_
  simp [hclean]

/-! What an APSYNC and a CSTAT wait for (R197; 11_visibility R253). -/

theorem State.appendsDone_iff (s : State) (gk lk order : Nat) : s.appendsDone gk lk order = true
    ↔ ∀ e ∈ s.appends, e.2.live = true → e.2.grp = gk → e.2.log = lk → order ≤ e.2.order := by
  simp only [State.appendsDone, List.all_eq_true, Bool.not_eq_true', Bool.and_eq_false_iff, decide_eq_false_iff_not,
    Nat.not_lt]
  refine forall₂_congr fun e _ => ?_
  cases e.2.live <;> simp [or_iff_not_imp_left]

theorem PendOp.apsync_follows_iff {o : PendOp} {l k : Nat} (hk : o.kind = .apsync) (hl : o.log = some (l, k)) (e : PendOp) :
    o.follows e = false ↔ ∀ p, e.kind = .append → e.log = some p → p.1 ≠ l := by
  simp only [PendOp.follows, hk, hl, Option.isSome_some, Option.map_some, Bool.and_true, Bool.and_eq_false_iff,
    decide_eq_false_iff_not, ← not_and_or]
  cases e.log <;> simp [eq_comm]

theorem State.mayComplete_apsync_iff {s : State} {gk : Nat} {o : PendOp} {l k : Nat} (hk : o.kind = .apsync)
    (hr : o.ready = true) (hl : o.log = some (l, k)) : s.mayComplete gk o = true
      ↔ (∀ e ∈ (s.group gk).pend.takeWhile (fun e => e.id ≠ o.id), ∀ p, e.kind = .append → e.log = some p → p.1 ≠ l)
        ∧ ∀ e ∈ s.appends, e.2.live = true → e.2.grp = gk → e.2.log = l → k ≤ e.2.order := by
  simp only [State.mayComplete, hr, hk, hl, Bool.true_and, Bool.and_eq_true, List.all_eq_true, Bool.not_eq_true',
    PendOp.apsync_follows_iff hk hl, State.appendsDone_iff]

theorem State.mayComplete_cstat {s : State} {gk : Nat} {o : PendOp} (hk : o.kind = .cstat)
    (he : ∃ e ∈ (s.group gk).pend.takeWhile (fun e => e.id ≠ o.id), e.kind = .ladder ∨ e.kind = .abort) :
    s.mayComplete gk o = false := by
  obtain ⟨e, hmem, hkind⟩ := he
  have hfollows : o.follows e = true := by simpa [PendOp.follows, hk] using hkind
  have hall : ((s.group gk).pend.takeWhile (fun e => e.id ≠ o.id)).all (fun e => !o.follows e) = false :=
    List.all_eq_false.2 ⟨e, hmem, by simp [hfollows]⟩
  rw [State.mayComplete, hall, Bool.and_false, Bool.false_and]

/-! PREF (R189). -/

theorem State.prefLine_served (s : State) (scope : Nat) (a : LaneAcc) : Served s (s.prefLine scope a) :=
  .ite (.refl s) (.foldl (fun t _ => t.readBelow_served _ _ _ _ _ _ _ _) _ s)

theorem State.prefLanes_served (s : State) (addr : Nat → DWord) (l : List Nat) : Served s (s.prefLanes addr l).1 := by
  induction l generalizing s with
  | nil => exact .refl s
  | cons L t ih =>
    have ht : ∀ r : State × Except Nat Xl, r = (if !canonical (addr L) || misaligned (addr L) 4 then (s, Except.error 0)
        else s.translate s.grp.ctx s.grp.die (vaOf (addr L)) .r (some s.grp.core)) → Served s r.1 := by
      rintro _ rfl
      split
      · exact .refl s
      · exact s.translate_served _ _ _ _ _
    unfold State.prefLanes
    split
    · next heq => exact (ht _ heq.symm).trans (ih _)
    · next heq => exact (ht _ heq.symm).trans (ih _)

/-- The state in which a PREF has requested its lines. -/
def State.prefetched (s : State) (w : W0) (m : MemF) : State :=
  let r := s.readSources (s.activeW w) (fun _ => addrRegs w m (m.opx.getLsbD 0))
  let p := r.1.prefLanes (s.laneAddr w m (m.opx.getLsbD 0) 4) (lanesOf r.2.2)
  p.2.foldl (fun s a => s.prefLine (memScope m 2) a) p.1

theorem exec_pref (w : W0) (m : MemF) (s : State) :
    exec (.pref w m) s = .next (s.ordered false (((s.prefetched w m).issueOp w.f {}).cont)) := rfl

/-- A PREF leaves the teams, and of the groups records a lapse at most. -/
theorem State.prefetched_keeps (s : State) (w : W0) (m : MemF) : (s.prefetched w m).teams = s.teams
    ∧ ((s.prefetched w m).groups = s.groups ∨ (s.prefetched w m).groups = (s.setMemst memstLAPSE).groups) := by
  have hserved : Served (s.readSources (s.activeW w) (fun _ => addrRegs w m (m.opx.getLsbD 0))).1 (s.prefetched w m) :=
    (State.prefLanes_served _ _ _).trans (.foldl (fun t a => t.prefLine_served _ a) _ _)
  have hread : ∀ regs, (s.readSources (s.activeW w) regs).1.teams = s.teams
      ∧ ((s.readSources (s.activeW w) regs).1.groups = s.groups
        ∨ (s.readSources (s.activeW w) regs).1.groups = (s.setMemst memstLAPSE).groups) := fun regs => by
    rw [State.readSources]
    dsimp only
    split
    · exact ⟨rfl, .inr rfl⟩
    · exact ⟨rfl, .inl rfl⟩
  rw [hserved.only]
  exact hread _

/-! APPEND DURABLE (R195, R197). -/

theorem exec_appendDurable (req : Nat) (s : State) : exec (.appendDurable req) s = execAppendDurable req s := rfl

theorem State.flashByte_memByte (s : State) (pk k : Nat) (b : Byte) :
    (s.flashByte pk b).memByte k = if k = pk then b else s.memByte k := by
  rw [State.flashByte, State.memByte_setMemByte]
  refine if_congr Iff.rfl rfl ?_
  split
  · rfl
  · rfl

theorem State.flashByte_keeps (s : State) (pk : Nat) (b : Byte) :
    (s.flashByte pk b).groups = s.groups ∧ (s.flashByte pk b).appends = s.appends := by
  unfold State.flashByte
  dsimp only
  split
  · exact ⟨rfl, rfl⟩
  · exact ⟨rfl, rfl⟩

/-- An append's bytes put in flash one after the other. -/
def State.flashBytes (s : State) (at_ : Nat) (bs : List Byte) : State :=
  (mapI bs (fun i b => (at_ + i, b))).foldl (fun s e => s.flashByte e.1 e.2) s

theorem State.flashBytes_cons (s : State) (at_ : Nat) (b : Byte) (t : List Byte) :
    s.flashBytes at_ (b :: t) = (s.flashByte at_ b).flashBytes (at_ + 1) t := by
  have hshift : (fun (i : Nat) (x : Byte) => (at_ + (i + 1), x)) = fun i x => (at_ + 1 + i, x) :=
    funext₂ fun i x => by rw [Nat.add_comm i, Nat.add_assoc]
  simp only [State.flashBytes, mapI_eq_mapIdx, List.mapIdx_cons, List.foldl_cons, hshift, Nat.add_zero]

theorem State.flashBytes_memByte (s : State) (at_ k : Nat) (bs : List Byte) :
    (s.flashBytes at_ bs).memByte k = if at_ ≤ k then bs.getD (k - at_) (s.memByte k) else s.memByte k := by
  induction bs generalizing s at_ with
  | nil => simp [State.flashBytes, mapI]
  | cons b t ih =>
    rw [State.flashBytes_cons, ih, State.flashByte_memByte]
    rcases Nat.lt_trichotomy k at_ with hk | rfl | hk
    · rw [if_neg (by omega), if_neg (by omega), if_neg (by omega)]
    · simp
    · obtain ⟨j, rfl⟩ := Nat.exists_eq_add_of_lt hk
      rw [if_pos (by omega), if_neg (by omega), if_pos (by omega), show at_ + j + 1 - at_ = j + 1 by omega,
        List.getD_cons_succ, show at_ + j + 1 - (at_ + 1) = j by omega]

theorem State.flashBytes_keeps (s : State) (at_ : Nat) (bs : List Byte) :
    (s.flashBytes at_ bs).groups = s.groups ∧ (s.flashBytes at_ bs).appends = s.appends :=
  List.foldlRecOn (motive := fun t : State => t.groups = s.groups ∧ t.appends = s.appends) _ _ ⟨rfl, rfl⟩
    fun t ht _ _ => ⟨(t.flashByte_keeps _ _).1.trans ht.1, (t.flashByte_keeps _ _).2.trans ht.2⟩

/-- Settles O32: an APPEND is `State.appendBytes` of what its source gives, PREF is `State.prefetched`, what CSTAT and APSYNC
follow is `State.mayComplete_cstat` and `State.mayComplete_apsync_iff`. -/
theorem logsPrefetchAndStatus : Obligations.LogsPrefetchAndStatus := by
  intro s w r m
  dsimp only
  refine ⟨fun ha => ⟨exec_append_unguarded r ha, fun hg hn => exec_append_size r ha hg hn, fun hg h0 h24 hc => ?_,
      fun hg h0 h24 hok u bs hr hp => ?_, ?_, ?_⟩,
    ⟨fun hg => ?_, fun hg => ?_⟩, fun gk o => ⟨State.mayComplete_cstat, fun l k => State.mayComplete_apsync_iff⟩,
    fun req => ⟨fun hl => ?_, fun hl => ?_⟩⟩
  · have hbad : (rangeBad (s.rdG64 w.a.toNat) (s.rdG r.b.toNat).toNat).isSome = true := by simp [rangeBad, hc]
    exact appendGives_of_bytes (exec_append_bad r ha hg h0 h24 hbad)
  · have hread := exec_append_read r ha hg h0 h24 hok hr
    rw [State.openBytes_clean u _ hp] at hread
    exact appendGives_of_bytes hread
  · exact congrArg _ (State.ordered_free ha (by simp) _)
  · obtain ⟨hteams, hgroups⟩ := s.prefetched_keeps w m
    exact ⟨_, (exec_pref w m s).trans (congrArg _ (State.ordered_free ha (by simp) _)), _, rfl, hteams, hgroups⟩
  · show execCstat w s = _
    rw [execCstat, State.ladderExec, hg]
    rfl
  · show execCstat w s = _
    rw [execCstat, State.ladderExec, hg]
    rfl
  · rw [exec_appendDurable, execAppendDurable, hl]
    rfl
  · refine ⟨(s.flashBytes (s.appends.getD req {}).at_ (s.appends.getD req {}).bytes).setAppend req {}, ?_, ?_,
      fun k => ?_, ?_⟩
    · rw [exec_appendDurable, execAppendDurable, hl]
      rfl
    · rw [State.setAppend, (s.flashBytes_keeps _ _).2]
    · exact s.flashBytes_memByte _ k _
    · exact (s.flashBytes_keeps _ _).1

end Sys2Proof.Machine
end

section
/-!
PROOF. Launches checked, dispatched and completed, and their items (15_system R330 to R342; 16_loading R364), and the
statement made of them.
-/

namespace Sys2Proof.Machine

/-! What the command processor's walks and hand-offs can change (09_memory R173; 15_system R330). -/

theorem State.cpPlace_served (s : State) (ctx va : Nat) (acc : Acc) : Served s (s.cpPlace ctx va acc).1 := by
  unfold State.cpPlace
  split
  · exact .refl s
  · split
    · exact .refl s
    · exact (s.walkSends_served _ _ _).trans (State.touchLeaf_served _ _ _ _)

theorem State.cpTouch_served (s : State) (ctx va n : Nat) (acc : Acc) : Served s (s.cpTouch ctx va n acc) :=
  .foldl (fun t a => t.cpPlace_served ctx a acc) _ s

theorem State.touchPresets_served (s : State) (l : Launch) : Served s (s.touchPresets l) :=
  .ite (.refl s) (.foldl (fun t _ => .ite (.refl t) (t.cpTouch_served _ _ _ _)) _ s)

theorem State.touchArg_served (s : State) (l : Launch) : Served s (s.touchArg l) :=
  .ite (s.cpTouch_served _ _ _ _) (.refl s)

theorem State.touchDir_served (s : State) (l : Launch) : Served s (s.touchDir l) :=
  .ite (.refl s) (s.cpTouch_served _ _ _ _)

theorem State.invLine_served (s : State) (die : Nat) (x : Xl) : Served s (s.invLine die x) := by
  have h : Served s (((s.sendOrdered die (x.pk / 128)).dropGuest die (x.pk / 128)).dropL1 (fun k => k / 256 = die)
      (x.pk / 128)) := ((s.sendOrdered_homeward die _).served.modDie _ _).trans ⟨rfl⟩
  exact .ite (h.dropFlash _ _) h

theorem State.handOff_served (s : State) (l : Launch) (h : Handle) : Served s (s.handOff l h) := by
  have hround : ∀ (t : State) d, Served t (t.roundTrip commons d) := fun t d => (t.roundTrip_homeward _ d).served
  unfold State.handOff
  split
  · exact .refl s
  · refine (((s.cpTouch_served _ _ _ _).trans (.foldl (fun t d => ?_) _ _)).trans (.foldl (fun t d => ?_) _ _)).trans
      (.foldl (fun t d => (Served.refl t).modDie d _) _ _)
    · exact (hround t d).trans (.foldl (fun t x => (t.sendOrdered_homeward d _).served) _ _)
    · exact (hround t d).trans (.foldl (fun t x => t.invLine_served d x) _ _)

/-! The checks of a record (R332). -/

/-- The first of some checks that fails, one more put before them. -/
theorem firstFailing_cons (b : Bool) (r : Nat) (t : List (Bool × Nat)) : (((b, r) :: t).find? (·.1)).map (·.2)
    = if b then some r else (t.find? (·.1)).map (·.2) := by
  cases b <;> rfl

/-- A check put before others is looked at before them. -/
theorem orElse_ite {c : Prop} [Decidable c] (r : Nat) (o x : Option Nat) :
    (if (if c then some r else o).isSome then (if c then some r else o) else x)
      = if c then some r else (if o.isSome then o else x) := by
  split_ifs <;> simp_all

theorem State.recordBad_eq (s : State) (l : Launch) : s.recordBad l = s.firstFailure l := by
  unfold State.recordBad State.recordHead State.firstFailure
  dsimp only
  simp only [orElse_ite, firstFailing_cons]
  refine if_congr ?_ rfl (if_congr ?_ rfl (if_congr ?_ rfl (if_congr ?_ rfl (if_congr ?_ rfl ?_))))
  · simp
  · simp [State.privileged, or_assoc, and_assoc]
  · simp only [Bool.or_eq_true, decide_eq_true_eq]
    exact or_congr Iff.rfl Nat.succ_le_iff
  · simp only [Bool.or_eq_true, Bool.and_eq_true, decide_eq_true_eq, or_assoc]
    rfl
  · simp
  · by_cases hr : l.rangesBad = true
    · simp [hr]
    · simp only [hr, if_false, Option.isSome_none, Bool.false_eq_true, false_or]
      refine if_congr ?_ rfl (if_congr ?_ rfl rfl)
      · simp
      · simp

/-! The completion record (R333). -/

theorem words64_ofNat (n : Nat) : words64 (BitVec.ofNat 64 n) = [BitVec.ofNat 32 n, BitVec.ofNat 32 (n / 2 ^ 32)] := by
  have hlo : lo32 (BitVec.ofNat 64 n) = BitVec.ofNat 32 n := BitVec.eq_of_toNat_eq (by simp [lo32])
  have hhi : hi32 (BitVec.ofNat 64 n) = BitVec.ofNat 32 (n / 2 ^ 32) :=
    BitVec.eq_of_toNat_eq (by simp [hi32, Nat.shiftRight_eq_div_pow]; omega)
  rw [words64, hlo, hhi]

theorem completionRecord_eq (st r n time : Nat) : completionRecord st r n time = [BitVec.ofNat 32 (st + r * 256),
    BitVec.ofNat 32 n, BitVec.ofNat 32 time, BitVec.ofNat 32 (time / 2 ^ 32)] := by
  rw [completionRecord, words64_ofNat]
  rfl

/-! The entry of a launch (16_loading R364). -/

section
variable {s : State} {l : Launch}

/-- A launch of no object, or of a registered level-2 one, starts at its own word. -/
theorem State.entryOf_native (h : l.codeObj = 0 ∨ ((s.dirEntry l.ctx commons l.codeObj).valid = true
    ∧ (s.dirEntry l.ctx commons l.codeObj).l1 = false)) : s.entryOf l = .ok (some ((l.w 0).extractLsb' 0 24)) := by
  unfold State.entryOf
  by_cases h0 : l.codeObj = 0
  · simp [h0]
  · obtain ⟨hv, hl⟩ := h.resolve_left h0
    simp [h0, hv, hl]

theorem State.entryOf_unregistered (h0 : l.codeObj ≠ 0) (hv : (s.dirEntry l.ctx commons l.codeObj).valid = false) :
    s.entryOf l = .error () := by
  simp [State.entryOf, h0, hv]

/-- No translation of an object is its newest where none satisfies the test. -/
theorem State.newest_none {ctx obj : Nat} {p : Translation → Bool}
    (h : ∀ e ∈ s.trans, ¬ (e.2.live = true ∧ e.2.ctx = ctx ∧ e.2.obj = obj ∧ p e.2 = true)) :
    s.newest ctx obj p = none := by
  refine List.foldlRecOn (motive := (· = none)) _ _ rfl fun acc hacc e he => ?_
  rw [hacc, if_neg]
  have := h e he
  simp only [Bool.and_eq_true, decide_eq_true_eq]
  tauto

/-- A level-1 launch waits while no translation holds its kernel. -/
theorem State.entryOf_untranslated (h0 : l.codeObj ≠ 0) (hv : (s.dirEntry l.ctx commons l.codeObj).valid = true)
    (hl : (s.dirEntry l.ctx commons l.codeObj).l1 = true) (ht : ∀ e ∈ s.trans, ¬ (e.2.live = true ∧ e.2.ctx = l.ctx
      ∧ e.2.obj = l.codeObj ∧ e.2.map.getD ((l.w 0).toNat % 2 ^ 24) 0 ≠ 0)) : s.entryOf l = .ok none := by
  have hword : ((l.w 0).extractLsb' 0 24).toNat = (l.w 0).toNat % 2 ^ 24 := by simp
  have hnew : s.newest l.ctx l.codeObj (fun t => decide (t.map.getD ((l.w 0).extractLsb' 0 24).toNat 0 ≠ 0)) = none := by
    refine State.newest_none fun e he => ?_
    rw [hword, decide_eq_true_eq]
    exact ht e he
  have hheld : ∀ epoch : Nat, s.trans.find? (fun t => decide (epoch ≠ 0) && t.2.live && t.2.complete
      && decide (t.2.ctx = l.ctx) && decide (t.2.obj = l.codeObj) && decide (t.2.epoch = epoch)
      && decide (t.2.map.getD ((l.w 0).extractLsb' 0 24).toNat 0 ≠ 0)) = none := fun epoch => by
    rw [List.find?_eq_none]
    intro e he
    have := ht e he
    rw [hword]
    simp only [Bool.and_eq_true, decide_eq_true_eq]
    tauto
  unfold State.entryOf
  simp only [h0, if_false, hv, hl, Bool.not_true, Bool.false_eq_true, hheld, hnew, Option.map_none]

end

/-! Dispatch (15_system R329, R337). -/

/-- A queued launch whose turn has come. -/
def State.launchTurn (s : State) (k : Nat) : Prop :=
  (s.launch k).stage = .queued ∧ s.therm.runs = true ∧ s.firstInQueue k = true

theorem State.launchTurn_iff (s : State) (k : Nat) : ¬ s.launchTurn k
    ↔ (decide ((s.launch k).stage ≠ .queued) || !s.therm.runs || !s.firstInQueue k) = true := by
  simp only [State.launchTurn, Bool.or_eq_true, decide_eq_true_eq, Bool.not_eq_true', not_and_or, Bool.not_eq_true, or_assoc]

theorem State.launchRests_iff (s : State) (l : Launch) : s.launchRests l ↔ ((s.cr l.ctx 0).getLsbD 5
    || (l.device && l.dep && !s.done l.parent) || !l.bufs.all (fun b => s.handleFree (s.handle b.1) b.2)) = true := by
  simp only [State.launchRests, State.done, Bool.or_eq_true, Bool.and_eq_true, Bool.not_eq_true', decide_eq_false_iff_not,
    List.all_eq_false, Bool.not_eq_true, or_assoc, and_assoc, ne_eq]

section
variable {s : State} {k : Nat}

theorem exec_launchDispatch (k : Nat) (s : State) : exec (.launchDispatch k) s = execLaunchDispatch k s := rfl

theorem exec_launchDispatch_early (h : ¬ s.launchTurn k) : exec (.launchDispatch k) s = .next s := by
  rw [exec_launchDispatch, execLaunchDispatch, if_pos ((s.launchTurn_iff k).1 h)]

variable (h : s.launchTurn k)
include h

theorem exec_launchDispatch_bad {r : Nat} (hr : (s.touchPresets (s.launch k)).firstFailure (s.launch k) = some r) :
    exec (.launchDispatch k) s = .next ((s.touchPresets (s.launch k)).complete k 1 r) := by
  rw [← State.recordBad_eq] at hr
  rw [exec_launchDispatch, execLaunchDispatch, if_neg (fun hn => (s.launchTurn_iff k).2 hn h)]
  dsimp only
  rw [hr]

variable (hf : (s.touchPresets (s.launch k)).firstFailure (s.launch k) = none)
include hf

theorem exec_launchDispatch_rests (hr : (s.touchPresets (s.launch k)).launchRests (s.launch k)) :
    exec (.launchDispatch k) s = .next (s.touchPresets (s.launch k)) := by
  rw [← State.recordBad_eq] at hf
  rw [exec_launchDispatch, execLaunchDispatch, if_neg (fun hn => (s.launchTurn_iff k).2 hn h)]
  dsimp only
  rw [hf]
  exact congrArg _ (if_pos ((State.launchRests_iff _ _).1 hr))

theorem exec_launchDispatch_starts (hr : ¬ (s.touchPresets (s.launch k)).launchRests (s.launch k)) :
    exec (.launchDispatch k) s = .next ((s.touchPresets (s.launch k)).startLaunch k (s.launch k)) := by
  rw [← State.recordBad_eq] at hf
  rw [exec_launchDispatch, execLaunchDispatch, if_neg (fun hn => (s.launchTurn_iff k).2 hn h)]
  dsimp only
  rw [hf]
  exact congrArg _ (if_neg (fun hn => hr ((State.launchRests_iff _ _).2 hn)))

end

/-- Some cluster of a launch is wider than the die it goes to (R332, check 9). -/
def Launch.narrow (l : Launch) (ds : List Nat) : Prop := ∃ d ∈ ds.take l.clusters, dieCols d < l.clw

/-- A team of a launch is larger than a core or its context's save area (R332, check 10). -/
def State.largeTeam (s : State) (l : Launch) : Prop := 117760 < l.rows ∨ (s.cr l.ctx 0x10).toNat / 65536 < l.ngrp

section
variable {s : State} {l : Launch} {ds : List Nat}

theorem State.placeBad_narrow (h : l.narrow ds) : s.placeBad l ds = some 3 :=
  if_pos (by simpa [Launch.narrow] using h)

theorem State.placeBad_wide (h : ¬ l.narrow ds) :
    s.placeBad l ds = if 117760 < l.rows || bitsOf (s.cr l.ctx 0x10).toNat 16 16 < l.ngrp then some 7 else none :=
  if_neg (by simpa [Launch.narrow] using h)

theorem State.largeTeam_iff (s : State) (l : Launch) : s.largeTeam l
    ↔ (decide (117760 < l.rows) || decide (bitsOf (s.cr l.ctx 0x10).toNat 16 16 < l.ngrp)) = true := by
  have hlt : (s.cr l.ctx 0x10).toNat / 65536 < 2 ^ 16 := by have := (s.cr l.ctx 0x10).isLt; omega
  have hbits : bitsOf (s.cr l.ctx 0x10).toNat 16 16 = (s.cr l.ctx 0x10).toNat / 65536 := Nat.mod_eq_of_lt hlt
  simp only [State.largeTeam, hbits, Bool.or_eq_true, decide_eq_true_eq]

theorem State.placeBad_large (h : ¬ l.narrow ds) (hl : s.largeTeam l) : s.placeBad l ds = some 7 := by
  rw [State.placeBad_wide h, if_pos ((s.largeTeam_iff l).1 hl)]

theorem State.placeBad_none (h : ¬ l.narrow ds) (hl : ¬ s.largeTeam l) : s.placeBad l ds = none := by
  rw [State.placeBad_wide h, if_neg (fun hn => hl ((s.largeTeam_iff l).2 hn))]

variable {v : State} {k : Nat}

theorem State.startLaunch_unplaced {c : Nat} (hp : (v.touchArg l).placement l = .error c) :
    v.startLaunch k l = (v.touchArg l).complete k 2 c := by
  simp only [State.startLaunch, hp]

theorem State.startLaunch_placeBad {r : Nat} (hp : (v.touchArg l).placement l = .ok ds)
    (hb : (v.touchArg l).placeBad l ds = some r) : v.startLaunch k l = (v.touchArg l).complete k 1 r := by
  simp only [State.startLaunch, hp, hb]

variable (hp : (v.touchArg l).placement l = .ok ds) (hb : (v.touchArg l).placeBad l ds = none)
include hp hb

theorem State.startLaunch_unregistered {e : Unit} (he : ((v.touchArg l).touchDir l).entryOf l = .error e) :
    v.startLaunch k l = ((v.touchArg l).touchDir l).complete k 1 6 := by
  simp only [State.startLaunch, hp, hb, he]

theorem State.startLaunch_waits (he : ((v.touchArg l).touchDir l).entryOf l = .ok none) :
    v.startLaunch k l = (v.touchArg l).touchDir l := by
  simp only [State.startLaunch, hp, hb, he]

theorem State.startLaunch_dispatch {e : BitVec 24} (he : ((v.touchArg l).touchDir l).entryOf l = .ok (some e)) :
    v.startLaunch k l = ((v.touchArg l).touchDir l).dispatch k ds e := by
  simp only [State.startLaunch, hp, hb, he]

end

/-- A launch as the distributors have it. -/
def State.dispatched (s : State) (l : Launch) (ds : List Nat) (entry : BitVec 24) : Launch :=
  { l with
    stage := .dispatched, dies := ds, entry, since := s.time, closed := (l.w 22).getLsbD 25
    presets := (List.range 4).map (s.presetRec l), codeAt := some s.homeImage }

/-- Dispatch changes the launch's own record, and hands its handles on. -/
theorem State.dispatch_keeps (s : State) (k : Nat) (ds : List Nat) (entry : BitVec 24) :
    (s.dispatch k ds entry).launch k = s.dispatched (s.launch k) ds entry ∧ (s.dispatch k ds entry).groups = s.groups
      ∧ (s.dispatch k ds entry).teams = s.teams ∧ (s.dispatch k ds entry).faultQ = s.faultQ := by
  have hset : (s.setLaunch k (s.dispatched (s.launch k) ds entry)).launch k = s.dispatched (s.launch k) ds entry :=
    State.setLaunch_launch_same _ _ _
  refine List.foldlRecOn (motive := fun t : State => t.launch k = s.dispatched (s.launch k) ds entry ∧ t.groups = s.groups
    ∧ t.teams = s.teams ∧ t.faultQ = s.faultQ) _ _ ⟨hset, rfl, rfl, rfl⟩ fun t ht b _ => ?_
  have hh := t.handOff_served (s.dispatched (s.launch k) ds entry) (t.handle b.1)
  have hsame : ∀ u : State, Served t u → u.launch k = t.launch k ∧ u.groups = t.groups ∧ u.teams = t.teams
      ∧ u.faultQ = t.faultQ := fun u hu => by rw [hu.only]; exact ⟨rfl, rfl, rfl, rfl⟩
  obtain ⟨h1, h2, h3, h4⟩ := hsame _ hh
  exact ⟨h1.trans ht.1, h2.trans ht.2.1, h3.trans ht.2.2.1, h4.trans ht.2.2.2⟩

/-! Completion (R333). -/

theorem Launch.ends_iff (l : Launch) : (decide (l.stage = .dispatched) && decide (l.retired = l.teams)) = true
    ↔ l.stage = .dispatched ∧ l.retired = l.gridX * l.gridY * l.gridZ := by
  rw [Bool.and_eq_true, decide_eq_true_eq, decide_eq_true_eq, Launch.teams]

/-- A launch with its status, at the time that the Commons die holds. -/
def State.completed (s : State) (l : Launch) (st r : Nat) : Launch :=
  { l with stage := .complete, status := st, reason := r, doneAt := s.dieTime commons }

/-- The state in which the completion record of a launch is written: its dies drained. -/
def State.completing (s : State) (k st r : Nat) : State :=
  (s.launch k).ranOn.foldl (fun v d => v.sysDrain d) (s.setLaunch k (s.completed (s.launch k) st r))

section
variable {s : State} {k st r : Nat}

theorem State.complete_unrecorded (h : (s.launch k).f64 28 = 0) :
    s.complete k st r = s.setLaunch k (s.completed (s.launch k) st r) := if_pos h

variable (h : (s.launch k).f64 28 ≠ 0)
include h

theorem State.complete_writes : s.complete k st r = match (s.completing k st r).cpWrite (s.launch k).ctx
    ((s.launch k).f64 28) (wordBytes (completionRecord st r (s.launch k).discarded
      ((s.completing k st r).dieTime commons))) with
    | (v, none) => v
    | (v, some c) => v.report cCPLF (s.launch k).ctx (BitVec.ofNat 32 c) ((s.launch k).f64 28) := if_neg h

theorem State.complete_recorded {v : State} (hw : (s.completing k st r).cpWrite (s.launch k).ctx ((s.launch k).f64 28)
    (wordBytes (completionRecord st r (s.launch k).discarded ((s.completing k st r).dieTime commons))) = (v, none)) :
    s.complete k st r = v := by
  rw [State.complete_writes h, hw]

theorem State.complete_faulted {v : State} {c : Nat} (hw : (s.completing k st r).cpWrite (s.launch k).ctx
    ((s.launch k).f64 28) (wordBytes (completionRecord st r (s.launch k).discarded
      ((s.completing k st r).dieTime commons))) = (v, some c)) :
    s.complete k st r = v.report cCPLF (s.launch k).ctx (BitVec.ofNat 32 c) ((s.launch k).f64 28) := by
  rw [State.complete_writes h, hw]

end

/-! Items (R342). -/

theorem exec_itemBatch (core k : Nat) (s : State) : exec (.itemBatch core k) s = execItemBatch core k s := rfl

/-- A team of a launch lives on a core. -/
theorem State.teamsOn_any_iff (s : State) (die core k : Nat) : (s.teamsOn die core).any (fun e => e.2.launch = k) = true
    ↔ ∃ e ∈ s.teams, e.2.live = true ∧ e.2.away = false ∧ e.2.die = die ∧ e.2.core = core ∧ e.2.launch = k := by
  simp only [State.teamsOn, List.any_eq_true, List.mem_filter, Bool.and_eq_true, Bool.not_eq_true', decide_eq_true_eq,
    and_assoc]

/-- A core whose queue for a launch holds some items. -/
def Core.giveItems (c : Core) (k : Nat) (xs : List (Word × Nat)) : Core :=
  { c with items := c.items.set k { items := xs } {} }

theorem Core.giveItems_getD (c : Core) (k : Nat) (xs : List (Word × Nat)) :
    (c.giveItems k xs).items.getD k {} = { items := xs } := SMap.getD_set_same _ _ _ _

/-- A batch carried to a core. -/
def State.batchSent (s : State) (core k : Nat) : State :=
  ((s.timeMsg commons (core / 256)).modCore core
    (fun c => c.giveItems k (((s.coreAt core).items.getD k {}).items ++ (s.launch k).batch.1))).setLaunch k
      (s.launch k).batch.2

theorem State.batchSent_spec (s : State) (core k : Nat) :
    ((s.batchSent core k).coreAt core).items.getD k {} =
        { items := ((s.coreAt core).items.getD k {}).items ++ (s.launch k).batch.1 }
      ∧ (s.batchSent core k).launch k = (s.launch k).batch.2 ∧ SameMem s (s.batchSent core k)
      ∧ (s.batchSent core k).groups = s.groups ∧ (s.batchSent core k).teams = s.teams := by
  refine ⟨?_, State.setLaunch_launch_same _ _ _, fun a => ?_, State.timeMsg_groups .., State.timeMsg_teams ..⟩
  · have hcore := (State.modCore_coreAt (s.timeMsg commons (core / 256)) core core (fun c =>
      c.giveItems k (((s.coreAt core).items.getD k {}).items ++ (s.launch k).batch.1))).trans (if_pos rfl)
    exact (congrArg (fun c : Core => c.items.getD k {}) hcore).trans (Core.giveItems_getD _ _ _)
  · show (s.batchSent core k).mem.getD a _ = s.mem.getD a _
    rw [show (s.batchSent core k).mem = s.mem from State.timeMsg_mem ..]

/-- An item put among others where their positions stay ascending. -/
def insertItem (l : List (Word × Nat)) (x : Word × Nat) : List (Word × Nat) :=
  l.takeWhile (fun y => y.2 ≤ x.2) ++ [x] ++ l.dropWhile (fun y => y.2 ≤ x.2)

/-- An element put behind the first of a list that satisfy a test, and before the others. -/
theorem takeWhile_append_dropWhile_perm {α : Type} (p : α → Bool) (l : List α) (x : α) :
    (l.takeWhile p ++ [x] ++ l.dropWhile p).Perm (x :: l) := by
  have h := List.perm_middle (a := x) (l₁ := l.takeWhile p) (l₂ := l.dropWhile p)
  rw [List.takeWhile_append_dropWhile] at h
  rwa [List.append_assoc]

theorem insertItem_perm (l : List (Word × Nat)) (x : Word × Nat) : (insertItem l x).Perm (x :: l) :=
  takeWhile_append_dropWhile_perm _ l x

theorem insertItem_sorted {l : List (Word × Nat)} (x : Word × Nat) (h : l.Pairwise (fun a b => a.2 ≤ b.2)) :
    (insertItem l x).Pairwise (fun a b => a.2 ≤ b.2) := by
  induction l with
  | nil => simp [insertItem]
  | cons a t ih =>
    obtain ⟨ha, ht⟩ := List.pairwise_cons.1 h
    by_cases hx : a.2 ≤ x.2
    · have hcons : insertItem (a :: t) x = a :: insertItem t x := by simp [insertItem, hx]
      rw [hcons]
      refine List.pairwise_cons.2 ⟨fun y hy => ?_, ih ht⟩
      rcases List.mem_cons.1 ((insertItem_perm t x).mem_iff.1 hy) with rfl | hy
      · exact hx
      · exact ha y hy
    · have hcons : insertItem (a :: t) x = x :: a :: t := by simp [insertItem, hx]
      rw [hcons]
      refine List.pairwise_cons.2 ⟨fun y hy => ?_, h⟩
      rcases List.mem_cons.1 hy with rfl | hy
      · omega
      · have := ha y hy
        omega

theorem sortItems_perm (l : List (Word × Nat)) : (sortItems l).Perm l := by
  have hfold : ∀ acc : List (Word × Nat), (l.foldl insertItem acc).Perm (acc ++ l) := by
    induction l with
    | nil => intro acc; simp
    | cons x t ih =>
      intro acc
      exact (ih _).trans (((insertItem_perm acc x).append_right t).trans List.perm_middle.symm)
  exact hfold []

theorem sortItems_sorted (l : List (Word × Nat)) : (sortItems l).Pairwise (fun a b => a.2 ≤ b.2) :=
  List.foldlRecOn (motive := fun l : List (Word × Nat) => l.Pairwise (fun a b => a.2 ≤ b.2)) l insertItem
    List.Pairwise.nil fun _ h x _ => insertItem_sorted x h

/-- A core asks for items and gets some. -/
def State.givesItems (s : State) (core k : Nat) : Prop :=
  (s.launch k).stage = .dispatched ∧ (s.launch k).items = true ∧ ((s.coreAt core).items.getD k {}).items.length < 256
    ∧ ∃ e ∈ s.teams, e.2.live = true ∧ e.2.away = false ∧ e.2.die = core / 256 ∧ e.2.core = core % 256 ∧ e.2.launch = k

theorem execItemBatch_eq (core k : Nat) (s : State) : execItemBatch core k s
    = .next (if (s.launch k).stage ≠ .dispatched || !(s.launch k).items
        || !(s.teamsOn (core / 256) (core % 256)).any (fun e => e.2.launch = k)
        || 256 ≤ ((s.coreAt core).items.getD k {}).items.length then s else s.batchSent core k) := rfl

theorem State.givesItems_iff (s : State) (core k : Nat) : ¬ s.givesItems core k
    ↔ ((s.launch k).stage ≠ .dispatched || !(s.launch k).items
        || !(s.teamsOn (core / 256) (core % 256)).any (fun e => e.2.launch = k)
        || 256 ≤ ((s.coreAt core).items.getD k {}).items.length : Bool) = true := by
  rw [State.givesItems, ← State.teamsOn_any_iff, ← not_iff_not]
  simp only [Bool.or_eq_true, decide_eq_true_eq, Bool.not_eq_true', not_or, Bool.not_eq_false, not_not, Nat.not_le]
  tauto

theorem exec_itemBatch_keeps {s : State} {core k : Nat} (h : ¬ s.givesItems core k) :
    exec (.itemBatch core k) s = .next s := by
  rw [exec_itemBatch, execItemBatch_eq, if_pos ((s.givesItems_iff core k).1 h)]

theorem exec_itemBatch_sends {s : State} {core k : Nat} (h : s.givesItems core k) :
    exec (.itemBatch core k) s = .next (s.batchSent core k) := by
  rw [exec_itemBatch, execItemBatch_eq, if_neg fun hn => (s.givesItems_iff core k).2 hn h]

/-- The items of a batch that came back and stand before those not given yet. -/
def Launch.batchLow (l : Launch) : List (Word × Nat) := (l.returned.filter (fun x => decide (x.2 < l.itemNext))).take 256

/-- How many items of a batch have not been given before. -/
def Launch.batchNew (l : Launch) : Nat := min (256 - l.batchLow.length) ((l.w 21).toNat - l.itemNext)

/-- The items of a batch that came back and stand behind those not given yet. -/
def Launch.batchHigh (l : Launch) : List (Word × Nat) :=
  (l.returned.filter (fun x => decide (l.itemNext ≤ x.2))).take (256 - l.batchLow.length - l.batchNew)

/-- The items of a batch that have not been given before. -/
def Launch.batchInitial (l : Launch) : List (Word × Nat) :=
  (List.range l.batchNew).map (fun i => (l.w 20 + BitVec.ofNat 32 (l.itemNext + i), l.itemNext + i))

theorem Launch.batch_eq (l : Launch) : l.batch = (l.batchLow ++ l.batchInitial ++ l.batchHigh, { l with
    itemNext := l.itemNext + l.batchNew
    returned := l.returned.filter (fun x => decide (x ∉ l.batchLow ∧ x ∉ l.batchHigh)) }) := by
  have hlen : (l.initialItems (256 - l.batchLow.length)).length = l.batchNew := by
    rw [Launch.initialItems, List.length_map, List.length_range, Launch.batchNew]
  have hgone : ∀ x, (!(l.batchLow ++ l.batchHigh).contains x) = decide (x ∉ l.batchLow ∧ x ∉ l.batchHigh) :=
    fun x => by
      rw [Bool.eq_iff_iff]
      simp
  have hbatch : l.batch = (l.batchLow ++ l.batchInitial ++ (l.returned.filter (fun x => decide (l.itemNext ≤ x.2))).take
      (256 - l.batchLow.length - (l.initialItems (256 - l.batchLow.length)).length),
    { l with
      itemNext := l.itemNext + (l.initialItems (256 - l.batchLow.length)).length
      returned := l.returned.filter (fun x => !(l.batchLow ++ (l.returned.filter (fun x => decide (l.itemNext ≤ x.2))).take
        (256 - l.batchLow.length - (l.initialItems (256 - l.batchLow.length)).length)).contains x) }) := rfl
  rw [hbatch, hlen]
  refine Prod.ext rfl ?_
  refine congrArg (fun r => ({ l with itemNext := l.itemNext + l.batchNew, returned := r } : Launch)) ?_
  exact List.filter_congr fun x _ => hgone x

/-- A core returns no items of a launch: it has none, or has teams of it. -/
def State.keepsItems (s : State) (lk die core : Nat) : Prop :=
  ((s.coreAt (coreKey die core)).items.getD lk {}).items = [] ∨ ∃ e ∈ s.teams, e.2.live = true ∧ e.2.away = false
    ∧ e.2.die = die ∧ e.2.core = core ∧ e.2.launch = lk

theorem State.keepsItems_iff (s : State) (lk die core : Nat) : s.keepsItems lk die core ↔
    (((s.coreAt (coreKey die core)).items.getD lk {}).items.isEmpty
      || (s.teamsOn die core).any (fun e => e.2.launch = lk)) = true := by
  rw [Bool.or_eq_true, State.teamsOn_any_iff, List.isEmpty_iff]
  rfl

theorem State.returnItems_eq (s : State) (lk die core : Nat) : s.returnItems lk die core
    = if ((s.coreAt (coreKey die core)).items.getD lk {}).items.isEmpty
        || (s.teamsOn die core).any (fun e => e.2.launch = lk) then s
      else (((s.modCore (coreKey die core) (fun c => c.giveItems lk [])).timeMsg die commons).modLaunch lk
        (fun l => { l with returned := sortItems (l.returned ++
          ((s.coreAt (coreKey die core)).items.getD lk {}).items) })) := rfl

theorem State.returnItems_same {s : State} {lk die core : Nat} (h : s.keepsItems lk die core) :
    s.returnItems lk die core = s := by
  rw [State.returnItems_eq, if_pos ((s.keepsItems_iff lk die core).1 h)]

theorem State.returnItems_spec {s : State} {lk die core : Nat} (h : ¬ s.keepsItems lk die core) :
    (((s.returnItems lk die core).coreAt (coreKey die core)).items.getD lk {}).items = []
      ∧ ((s.returnItems lk die core).launch lk).returned
        = sortItems ((s.launch lk).returned ++ ((s.coreAt (coreKey die core)).items.getD lk {}).items) := by
  rw [State.returnItems_eq, if_neg fun hn => h ((s.keepsItems_iff lk die core).2 hn)]
  let u := s.modCore (coreKey die core) (fun c => c.giveItems lk [])
  constructor
  · have hcores : (u.timeMsg die commons).coreAt (coreKey die core) = (s.coreAt (coreKey die core)).giveItems lk [] :=
      (congrArg (fun m : SMap Core => m.getD (coreKey die core) {}) (State.timeMsg_cores ..)).trans
        ((State.modCore_coreAt s (coreKey die core) (coreKey die core) _).trans (if_pos rfl))
    show (((u.timeMsg die commons).coreAt (coreKey die core)).items.getD lk {}).items = []
    rw [hcores, Core.giveItems_getD]
  · have hlaunch : (u.timeMsg die commons).launch lk = s.launch lk :=
      congrArg (fun m : SMap Launch => m.getD lk {}) (State.timeMsg_launches ..)
    rw [State.modLaunch, State.setLaunch_launch_same]
    show sortItems (((u.timeMsg die commons).launch lk).returned ++ _) = _
    rw [hlaunch]

/-- The walks for a launch's presets, its argument and its object's directory entry start nothing. -/
theorem State.walked_keeps (s : State) (l : Launch) :
    (((s.touchPresets l).touchArg l).touchDir l).launches = s.launches
      ∧ (((s.touchPresets l).touchArg l).touchDir l).time = s.time
      ∧ (((s.touchPresets l).touchArg l).touchDir l).groups = s.groups
      ∧ (((s.touchPresets l).touchArg l).touchDir l).teams = s.teams
      ∧ (((s.touchPresets l).touchArg l).touchDir l).faultQ = s.faultQ := by
  rw [(((s.touchPresets_served l).trans (State.touchArg_served _ l)).trans (State.touchDir_served _ l)).only]
  exact ⟨rfl, rfl, rfl, rfl, rfl⟩

/-- A launch that goes to the distributors, in the state `x` that its walks have left. -/
theorem exec_launchDispatch_dispatches {s : State} {k : Nat} {ds : List Nat} (ht : s.launchTurn k)
    (hf : (s.touchPresets (s.launch k)).firstFailure (s.launch k) = none)
    (hr : ¬ (s.touchPresets (s.launch k)).launchRests (s.launch k))
    (hp : ((s.touchPresets (s.launch k)).touchArg (s.launch k)).placement (s.launch k) = .ok ds)
    (hn : ¬ (s.launch k).narrow ds) (hl : ¬ ((s.touchPresets (s.launch k)).touchArg (s.launch k)).largeTeam (s.launch k)) :
    let x := ((s.touchPresets (s.launch k)).touchArg (s.launch k)).touchDir (s.launch k)
    (s.launch k).codeObj = 0 ∨ ((x.dirEntry (s.launch k).ctx commons (s.launch k).codeObj).valid = true
      ∧ (x.dirEntry (s.launch k).ctx commons (s.launch k).codeObj).l1 = false) →
    ∃ t, exec (.launchDispatch k) s = .next t
      ∧ t.launch k = x.dispatched (s.launch k) ds (((s.launch k).w 0).extractLsb' 0 24) ∧ x.time = s.time
      ∧ t.groups = s.groups ∧ t.teams = s.teams ∧ t.faultQ = s.faultQ := by
  intro x he
  obtain ⟨hlaunches, htime, hgroups, hteams, hfault⟩ := s.walked_keeps (s.launch k)
  obtain ⟨hl', hg', ht', hf'⟩ := x.dispatch_keeps k ds (((s.launch k).w 0).extractLsb' 0 24)
  have hsame : x.launch k = s.launch k := congrArg (fun m : SMap Launch => m.getD k {}) hlaunches
  rw [hsame] at hl'
  exact ⟨_, (exec_launchDispatch_starts ht hf hr).trans (congrArg _ (State.startLaunch_dispatch hp
    (State.placeBad_none hn hl) (State.entryOf_native he))), hl', htime, hg'.trans hgroups, ht'.trans hteams,
    hf'.trans hfault⟩

/-- Settles O48: the branches of a dispatch are the `exec_launchDispatch_*` and `State.startLaunch_*` lemmas, a batch is
`Launch.batch_eq`, what comes back is sorted by `sortItems`. -/
theorem launchesRunTheirCourse : Obligations.LaunchesRunTheirCourse := by
  refine ⟨fun s k => ?_, fun s k => ⟨fun h => ?_, fun h => ?_⟩, fun s k st r => ?_, fun s core k => ?_,
    fun s lk die core => ?_⟩
  · dsimp only
    refine ⟨exec_launchDispatch_early, fun ht r hr => exec_launchDispatch_bad ht hr, fun ht hf =>
      ⟨exec_launchDispatch_rests ht hf, fun hr c hc => ?_, fun hr ds hds => ⟨fun hn => ?_, fun hn hl => ?_,
        fun hn hl h0 hv => ?_, fun hn hl h1 hw => ?_, fun hn hl he => ?_⟩⟩⟩
    · rw [exec_launchDispatch_starts ht hf hr, State.startLaunch_unplaced hc]
    · rw [exec_launchDispatch_starts ht hf hr, State.startLaunch_placeBad hds (State.placeBad_narrow hn)]
    · rw [exec_launchDispatch_starts ht hf hr, State.startLaunch_placeBad hds (State.placeBad_large hn hl)]
    · rw [exec_launchDispatch_starts ht hf hr, State.startLaunch_unregistered hds (State.placeBad_none hn hl)
        (State.entryOf_unregistered h0 hv)]
    · obtain ⟨h0, hv, hl1⟩ := h1
      rw [exec_launchDispatch_starts ht hf hr, State.startLaunch_waits hds (State.placeBad_none hn hl)
        (State.entryOf_untranslated h0 hv hl1 hw)]
    · obtain ⟨t, ht, hl', htime, hkeeps⟩ := exec_launchDispatch_dispatches ht hf hr hds hn hl he
      refine ⟨t, ht, ?_⟩
      dsimp only
      rw [hl']
      exact ⟨rfl, rfl, htime, rfl, rfl, rfl, rfl, rfl, hkeeps⟩
  · exact congrArg _ (if_neg fun hn => h ((s.launch k).ends_iff.1 hn))
  · exact congrArg _ (if_pos ((s.launch k).ends_iff.2 h))
  · dsimp only
    rw [← completionRecord_eq]
    exact ⟨State.complete_unrecorded, fun h v hw => State.complete_recorded h hw, fun h v c hw =>
      State.complete_faulted h hw⟩
  · refine ⟨exec_itemBatch_keeps, fun h => ⟨_, exec_itemBatch_sends h, ?_⟩⟩
    obtain ⟨hitems, hlaunch, hmem, hgroups, hteams⟩ := s.batchSent_spec core k
    rw [Launch.batch_eq] at hitems hlaunch
    rw [hitems, hlaunch]
    exact ⟨rfl, rfl, rfl, hmem, hgroups, hteams⟩
  · refine ⟨State.returnItems_same, fun h => ?_⟩
    obtain ⟨hitems, hret⟩ := State.returnItems_spec h
    rw [hret]
    exact ⟨hitems, sortItems_perm _, sortItems_sorted _⟩

end Sys2Proof.Machine
end

section
/-!
PROOF. What a load sees on the visibility ladder (09_memory R182; 11_visibility R224 to R227, R240): the lemmas about one
sector read.
-/

namespace Sys2Proof.Machine

/-! Bytes laid over bytes (R225). -/

theorem VByte.over_none {c : BCell} (b : VByte) (h : c.mask = 0) : b.over c = b := if_pos h

theorem VByte.over_whole {c : BCell} (b : VByte) (h : c.mask = 0xFF) : b.over c = { val := c.val, pois := c.pois } := by
  have hval : (b.val &&& ~~~(0xFF : Byte)) ||| (c.val &&& 0xFF) = c.val := overwritten _ _
  simp only [VByte.over, h, hval]
  simp

@[simp] theorem overCells_length (bs : List VByte) (cells : SMap BCell) : (overCells bs cells).length = bs.length := by
  simp [overCells, mapI_eq_mapIdx]

theorem overCells_getD (bs : List VByte) (cells : SMap BCell) {i : Nat} (h : i < bs.length) :
    (overCells bs cells).getD i {} = (bs.getD i {}).over (cellAt cells i) := by
  have h' : i < (overCells bs cells).length := by simpa using h
  rw [List.getD_eq_getElem _ _ h', List.getD_eq_getElem _ _ h]
  simp only [overCells, mapI_eq_mapIdx, List.getElem_mapIdx]

@[simp] theorem CSec.view_length (c : CSec) : c.view.length = 16 := by simp [CSec.view]

@[simp] theorem State.homeSec_length (s : State) (home sec : Nat) : (s.homeSec home sec).length = 16 := by
  simp [State.homeSec]

theorem State.homeSec_getD (s : State) (home sec : Nat) {i : Nat} (h : i < 16) :
    (s.homeSec home sec).getD i {} = s.homeByte home (sec * 16 + i) := by
  have h' : i < (s.homeSec home sec).length := by simpa using h
  rw [List.getD_eq_getElem _ _ h']
  simp [State.homeSec]

/-! A sector has 16 bytes wherever it is read. -/

theorem State.serve_length (s : State) (die sec : Nat) (attr : PAttr) (ro : Bool) :
    (s.serve die sec attr ro).2.length = 16 := State.homeSec_length _ _ _

theorem State.readHome_length (s : State) (die sec : Nat) (attr : PAttr) (acq ro : Bool) :
    (s.readHome die sec attr acq ro).2.length = 16 := State.serve_length _ _ _ _ _

theorem State.readDev_length (s : State) (die sec : Nat) (attr : PAttr) (ro sieve : Bool) :
    (s.readDev die sec attr ro sieve).2.length = 16 := by
  unfold State.readDev
  split
  · exact s.readHome_length die sec attr false ro
  · dsimp only
    split
    · simp
    · simp [State.serve_length]

/-- What a load finds below the team's write buffer at DEV and above is what its L2 or the home gives. -/
theorem State.readBelow_high {s : State} {gk sec : Nat} {attr : PAttr} {scope : Nat} {acq ro na sieve : Bool}
    (h : 4 ≤ scope) : (s.readBelow gk sec attr scope acq ro na sieve).2
      = if scope = 5 ∨ acq = true then (s.readHome (s.group gk).die sec attr acq ro).2
        else (s.readDev (s.group gk).die sec attr ro sieve).2 := by
  unfold State.readBelow
  simp only [h, if_true, Bool.or_eq_true, decide_eq_true_eq]
  split <;> rfl

/-- Below DEV, where the L1 does not serve, it is what the L2 gives under the cluster's merge area. -/
theorem State.readBelow_low {s : State} {gk sec : Nat} {attr : PAttr} {scope : Nat} {acq ro na sieve : Bool}
    (h : scope ≤ 3) (hl : ((s.coreAt (coreKey (s.group gk).die (s.group gk).core)).l1.getD
      (sec * 64 + (s.group gk).ctx) {}).have_ = false) :
    ∃ u, (u = s ∨ u = s.countL1 (coreKey (s.group gk).die (s.group gk).core) (s.group gk).ctx sec 0x04)
      ∧ (s.readBelow gk sec attr scope acq ro na sieve).2 = overCells (u.readDev (s.group gk).die sec attr ro).2
        (secCells (s.cluster (s.team (s.group gk).team).cluster).merge sec) := by
  have hserves : ∀ t, ((s.coreAt (coreKey (s.group gk).die (s.group gk).core)).l1.getD
      (sec * 64 + (s.group gk).ctx) {}).servesL1 t = false := fun t => by rw [CSec.servesL1, hl]; rfl
  unfold State.readBelow
  simp only [show ¬ 4 ≤ scope by omega, if_false, hserves, Bool.and_false, Bool.false_eq_true]
  split
  · exact ⟨_, .inr rfl, rfl⟩
  · exact ⟨_, .inl rfl, rfl⟩

theorem State.readBelow_length (s : State) (gk sec : Nat) (attr : PAttr) (scope : Nat) (acq ro na sieve : Bool) :
    (s.readBelow gk sec attr scope acq ro na sieve).2.length = 16 := by
  by_cases h : 4 ≤ scope
  · rw [State.readBelow_high h]
    split
    · exact s.readHome_length _ _ _ _ _
    · exact s.readDev_length _ _ _ _ _
  · unfold State.readBelow
    simp only [h, if_false]
    split
    · exact CSec.view_length _
    · simp [State.readDev_length]

theorem State.readSec_length (s : State) (gk sec : Nat) (attr : PAttr) (scope : Nat) (acq ro na sieve : Bool) :
    (s.readSec gk sec attr scope acq ro na sieve).2.length = 16 := by
  unfold State.readSec
  dsimp only
  rw [overCells_length, overCells_length, State.readBelow_length]

/-- A sector as a load of a group sees it: what stands below its buffers under the team's and its own. -/
theorem State.readSec_byte (s : State) (gk sec : Nat) (attr : PAttr) (scope : Nat) (acq ro na sieve : Bool) {i : Nat}
    (h : i < 16) : (s.readSec gk sec attr scope acq ro na sieve).2.getD i {}
      = ((((s.readBelow gk sec attr scope acq ro na sieve).2.getD i {}).over
          (cellAt (secCells (s.team (s.group gk).team).twb sec) i))).over (cellAt (secCells (s.group gk).gsb sec) i) := by
  have hs := s.readBelow_served gk sec attr scope acq ro na sieve
  have hgroup : (s.readBelow gk sec attr scope acq ro na sieve).1.group gk = s.group gk := by rw [hs.only]; rfl
  have hteam : ∀ k, (s.readBelow gk sec attr scope acq ro na sieve).1.team k = s.team k := fun k => by rw [hs.only]; rfl
  have hlen := s.readBelow_length gk sec attr scope acq ro na sieve
  unfold State.readSec
  dsimp only
  rw [hgroup, hteam, overCells_getD _ _ (by rw [overCells_length, hlen]; exact h),
    overCells_getD _ _ (by rw [hlen]; exact h)]

/-! A byte of TIER 0 at its home (R240). -/

theorem State.poisonWord_mem (s : State) (home a : Nat) (l2 : Bool) : (s.poisonWord home a l2).mem = s.mem := by
  unfold State.poisonWord
  dsimp only
  split <;> rfl

theorem State.meetHome_mem (s : State) (home sec : Nat) : (s.meetHome home sec).mem = s.mem := by
  unfold State.meetHome
  dsimp only
  split
  · rfl
  · refine List.foldlRecOn (motive := fun t : State => t.mem = s.mem) _ _ rfl fun t ht e _ => ?_
    split
    · exact (t.poisonWord_mem _ _ _).trans ht
    · exact ht

theorem State.fillFlash_other {s : State} {home sec : Nat} (h : sec * 16 / 2 ^ 64 ≠ 1) : s.fillFlash home sec = s := by
  unfold State.fillFlash
  dsimp only
  rw [decide_eq_false h, Bool.false_and, if_neg Bool.false_ne_true]

theorem State.fillClean_near {s : State} {sec : Nat} {attr : PAttr} {ro : Bool} (h : sec * 16 < 2 * 2 ^ 64) :
    s.fillClean sec attr ro = s := by
  simp only [State.fillClean, h, decide_true, Bool.true_or, if_true]

/-- A byte of the package's DRAM, read at its home by the home's own die, is as memory holds it. -/
theorem State.serve_own {s : State} {die sec : Nat} {attr : PAttr} {ro : Bool} {i : Nat} (hi : i < 16)
    (hhome : attr.home = die) (hk : sec * 16 + i < 2 ^ 64) :
    ((s.serve die sec attr ro).2.getD i {}).val = s.memByte (sec * 16 + i) := by
  have hround : s.roundTrip die attr.home = s := by
    rw [hhome, State.roundTrip]
    simp [State.timeMsg]
  have hflash : s.fillFlash attr.home sec = s := State.fillFlash_other (by omega)
  have hclean : ∀ t : State, t.fillClean sec attr ro = t := fun t => State.fillClean_near (by omega)
  have hserve : (s.serve die sec attr ro).2 = (s.meetHome attr.home sec).homeSec attr.home sec := by
    unfold State.serve
    simp only [hround, hflash, hclean, ite_self]
  rw [hserve, State.homeSec_getD _ _ _ hi]
  simp only [State.homeByte, hk, if_true, State.memByte, State.meetHome_mem]

theorem State.readHome_own {s : State} {die sec : Nat} {attr : PAttr} {ro : Bool} {i : Nat} (hi : i < 16)
    (hhome : attr.home = die) (hk : sec * 16 + i < 2 ^ 64) :
    ((s.readHome die sec attr false ro).2.getD i {}).val = s.memByte (sec * 16 + i) := by
  have hread : s.readHome die sec attr false ro = s.serve die sec attr ro := by
    simp [State.readHome, hhome]
  rw [hread, State.serve_own hi hhome hk]

theorem State.readDev_own {s : State} {die sec : Nat} {attr : PAttr} {ro sieve : Bool} {i : Nat} (hi : i < 16)
    (hhome : attr.home = die) (hk : sec * 16 + i < 2 ^ 64) :
    ((s.readDev die sec attr ro sieve).2.getD i {}).val = s.memByte (sec * 16 + i) := by
  have hread : s.readDev die sec attr ro sieve = s.readHome die sec attr false ro := by
    simp [State.readDev, hhome]
  rw [hread, State.readHome_own hi hhome hk]

/-- Below DEV the cluster's merge area lies over what the L2 gives. -/
theorem State.readBelow_merged {s : State} {gk sec : Nat} {attr : PAttr} {scope : Nat} {acq ro na sieve : Bool} {i : Nat}
    (hi : i < 16) (h : scope ≤ 3) (hl : ((s.coreAt (coreKey (s.group gk).die (s.group gk).core)).l1.getD
      (sec * 64 + (s.group gk).ctx) {}).have_ = false) :
    ∃ b : VByte, (s.readBelow gk sec attr scope acq ro na sieve).2.getD i {}
        = b.over (cellAt (secCells (s.cluster (s.team (s.group gk).team).cluster).merge sec) i)
      ∧ (attr.home = (s.group gk).die → sec * 16 + i < 2 ^ 64 → b.val = s.memByte (sec * 16 + i)) := by
  obtain ⟨u, hu, hread⟩ := State.readBelow_low (attr := attr) (acq := acq) (ro := ro) (na := na) (sieve := sieve) h hl
  have hmem : u.memByte (sec * 16 + i) = s.memByte (sec * 16 + i) := by
    rcases hu with rfl | rfl <;> rfl
  refine ⟨_, ?_, fun hhome hk => (State.readDev_own (s := u) (ro := ro) (sieve := false) hi hhome hk).trans hmem⟩
  rw [hread, overCells_getD _ _ (by rw [State.readDev_length]; exact hi)]

/-- Where neither L1 nor merge area serves, a load that does not acquire finds a byte of its own die's DRAM as memory
holds it. -/
theorem State.readBelow_own {s : State} {gk sec : Nat} {attr : PAttr} {scope : Nat} {ro na sieve : Bool} {i : Nat}
    (hi : i < 16)
    (hc : (cellAt (secCells (s.cluster (s.team (s.group gk).team).cluster).merge sec) i).mask = 0 ∨ 4 ≤ scope)
    (hl : ((s.coreAt (coreKey (s.group gk).die (s.group gk).core)).l1.getD (sec * 64 + (s.group gk).ctx) {}).have_ = false)
    (hhome : attr.home = (s.group gk).die) (hk : sec * 16 + i < 2 ^ 64) :
    ((s.readBelow gk sec attr scope false ro na sieve).2.getD i {}).val = s.memByte (sec * 16 + i) := by
  by_cases h : 4 ≤ scope
  · rw [State.readBelow_high h]
    split
    · exact State.readHome_own hi hhome hk
    · exact State.readDev_own hi hhome hk
  · have hlow : scope ≤ 3 := by omega
    obtain ⟨b, hb, hval⟩ := State.readBelow_merged (attr := attr) (acq := false) (ro := ro) (na := na) (sieve := sieve)
      hi hlow hl
    rw [hb, VByte.over_none _ (hc.resolve_right h)]
    exact hval hhome hk

/-! Reading changes no memory where the L2s have room (01_machine R13). -/

theorem dedup_nodup (l : List Nat) : (dedup l).Nodup :=
  List.foldlRecOn (motive := fun m : List Nat => m.Nodup) _ _ List.nodup_nil fun acc h x _ => by
    split
    · exact h
    · next hx => exact List.nodup_append.2 ⟨h, List.nodup_singleton x, fun a ha b hb hab => hx
        (List.contains_iff_mem.2 (by rw [← List.mem_singleton.1 hb, ← hab]; exact ha))⟩

theorem Die.mem_lines (d : Die) (l : Nat) : l ∈ d.lines ↔ (∃ e ∈ d.guest, e.1 / 8 = l) ∨ (∃ e ∈ d.clean, e.1 / 8 = l)
    ∨ (∃ e ∈ d.dirty, e.1 / 128 = l) ∨ l ∈ d.flash ∨ ∃ e ∈ d.pendH, e.1 = l := by
  simp only [Die.lines, mem_dedup, List.mem_append, List.mem_map, or_assoc]

theorem SMap.mem_set {α : Type} [DecidableEq α] (m : SMap α) (k : Nat) (v d : α) {e : Nat × α} (h : e ∈ m.set k v d) :
    e = (k, v) ∨ e ∈ m := by
  have herase : ∀ e ∈ m.erase k, e ∈ m := fun e he => (List.mem_filter.1 he).1
  unfold SMap.set at h
  split at h
  · exact .inr (herase e h)
  · exact (SMap.mem_ins _ _ _ _ h).imp_right (herase e)

/-- A state has come of another without memory changing, each die's L2 at most having taken in some lines. -/
structure TookIn (ls : List Nat) (s t : State) : Prop where
  mem : t.mem = s.mem
  withdrawn : ∀ d, (t.die d).withdrawn = (s.die d).withdrawn
  lines : ∀ d l, l ∈ (t.die d).lines → l ∈ (s.die d).lines ∨ l ∈ ls

section
variable {ls : List Nat} {s t : State}

theorem TookIn.refl (ls : List Nat) (s : State) : TookIn ls s s := ⟨rfl, fun _ => rfl, fun _ _ h => .inl h⟩

theorem TookIn.trans {u : State} (h : TookIn ls s t) (k : TookIn ls t u) : TookIn ls s u :=
  ⟨k.mem.trans h.mem, fun d => (k.withdrawn d).trans (h.withdrawn d),
    fun d l hl => (k.lines d l hl).elim (h.lines d l) .inr⟩

theorem TookIn.foldl {α : Type} {f : State → α → State} (hf : ∀ s a, TookIn ls s (f s a)) (l : List α) (s : State) :
    TookIn ls s (l.foldl f s) :=
  List.foldlRecOn l f (.refl ls s) fun t ht a _ => ht.trans (hf t a)

theorem TookIn.modDie (s : State) (d : Nat) (f : Die → Die) (hw : (f (s.die d)).withdrawn = (s.die d).withdrawn)
    (hl : ∀ l ∈ (f (s.die d)).lines, l ∈ (s.die d).lines ∨ l ∈ ls) : TookIn ls s (s.modDie d f) := by
  refine ⟨rfl, fun n => ?_, fun n l => ?_⟩
  all_goals rw [State.modDie_die]; split
  · next hn => rw [hn]; exact hw
  · rfl
  · next hn => rw [hn]; exact hl l
  · exact .inl

theorem TookIn.ite {u : State} {p : Prop} [Decidable p] (ht : TookIn ls s t) (hu : TookIn ls s u) :
    TookIn ls s (if p then t else u) := by
  split
  · exact ht
  · exact hu

/-- An L2 with room for all that has been taken in is not full for any line. -/
theorem TookIn.l2Room_eq (h : TookIn ls s t) (hroom : s.L2Room) (hls : ls.length ≤ 32) (d line : Nat) :
    t.l2Room d line = t := by
  have hsub : (t.die d).lines ⊆ (s.die d).lines ++ ls := fun l hl => List.mem_append.2 (h.lines d l hl)
  have hlen := ((dedup_nodup _).subperm hsub).length_le
  have hwith := h.withdrawn d
  have hfree := hroom d
  rw [List.length_append] at hlen
  have hfull : (t.die d).fullFor line = false := by
    rw [Die.fullFor, Bool.and_eq_false_iff]
    refine .inr (decide_eq_false ?_)
    show ¬ 2 ^ 21 ≤ _
    have : (t.die d).lines.length ≤ (s.die d).lines.length + ls.length := hlen
    omega
  rw [State.l2Room, hfull]
  rfl

end

theorem State.timeMsg_tookIn (ls : List Nat) (s : State) (a b : Nat) : TookIn ls s (s.timeMsg a b) :=
  ⟨s.timeMsg_mem a b, State.timeMsg_die (·.withdrawn) (fun _ _ => rfl) (fun _ _ => rfl) s a b,
    fun n l hl => .inl (by
      rwa [State.timeMsg_die (·.lines) (fun _ _ => rfl) (fun _ _ => rfl) s a b n] at hl)⟩

theorem State.roundTrip_tookIn (ls : List Nat) (s : State) (a b : Nat) : TookIn ls s (s.roundTrip a b) :=
  (s.timeMsg_tookIn ls a b).trans (State.timeMsg_tookIn ls _ b a)

/-- A copy put where a copy is takes in no line. -/
theorem SMap.mem_set_line {m : SMap CSec} {k : Nat} {v d : CSec} (h : (m.getD k {}).have_ = true) {l : Nat}
    (hl : ∃ e ∈ m.set k v d, e.1 / 8 = l) : ∃ e ∈ m, e.1 / 8 = l := by
  obtain ⟨e, he, rfl⟩ := hl
  rcases SMap.mem_set _ _ _ _ he with rfl | he
  · exact ⟨_, SMap.getD_mem m k {} (fun h0 => by rw [h0] at h; exact absurd h (by decide)), rfl⟩
  · exact ⟨e, he, rfl⟩

theorem State.poisonWord_tookIn (ls : List Nat) (s : State) (home a : Nat) (l2 : Bool) :
    TookIn ls s (s.poisonWord home a l2) := by
  unfold State.poisonWord
  dsimp only
  split
  · refine .modDie s home (fun _ => _) rfl fun l hl => .inl ?_
    rw [Die.mem_lines] at hl ⊢
    refine hl.imp_right (Or.imp ?_ (Or.imp_left ?_))
    · split
      · next h => exact SMap.mem_set_line h
      · exact id
    · rintro ⟨e, he, rfl⟩
      obtain ⟨x, hx, rfl⟩ := List.mem_map.1 he
      exact ⟨x, hx, rfl⟩
  · exact ⟨rfl, fun _ => rfl, fun _ _ => .inl⟩

theorem State.meetHome_tookIn (ls : List Nat) (s : State) (home sec : Nat) : TookIn ls s (s.meetHome home sec) := by
  unfold State.meetHome
  dsimp only
  refine .ite (.refl ls s) ((TookIn.foldl (fun t e => ?_) _ s).trans (.modDie _ home _ rfl fun l hl => .inl hl))
  exact .ite (t.poisonWord_tookIn ls _ _ _) (.refl ls t)

theorem State.meetGuest_tookIn (ls : List Nat) (s : State) (die sec : Nat) : TookIn ls s (s.meetGuest die sec) := by
  unfold State.meetGuest
  dsimp only
  refine .ite (.refl ls s) (.modDie s die _ rfl fun l hl => .inl ?_)
  rw [Die.mem_lines] at hl ⊢
  refine hl.imp_left ?_
  refine List.foldlRecOn (motive := fun m : SMap CSec => (∃ e ∈ m, e.1 / 8 = l) → ∃ e ∈ (s.die die).guest, e.1 / 8 = l)
    _ _ id fun m hm e _ => ?_
  split
  · next h => exact fun hx => hm (SMap.mem_set_line h hx)
  · exact hm

/-- The lines that a read of a sector can bring into an L2: those of its Granary page, or its own. -/
def linesFor (sec : Nat) : List Nat :=
  if sec * 16 / 2 ^ 64 = 1 then (List.range 32).map (fun i => flashPage (sec * 16) * 32 + i) else [sec / 8]

theorem linesFor_length (sec : Nat) : (linesFor sec).length ≤ 32 := by
  unfold linesFor
  split <;> simp

theorem mem_linesFor (sec : Nat) : sec / 8 ∈ linesFor sec := by
  unfold linesFor
  split
  · refine List.mem_map.2 ⟨sec / 8 % 32, List.mem_range.2 (by omega), ?_⟩
    rw [flashPage]
    omega
  · simp

section
variable {s t : State} {sec : Nat} (h : TookIn (linesFor sec) s t) (hroom : s.L2Room)
include h hroom

theorem State.fillFlash_tookIn (home : Nat) : TookIn (linesFor sec) s (t.fillFlash home sec) := by
  unfold State.fillFlash
  dsimp only
  split
  · next hp =>
    have hsec : sec * 16 / 2 ^ 64 = 1 := of_decide_eq_true (Bool.and_eq_true_iff.1 hp).1
    have hempty := h.trans (TookIn.modDie t home (fun d => { d with
      flash := d.flash.filter (fun l => l / 32 ≠ flashPage (sec * 16))
      flashOld := d.flashOld.filter (fun e => flashPage e.1 ≠ flashPage (sec * 16)) }) rfl fun l hl => .inl (by
        rw [Die.mem_lines] at hl ⊢
        exact hl.imp_right (Or.imp_right (Or.imp_right (Or.imp_left fun hf => (List.mem_filter.1 hf).1)))))
    refine List.foldlRecOn (motive := TookIn (linesFor sec) s) _ _ hempty fun u hu i hi => ?_
    rw [hu.l2Room_eq hroom (linesFor_length sec)]
    refine hu.trans (.modDie u home _ rfl fun l hl => ?_)
    have hline : flashPage (sec * 16) * 32 + i ∈ linesFor sec := by
      rw [linesFor, if_pos hsec]
      exact List.mem_map.2 ⟨i, hi, rfl⟩
    simp only [Die.mem_lines, List.mem_append, List.mem_singleton] at hl ⊢
    rcases hl with hl | hl | hl | (hl | rfl) | hl
    · exact .inl (.inl hl)
    · exact .inl (.inr (.inl hl))
    · exact .inl (.inr (.inr (.inl hl)))
    · exact .inl (.inr (.inr (.inr (.inl hl))))
    · exact .inr hline
    · exact .inl (.inr (.inr (.inr (.inr hl))))
  · exact h

theorem State.fillClean_tookIn (attr : PAttr) (ro : Bool) : TookIn (linesFor sec) s (t.fillClean sec attr ro) := by
  unfold State.fillClean
  dsimp only
  rw [h.l2Room_eq hroom (linesFor_length sec)]
  refine .ite h (h.trans (.modDie t attr.home _ rfl fun l hl => ?_))
  rw [Die.mem_lines] at hl ⊢
  dsimp only at hl
  rcases hl with hl | ⟨e, he, rfl⟩ | hl
  · exact .inl (.inl hl)
  · rcases SMap.mem_set _ _ _ _ he with rfl | he
    · exact .inr (mem_linesFor sec)
    · exact .inl (.inr (.inl ⟨e, he, rfl⟩))
  · exact .inl (.inr (.inr hl))

theorem State.fillGuest_tookIn (die : Nat) (attr : PAttr) (ro : Bool) (bs : List VByte) :
    TookIn (linesFor sec) s (t.fillGuest die sec attr ro bs) := by
  unfold State.fillGuest
  rw [h.l2Room_eq hroom (linesFor_length sec)]
  refine .ite h (h.trans (.modDie t die _ rfl fun l hl => ?_))
  rw [Die.mem_lines] at hl ⊢
  dsimp only at hl
  rcases hl with ⟨e, he, rfl⟩ | hl
  · rcases SMap.mem_set _ _ _ _ he with rfl | he
    · exact .inr (mem_linesFor sec)
    · exact .inl (.inl ⟨e, he, rfl⟩)
  · exact .inl (.inr hl)

theorem State.serve_tookIn (die : Nat) (attr : PAttr) (ro : Bool) : TookIn (linesFor sec) s (t.serve die sec attr ro).1 := by
  have hround := h.trans (State.roundTrip_tookIn (linesFor sec) t die attr.home)
  have hflash : TookIn (linesFor sec) s (if attr.cp = 2 then t.roundTrip die attr.home
      else (t.roundTrip die attr.home).fillFlash attr.home sec) :=
    .ite hround (State.fillFlash_tookIn hround hroom attr.home)
  exact State.fillClean_tookIn (hflash.trans (State.meetHome_tookIn _ _ attr.home sec)) hroom attr ro

theorem State.readHome_tookIn {die : Nat} {attr : PAttr} {ro : Bool} (hhome : attr.home = die) :
    TookIn (linesFor sec) s (t.readHome die sec attr false ro).1 := by
  have hread : t.readHome die sec attr false ro = t.serve die sec attr ro := by simp [State.readHome, hhome]
  rw [hread]
  exact State.serve_tookIn h hroom die attr ro

theorem State.readDev_tookIn {die : Nat} {attr : PAttr} {ro sieve : Bool} (hd : attr.home = die ∨ attr.cp ≠ 2) :
    TookIn (linesFor sec) s (t.readDev die sec attr ro sieve).1 := by
  have hmeet := h.trans (State.meetGuest_tookIn (linesFor sec) t die sec)
  have hserve := State.serve_tookIn hmeet hroom die attr ro
  unfold State.readDev
  split
  · next hc =>
    have hhome : attr.home = die := by
      rcases hd with hd | hd
      · exact hd
      · simpa [hd] using hc
    exact State.readHome_tookIn h hroom hhome
  · dsimp only
    split
    · exact hmeet
    · exact .ite hserve (State.fillGuest_tookIn hserve hroom die attr ro _)

end

theorem State.countL1_tookIn (ls : List Nat) (s : State) (ck ctx sec code : Nat) :
    TookIn ls s (s.countL1 ck ctx sec code) := ⟨rfl, fun _ => rfl, fun _ _ => .inl⟩

theorem State.fillL1_tookIn (ls : List Nat) (s : State) (ck key : Nat) (ro swc : Bool) (clus : Nat) (bs : List VByte) :
    TookIn ls s (s.fillL1 ck key ro swc clus bs) :=
  .ite (.refl ls s) ⟨rfl, fun _ => rfl, fun _ _ => .inl⟩

/-- A load that does not acquire, and of another die's home none of CP 2 or at SYS, brings lines in at most. -/
theorem State.readBelow_tookIn {s : State} (hroom : s.L2Room) {gk sec : Nat} {attr : PAttr} {scope : Nat}
    {ro na sieve : Bool} (hd : attr.home = (s.group gk).die ∨ (attr.cp ≠ 2 ∧ scope ≤ 4)) :
    TookIn (linesFor sec) s (s.readBelow gk sec attr scope false ro na sieve).1 := by
  have hdev := hd.imp_right And.left
  have hl1 : ∀ {p : Prop} [Decidable p] (t : State) ck key swc clus bs, TookIn (linesFor sec) s t →
      TookIn (linesFor sec) s (if p then t.fillL1 ck key ro swc clus bs else t) :=
    fun t _ _ _ _ _ h => .ite (h.trans (t.fillL1_tookIn _ _ _ _ _ _ _)) h
  have hc : ∀ ck ctx code, TookIn (linesFor sec) s (s.countL1 ck ctx sec code) :=
    fun _ _ _ => s.countL1_tookIn _ _ _ _ _
  unfold State.readBelow
  dsimp only
  split
  · refine hl1 _ _ _ _ _ _ ?_
    split
    · next h5 =>
      have hhome : attr.home = (s.group gk).die := by
        refine hd.resolve_right fun hn => ?_
        have : scope = 5 := by simpa using h5
        omega
      have hh := State.readHome_tookIn (.refl (linesFor sec) s) hroom (ro := ro) hhome
      exact .ite hh (State.fillGuest_tookIn hh hroom _ _ _ _)
    · exact State.readDev_tookIn (.refl _ s) hroom hdev
  · split
    · exact hc _ _ _
    · refine hl1 _ _ _ _ _ _ (State.readDev_tookIn ?_ hroom hdev)
      exact .ite (hc _ _ _) (.refl _ s)

end Sys2Proof.Machine
end

section
/-!
PROOF. Where stored bytes land (09_memory R183, R184; 11_visibility R225, R228): the sectors of a store, the group's store
buffer, and what a store at DEV carries home; and the statement made of loads and stores on the ladder.
-/

namespace Sys2Proof.Machine

/-! Whole bytes merged over older ones (R225). -/

theorem BCell.merge_blank (c : BCell) : c.merge {} = c := if_pos rfl

theorem BCell.merge_whole (old : BCell) {c : BCell} (h : c.mask = 0xFF) : old.merge c = c := by
  obtain ⟨val, mask, pois, by_, seq, wr⟩ := c
  obtain rfl : mask = 0xFF := h
  have hmask : old.mask ||| (0xFF : Byte) = 0xFF := BitVec.or_allOnes
  simp only [BCell.merge, overwritten, hmask]
  simp

theorem BCell.onto_whole {c : BCell} (h : c.mask = 0xFF) (x : Byte) : c.onto x = c.val := by
  rw [BCell.onto, h, overwritten]

/-- Cells of whole readable bytes of a sector, in their order, that one group wrote. -/
structure WholeCells (wr : Nat) (m : SMap BCell) : Prop where
  sorted : m.sorted = true
  whole : ∀ c ∈ m, c.1 < 16 ∧ c.2.mask = 0xFF ∧ c.2.pois = false ∧ c.2.wr = wr

section
variable {wr : Nat} {m : SMap BCell}

theorem WholeCells.nil (wr : Nat) : WholeCells wr [] := ⟨rfl, fun _ h => absurd h List.not_mem_nil⟩

theorem WholeCells.set (h : WholeCells wr m) {i : Nat} {c : BCell} (hi : i < 16) (hmask : c.mask = 0xFF)
    (hpois : c.pois = false) (hwr : c.wr = wr) : WholeCells wr (m.set i c {}) := by
  refine ⟨?_, fun e he => ?_⟩
  · unfold SMap.set
    split
    · exact SMap.sorted_filter _ _ h.sorted
    · exact SMap.sorted_ins _ _ _ (SMap.sorted_filter _ _ h.sorted) (m.erase_keys i)
  · rcases SMap.mem_set _ _ _ _ he with rfl | he
    · exact ⟨hi, hmask, hpois, hwr⟩
    · exact h.whole e he

theorem SMap.sorted_nodup {α : Type} {m : SMap α} (h : m.sorted = true) : (m.map (·.1)).Nodup := by
  induction m with
  | nil => exact List.nodup_nil
  | cons e t ih =>
    refine List.nodup_cons.2 ⟨fun he => ?_, ih (SMap.sorted_tail e t h)⟩
    obtain ⟨f, hf, hfe⟩ := List.mem_map.1 he
    exact Nat.ne_of_gt (SMap.sorted_lt e t h f hf) hfe

/-- A cell of whole ones is blank, or whole. -/
theorem WholeCells.cellAt (h : WholeCells wr m) (i : Nat) : cellAt m i = {} ∨ (cellAt m i).mask = 0xFF := by
  by_cases hb : Machine.cellAt m i = {}
  · exact .inl hb
  · exact .inr (h.whole _ (SMap.getD_mem m i {} hb)).2.1

theorem WholeCells.merge_cellAt (h : WholeCells wr m) (i : Nat) :
    (({} : BCell).merge (Machine.cellAt m i)) = Machine.cellAt m i := by
  rcases h.cellAt i with hb | hb
  · rw [hb]
    rfl
  · exact BCell.merge_whole _ hb

theorem WholeCells.mergeCells (h : WholeCells wr m) : WholeCells wr (mergeCells [] m) :=
  List.foldlRecOn (motive := WholeCells wr) _ _ (.nil wr) fun t ht e he => by
    obtain ⟨hi, hmask, hpois, hwr⟩ := h.whole e he
    rw [BCell.merge_whole _ hmask]
    exact ht.set hi hmask hpois hwr

end

/-- A table's entry merged over a cell: the blank entry changes nothing. -/
theorem find_elim_merge (m : SMap BCell) (i : Nat) (c : BCell) :
    (m.find? (fun e => e.1 = i)).elim c (fun e => c.merge e.2) = c.merge (cellAt m i) := by
  induction m with
  | nil => exact c.merge_blank.symm
  | cons e t ih =>
    obtain ⟨j, x⟩ := e
    rw [cellAt, SMap.getD_cons, List.find?_cons]
    by_cases h : j = i
    · rw [decide_eq_true h, if_pos h]
      rfl
    · rw [decide_eq_false h, if_neg h]
      exact ih

theorem cellAt_mergeCells (old : SMap BCell) {new : SMap BCell} (h : (new.map (·.1)).Nodup) (i : Nat) :
    cellAt (mergeCells old new) i = (cellAt old i).merge (cellAt new i) := by
  refine Eq.trans (foldl_at_place (g := fun m => cellAt m i) (h := fun e c => c.merge e.2)
    (fun m e _ => ?_) h old) (find_elim_merge new i (cellAt old i))
  rw [cellAt, SMap.getD_set]
  by_cases hi : i = e.1
  · rw [if_pos hi, if_pos hi.symm, hi]
  · rw [if_neg hi, if_neg (Ne.symm hi)]
    rfl

/-! The sectors of stored bytes (R184, R225). -/

/-- A sector's number put before the larger ones. -/
def insertSector (acc : List Nat) (x : Nat) : List Nat :=
  acc.takeWhile (fun y => y < x) ++ [x] ++ acc.dropWhile (fun y => y < x)

theorem insertSector_perm (acc : List Nat) (x : Nat) : (insertSector acc x).Perm (x :: acc) :=
  takeWhile_append_dropWhile_perm _ acc x

/-- The numbers of the sectors of stored bytes. -/
def sectorNumbers (bs : List SByte) : List Nat :=
  bs.foldl (fun acc b => if acc.contains (b.pk / 16) then acc else insertSector acc (b.pk / 16)) []

/-- What a store lays into a sector: its bytes there, a later one over an earlier. -/
def sectorCells (bs : List SByte) (wr sec : Nat) : SMap BCell :=
  (bs.filter (fun b => b.pk / 16 = sec)).foldl (fun m b =>
    mergeCells m [(b.pk % 16, { val := b.val, mask := b.mask, by_ := wr, wr })]) []

/-- A sector of a store. -/
def sectorEntry (bs : List SByte) (wr sec : Nat) : SecEntry :=
  { sec, attr := ((bs.filter (fun b => b.pk / 16 = sec)).headD {}).attr, cells := sectorCells bs wr sec }

theorem sectorsOf_eq (bs : List SByte) (wr : Nat) : sectorsOf bs wr = (sectorNumbers bs).map (sectorEntry bs wr) := rfl

theorem sectorNumbers_spec (bs : List SByte) :
    (sectorNumbers bs).Nodup ∧ ∀ sec, sec ∈ sectorNumbers bs ↔ ∃ b ∈ bs, b.pk / 16 = sec := by
  unfold sectorNumbers
  induction bs using List.reverseRecOn with
  | nil => exact ⟨List.nodup_nil, fun sec => by simp⟩
  | append_singleton l b ih =>
    obtain ⟨hn, hm⟩ := ih
    rw [List.foldl_append, List.foldl_cons, List.foldl_nil]
    generalize l.foldl (fun acc b => if acc.contains (b.pk / 16) then acc else insertSector acc (b.pk / 16)) [] = acc
      at hn hm ⊢
    have hsnoc : ∀ sec, (∃ x ∈ l ++ [b], x.pk / 16 = sec) ↔ (sec = b.pk / 16 ∨ sec ∈ acc) := fun sec => by
      rw [hm]
      simp only [List.mem_append, List.mem_singleton, or_and_right, exists_or, exists_eq_left]
      rw [or_comm, eq_comm]
    split
    · next hc =>
      refine ⟨hn, fun sec => ?_⟩
      rw [hsnoc]
      exact ⟨.inr, fun h => h.elim (fun he => he ▸ List.contains_iff_mem.1 hc) id⟩
    · next hc =>
      have hp := insertSector_perm acc (b.pk / 16)
      refine ⟨hp.nodup_iff.2 (List.nodup_cons.2 ⟨fun h => hc (List.contains_iff_mem.2 h), hn⟩), fun sec => ?_⟩
      rw [hsnoc, hp.mem_iff, List.mem_cons]

theorem sectorsOf_secs (bs : List SByte) (wr : Nat) : (sectorsOf bs wr).map (·.sec) = sectorNumbers bs := by
  rw [sectorsOf_eq, List.map_map]
  exact List.map_id' _

theorem findSec_sec {l : List SecEntry} {sec : Nat} {e : SecEntry} (h : findSec l sec = some e) : e.sec = sec :=
  of_decide_eq_true (List.find?_some (p := fun e : SecEntry => decide (e.sec = sec)) h)

/-- A buffer of a store's sectors holds of each sector what the store lays into it. -/
theorem secCells_sectorsOf (bs : List SByte) (wr sec : Nat) : secCells (sectorsOf bs wr) sec = sectorCells bs wr sec := by
  unfold secCells
  cases h : findSec (sectorsOf bs wr) sec with
  | none =>
    have hnone : bs.filter (fun b => b.pk / 16 = sec) = [] := by
      refine List.filter_eq_nil_iff.2 fun b hb hsec => ?_
      have hmem := (sectorNumbers_spec bs).2 sec |>.2 ⟨b, hb, of_decide_eq_true hsec⟩
      exact List.find?_eq_none.1 h (sectorEntry bs wr sec) (List.mem_map.2 ⟨sec, hmem, rfl⟩) (decide_eq_true rfl)
    rw [sectorCells, hnone]
    rfl
  | some e =>
    obtain ⟨j, -, rfl⟩ := List.mem_map.1 (List.mem_of_find?_eq_some h)
    have hj : j = sec := findSec_sec h
    rw [hj]
    rfl

theorem storedAt_append (l : List SByte) (b : SByte) (k : Nat) :
    storedAt (l ++ [b]) k = if b.pk = k then some b else storedAt l k := by
  rw [storedAt, List.reverse_append, List.reverse_singleton, List.singleton_append, List.find?_cons]
  by_cases h : b.pk = k
  · rw [decide_eq_true h, if_pos h]
  · rw [decide_eq_false h, if_neg h]
    rfl

/-- The cell of a whole byte that a group stored. -/
def wholeCell (wr : Nat) (b : SByte) : BCell := { val := b.val, mask := 0xFF, pois := false, by_ := wr, seq := 0, wr }

/-- A sector of a store of whole bytes: its cells are whole, and each is the last byte stored there. -/
theorem sectorCells_whole {bs : List SByte} (h : ∀ b ∈ bs, b.mask = 0xFF) (wr sec : Nat) :
    WholeCells wr (sectorCells bs wr sec)
      ∧ ∀ i, i < 16 → cellAt (sectorCells bs wr sec) i = (storedAt bs (sec * 16 + i)).elim {} (wholeCell wr) := by
  induction bs using List.reverseRecOn with
  | nil => exact ⟨.nil wr, fun _ _ => rfl⟩
  | append_singleton l b ih =>
    obtain ⟨hw, hc⟩ := ih fun x hx => h x (List.mem_append_left _ hx)
    have hb : b.mask = 0xFF := h b (by simp)
    by_cases hs : b.pk / 16 = sec
    · have hsnoc : sectorCells (l ++ [b]) wr sec = (sectorCells l wr sec).set (b.pk % 16) (wholeCell wr b) {} := by
        rw [sectorCells, List.filter_append, List.filter_cons_of_pos (by simpa using hs), List.foldl_append]
        show (sectorCells l wr sec).set (b.pk % 16) (BCell.merge _ _) {} = _
        rw [BCell.merge_whole _ hb, hb]
        rfl
      rw [hsnoc]
      refine ⟨hw.set (Nat.mod_lt _ (by decide)) rfl rfl rfl, fun i hi => ?_⟩
      rw [cellAt, SMap.getD_set, storedAt_append]
      by_cases hk : i = b.pk % 16
      · rw [if_pos hk, if_pos (by omega)]
        rfl
      · rw [if_neg hk, if_neg (by omega)]
        exact hc i hi
    · have hsnoc : sectorCells (l ++ [b]) wr sec = sectorCells l wr sec := by
        rw [sectorCells, List.filter_append, List.filter_cons_of_neg (by simpa using hs), List.filter_nil, List.append_nil]
        rfl
      rw [hsnoc]
      refine ⟨hw, fun i hi => ?_⟩
      rw [storedAt_append, if_neg (by omega)]
      exact hc i hi

/-- A sector of a store of whole bytes. -/
theorem mem_sectorsOf {bs : List SByte} {wr : Nat} {e : SecEntry} (h : e ∈ sectorsOf bs wr) :
    ∃ b ∈ bs, b.pk / 16 = e.sec ∧ e.attr = b.attr ∧ e.cells = sectorCells bs wr e.sec := by
  rw [sectorsOf_eq] at h
  obtain ⟨sec, hsec, rfl⟩ := List.mem_map.1 h
  obtain ⟨b, hb, hs⟩ := (sectorNumbers_spec bs).2 sec |>.1 hsec
  have hmine : b ∈ bs.filter (fun b => b.pk / 16 = sec) := List.mem_filter.2 ⟨hb, decide_eq_true hs⟩
  have hne := List.ne_nil_of_mem hmine
  have hhead := List.mem_filter.1 (List.head_mem hne)
  refine ⟨_, hhead.1, of_decide_eq_true hhead.2, ?_, rfl⟩
  rw [sectorEntry, List.headD_eq_head?_getD, List.head?_eq_some_head hne, Option.getD_some]

/-! The group's store buffer (R225). -/

/-- A store buffer with a sector's bytes added. -/
def gsbWith (gsb : List SecEntry) (e : SecEntry) : List SecEntry :=
  if (findSec gsb e.sec).isSome then mergeSec gsb e else gsb ++ [e]

theorem gsbWith_new {gsb : List SecEntry} {e : SecEntry} (h : findSec gsb e.sec = none) : gsbWith gsb e = gsb ++ [e] := by
  rw [gsbWith, h]
  rfl

theorem gsbWith_length (gsb : List SecEntry) (e : SecEntry) : (gsbWith gsb e).length ≤ gsb.length + 1 := by
  unfold gsbWith mergeSec
  split
  · rw [List.length_map]
    exact Nat.le_succ _
  · rw [List.length_append, List.length_singleton]

theorem secCells_mergeSec (gsb : List SecEntry) (e : SecEntry) (sec : Nat) : secCells (mergeSec gsb e) sec
    = (findSec gsb sec).elim [] (fun x => if x.sec = e.sec then mergeCells x.cells e.cells else x.cells) := by
  have hsec : ((fun x : SecEntry => decide (x.sec = sec))
      ∘ fun x => if x.sec = e.sec then { x with cells := mergeCells x.cells e.cells } else x)
      = fun x => decide (x.sec = sec) := funext fun x => by
    dsimp only [Function.comp_apply]
    split <;> rfl
  rw [secCells, mergeSec, findSec, List.find?_map, hsec, findSec]
  cases gsb.find? (fun x => decide (x.sec = sec)) with
  | none => rfl
  | some x =>
    dsimp only [Option.map_some, Option.elim_some]
    split <;> rfl

theorem findSec_append_single (gsb : List SecEntry) (e : SecEntry) (sec : Nat) :
    findSec (gsb ++ [e]) sec = (findSec gsb sec).or (if e.sec = sec then some e else none) := by
  rw [findSec, List.find?_append, List.find?_singleton]
  simp only [decide_eq_true_eq, findSec]

/-- What a store buffer holds of a byte after whole bytes of a sector were added. -/
theorem gsbWith_cellAt {gsb : List SecEntry} {e : SecEntry} {wr : Nat} (h : WholeCells wr e.cells) (sec i : Nat) :
    cellAt (secCells (gsbWith gsb e) sec) i = if e.sec = sec then (cellAt (secCells gsb sec) i).merge (cellAt e.cells i)
      else cellAt (secCells gsb sec) i := by
  have hnodup := SMap.sorted_nodup h.sorted
  by_cases hf : (findSec gsb e.sec).isSome = true
  · rw [gsbWith, if_pos hf, secCells_mergeSec, secCells]
    by_cases hs : e.sec = sec
    · obtain ⟨x, hx⟩ := Option.isSome_iff_exists.1 (hs ▸ hf)
      have hxs : x.sec = e.sec := hs ▸ findSec_sec hx
      rw [hx, if_pos hs]
      dsimp only [Option.elim_some]
      rw [if_pos hxs, cellAt_mergeCells _ hnodup]
    · rw [if_neg hs]
      cases hx : findSec gsb sec with
      | none => rfl
      | some x =>
        dsimp only [Option.elim_some]
        rw [if_neg (fun he => hs (he.symm.trans (findSec_sec hx)))]
  · rw [gsbWith, if_neg hf, secCells, findSec_append_single, secCells]
    by_cases hs : e.sec = sec
    · rw [Bool.not_eq_true, Option.isSome_eq_false_iff, Option.isNone_iff_eq_none, hs] at hf
      rw [hf, if_pos hs, if_pos hs]
      exact (h.merge_cellAt i).symm
    · rw [if_neg hs, if_neg hs, Option.or_none]

/-- What a store buffer holds of a byte after sectors of whole bytes were added. -/
theorem foldl_gsbWith_cellAt {es : List SecEntry} (wr : Nat) (h : ∀ e ∈ es, WholeCells wr e.cells)
    (hn : (es.map (·.sec)).Nodup) (gsb : List SecEntry) (sec i : Nat) :
    cellAt (secCells (es.foldl gsbWith gsb) sec) i = (cellAt (secCells gsb sec) i).merge (cellAt (secCells es sec) i) := by
  refine (foldl_at_place (g := fun l => cellAt (secCells l sec) i) (h := fun e c => c.merge (cellAt e.cells i))
    (fun l e he => gsbWith_cellAt (h e he) sec i) hn gsb).trans ?_
  unfold secCells findSec
  cases es.find? (fun e => decide (e.sec = sec)) with
  | none => exact (BCell.merge_blank _).symm
  | some e => rfl

theorem State.gsbAdd_room {s : State} {gk : Nat} {e : SecEntry} (h : (s.group gk).gsb.length < (s.group gk).gsbCap) :
    s.gsbAdd gk e = s.setGroup gk { s.group gk with gsb := gsbWith (s.group gk).gsb e } := by
  unfold State.gsbAdd gsbWith
  dsimp only
  split
  · rfl
  · rw [if_neg (by omega)]
    rfl

/-- Sectors added to a store buffer that has room for them. -/
theorem State.foldl_gsbAdd {s : State} {gk : Nat} {es : List SecEntry} (hne : es ≠ [])
    (h : (s.group gk).gsb.length + es.length ≤ (s.group gk).gsbCap) : es.foldl (fun v e => v.gsbAdd gk e) s
      = s.setGroup gk { s.group gk with gsb := es.foldl gsbWith (s.group gk).gsb } := by
  have hset : ∀ (es : List SecEntry) (gsb : List SecEntry), gsb.length + es.length ≤ (s.group gk).gsbCap →
      es.foldl (fun v e => v.gsbAdd gk e) (s.setGroup gk { s.group gk with gsb })
        = s.setGroup gk { s.group gk with gsb := es.foldl gsbWith gsb } := by
    intro es
    induction es with
    | nil => exact fun _ _ => rfl
    | cons e t ih =>
      intro gsb hlen
      have hlong := gsbWith_length gsb e
      rw [List.length_cons] at hlen
      rw [List.foldl_cons, State.gsbAdd_room (by rw [State.setGroup_group_same]; dsimp only; omega),
        State.setGroup_group_same, State.setGroup_setGroup]
      exact ih (gsbWith gsb e) (by omega)
  cases es with
  | nil => exact absurd rfl hne
  | cons e t =>
    have hlong := gsbWith_length (s.group gk).gsb e
    rw [List.length_cons] at h
    rw [List.foldl_cons, State.gsbAdd_room (by omega)]
    exact hset t _ (by omega)

section
variable {s : State} {gk : Nat} {bs : List SByte}

theorem sectorsOf_ne_nil (wr : Nat) (h : bs ≠ []) : sectorsOf bs wr ≠ [] := by
  obtain ⟨b, hb⟩ := List.exists_mem_of_ne_nil _ h
  have := (sectorNumbers_spec bs).2 (b.pk / 16) |>.2 ⟨b, hb, rfl⟩
  rw [← sectorsOf_secs bs wr] at this
  intro hn
  rw [hn] at this
  exact List.not_mem_nil this

theorem sectorsOf_nodup (bs : List SByte) (wr : Nat) : ((sectorsOf bs wr).map (·.sec)).Nodup := by
  rw [sectorsOf_secs]
  exact (sectorNumbers_spec bs).1

theorem sectorsOf_whole (h : ∀ b ∈ bs, b.mask = 0xFF) {wr : Nat} : ∀ e ∈ sectorsOf bs wr, WholeCells wr e.cells := by
  intro e he
  obtain ⟨-, -, -, -, hcells⟩ := mem_sectorsOf he
  rw [hcells]
  exact (sectorCells_whole h wr _).1

/-- A byte of a store's sectors is the last that was stored there. -/
theorem sectorsOf_cellAt (h : ∀ b ∈ bs, b.mask = 0xFF) (wr k : Nat) :
    cellAt (secCells (sectorsOf bs wr) (k / 16)) (k % 16) = (storedAt bs k).elim {} (wholeCell wr) := by
  rw [secCells_sectorsOf, (sectorCells_whole h wr _).2 _ (Nat.mod_lt _ (by decide)),
    show k / 16 * 16 + k % 16 = k by omega]

/-- A store at GRP stands in the group's store buffer. -/
theorem State.storeBytes_grp (hne : bs ≠ [])
    (h : (s.group gk).gsb.length + (sectorsOf bs gk).length ≤ (s.group gk).gsbCap) : s.storeBytes gk bs 1 false
      = s.setGroup gk { s.group gk with gsb := (sectorsOf bs gk).foldl gsbWith (s.group gk).gsb } :=
  State.foldl_gsbAdd (sectorsOf_ne_nil gk hne) h

/-- The last store to a byte is the one buffered. -/
theorem buffered_after (g : Group) (h : ∀ b ∈ bs, b.mask = 0xFF) (wr k : Nat) :
    ({ g with gsb := (sectorsOf bs wr).foldl gsbWith g.gsb } : Group).buffered k
      = (storedAt bs k).elim (g.buffered k) (wholeCell wr) := by
  rw [Group.buffered, foldl_gsbWith_cellAt wr (sectorsOf_whole h) (sectorsOf_nodup bs wr), sectorsOf_cellAt h]
  cases storedAt bs k with
  | none => exact BCell.merge_blank _
  | some b => exact BCell.merge_whole _ rfl

end

/-! What a store at DEV takes out of the buffers below (R183). -/

theorem takeOwn_none {gk sec : Nat} {l : List SecEntry} (h : findSec l sec = none) : takeOwn gk l sec = ([], l) := by
  have hsec : ∀ e ∈ l, e.sec ≠ sec := fun e he hs => List.find?_eq_none.1 h e he (decide_eq_true hs)
  have hmap : l.map (fun e => if e.sec = sec then { e with cells := e.cells.filter (fun c => c.2.wr ≠ gk) } else e) = l :=
    (List.map_congr_left fun e he => if_neg (hsec e he)).trans (List.map_id' l)
  have hall : l.filter (fun e => e.sec ≠ sec || !e.cells.isEmpty) = l := List.filter_eq_self.2 fun e he => by
    rw [decide_eq_true (hsec e he), Bool.true_or]
  rw [takeOwn, secCells, h, hmap, hall]
  rfl

/-- A group's own whole sector is taken out of a buffer that has no other of it. -/
theorem takeOwn_own {gk : Nat} {l rest : List SecEntry} {e : SecEntry} (hl : findSec l e.sec = none)
    (hr : findSec rest e.sec = none) (hw : WholeCells gk e.cells) :
    takeOwn gk (l ++ e :: rest) e.sec = (e.cells, l ++ rest) := by
  have hmine : e.cells.filter (fun c => c.2.wr = gk) = e.cells :=
    List.filter_eq_self.2 fun c hc => decide_eq_true (hw.whole c hc).2.2.2
  have hnone : e.cells.filter (fun c => c.2.wr ≠ gk) = [] :=
    List.filter_eq_nil_iff.2 fun c hc => by simp [(hw.whole c hc).2.2.2]
  have hfind : findSec (l ++ e :: rest) e.sec = some e := by
    rw [findSec, List.find?_append, show l.find? (fun x => x.sec = e.sec) = none from hl, Option.none_or]
    exact List.find?_cons_of_pos (p := fun x : SecEntry => decide (x.sec = e.sec)) (decide_eq_true rfl)
  have hleft := congrArg Prod.snd (takeOwn_none (gk := gk) hl)
  have hright := congrArg Prod.snd (takeOwn_none (gk := gk) hr)
  simp only [takeOwn] at hleft hright
  rw [takeOwn, secCells, hfind, List.map_append, List.filter_append, hleft, List.map_cons, if_pos rfl,
    List.filter_cons_of_neg (by rw [hnone]; simp), hright]
  exact Prod.ext hmine rfl

/-- Of all that is buffered below DEV, only a group's store buffer reads otherwise than before. -/
structure GsbLeft (gk : Nat) (gsb : List SecEntry) (s u : State) : Prop where
  only : u = { s with groups := u.groups, teams := u.teams, clusters := u.clusters }
  team : ∀ k, u.team k = s.team k
  cluster : ∀ k, u.cluster k = s.cluster k
  own : u.group gk = { s.group gk with gsb }
  other : ∀ k, k ≠ gk → u.group k = s.group k

theorem GsbLeft.cur {gk : Nat} {gsb : List SecEntry} {s u : State} (h : GsbLeft gk gsb s u) : u.cur = s.cur := by
  rw [h.only]

theorem GsbLeft.memByte {gk : Nat} {gsb : List SecEntry} {s u : State} (h : GsbLeft gk gsb s u) (k : Nat) :
    u.memByte k = s.memByte k := by
  rw [h.only]
  rfl

/-- A sector as a store carries it up: its bytes over nothing older. -/
def SecEntry.carried (e : SecEntry) : SecEntry := { e with cells := mergeCells [] e.cells }

/-- No buffer of a group's path holds a sector. -/
def State.Unbuffered (s : State) (gk sec : Nat) : Prop :=
  findSec (s.group gk).gsb sec = none ∧ findSec (s.team (s.group gk).team).twb sec = none
    ∧ findSec (s.cluster (s.team (s.group gk).team).cluster).merge sec = none

theorem State.gather_own {s u : State} {gk : Nat} {e : SecEntry} {rest : List SecEntry}
    (h : GsbLeft gk ((s.group gk).gsb ++ e :: rest) s u) (hu : s.Unbuffered gk e.sec) (hr : findSec rest e.sec = none)
    (hw : WholeCells gk e.cells) :
    ∃ v, u.gather gk 4 false e = (v, e.carried) ∧ GsbLeft gk ((s.group gk).gsb ++ rest) s v := by
  obtain ⟨hgsb, htwb, hmerge⟩ := hu
  refine ⟨((u.setCluster (s.team (s.group gk).team).cluster (s.cluster (s.team (s.group gk).team).cluster)).setTeam
    (s.group gk).team (s.team (s.group gk).team)).setGroup gk { s.group gk with gsb := (s.group gk).gsb ++ rest }, ?_, ?_⟩
  · unfold State.gather
    simp only [h.own, h.team, h.cluster, Bool.not_false, Bool.and_true, Nat.le_refl, decide_true, if_true,
      Bool.false_eq_true, if_false, takeOwn_none hmerge, takeOwn_none htwb, takeOwn_own hgsb hr hw]
    rfl
  · have honly := h.only
    refine ⟨?_, fun k => ?_, fun k => ?_, State.setGroup_group_same _ _ _, fun k hk => ?_⟩
    · conv_lhs => rw [honly]
      rfl
    · refine (State.setTeam_team _ _ k _).trans ?_
      split
      · next hk => rw [hk]
      · exact h.team k
    · refine (State.setCluster_cluster _ _ k _).trans ?_
      split
      · next hk => rw [hk]
      · exact h.cluster k
    · rw [State.setGroup_group, if_neg hk]
      exact h.other k hk

theorem State.gatherAll_own {s : State} {gk : Nat} {es : List SecEntry} {u : State}
    (h : GsbLeft gk ((s.group gk).gsb ++ es) s u) (hu : ∀ e ∈ es, s.Unbuffered gk e.sec) (hn : (es.map (·.sec)).Nodup)
    (hw : ∀ e ∈ es, WholeCells gk e.cells) :
    ∃ v, u.gatherAll gk 4 false es = (v, es.map SecEntry.carried) ∧ GsbLeft gk (s.group gk).gsb s v := by
  induction es generalizing u with
  | nil =>
    rw [List.append_nil] at h
    exact ⟨u, rfl, h⟩
  | cons e t ih =>
    obtain ⟨he, ht⟩ := List.nodup_cons.1 hn
    have hr : findSec t e.sec = none := List.find?_eq_none.2 fun x hx hs =>
      he (List.mem_map.2 ⟨x, hx, of_decide_eq_true hs⟩)
    obtain ⟨v, hv, hleft⟩ := State.gather_own h (hu e List.mem_cons_self) hr (hw e List.mem_cons_self)
    obtain ⟨x, hx, hlast⟩ := ih hleft (fun e he => hu e (List.mem_cons_of_mem _ he)) ht
      (fun e he => hw e (List.mem_cons_of_mem _ he))
    refine ⟨x, ?_, hlast⟩
    rw [State.gatherAll, hv]
    dsimp only
    rw [hx]
    rfl

/-- A store buffer whose bytes are whole needs no completion. -/
theorem State.completeGsb_whole {s : State} {gk : Nat} {p : SecEntry → Bool}
    (h : ∀ e ∈ (s.group gk).gsb, p e = true → ∀ c ∈ e.cells, c.2.mask = 0xFF) : s.completeGsb gk p = s := by
  refine List.foldlRecOn (motive := (· = s)) _ _ rfl fun t ht e he => ?_
  rw [if_neg, ht]
  rw [Bool.and_eq_true, List.any_eq_true]
  rintro ⟨hp, c, hc, hmask⟩
  exact of_decide_eq_true hmask (h e he hp c hc)

/-! Sectors accepted at their own die's home (R228). -/

theorem State.acceptByte_low (s : State) (home : Nat) {pk : Nat} (c : BCell) (hpk : pk < 2 ^ 64) (a : Nat) :
    (s.acceptByte home pk c).memByte a = if pk = a then c.onto (s.memByte a) else s.memByte a := by
  unfold State.acceptByte
  split
  · next hm => rw [BCell.onto_of_mask hm, ite_self]
  · rw [State.memByte_setMemByte]
    by_cases hp : a = pk
    · rw [if_pos hp, if_pos hp.symm, hp]
      rfl
    · rw [if_neg hp, if_neg (Ne.symm hp)]

/-- What a sector of whole bytes, accepted at a home in DRAM, leaves of a byte of memory. -/
theorem State.acceptHome_whole (s : State) (attr : PAttr) {sec wr : Nat} {cells : SMap BCell} (hsec : sec * 16 < 2 ^ 64)
    (hw : WholeCells wr cells) (a : Nat) : (s.acceptHome attr sec cells).memByte a
      = if sec = a / 16 then (cellAt cells (a % 16)).onto (s.memByte a) else s.memByte a := by
  have hn : (cells.map (fun e => sec * 16 + e.1)).Nodup := by
    have := (SMap.sorted_nodup hw.sorted).map (f := fun n => sec * 16 + n) fun x y hxy => Nat.add_left_cancel hxy
    rwa [List.map_map] at this
  have hbytes := foldl_at_place (f := fun (t : State) (e : Nat × BCell) => t.acceptByte attr.home (sec * 16 + e.1) e.2)
    (g := (·.memByte a)) (h := fun e x => e.2.onto x) (fun t e he => t.acceptByte_low attr.home e.2
      (by have := (hw.whole e he).1; omega) a) hn s
  have hmem : (s.acceptHome attr sec cells).memByte a
      = (cells.foldl (fun s e => s.acceptByte attr.home (sec * 16 + e.1) e.2) s).memByte a := by
    unfold State.acceptHome
    dsimp only
    rw [if_pos hsec]
    refine congrArg (·.getD a (memBlank a)) ((State.foldl_part (q := State.mem) (fun t w => ?_) _ _).trans
      (State.disarm_mem _ _ _ _))
    exact t.mergePois_mem _ _
  refine hmem.trans (hbytes.trans ?_)
  by_cases hs : sec = a / 16
  · rw [if_pos hs, cellAt, ← find_onto_eq_getD]
    have hplace : (fun e : Nat × BCell => decide (sec * 16 + e.1 = a)) = fun e => decide (e.1 = a % 16) :=
      funext fun e => decide_eq_decide.2 (by omega)
    rw [hplace]
  · have hnone : cells.find? (fun e => decide (sec * 16 + e.1 = a)) = none := List.find?_eq_none.2 fun e he ha => by
      have := (hw.whole e he).1
      have := of_decide_eq_true ha
      omega
    rw [if_neg hs, hnone, Option.elim_none]

section
variable {s : State} {die wr : Nat} {e : SecEntry} (hhome : e.attr.home = die)
include hhome

theorem State.acceptStore_own : s.acceptStore die false e
    = if e.cells.isEmpty then s else s.acceptHome e.attr e.sec e.cells := by
  rw [State.acceptStore, State.acceptDev, if_pos hhome, Bool.not_false, Bool.true_or, if_pos rfl]

theorem State.acceptStore_homeward : Homeward s (s.acceptStore die false e) := by
  rw [State.acceptStore_own hhome]
  split
  · exact .refl s
  · exact s.acceptHome_homeward _ _ _

theorem State.acceptStore_memByte (hsec : e.sec * 16 < 2 ^ 64) (hw : WholeCells wr e.cells) (a : Nat) :
    (s.acceptStore die false e).memByte a
      = if e.sec = a / 16 then (cellAt e.cells (a % 16)).onto (s.memByte a) else s.memByte a := by
  rw [State.acceptStore_own hhome]
  split
  · next hc =>
    rw [List.isEmpty_iff.1 hc, show cellAt [] (a % 16) = {} from rfl, BCell.onto_of_mask rfl, ite_self]
  · exact s.acceptHome_whole e.attr hsec hw a

end

/-! A store at DEV to lines at home on the group's die (R228). -/

/-- Sectors new to a store buffer stand behind those it has. -/
theorem foldl_gsbWith_new {es : List SecEntry} (hn : (es.map (·.sec)).Nodup) (gsb : List SecEntry)
    (h : ∀ e ∈ es, findSec gsb e.sec = none) : es.foldl gsbWith gsb = gsb ++ es := by
  induction es generalizing gsb with
  | nil => exact (List.append_nil _).symm
  | cons e t ih =>
    obtain ⟨he, ht⟩ := List.nodup_cons.1 hn
    rw [List.foldl_cons, gsbWith_new (h e List.mem_cons_self), ih ht, List.append_assoc, List.singleton_append]
    intro x hx
    have hne : e.sec ≠ x.sec := fun hs => he (List.mem_map.2 ⟨x, hx, hs.symm⟩)
    rw [findSec_append_single, h x (List.mem_cons_of_mem _ hx), if_neg hne]
    rfl

/-- Sectors of whole bytes of the die's own DRAM, none of them in a buffer of the group's path. -/
structure OwnSectors (s : State) (gk : Nat) (es : List SecEntry) : Prop where
  nodup : (es.map (·.sec)).Nodup
  whole : ∀ e ∈ es, WholeCells gk e.cells
  home : ∀ e ∈ es, e.attr.home = (s.group gk).die
  low : ∀ e ∈ es, e.sec * 16 < 2 ^ 64
  unbuffered : ∀ e ∈ es, s.Unbuffered gk e.sec

/-- The sectors that a store at DEV has carried up are accepted at home, and nothing else of memory changes. -/
theorem acceptAll_memByte {die wr : Nat} {es : List SecEntry} (hn : (es.map (·.sec)).Nodup)
    (hw : ∀ e ∈ es, WholeCells wr e.cells) (hh : ∀ e ∈ es, e.attr.home = die) (hl : ∀ e ∈ es, e.sec * 16 < 2 ^ 64)
    (u : State) (a : Nat) : ((es.map SecEntry.carried).foldl (fun v e => v.acceptStore die false e) u).memByte a
      = (cellAt (secCells es (a / 16)) (a % 16)).onto (u.memByte a) := by
  rw [List.foldl_map]
  refine (foldl_at_place (place := fun e : SecEntry => e.sec) (i := a / 16) (g := (·.memByte a))
    (h := fun e x => (cellAt e.cells (a % 16)).onto x) (fun v e he => ?_) hn u).trans ?_
  · refine (State.acceptStore_memByte (s := v) (e := e.carried) (hh e he) (hl e he) (hw e he).mergeCells a).trans ?_
    have hcell : cellAt e.carried.cells (a % 16) = cellAt e.cells (a % 16) :=
      (cellAt_mergeCells [] (SMap.sorted_nodup (hw e he).sorted) _).trans ((hw e he).merge_cellAt _)
    rw [hcell]
    rfl
  · unfold secCells findSec
    cases es.find? (fun e => decide (e.sec = a / 16)) with
    | none => exact (BCell.onto_of_mask rfl _).symm
    | some e => rfl

/-- A store of whole bytes at DEV, all at home on the group's die: the sectors leave the store buffer for the home. -/
theorem State.carry_own {s : State} {gk : Nat} {es : List SecEntry} (h : OwnSectors s gk es) :
    ∃ v, GsbLeft gk (s.group gk).gsb s v
      ∧ (s.setGroup gk { s.group gk with gsb := (s.group gk).gsb ++ es }).carry gk 4 false es
        = (es.map SecEntry.carried).foldl (fun u e => u.acceptStore (s.group gk).die false e)
            { v with seq := v.seq + 1 } := by
  let u := s.setGroup gk { s.group gk with gsb := (s.group gk).gsb ++ es }
  have hown : u.group gk = { s.group gk with gsb := (s.group gk).gsb ++ es } := State.setGroup_group_same _ _ _
  have hstart : GsbLeft gk ((s.group gk).gsb ++ es) s u :=
    ⟨rfl, fun _ => rfl, fun _ => rfl, hown, fun k hk => (State.setGroup_group _ _ _ _).trans (if_neg hk)⟩
  have hcomplete : u.completeGsb gk (fun e => es.any (fun x => x.sec = e.sec)) = u := by
    refine State.completeGsb_whole fun e he hp c hc => ?_
    rw [hown] at he
    obtain ⟨x, hx, hs⟩ := List.any_eq_true.1 hp
    rcases List.mem_append.1 he with he | he
    · exact absurd (decide_eq_true (of_decide_eq_true hs).symm) (List.find?_eq_none.1 (h.unbuffered x hx).1 e he)
    · exact ((h.whole e he).whole c hc).2.1
  obtain ⟨v, hv, hleft⟩ := State.gatherAll_own hstart h.unbuffered h.nodup h.whole
  have hpois : (es.map SecEntry.carried).any SecEntry.poisoned = false := by
    rw [List.any_eq_false]
    intro x hx
    obtain ⟨e, he, rfl⟩ := List.mem_map.1 hx
    rw [Bool.not_eq_true, SecEntry.poisoned, List.any_eq_false]
    exact fun c hc => by rw [((h.whole e he).mergeCells.whole c hc).2.2.1]; exact Bool.false_ne_true
  have hlost : ∀ t : State, (es.map SecEntry.carried).any t.lostNow = false := fun t => by
    rw [List.any_eq_false]
    intro x hx
    obtain ⟨e, he, rfl⟩ := List.mem_map.1 hx
    have := h.low e he
    rw [State.lostNow, State.goesOn, decide_eq_false (show ¬ 2 * 2 ^ 64 ≤ e.carried.sec * 16 by
      show ¬ 2 * 2 ^ 64 ≤ e.sec * 16
      omega)]
    simp
  refine ⟨v, hleft, ?_⟩
  show u.carry gk 4 false es = _
  unfold State.carry
  simp only [hcomplete, hv, hpois, hlost, hown]
  rfl

theorem State.ownSectors_of {s : State} {gk : Nat} {bs : List SByte} (hw : ∀ b ∈ bs, b.mask = 0xFF)
    (h : ∀ b ∈ bs, b.pk < 2 ^ 64 ∧ b.attr.home = (s.group gk).die ∧ s.Unbuffered gk (b.pk / 16)) :
    OwnSectors s gk (sectorsOf bs gk) := by
  have hb : ∀ e ∈ sectorsOf bs gk, ∃ b ∈ bs, b.pk / 16 = e.sec ∧ e.attr = b.attr := fun e he => by
    obtain ⟨b, hb, hs, ha, -⟩ := mem_sectorsOf he
    exact ⟨b, hb, hs, ha⟩
  refine ⟨sectorsOf_nodup bs gk, sectorsOf_whole hw, fun e he => ?_, fun e he => ?_, fun e he => ?_⟩
  all_goals
    obtain ⟨b, hb, hs, ha⟩ := hb e he
    obtain ⟨hlow, hhome, hfree⟩ := h b hb
  · rw [ha]
    exact hhome
  · omega
  · rw [← hs]
    exact hfree

/-- Where a store at DEV to the die's own lines leaves its bytes. -/
theorem State.storeBytes_dev {s : State} {gk : Nat} {bs : List SByte} (hne : bs ≠ []) (hw : ∀ b ∈ bs, b.mask = 0xFF)
    (hroom : (s.group gk).gsb.length + (sectorsOf bs gk).length ≤ (s.group gk).gsbCap)
    (h : ∀ b ∈ bs, b.pk < 2 ^ 64 ∧ b.attr.home = (s.group gk).die ∧ s.Unbuffered gk (b.pk / 16)) :
    (∀ k, (s.storeBytes gk bs 4 false).memByte k = (storedAt bs k).elim (s.memByte k) (·.val))
      ∧ (s.storeBytes gk bs 4 false).grp.v = s.grp.v ∧ (s.storeBytes gk bs 4 false).grp.g = s.grp.g
      ∧ ((s.storeBytes gk bs 4 false).group gk).gsb = (s.group gk).gsb := by
  have hown := State.ownSectors_of hw h
  obtain ⟨v, hleft, hcarry⟩ := State.carry_own hown
  have hstore : s.storeBytes gk bs 4 false = ((sectorsOf bs gk).map SecEntry.carried).foldl
      (fun u e => u.acceptStore (s.group gk).die false e) { v with seq := v.seq + 1 } := by
    rw [← hcarry, ← foldl_gsbWith_new hown.nodup _ fun e he => (hown.unbuffered e he).1,
      ← State.foldl_gsbAdd (sectorsOf_ne_nil gk hne) hroom]
    rfl
  have hhomeward : Homeward { v with seq := v.seq + 1 } (s.storeBytes gk bs 4 false) := by
    rw [hstore]
    refine List.foldlRecOn (motive := Homeward _) _ _ (.refl _) fun t ht x hx => ht.trans ?_
    obtain ⟨e, he, rfl⟩ := List.mem_map.1 hx
    exact State.acceptStore_homeward (hown.home e he)
  have hgroup : ∀ k, (s.storeBytes gk bs 4 false).group k = v.group k := fun k =>
    congrArg (fun m : SMap Group => m.getD k {}) hhomeward.groups
  have hgrp : (s.storeBytes gk bs 4 false).grp = v.group s.cur := by
    have hcur : (s.storeBytes gk bs 4 false).cur = s.cur := by rw [hhomeward.only]; exact hleft.cur
    rw [State.grp, hcur, hgroup]
  have hregs : (v.group s.cur).v = s.grp.v ∧ (v.group s.cur).g = s.grp.g := by
    by_cases hk : s.cur = gk
    · rw [State.grp, hk, hleft.own]
      exact ⟨rfl, rfl⟩
    · rw [hleft.other _ hk]
      exact ⟨rfl, rfl⟩
  refine ⟨fun k => ?_, ?_, ?_, ?_⟩
  · have hmem : State.memByte { v with seq := v.seq + 1 } k = s.memByte k := hleft.memByte k
    rw [hstore, acceptAll_memByte hown.nodup hown.whole hown.home hown.low, sectorsOf_cellAt hw, hmem]
    cases storedAt bs k with
    | none => exact BCell.onto_of_mask rfl _
    | some b => exact BCell.onto_whole rfl _
  · rw [hgrp]
    exact hregs.1
  · rw [hgrp]
    exact hregs.2
  · rw [hgroup, hleft.own]

/-- Settles O27: a sector's byte is `State.readSec_byte` over what the `readBelow` lemmas give, memory stays as `TookIn`
says; a store at GRP is `State.storeBytes_grp`, one at DEV `State.storeBytes_dev`. -/
theorem ladderServesLoadsAndTakesStores : Obligations.LadderServesLoadsAndTakesStores := by
  refine ⟨fun s gk sec attr scope acq ro na sieve i hi => ?_, fun s gk bs hne hw hroom => ⟨?_, fun h => ?_⟩⟩
  · dsimp only
    rw [State.readSec_byte s gk sec attr scope acq ro na sieve hi]
    have hserved := s.readSec_served gk sec attr scope acq ro na sieve
    refine ⟨s.readSec_length gk sec attr scope acq ro na sieve, fun ho => VByte.over_whole _ ho, fun ho ht => ?_,
      fun ho ht hc hs hl => ?_, fun ho ht hc hl ha hh hk => ?_, ?_, ?_, ?_, fun ha hd hroom k => ?_⟩
    · rw [VByte.over_none _ ho, VByte.over_whole _ ht]
    · obtain ⟨b, hb, -⟩ := State.readBelow_merged hi hs hl
      rw [VByte.over_none _ ho, VByte.over_none _ ht, hb, VByte.over_whole _ hc]
    · rw [VByte.over_none _ ho, VByte.over_none _ ht]
      subst ha
      exact State.readBelow_own hi hc hl hh hk
    · rw [hserved.only]
    · rw [hserved.only]
    · rw [hserved.only]
    · subst ha
      exact congrArg (fun m : SMap Byte => m.getD k (memBlank k)) (State.readBelow_tookIn hroom hd).mem
  · dsimp only
    have hgsb := State.storeBytes_grp hne hroom
    refine ⟨?_, fun k => ?_, fun k => ?_⟩
    · rw [hgsb, State.setGroup_group_same]
    · rw [hgsb, State.setGroup_group_same, buffered_after _ hw]
      cases storedAt bs k <;> rfl
    · rw [hgsb]
      rfl
  · obtain ⟨hmem, hv, hg, hgsb⟩ := State.storeBytes_dev hne hw hroom fun b hb => by
      obtain ⟨hlow, hhome, hown, hteam, hclus⟩ := h b hb
      exact ⟨hlow, hhome, Option.isNone_iff_eq_none.1 hown, Option.isNone_iff_eq_none.1 hteam,
        Option.isNone_iff_eq_none.1 hclus⟩
    refine ⟨fun k => ?_, hv, hg, hgsb⟩
    rw [hmem]
    cases storedAt bs k <;> rfl

end Sys2Proof.Machine
end

section
/-!
PROOF. Leases renewed by writes of registers and of scratchpad bytes (10_allocation R206 to R209), and the statement
made of them.
-/

namespace Sys2Proof.Machine

/-- A fold whose steps each write the place of an element: what is read of a place is what a step there wrote. -/
theorem foldl_overwrites {σ α β : Type} {f : σ → α → σ} {read : σ → Nat → β} {key : α → Nat} {v : Nat → β} {l : List α}
    (hf : ∀ s, ∀ a ∈ l, ∀ j, read (f s a) j = if j = key a then v j else read s j) (s : σ) (j : Nat) :
    read (l.foldl f s) j = if j ∈ l.map key then v j else read s j := by
  induction l generalizing s with
  | nil => simp
  | cons a t ih =>
    rw [List.foldl_cons, ih (fun s b hb => hf s b (List.mem_cons_of_mem _ hb)), hf s a List.mem_cons_self]
    by_cases ht : j ∈ t.map key <;> by_cases ha : j = key a <;> simp [ht, ha]

/-! What the write of a lane register leaves of the leases of its group's rows (10_allocation R206, R207). -/

/-- A register's row is past its lease (R206). -/
def Group.rowExpired (g : Group) (lc n : Nat) : Bool :=
  (g.rangeOf n).any (fun c => expiredAt lc (g.vst.getD n 0) c.lease)

theorem Group.unreadable_eq (g : Group) (lc n L : Nat) :
    g.unreadable lc n L = (decide (g.clsOf n ≠ 0) && (g.rowExpired lc n || inMask (g.vx.getD n 0) L)) := by
  unfold Group.unreadable Group.clsOf Group.rowExpired
  cases g.rangeOf n <;> rfl

theorem Group.rangeOf_congr {g t : Group} (h : t.crs = g.crs) (n : Nat) : t.rangeOf n = g.rangeOf n := by
  rw [Group.rangeOf, Group.rangeOf, h]

theorem Group.clsOf_congr {g t : Group} (h : t.crs = g.crs) (n : Nat) : t.clsOf n = g.clsOf n := by
  rw [Group.clsOf, Group.clsOf, Group.rangeOf_congr h]

/-- The row that a write renews. -/
theorem Group.renewRow_renews {g : Group} {n : Nat} {m : Word} (hm : m ≠ 0) (hc : g.clsOf n ≠ 0) (lc : Nat) :
    (g.renewRow lc n m).vst = g.vst.set n (max (g.vst.getD n 0) lc) 0
    ∧ (g.renewRow lc n m).vx = g.vx.set n (if g.rowExpired lc n then ~~~m else g.vx.getD n 0 &&& ~~~m) 0 := by
  unfold Group.clsOf at hc
  unfold Group.renewRow Group.rowExpired
  rw [if_neg hm]
  have hr : ∀ x : SMap Word, ({ g with vpois := x } : Group).rangeOf n = g.rangeOf n := fun _ => rfl
  simp only [hr]
  cases h : g.rangeOf n with
  | none => rw [h] at hc; exact absurd rfl hc
  | some c =>
    rw [h] at hc
    simp [hc]

/-- A write of no word, and one of a register of class 0, renew no row. -/
theorem Group.renewRow_renews_none {g : Group} {n : Nat} {m : Word} (h : m = 0 ∨ g.clsOf n = 0) (lc : Nat) :
    (g.renewRow lc n m).vst = g.vst ∧ (g.renewRow lc n m).vx = g.vx := by
  by_cases hm : m = 0
  · simp [Group.renewRow, hm]
  · replace h := h.resolve_left hm
    unfold Group.clsOf at h
    unfold Group.renewRow
    have hr : ∀ x : SMap Word, ({ g with vpois := x } : Group).rangeOf n = g.rangeOf n := fun _ => rfl
    rw [if_neg hm]
    simp only [hr]
    cases hc : g.rangeOf n with
    | none => exact ⟨rfl, rfl⟩
    | some c =>
      rw [hc] at h
      simp [h]

theorem Group.writeRow_leases (g : Group) (lc n : Nat) (m : Word) (f : Nat → Word) :
    (g.writeRow lc n m f).vst = (g.renewRow lc n m).vst ∧ (g.writeRow lc n m f).vx = (g.renewRow lc n m).vx
    ∧ (g.writeRow lc n m f).crs = g.crs := by
  refine ⟨?_, ?_, by rw [Group.writeRow_frame]⟩
  all_goals rw [Group.writeRow, Group.putLanes_frame]

theorem not_expiredAt_renewed (lc st lease : Nat) : expiredAt lc (max st lc) lease = false := by
  rw [expiredAt, decide_eq_false_iff_not]
  omega

/-- The stamp of a row after a write. -/
theorem Group.writeRow_stamp (g : Group) (lc n : Nat) (m : Word) (f : Nat → Word) (hc : g.clsOf n ≠ 0) :
    (g.writeRow lc n m f).vst.getD n 0 = if m = 0 then g.vst.getD n 0 else max (g.vst.getD n 0) lc := by
  rw [(g.writeRow_leases lc n m f).1]
  split
  · next hm => rw [(Group.renewRow_renews_none (.inl hm) lc).1]
  · next hm => rw [(Group.renewRow_renews hm hc lc).1, SMap.getD_set_same]

/-- A written word is readable, and the others of its row are as they were. -/
theorem Group.writeRow_unreadable (g : Group) (lc n : Nat) (m : Word) (f : Nat → Word) {L : Nat} (hL : L < 32) :
    (g.writeRow lc n m f).unreadable lc n L = (g.unreadable lc n L && !inMask m L) := by
  obtain ⟨hst, hx, hcrs⟩ := g.writeRow_leases lc n m f
  have hexp : (g.writeRow lc n m f).rowExpired lc n
      = (g.rangeOf n).any (fun c => expiredAt lc ((g.renewRow lc n m).vst.getD n 0) c.lease) := by
    rw [Group.rowExpired, hst, Group.rangeOf_congr hcrs]
  rw [Group.unreadable_eq, Group.unreadable_eq, Group.clsOf_congr hcrs, hx, hexp]
  by_cases h : m = 0 ∨ g.clsOf n = 0
  · obtain ⟨hst', hx'⟩ := Group.renewRow_renews_none h lc
    rw [hst', hx', ← Group.rowExpired]
    rcases h with hm | hc
    · simp [hm, inMask]
    · simp [hc]
  · obtain ⟨hm, hc⟩ := not_or.1 h
    obtain ⟨hst', hx'⟩ := Group.renewRow_renews hm hc lc
    have hnot : inMask (~~~m) L = !inMask m L := by simp [inMask, hL]
    have hfresh : (g.rangeOf n).any (fun c => expiredAt lc (max (g.vst.getD n 0) lc) c.lease) = false := by
      simp [not_expiredAt_renewed]
    rw [hst', hx', SMap.getD_set_same, SMap.getD_set_same, hfresh, Bool.false_or]
    cases g.rowExpired lc n
    · rw [if_neg (by decide), inMask, BitVec.getLsbD_and, ← inMask, ← inMask, hnot, Bool.false_or, Bool.and_assoc]
    · rw [if_pos rfl, hnot, Bool.true_or, Bool.and_true]

/-- A write leaves the other registers' rows alone. -/
theorem Group.writeRow_other (g : Group) (lc : Nat) {n k : Nat} (m : Word) (f : Nat → Word) (hk : k ≠ n) (L : Nat) :
    (g.writeRow lc n m f).unreadable lc k L = g.unreadable lc k L
    ∧ (g.writeRow lc n m f).vst.getD k 0 = g.vst.getD k 0 := by
  obtain ⟨hst, hx, hcrs⟩ := g.writeRow_leases lc n m f
  have hrow : (g.renewRow lc n m).vst.getD k 0 = g.vst.getD k 0 ∧ (g.renewRow lc n m).vx.getD k 0 = g.vx.getD k 0 := by
    by_cases h : m = 0 ∨ g.clsOf n = 0
    · obtain ⟨hst', hx'⟩ := Group.renewRow_renews_none h lc
      rw [hst', hx']
      exact ⟨rfl, rfl⟩
    · obtain ⟨hm, hc⟩ := not_or.1 h
      obtain ⟨hst', hx'⟩ := Group.renewRow_renews hm hc lc
      rw [hst', hx', SMap.getD_set_other _ _ _ hk, SMap.getD_set_other _ _ _ hk]
      exact ⟨rfl, rfl⟩
  refine ⟨?_, by rw [hst, hrow.1]⟩
  rw [Group.unreadable_eq, Group.unreadable_eq, Group.clsOf_congr hcrs, Group.rowExpired, Group.rowExpired, hst, hx,
    hrow.1, hrow.2, Group.rangeOf_congr hcrs]

theorem State.wr_grp (s : State) (n : Nat) (m : Word) (f : Nat → Word) :
    (s.wr n m f).grp = s.grp.writeRow s.lat.lc n m f := by
  rw [State.wr, State.modGrp_grp, State.disarmReg_grp]

/-- A written word reads as what was written. -/
theorem State.wr_rd (s : State) (n : Nat) (m : Word) (f : Nat → Word) {L : Nat} (hL : L < 32) (hm : inMask m L = true)
    (hp : pendFind s.grp.pend (·.v) (n * 32 + L) = none) : (s.wr n m f).rd n L = f L := by
  have hlat : (s.wr n m f).lat = s.lat := s.disarmReg_lat s.cur n m
  have hread : (s.grp.writeRow s.lat.lc n m f).unreadable s.lat.lc n L = false := by
    rw [Group.writeRow_unreadable _ _ _ _ _ hL, hm]
    exact Bool.and_false _
  have hpend : (s.grp.writeRow s.lat.lc n m f).pend = s.grp.pend := by rw [Group.writeRow_frame]
  rw [State.rd, hlat, State.wr_grp, hread, State.rdV, State.wr_grp, hpend, hp, if_neg (by decide)]
  exact (Group.writeRow_vget _ _ _ _ _ _ _ hL).trans (if_pos ⟨rfl, hm⟩)

/-! What the write of a byte leaves of its allocation's row (R206 to R209). -/

/-- Whether a byte can be read is a matter of its word. -/
theorem Alloc.unreadable_word (a : Alloc) (lc : Nat) {k o : Nat} (h : k / 4 = o / 4) :
    a.unreadable lc k = a.unreadable lc o := by
  have hrow : k / 128 = o / 128 := by omega
  rw [Alloc.unreadable, Alloc.unreadable, hrow, h]

theorem Alloc.unreadable_eq (a : Alloc) (lc o : Nat) (hc : a.cls ≠ 0) :
    a.unreadable lc o = (a.rowExpired lc (o / 128) || inMask (a.x.getD (o / 128) 0) (o / 4 % 32)) := by
  simp [Alloc.unreadable, hc]

/-- The mask of one word of a row. -/
def oneWord (i : Nat) : Word := maskOf (fun k => decide (k = i))

theorem inMask_oneWord {i k : Nat} (hk : k < 32) : inMask (oneWord i) k = decide (k = i) := by
  rw [oneWord, inMask_maskOf, decide_eq_true hk, Bool.true_and]

theorem lanesOf_oneWord {i : Nat} (hi : i < 32) : lanesOf (oneWord i) = [i] := by
  revert i; decide

/-- The four bytes of a word cleared. -/
def clearWord (d : SMap Byte) (o : Nat) : SMap Byte := (List.range 4).foldl (fun d b => d.set (o + b) 0 0) d

theorem clearWord_getD (d : SMap Byte) (o k : Nat) :
    (clearWord d o).getD k 0 = if o ≤ k ∧ k < o + 4 then 0 else d.getD k 0 := by
  refine (foldl_overwrites (read := fun (m : SMap Byte) j => m.getD j 0) (key := (o + ·)) (v := fun _ => 0)
    (fun m b _ j => SMap.getD_set m (o + b) j 0 0) d k).trans (if_congr ?_ rfl rfl)
  rw [List.mem_map]
  exact ⟨fun ⟨b, hb, h⟩ => by have := List.mem_range.1 hb; omega, fun h => ⟨k - o, List.mem_range.2 (by omega), by omega⟩⟩

theorem Alloc.renewRow_word {a : Alloc} (hc : a.cls ≠ 0) (lc o : Nat) :
    a.renewRow lc (o / 128) (oneWord (o / 4 % 32)) = { a with
      data := if a.unreadable lc o then clearWord a.data (o / 4 * 4) else a.data
      x := a.x.set (o / 128) (if a.rowExpired lc (o / 128) then ~~~oneWord (o / 4 % 32)
        else a.x.getD (o / 128) 0 &&& ~~~oneWord (o / 4 % 32)) 0
      st := a.st.set (o / 128) (max (a.st.getD (o / 128) a.st0) lc) a.st0 } := by
  have hbase : 128 * (o / 128) + 4 * (o / 4 % 32) = o / 4 * 4 := by omega
  have hword : a.unreadable lc (128 * (o / 128) + 4 * (o / 4 % 32)) = a.unreadable lc o :=
    a.unreadable_word lc (by omega)
  unfold Alloc.renewRow
  rw [if_neg hc, lanesOf_oneWord (by omega)]
  simp only [List.filter_cons, List.filter_nil, hword]
  cases a.unreadable lc o
  · rfl
  · simp only [if_true, List.foldl_cons, List.foldl_nil, hbase]
    rfl

/-- The write of one byte: its row renewed, then the byte put. -/
theorem Alloc.write_byte (a : Alloc) (lc o : Nat) (b : Byte) : a.write lc [(o, b, 0xFF)]
    = { a.renewRow lc (o / 128) (oneWord (o / 4 % 32)) with
        data := (a.renewRow lc (o / 128) (oneWord (o / 4 % 32))).data.set o b 0 } := by
  have hmask : maskOf (fun i => decide (o / 4 = 32 * (o / 128) + i)) = oneWord (o / 4 % 32) := by
    refine congrArg maskOf (funext fun i => decide_eq_decide.2 ?_)
    omega
  have hsome : ∀ w, ((List.range 4).all (fun i => decide (o = 4 * w + i))) = false := by
    intro w
    simp only [show List.range 4 = [0, 1, 2, 3] from rfl, List.all_cons, Bool.and_eq_false_iff, decide_eq_false_iff_not]
    omega
  simp only [Alloc.write, List.map_cons, List.map_nil, List.foldl_cons, List.foldl_nil, List.any_cons, List.any_nil,
    Bool.or_false, show ∀ n, dedup [n] = [n] from fun _ => rfl, hmask, decide_true, Bool.and_true]
  generalize a.renewRow lc (o / 128) (oneWord (o / 4 % 32)) = r
  rw [show (r.data.getD o 0 &&& ~~~0xFF) ||| (b &&& 0xFF) = b from overwritten _ b]
  simp [hsome]

/-- A row of an allocation of class 1 or 2 after the write of a byte (R206, R207, R209). -/
theorem Alloc.write_byte_row {a : Alloc} (hc : a.cls ≠ 0) (lc o : Nat) (b : Byte) :
    let t := a.write lc [(o, b, 0xFF)]
    t.cls = a.cls ∧ t.lease = a.lease ∧ t.st0 = a.st0
    ∧ t.st = a.st.set (o / 128) (max (a.st.getD (o / 128) a.st0) lc) a.st0
    ∧ t.x = a.x.set (o / 128) (if a.rowExpired lc (o / 128) then ~~~oneWord (o / 4 % 32)
        else a.x.getD (o / 128) 0 &&& ~~~oneWord (o / 4 % 32)) 0
    ∧ t.data = (if a.unreadable lc o then clearWord a.data (o / 4 * 4) else a.data).set o b 0 := by
  dsimp only
  rw [Alloc.write_byte, Alloc.renewRow_word hc]
  exact ⟨rfl, rfl, rfl, rfl, rfl, rfl⟩

/-- A byte of the written word can be read, and the others of the allocation can if they could. -/
theorem Alloc.write_byte_unreadable {a : Alloc} (hc : a.cls ≠ 0) (lc o : Nat) (b : Byte) (k : Nat) :
    (a.write lc [(o, b, 0xFF)]).unreadable lc k = (a.unreadable lc k && !decide (k / 4 = o / 4)) := by
  obtain ⟨hcls, hlease, hst0, hst, hx, -⟩ := Alloc.write_byte_row hc lc o b
  rw [Alloc.unreadable_eq _ _ _ (hcls ▸ hc), Alloc.unreadable_eq a lc k hc, Alloc.rowExpired, hcls, hlease, hst0, hst, hx]
  by_cases hrow : k / 128 = o / 128
  · have hbit : k / 4 = o / 4 ↔ k / 4 % 32 = o / 4 % 32 := by omega
    have hnot : inMask (~~~oneWord (o / 4 % 32)) (k / 4 % 32) = !decide (k / 4 = o / 4) := by
      rw [inMask, BitVec.getLsbD_not, ← inMask, inMask_oneWord (by omega), decide_eq_true (by omega), Bool.true_and,
        decide_eq_decide.2 hbit]
    rw [hrow, SMap.getD_set_same, SMap.getD_set_same, not_expiredAt_renewed, Bool.and_false, Bool.false_or]
    cases a.rowExpired lc (o / 128)
    · rw [if_neg (by decide), inMask, BitVec.getLsbD_and, ← inMask, ← inMask, hnot, Bool.false_or]
    · rw [if_pos rfl, hnot, Bool.true_or, Bool.true_and]
  · have hword : decide (k / 4 = o / 4) = false := decide_eq_false (by omega)
    rw [SMap.getD_set_other _ _ _ hrow, SMap.getD_set_other _ _ _ hrow, hword, Bool.not_false, Bool.and_true,
      ← Alloc.rowExpired]

/-- The bytes after the write of one: the rest of an expired word reads as zero. -/
theorem Alloc.write_byte_data {a : Alloc} (hc : a.cls ≠ 0) (lc o : Nat) (b : Byte) (k : Nat) :
    (a.write lc [(o, b, 0xFF)]).data.getD k 0 = if k = o then b
      else if k / 4 = o / 4 ∧ a.unreadable lc o = true then 0 else a.data.getD k 0 := by
  obtain ⟨-, -, -, -, -, hdata⟩ := Alloc.write_byte_row hc lc o b
  have hin : (o / 4 * 4 ≤ k ∧ k < o / 4 * 4 + 4) ↔ k / 4 = o / 4 := by omega
  rw [hdata, SMap.getD_set]
  cases a.unreadable lc o
  · simp
  · simp only [if_true, clearWord_getD, hin, and_true]

/-- Settles O31: a register's row by what `renewRow` writes of stamps and unreadable words, an allocation's by the
write of one byte. -/
theorem writesRenewTheirRows : Obligations.WritesRenewTheirRows := by
  unfold Obligations.WritesRenewTheirRows
  refine ⟨fun s n m f L hL => ?_, fun a lc o b hc => ?_⟩
  · dsimp only
    rw [State.wr_grp]
    exact ⟨Group.writeRow_unreadable _ _ _ _ _ hL, fun hm hp => s.wr_rd n m f hL hm hp,
      fun hcls => Group.writeRow_stamp _ _ _ _ _ hcls, fun k hk => Group.writeRow_other _ _ _ _ hk L⟩
  · obtain ⟨-, -, hst0, hst, -, -⟩ := Alloc.write_byte_row hc lc o b
    have hread : (a.write lc [(o, b, 0xFF)]).unreadable lc o = false := by
      rw [Alloc.write_byte_unreadable hc, decide_eq_true rfl]
      exact Bool.and_false _
    refine ⟨hread, ?_, ?_, fun k hk => ⟨?_, fun _ => ?_⟩, fun k hk hne => ?_⟩
    · show [if (a.write lc [(o, b, 0xFF)]).unreadable lc o then 0 else (a.write lc [(o, b, 0xFF)]).data.getD o 0] = [b]
      rw [hread, if_neg (by decide), Alloc.write_byte_data hc, if_pos rfl]
    · rw [hst, SMap.getD_set_same]
    · rw [Alloc.write_byte_unreadable hc, decide_eq_false hk, Bool.not_false, Bool.and_true]
    · rw [Alloc.write_byte_data hc, if_neg (fun h => hk (congrArg (· / 4) h)), if_neg (fun h => hk h.1)]
    · rw [Alloc.write_byte_data hc, if_neg hne]
      simp only [hk, true_and]

end Sys2Proof.Machine
end

section
/-!
PROOF. Allocations, leases, the refresh engine and the remaps (10_allocation R202, R214 to R223; 14_matrix R325), and the
statement made of them.
-/

namespace Sys2Proof.Machine

/-! Scratchpad stores that complete (09_memory R184, R191). -/

theorem SameMem.refl (s : State) : SameMem s s := fun _ => rfl

theorem SameMem.trans {s t u : State} (h : SameMem s t) (k : SameMem t u) : SameMem s u := fun j => (k j).trans (h j)

theorem SameMem.of_mem {s t : State} (h : t.mem = s.mem) : SameMem s t := fun k => by rw [State.memByte, State.memByte, h]

/-- Operations of groups have completed: memory, the issuing group's name and the groups' teams are as they were, and
no group has an operation it had not. -/
structure Landed (s t : State) : Prop where
  mem : SameMem s t
  cur : t.cur = s.cur
  team : ∀ k, (t.group k).team = (s.group k).team
  pend : ∀ k, (t.group k).pend ⊆ (s.group k).pend

theorem Landed.refl (s : State) : Landed s s := ⟨.refl s, rfl, fun _ => rfl, fun _ => List.Subset.refl _⟩

theorem Landed.trans {s t u : State} (h : Landed s t) (k : Landed t u) : Landed s u :=
  ⟨h.mem.trans k.mem, k.cur.trans h.cur, fun j => (k.team j).trans (h.team j), fun j _ hx => h.pend j (k.pend j hx)⟩

theorem Landed.foldl {α : Type} {f : State → α → State} (h : ∀ s a, Landed s (f s a)) (l : List α) (s : State) :
    Landed s (l.foldl f s) :=
  List.foldlRecOn l f (Landed.refl s) (fun _ ht a _ => ht.trans (h _ a))

theorem State.acquireAt_cur (s : State) (gk lvl : Nat) : (s.acquireAt gk lvl).cur = s.cur := by
  have hd : ∀ t : State, (t.dropClean (s.group gk).die).cur = t.cur := fun t =>
    List.foldlRecOn (motive := fun u : State => u.cur = t.cur) (List.range 8) _ rfl
      (fun (u : State) hu d _ => (u.roundTrip_homeward _ d).served.cur.trans hu)
  unfold State.acquireAt
  dsimp only
  split
  · rw [hd]; split <;> split <;> rfl
  · split <;> split <;> rfl

theorem State.complete1_cur (s : State) (gk : Nat) (o : PendOp) : (s.complete1 gk o).cur = s.cur := by
  unfold State.complete1
  dsimp only
  split
  · split <;> rfl
  · rw [State.acquireAt_cur]; split <;> rfl

theorem State.landOp_cur (s : State) (gk : Nat) (o : PendOp) : (s.landOp gk o).cur = s.cur := by
  have hd : ∀ t : State, (t.disarmOp gk o).cur = t.cur := fun t =>
    List.foldlRecOn (motive := fun u : State => u.cur = t.cur) o.v _ rfl
      (fun (u : State) hu _ _ => (u.disarmReg_cur gk _ _).trans hu)
  have hs : ∀ t : State, (t.settleGuards gk o).cur = t.cur := fun t => by unfold State.settleGuards; split <;> rfl
  unfold State.landOp
  rw [hs]
  exact (hd _).trans (s.complete1_cur gk o)

theorem State.landOp_other (s : State) {gk k : Nat} (o : PendOp) (h : k ≠ gk) : (s.landOp gk o).group k = s.group k := by
  unfold State.landOp
  dsimp only
  rw [State.group, State.settleGuards_groups, ← State.group, State.modGroup_group, if_neg h, State.group,
    State.disarmOp_groups, State.complete1_groups, State.group]

theorem State.landOp_pend (s : State) (gk : Nat) (o : PendOp) :
    ((s.landOp gk o).group gk).pend = (s.group gk).pend.filter (fun p => p.id ≠ o.id) := by
  rw [State.landOp_group, Group.land_frame]

theorem State.landOp_landed (s : State) (gk : Nat) (o : PendOp) : Landed s (s.landOp gk o) := by
  refine ⟨s.landOp_sameMem gk o, s.landOp_cur gk o, fun k => ?_, fun k => ?_⟩
  all_goals by_cases h : k = gk
  · rw [h, State.landOp_group, Group.land_frame]
  · rw [s.landOp_other o h]
  · rw [h, State.landOp_pend]; exact List.filter_subset_self _
  · rw [s.landOp_other o h]; exact List.Subset.refl _

/-- A group's operations that store to a handle. -/
def Group.stsTo (g : Group) (h : Nat) : List PendOp := g.pend.filter (fun o => o.kind = .sts && o.sh = h)

/-- The stores of one group to a handle completed. -/
def State.landGroupSts (h : Nat) (s : State) (gk : Nat) : State :=
  ((s.group gk).stsTo h).foldl (fun s o => s.landOp gk o) s

theorem State.landGroupSts_landed (h : Nat) (s : State) (gk : Nat) : Landed s (s.landGroupSts h gk) :=
  .foldl (fun s o => s.landOp_landed gk o) _ s

theorem State.landTeamSts_landed (s : State) (tk h : Nat) : Landed s (s.landTeamSts tk h) :=
  .foldl (State.landGroupSts_landed h) _ s

/-- No store to the handle is left of a group whose stores to it have completed. -/
theorem State.landGroupSts_none (h : Nat) (s : State) (gk : Nat) :
    ∀ o ∈ ((s.landGroupSts h gk).group gk).pend, ¬ (o.kind = .sts ∧ o.sh = h) := by
  intro o ho hk
  have hold : o ∈ (s.group gk).stsTo h := by
    have := (s.landGroupSts_landed h gk).pend gk ho
    simpa [Group.stsTo, hk] using this
  have hgone := State.foldl_each (fun s o => s.landOp gk o) (fun o t => ∀ p ∈ (t.group gk).pend, p.id ≠ o.id)
    (fun t o p hp => by
      rw [State.landOp_pend] at hp
      simpa using (List.mem_filter.1 hp).2)
    (fun t o o' ht p hp => ht p ((t.landOp_landed gk o).pend gk hp)) ((s.group gk).stsTo h) s o hold
  exact hgone o ho rfl

theorem State.landTeamSts_none (s : State) (tk h : Nat) :
    ∀ gk ∈ s.groupsOf tk, ∀ o ∈ ((s.landTeamSts tk h).group gk).pend, ¬ (o.kind = .sts ∧ o.sh = h) :=
  State.foldl_each (State.landGroupSts h) (fun gk t => ∀ o ∈ (t.group gk).pend, ¬ (o.kind = .sts ∧ o.sh = h))
    (fun t gk => t.landGroupSts_none h gk)
    (fun t gk _ ht o ho => ht o ((t.landGroupSts_landed h gk).pend _ ho)) (s.groupsOf tk) s

/-! ALLOC (R214). -/

theorem toNat_extractLsb'_eq_bitsOf {w : Nat} (x : BitVec w) (lo n : Nat) :
    (x.extractLsb' lo n).toNat = bitsOf x.toNat lo n := by
  rw [BitVec.extractLsb'_toNat, Nat.shiftRight_eq_div_pow, bitsOf]

theorem State.allocStatus_eq (s : State) (h z k f : Nat) (rec_ : DWord) :
    s.allocStatus h z k f rec_ = allocAnswer (s.team s.grp.team) h z k f rec_ := by
  unfold State.allocStatus allocAnswer Alloc.bound
  dsimp only
  have hz : (decide (z = 0) || decide (z % 4096 ≠ 0) || decide (2 ^ 23 < z)) = true
      ↔ ¬ (0 < z ∧ z % 4096 = 0 ∧ z ≤ 8388608) := by
    simp only [Bool.or_eq_true, decide_eq_true_eq]
    omega
  have hf : (decide (f ≠ 0) && !fmOk rec_) = true ↔ f ≠ 0 ∧ fmOk rec_ = false := by simp
  simp only [hz, hf, decide_eq_true_eq]

theorem exec_alloc_unguarded {s : State} {w : W0} (r : RRaw) (hg : s.guardW w = false) :
    exec (.alloc w r) s = .next s.cont := by
  show execAlloc w r s = _
  simp [execAlloc, hg]

theorem exec_alloc_fault {s u : State} {w : W0} {r : RRaw} {c va : Nat} (hg : s.guardW w = true)
    (hf : s.fmtCapture s.grp.ctx s.grp.die r.c.toNat = (u, .error (c, va))) :
    exec (.alloc w r) s = .next (u.parkFault c u.slot.act (BitVec.ofNat 64 va)) := by
  show execAlloc w r s = _
  simp [execAlloc, hg, hf]

/-- ALLOC once it has its record: the status goes to the register that OPX names, and gp0 says whether it is 0. -/
theorem exec_alloc_answers {s u : State} {w : W0} {r : RRaw} {rec_ : DWord} (hg : s.guardW w = true)
    (hf : s.fmtCapture s.grp.ctx s.grp.die r.c.toNat = (u, .ok rec_)) :
    let k := bitsOf r.m16.toNat 0 2
    let z := (u.rdG w.a.toNat).toNat
    let x := allocAnswer (u.team u.grp.team) w.d.toNat z k r.c.toNat rec_
    exec (.alloc w r) s = .next ((((if x = 0 then u.modTeam u.grp.team (fun t =>
        { t.setAlloc w.d.toNat (u.newAlloc z k r.c.toNat rec_ ((u.rdG r.b.toNat).toNat % 65536)) with
          reserve := t.reserve - z / 128 }) else u).wrG (bitsOf r.m16.toNat 10 6) (BitVec.ofNat 32 x)).wrGP 0
        (decide (x = 0))).cont) := by
  show execAlloc w r s = _
  simp only [execAlloc, hg, hf, Bool.not_true, Bool.false_eq_true, if_false, State.allocStatus_eq, toNat_extractLsb'_eq_bitsOf]
  rfl

/-! FREE and AQRY (R215, R217). -/

theorem exec_free {s p : State} {w : W0} (hp : s.landSts w.a.toNat = p) : exec (.free w) s
    = .next (if !p.guardW w then p.cont
      else if !((p.team p.grp.team).alloc w.a.toNat).bound then p.cont
      else if p.allocBusy p.grp.team w.a.toNat then p.holdIssue
      else ((p.landTeamSts p.grp.team w.a.toNat).modTeam p.grp.team (fun t => { t.setAlloc w.a.toNat {} with
        reserve := t.reserve + ((p.team p.grp.team).alloc w.a.toNat).size / 128 })).cont) := by
  subst hp; rfl

theorem Alloc.bound_iff (a : Alloc) : a.bound = true ↔ a.size ≠ 0 := decide_eq_true_iff

theorem Alloc.not_bound_iff (a : Alloc) : a.bound = false ↔ a.size = 0 := by simp [Alloc.bound]

theorem State.groupExec_off {s : State} {w : W0} (hg : s.guardW w = false) (f : State → State) : s.groupExec w f = s.cont := by
  simp [State.groupExec, hg]

theorem State.groupExec_on {s : State} {w : W0} (hg : s.guardW w = true) (f : State → State) :
    s.groupExec w f = (f s).cont := by
  simp [State.groupExec, hg]

/-- What AQRY reports of a designator (R217). -/
def State.reportTo (d a : Nat) (p : State) : State :=
  match p.target a with
  | .nothing => (p.wrG d 0).wrG (d + 1) 0
  | .handle _ a =>
    (p.wrG d (aqryState a.cls a.fmtIdx a.lease (p.issueClock a) ((List.range a.nrows).map (fun i =>
      (a.st.getD i a.st0, a.rowExpired (p.issueClock a) i, a.deadWords (p.issueClock a) i))))).wrG (d + 1)
      (aqrySize a.cls a.lease (a.size / 4096))
  | .range _ c =>
    (p.wrG d (aqryState c.cls 0 c.lease p.lat.lc (c.rows.map (fun n =>
      (p.grp.vst.getD n 0, expiredAt p.lat.lc (p.grp.vst.getD n 0) c.lease, p.grp.deadWords p.lat.lc n))))).wrG (d + 1)
      (aqrySize c.cls c.lease c.rows.length)

theorem exec_aqry {s p : State} {w : W0} (hp : s.landSts w.a.toNat = p) :
    exec (.aqry w) s = .next (p.groupExec w (State.reportTo w.d.toNat w.a.toNat)) := by
  subst hp; rfl

/-- Of class 0 AQRY reports no expiry and a full lease. -/
theorem aqryState_plain (fmt lease lc : Nat) (rows : List (Nat × Bool × Word)) :
    aqryState 0 fmt lease lc rows = BitVec.ofNat 32 (2147483648 + fmt % 256 * 65536 + 65535) := rfl

theorem aqrySize_plain (lease size : Nat) : aqrySize 0 lease size = BitVec.ofNat 32 (65535 * 65536 + size % 65536) := rfl

theorem ClassRange.rows_length (c : ClassRange) : c.rows.length = c.last + 1 - c.first := by simp [ClassRange.rows]

/-! A change of lease (R206, R216). -/

/-- A fold over numbers without repeats whose steps each act on what is read of one place. -/
theorem foldl_at_mem {σ β : Type} {f : σ → Nat → σ} {g : σ → β} {h : β → β} {i : Nat} {l : List Nat}
    (hf : ∀ s, ∀ j ∈ l, g (f s j) = if j = i then h (g s) else g s) (hn : l.Nodup) (s : σ) :
    g (l.foldl f s) = if i ∈ l then h (g s) else g s := by
  rw [foldl_at_place (place := id) (h := fun _ => h) hf (by rwa [List.map_id])]
  cases hfind : l.find? (fun j => decide (id j = i)) with
  | none =>
    have hi : i ∉ l := fun hi => by simpa using List.find?_eq_none.1 hfind i hi
    rw [if_neg hi]
    rfl
  | some j =>
    have hj : j = i := by simpa using List.find?_some hfind
    rw [if_pos (hj ▸ List.mem_of_find?_eq_some hfind)]
    rfl

/-- The step of a change of lease for one row. -/
def Alloc.settleRow (a : Alloc) (lc : Nat) (stamp : Bool) (b : Alloc) (row : Nat) : Alloc :=
  if a.rowExpired lc row then { b with x := b.x.set row (BitVec.allOnes 32) 0 }
  else if stamp then { b with st := b.st.set row lc b.st0 } else b

theorem Alloc.settleRows_eq (a : Alloc) (lc : Nat) (stamp : Bool) :
    a.settleRows lc stamp = (List.range a.nrows).foldl (a.settleRow lc stamp) a := rfl

/-- A change of lease changes the stamps and the marks of unreadable words alone. -/
theorem Alloc.settleRows_frame (a : Alloc) (lc : Nat) (stamp : Bool) :
    a.settleRows lc stamp = { a with st := (a.settleRows lc stamp).st, x := (a.settleRows lc stamp).x } := by
  rw [Alloc.settleRows_eq]
  refine List.foldlRecOn (motive := fun b : Alloc => b = { a with st := b.st, x := b.x }) _ _ rfl fun b hb row _ => ?_
  unfold Alloc.settleRow
  split
  · rw [hb]
  · split
    · rw [hb]
    · exact hb

/-- The rows expired under the old lease are unreadable word by word after the change. -/
theorem Alloc.settleRows_x (a : Alloc) (lc : Nat) (stamp : Bool) {row : Nat} (h : row < a.nrows) :
    (a.settleRows lc stamp).x.getD row 0 = if a.rowExpired lc row then BitVec.allOnes 32 else a.x.getD row 0 := by
  have hstep : ∀ b : Alloc, ∀ i ∈ List.range a.nrows, (a.settleRow lc stamp b i).x.getD row 0
      = if i = row then (if a.rowExpired lc row then BitVec.allOnes 32 else b.x.getD row 0) else b.x.getD row 0 := by
    intro b i _
    unfold Alloc.settleRow
    by_cases hi : i = row
    · rw [hi, if_pos rfl]
      cases a.rowExpired lc row
      · cases stamp <;> rfl
      · simp only [if_true, SMap.getD_set_same]
    · rw [if_neg hi]
      cases a.rowExpired lc i
      · cases stamp <;> rfl
      · simp only [if_true, SMap.getD_set_other _ _ _ (Ne.symm hi)]
  rw [Alloc.settleRows_eq, foldl_at_mem (g := fun b : Alloc => b.x.getD row 0)
    (h := fun old => if a.rowExpired lc row then BitVec.allOnes 32 else old) hstep List.nodup_range,
    if_pos (List.mem_range.2 h)]

/-- A word that the change of lease finds unreadable stays so, whatever lease and class of 1 or 2 follow. -/
theorem stillExpired_settled {a a' : Alloc} {lc : Nat} {stamp : Bool} (hc : a.cls ≠ 0) (hc' : a'.cls ≠ 0)
    (hx : a'.x = (a.settleRows lc stamp).x) : StillExpired a a' lc := by
  intro o ho hun
  rw [Alloc.unreadable_eq _ _ _ hc] at hun
  rw [Alloc.unreadable_eq _ _ _ hc', hx, Alloc.settleRows_x _ _ _ ho]
  cases hrow : a.rowExpired lc (o / 128)
  · rw [hrow, Bool.false_or] at hun
    rw [if_neg (by decide), hun, Bool.or_true]
  · have hall : inMask (BitVec.allOnes 32) (o / 4 % 32) = true := by
      simp only [inMask, BitVec.getLsbD_allOnes, decide_eq_true_eq]
      omega
    rw [if_pos rfl, hall, Bool.or_true]

/-- The step of a change of lease for one register's row. -/
def Group.settleRow (g : Group) (lc : Nat) (c : ClassRange) (stamp : Bool) (b : Group) (n : Nat) : Group :=
  if expiredAt lc (g.vst.getD n 0) c.lease then { b with vx := b.vx.set n (BitVec.allOnes 32) 0 }
  else if stamp then { b with vst := b.vst.set n lc 0 } else b

theorem Group.settleRows_eq (g : Group) (lc : Nat) (c : ClassRange) (stamp : Bool) :
    g.settleRows lc c stamp = c.rows.foldl (g.settleRow lc c stamp) g := rfl

theorem Group.settleRows_frame (g : Group) (lc : Nat) (c : ClassRange) (stamp : Bool) : g.settleRows lc c stamp
    = { g with vst := (g.settleRows lc c stamp).vst, vx := (g.settleRows lc c stamp).vx } := by
  rw [Group.settleRows_eq]
  refine List.foldlRecOn (motive := fun b : Group => b = { g with vst := b.vst, vx := b.vx }) _ _ rfl fun b hb n _ => ?_
  unfold Group.settleRow
  split
  · rw [hb]
  · split
    · rw [hb]
    · exact hb

theorem ClassRange.rows_nodup (c : ClassRange) : c.rows.Nodup :=
  List.nodup_range.map (fun _ _ h => Nat.add_left_cancel h)

theorem ClassRange.mem_rows (c : ClassRange) (n : Nat) : n ∈ c.rows ↔ c.first ≤ n ∧ n ≤ c.last := by
  simp only [ClassRange.rows, List.mem_map, List.mem_range]
  exact ⟨fun ⟨i, hi, h⟩ => by omega, fun h => ⟨n - c.first, by omega, by omega⟩⟩

/-- A row of the range that is not expired takes the clock as its new stamp. -/
theorem Group.settleRows_stamp (g : Group) (lc : Nat) (c : ClassRange) {n : Nat} (hn : n ∈ c.rows) :
    (g.settleRows lc c true).vst.getD n 0 = if expiredAt lc (g.vst.getD n 0) c.lease then g.vst.getD n 0 else lc := by
  have hstep : ∀ b : Group, ∀ i ∈ c.rows, (g.settleRow lc c true b i).vst.getD n 0
      = if i = n then (if expiredAt lc (g.vst.getD n 0) c.lease then b.vst.getD n 0 else lc) else b.vst.getD n 0 := by
    intro b i _
    unfold Group.settleRow
    by_cases hi : i = n
    · rw [hi, if_pos rfl]
      cases expiredAt lc (g.vst.getD n 0) c.lease
      · simp only [if_true, Bool.false_eq_true, if_false, SMap.getD_set_same]
      · simp only [if_true]
    · rw [if_neg hi]
      cases expiredAt lc (g.vst.getD i 0) c.lease
      · simp only [if_true, Bool.false_eq_true, if_false, SMap.getD_set_other _ _ _ (Ne.symm hi)]
      · simp only [if_true]
  rw [Group.settleRows_eq, foldl_at_mem (g := fun b : Group => b.vst.getD n 0)
    (h := fun old => if expiredAt lc (g.vst.getD n 0) c.lease then old else lc) hstep c.rows_nodup, if_pos hn]

/-! RENEW and RECLASS (R216, R218). -/

theorem State.landTeamSts_grp_team (s : State) (tk h : Nat) : (s.landTeamSts tk h).grp.team = s.grp.team := by
  have hl := s.landTeamSts_landed tk h
  rw [State.grp, hl.cur, hl.team, State.grp]

/-- An allocation with the lease that RENEW gives it. -/
def Alloc.renewed (a : Alloc) (lc lease : Nat) : Alloc :=
  { (if a.cls = 0 then a else a.settleRows lc true) with lease }

/-- The class range with the lease that RENEW gives it. -/
def Group.renewRange (lc : Nat) (i : Nat) (c : ClassRange) (lease : Nat) (g : Group) : Group :=
  (if c.cls = 0 then g else g.settleRows lc c true).setRange i { c with lease }

/-- What RENEW does to what its designator names. -/
def State.renewTo (d a : Nat) (p : State) : State :=
  match p.target d with
  | .nothing => p
  | .handle h x => p.setAlloc p.grp.team h (x.renewed (p.issueClock x) (leaseOf (p.rdG a)))
  | .range i c => p.modGrp (Group.renewRange p.lat.lc i c (leaseOf (p.rdG a)))

theorem State.renewTo_handle {p : State} {d h : Nat} {x : Alloc} (ht : p.target d = .handle h x) (a : Nat) :
    p.renewTo d a = p.setAlloc p.grp.team h (x.renewed (p.issueClock x) ((p.rdG a).toNat % 65536)) := by
  rw [State.renewTo, ht]
  rfl

theorem State.renewTo_range {p : State} {d i : Nat} {c : ClassRange} (ht : p.target d = .range i c) (a : Nat) :
    p.renewTo d a = p.modGrp (Group.renewRange p.lat.lc i c ((p.rdG a).toNat % 65536)) := by
  rw [State.renewTo, ht]
  rfl

theorem exec_renew {s p : State} {w : W0} (hp : s.landSts w.d.toNat = p) :
    exec (.renew w) s = .next (p.groupExec w (State.renewTo w.d.toNat w.a.toNat)) := by
  subst hp; rfl

theorem exec_renew_on {s p : State} {w : W0} (hp : s.landSts w.d.toNat = p) (hg : p.guardW w = true) :
    exec (.renew w) s = .next (p.renewTo w.d.toNat w.a.toNat).cont := by
  rw [exec_renew hp, State.groupExec_on hg]

theorem Alloc.renewed_keeps (a : Alloc) (lc lease : Nat) :
    (a.renewed lc lease).lease = lease ∧ (a.renewed lc lease).cls = a.cls ∧ (a.renewed lc lease).size = a.size
    ∧ (a.renewed lc lease).data = a.data ∧ (a.cls ≠ 0 → StillExpired a (a.renewed lc lease) lc) := by
  unfold Alloc.renewed
  split
  · next hc => exact ⟨rfl, rfl, rfl, rfl, fun h => absurd hc h⟩
  · next hc =>
    rw [Alloc.settleRows_frame]
    exact ⟨rfl, rfl, rfl, rfl, fun _ => stillExpired_settled hc hc rfl⟩

theorem Group.renewRange_renews {c : ClassRange} (hc : c.cls ≠ 0) (lc i lease : Nat) (g : Group) :
    ((g.renewRange lc i c lease).crs.getD i {}) = { c with lease } ∧ (g.renewRange lc i c lease).v = g.v
    ∧ ∀ n, c.first ≤ n → n ≤ c.last → (g.renewRange lc i c lease).vst.getD n 0
        = if expiredAt lc (g.vst.getD n 0) c.lease then g.vst.getD n 0 else lc := by
  unfold Group.renewRange
  rw [if_neg hc]
  refine ⟨SMap.getD_set_same _ _ _ _, ?_, fun n h1 h2 => g.settleRows_stamp lc c ((c.mem_rows n).2 ⟨h1, h2⟩)⟩
  rw [Group.settleRows_frame]
  rfl

/-- The rows of an allocation whose class becomes 0: an unreadable word is zero. -/
theorem Alloc.relabel_plain (a : Alloc) (lc o : Nat) :
    (a.relabel lc 0).data.getD o 0 = if a.unreadable lc o then 0 else a.data.getD o 0 := by
  have h : (a.relabel lc 0).data = a.data.filter (fun e => !a.unreadable lc e.1) := by simp [Alloc.relabel]
  rw [h, SMap.getD_filter a.data (fun j => !a.unreadable lc j)]
  cases a.unreadable lc o <;> rfl

/-- The rows of an allocation of class 1 or 2 whose class becomes 1 or 2. -/
theorem Alloc.relabel_leased {a : Alloc} {k : Nat} (hk : k ≠ 0) (hc : a.cls ≠ 0) (lc : Nat) :
    a.relabel lc k = { a.settleRows lc false with cls := k } := by
  simp [Alloc.relabel, hk, hc]

theorem Alloc.relabel_keeps (a : Alloc) (lc k : Nat) :
    (a.relabel lc k).cls = k ∧ (a.relabel lc k).size = a.size ∧ (a.relabel lc k).record = a.record := by
  unfold Alloc.relabel
  split
  · exact ⟨rfl, rfl, rfl⟩
  · split
    · next hk => exact ⟨hk.symm, rfl, rfl⟩
    · rw [Alloc.settleRows_frame]; exact ⟨rfl, rfl, rfl⟩

/-- An allocation as RECLASS leaves it: relabelled, with its new lease and, where it names one, its new format. -/
def Alloc.reclassed (a : Alloc) (lc k lease : Nat) (fmt : Option (Nat × DWord)) : Alloc :=
  let b := { a.relabel lc k with lease }
  match fmt with
  | some (i, rec_) => { b with fmtIdx := i, record := rec_ }
  | none => b

/-- What RECLASS leaves of an allocation besides its format. -/
theorem Alloc.reclassed_keeps (a : Alloc) (lc k lease : Nat) (fmt : Option (Nat × DWord)) :
    let a' := a.reclassed lc k lease fmt
    a'.cls = k ∧ a'.lease = lease ∧ a'.size = a.size ∧ a'.data = (a.relabel lc k).data
    ∧ (k ≠ 0 → a.cls ≠ 0 → a'.data = a.data ∧ StillExpired a a' lc) := by
  obtain ⟨hcls, hsize, -⟩ := a.relabel_keeps lc k
  have hleft : a.reclassed lc k lease fmt = { a.relabel lc k with
      lease, fmtIdx := (a.reclassed lc k lease fmt).fmtIdx, record := (a.reclassed lc k lease fmt).record } := by
    cases fmt <;> rfl
  dsimp only
  rw [hleft]
  refine ⟨hcls, rfl, hsize, rfl, fun hk hc => ?_⟩
  rw [Alloc.relabel_leased hk hc]
  exact ⟨by rw [Alloc.settleRows_frame], stillExpired_settled hc hk rfl⟩

/-- The class that RECLASS is given does not exist, or the record does not fit it. -/
def badReclass (k : Nat) (fmt : Option (Nat × DWord)) : Bool :=
  k = 3 || (match fmt with | some (i, rec_) => i ≠ 0 && !fmOk rec_ | none => false)

theorem State.reclass_refused {s : State} {d k : Nat} {fmt : Option (Nat × DWord)}
    (h : s.target d = .nothing ∨ badReclass k fmt = true) (lease : Nat) : s.reclass d k lease fmt = s.wrGP 0 false := by
  unfold State.reclass
  cases ht : s.target d with
  | nothing => rfl
  | handle i a => exact if_pos (h.resolve_left (by simp [ht]))
  | range i c => exact if_pos (h.resolve_left (by simp [ht]))

theorem State.reclass_handle {s : State} {d k h : Nat} {a : Alloc} (ht : s.target d = .handle h a)
    (hb : badReclass k none = false) (lease : Nat) : s.reclass d k lease none
      = (s.setAlloc s.grp.team h (a.reclassed (s.issueClock a) k lease none)).wrGP 0 true := by
  unfold State.reclass
  rw [ht]
  exact if_neg (Bool.eq_false_iff.1 hb)

theorem State.reclass_format {s q : State} {d k h : Nat} {a : Alloc} {f : Nat × DWord} (ht : s.target d = .handle h a)
    (hb : badReclass k (some f) = false) (hq : s.landTeamSts s.grp.team h = q) (lease : Nat) :
    s.reclass d k lease (some f) = (q.setAlloc q.grp.team h (((q.team q.grp.team).alloc h).reclassed
      (q.issueClock ((q.team q.grp.team).alloc h)) k lease (some f))).wrGP 0 true := by
  subst hq
  unfold State.reclass
  rw [ht]
  exact if_neg (Bool.eq_false_iff.1 hb)

theorem exec_reclass_off {s p : State} {w : W0} (r : RRaw) (hp : s.landSts w.d.toNat = p) (hg : p.guardW w = false) :
    exec (.reclass w r) s = .next p.cont := by
  subst hp
  show execReclass w r s = _
  simp [execReclass, hg]

theorem exec_reclass_label {s p : State} {w : W0} {r : RRaw} (hp : s.landSts w.d.toNat = p) (hg : p.guardW w = true)
    (hf : r.m16.getLsbD 2 = false) : exec (.reclass w r) s = .next (p.reclass w.d.toNat (bitsOf r.m16.toNat 0 2)
      ((p.rdG w.a.toNat).toNat % 65536) none).cont := by
  subst hp
  show execReclass w r s = _
  simp only [execReclass, hg, hf, toNat_extractLsb'_eq_bitsOf, Bool.not_true, Bool.not_false, Bool.false_eq_true, if_false,
    if_true]
  rfl

theorem exec_reclass_fault {s p u : State} {w : W0} {r : RRaw} {c va : Nat} (hp : s.landSts w.d.toNat = p)
    (hg : p.guardW w = true) (hf : r.m16.getLsbD 2 = true)
    (hc : p.fmtCapture p.grp.ctx p.grp.die r.c.toNat = (u, .error (c, va))) :
    exec (.reclass w r) s = .next (u.parkFault c u.slot.act (BitVec.ofNat 64 va)) := by
  subst hp
  show execReclass w r s = _
  simp only [execReclass, hg, hf, hc, Bool.not_true, Bool.false_eq_true, if_false]

theorem exec_reclass_format {s p u : State} {w : W0} {r : RRaw} {rec_ : DWord} (hp : s.landSts w.d.toNat = p)
    (hg : p.guardW w = true) (hf : r.m16.getLsbD 2 = true)
    (hc : p.fmtCapture p.grp.ctx p.grp.die r.c.toNat = (u, .ok rec_)) :
    exec (.reclass w r) s = .next (u.reclass w.d.toNat (bitsOf r.m16.toNat 0 2) ((p.rdG w.a.toNat).toNat % 65536)
      (some (r.c.toNat, rec_))).cont := by
  subst hp
  show execReclass w r s = _
  simp only [execReclass, hg, hf, hc, toNat_extractLsb'_eq_bitsOf, Bool.not_true, Bool.false_eq_true, if_false]
  rfl

theorem badReclass_some {k : Nat} {c : BitVec 8} {rec_ : DWord} :
    badReclass k (some (c.toNat, rec_)) = false ↔ k ≠ 3 ∧ (c = 0 ∨ fmOk rec_ = true) := by
  have hc : c.toNat = 0 ↔ c = 0 := by
    rw [← BitVec.toNat_inj]; rfl
  simp only [badReclass, Bool.or_eq_false_iff, decide_eq_false_iff_not, Bool.and_eq_false_iff, decide_eq_false_iff_not,
    not_not, Bool.not_eq_false', hc, ne_eq]

/-! Errors of a core's cells, counted and queued (R222). -/

/-- Events counted at a core change its counters alone. -/
theorem State.countCore_coreAt (s : State) (ck code ctx n j : Nat) : (s.countCore ck code ctx n).coreAt j
    = { s.coreAt j with ctrs := ((s.countCore ck code ctx n).coreAt j).ctrs } := by
  rw [State.countCore, State.modCore_coreAt]
  split
  · next h => rw [h]
  · rfl

/-- A row queued for remapping changes the queue of its core alone. -/
theorem State.queueRow_coreAt (s : State) (ck u row j : Nat) : (s.queueRow ck u row).coreAt j
    = { s.coreAt j with rowRemaps := ((s.queueRow ck u row).coreAt j).rowRemaps } := by
  rw [State.queueRow, State.modCore_coreAt]
  split
  · next h => rw [h]; split <;> rfl
  · rfl

theorem State.mem_queueRow (s : State) (ck u row : Nat) : (u, row) ∈ ((s.queueRow ck u row).coreAt ck).rowRemaps := by
  rw [State.queueRow, State.modCore_coreAt, if_pos rfl]
  split
  · next h => simpa using h
  · exact List.mem_append_right _ List.mem_cons_self

theorem State.queueRow_grows (s : State) (ck u row j : Nat) :
    (s.coreAt j).rowRemaps ⊆ ((s.queueRow ck u row).coreAt j).rowRemaps := by
  rw [State.queueRow, State.modCore_coreAt]
  split
  · next h =>
    rw [h]
    split
    · exact List.Subset.refl _
    · exact List.subset_append_left _ _
  · exact List.Subset.refl _

/-- A word of a register's row poisoned. -/
def Group.poisonWord (n L : Nat) (g : Group) : Group :=
  { g with vpois := g.vpois.set n (g.vpois.getD n 0 ||| oneWord L) 0 }

theorem Group.poisonWord_vPoisoned (g : Group) (n L k : Nat) {M : Nat} (hM : M < 32) :
    (g.poisonWord n L).vPoisoned k M = (g.vPoisoned k M || decide (n = k ∧ L = M)) := by
  unfold Group.vPoisoned Group.poisonWord
  dsimp only
  rw [SMap.getD_set]
  by_cases hk : k = n
  · rw [if_pos hk, inMask, BitVec.getLsbD_or, ← inMask, ← inMask, inMask_oneWord hM, hk]
    simp [eq_comm]
  · rw [if_neg hk, decide_eq_false (fun h => hk h.1.symm), Bool.or_false]

/-! The refresh engine (R220, R222). -/

/-- Memory, the lane registers and the bytes of the allocations hold what they held. -/
structure Kept (s t : State) : Prop where
  mem : SameMem s t
  lanes : ∀ gk, (t.group gk).v = (s.group gk).v
  data : ∀ tk h, ((t.team tk).alloc h).data = ((s.team tk).alloc h).data

theorem Kept.refl (s : State) : Kept s s := ⟨.refl s, fun _ => rfl, fun _ _ => rfl⟩

theorem Kept.trans {s t u : State} (h : Kept s t) (k : Kept t u) : Kept s u :=
  ⟨h.mem.trans k.mem, fun g => (k.lanes g).trans (h.lanes g), fun a b => (k.data a b).trans (h.data a b)⟩

/-- What changes no group, team or byte of memory. -/
theorem Kept.of_stores {s t : State} (hm : t.mem = s.mem) (hg : t.groups = s.groups) (ht : t.teams = s.teams) : Kept s t :=
  ⟨.of_mem hm, fun _ => by rw [State.group, State.group, hg], fun _ _ => by rw [State.team, State.team, ht]⟩

theorem Kept.of_modGroup (s : State) (gk : Nat) {f : Group → Group} (hf : ∀ g, (f g).v = g.v) : Kept s (s.modGroup gk f) := by
  refine ⟨.of_mem rfl, fun k => ?_, fun _ _ => rfl⟩
  rw [State.modGroup_group]
  split
  · next h => rw [hf, h]
  · rfl

theorem Kept.of_modTeam (s : State) (tk : Nat) {f : Team → Team}
    (hf : ∀ t h, ((f t).alloc h).data = (t.alloc h).data) : Kept s (s.modTeam tk f) := by
  refine ⟨.of_mem rfl, fun _ => rfl, fun k h => ?_⟩
  rw [State.modTeam, State.setTeam_team]
  split
  · next hk => rw [hf, hk]
  · rfl

theorem Team.setAlloc_alloc (t : Team) (h j : Nat) (a : Alloc) :
    (t.setAlloc h a).alloc j = if j = h then a else t.alloc j := SMap.getD_set _ _ _ _ _

theorem Kept.of_setAlloc {s : State} {tk h : Nat} {a : Alloc} (ha : a.data = ((s.team tk).alloc h).data) :
    Kept s (s.setAlloc tk h a) := by
  refine ⟨.of_mem rfl, fun _ => rfl, fun k j => ?_⟩
  rw [State.setAlloc, State.modTeam, State.setTeam_team]
  split
  · next hk =>
    rw [Team.setAlloc_alloc]
    split
    · next hj => rw [ha, hk, hj]
    · rw [hk]
  · rfl

theorem State.countCore_kept (s : State) (ck code ctx n : Nat) : Kept s (s.countCore ck code ctx n) := .of_stores rfl rfl rfl

theorem State.queueRow_kept (s : State) (ck u row : Nat) : Kept s (s.queueRow ck u row) := .of_stores rfl rfl rfl

theorem State.lastingAt_kept (s : State) (core : Nat) (r : KeptRow) (w : Nat) : Kept s (s.lastingAt core r w) := by
  cases r with
  | reg gk n => exact .trans (.of_modGroup s gk (f := Group.poisonWord n w) fun _ => rfl) (State.queueRow_kept _ _ _ _)
  | spad tk h row =>
    refine .trans ?_ (State.queueRow_kept _ _ _ _)
    exact .of_setAlloc rfl
  | twb tk i => exact .of_modTeam s tk (f := fun t => { t with twb := _ }) fun _ _ => rfl
  | gsb gk i => exact .of_modGroup s gk (f := fun g => { g with gsb := _ }) fun _ => rfl
  | div gk => exact .refl s

theorem State.armAt_kept (s : State) (core : Nat) (r : KeptRow) (w k : Nat) : Kept s (s.armAt core r w k) := by
  cases r with
  | reg gk n => exact .of_stores rfl rfl rfl
  | spad tk h row => exact .of_setAlloc rfl
  | twb tk i => exact .refl s
  | gsb gk i => exact .refl s
  | div gk => exact .refl s

theorem State.meetWord_kept (s : State) (core : Nat) (r : KeptRow) (w k : Nat) : Kept s (s.meetWord core r w k) := by
  match k with
  | 0 => exact .refl s
  | 1 => exact s.countCore_kept _ _ _ _
  | 2 => exact s.countCore_kept _ _ _ _
  | 3 => exact (s.countCore_kept _ _ _ _).trans (State.lastingAt_kept _ _ _ _)
  | k + 4 => exact s.armAt_kept _ _ _ _

theorem exec_refresh_none {s : State} {core row : Nat} (h : (s.keptRows core).length ≤ row) :
    exec (.refresh core row) s = .next s := by
  show execRefresh core row s = _
  rw [execRefresh, List.getElem?_eq_none h]

theorem exec_refresh_some {s : State} {core row : Nat} {r : KeptRow} (h : (s.keptRows core)[row]? = some r) :
    exec (.refresh core row) s = .next ((s.keptWords r).foldl (fun t w => t.meetWord core r w (s.wordError w))
      (s.countCore core 17 (s.keptCtx r) 1)) := by
  show execRefresh core row s = _
  rw [execRefresh, h]

/-- REFRESH changes no value. -/
theorem exec_refresh_kept (s : State) (core row : Nat) : Runs (.refresh core row) s (Kept s) := by
  cases h : (s.keptRows core)[row]? with
  | none => exact ⟨s, exec_refresh_none (List.getElem?_eq_none_iff.1 h), .refl s⟩
  | some r =>
    exact ⟨_, exec_refresh_some h, List.foldlRecOn (s.keptWords r) _ (s.countCore_kept _ _ _ _)
      (fun t ht w _ => ht.trans (t.meetWord_kept _ _ _ _))⟩

/-! The remaps (R223; 14_matrix R325; 17_cold R391). -/

theorem State.appendRepair_eq {s : State} (h : s.repairs.length < 4096) (r : Repair) :
    s.appendRepair r = { s with repairs := s.repairs ++ [{ r with at_ := s.time }] } := by
  rw [State.appendRepair, if_pos h]

theorem exec_rowRemap_none {s : State} {core : Nat} (h : ∀ e ∈ (s.coreAt core).rowRemaps, s.rowHeld e.1 = true) :
    exec (.rowRemap core) s = .next s := by
  have hf : (s.coreAt core).rowRemaps.find? (fun e => !s.rowHeld e.1) = none := by simpa using h
  show execRowRemap core s = _
  simp only [execRowRemap, hf]

/-- A core with one more spare row used, or without one, for a row that nothing holds any longer. -/
theorem exec_rowRemap_some {s : State} {core : Nat} {e : Nat × Nat} {c : Core} (hc : s.coreAt core = c)
    (h : c.rowRemaps.find? (fun e => !s.rowHeld e.1) = some e) : exec (.rowRemap core) s = .next
      (if c.sparesUsed < 1024 then
        (s.setCore core { c with rowRemaps := c.rowRemaps.erase e, sparesUsed := c.sparesUsed + 1 }).appendRepair
          { type_ := 2, die := core / 256, unit_ := core % 256, old := e.2, new := c.sparesUsed }
      else s.setCore core { c with rowRemaps := c.rowRemaps.erase e, withdrawn := c.withdrawn + 1 }) := by
  subst hc
  show execRowRemap core s = _
  simp only [execRowRemap, h]

theorem exec_columnRemap (s : State) (core : Nat) : exec (.columnRemap core) s = .next
    (if (s.coreAt core).marked = 0 || !s.arrayIdle core || spareColumns (core / 256) ≤ (s.coreAt core).columnsUsed then s
    else (s.setCore core { s.coreAt core with
        columnsUsed := (s.coreAt core).columnsUsed + 1, marked := (s.coreAt core).marked - 1 }).appendRepair
      { type_ := 3, die := core / 256, unit_ := core % 256, new := (s.coreAt core).columnsUsed }) := rfl

/-! Errors that reads of registers meet (R222). -/

/-- A lasting error found at a word of a register. -/
theorem State.meetWord_lasting (s : State) (core gk n w : Nat) :
    s.meetWord core (.reg gk n) w 3 = (((s.countCore core 0x0F (s.group gk).ctx 1).modGroup gk
      (Group.poisonWord n w)).queueRow core ((s.group gk).team * 32 + 16) n) := rfl

/-- An error armed at a core is one that a read of the registers meets. -/
def Group.meets (g : Group) (gk lc : Nat) (m : Word) (regs : List Nat) (e : ArmedErr) : Bool :=
  e.site = 0 && e.at_ / 8192 = gk && regs.contains (e.at_ / 32 % 256) && inMask m (e.at_ % 32)
    && !g.unreadable lc (e.at_ / 32 % 256) (e.at_ % 32)

theorem Group.meets_iff (g : Group) (gk lc : Nat) (m : Word) (regs : List Nat) (e : ArmedErr) :
    g.meets gk lc m regs e = true ↔ e.site = 0 ∧ e.at_ / 8192 = gk ∧ e.at_ / 32 % 256 ∈ regs ∧ inMask m (e.at_ % 32) = true
      ∧ g.unreadable lc (e.at_ / 32 % 256) (e.at_ % 32) = false := by
  simp only [Group.meets, Bool.and_eq_true, decide_eq_true_eq, List.contains_iff_mem, Bool.not_eq_true', and_assoc]

/-- What an armed error does once a read meets it. -/
def State.meetReg (gk ck : Nat) (g : Group) (s : State) (e : ArmedErr) : State :=
  let t := s.countCore ck (0x0D + e.kind) g.ctx 1
  if e.kind = 2 then
    let u := t.modGroup gk (Group.poisonWord (e.at_ / 32 % 256) (e.at_ % 32))
    if e.cell then u.queueRow ck (g.team * 32 + 16) (e.at_ / 32 % 256) else u
  else t

/-- The errors that a read meets are armed no more. -/
def State.dropMet (s : State) (ck : Nat) (hit : ArmedErr → Bool) : State :=
  if ((s.coreAt ck).armed.filter hit).isEmpty then s
  else s.modCore ck (fun c => { c with armed := c.armed.filter (fun e => !hit e) })

theorem State.meetRegs_eq {s : State} {gk ck : Nat} {g : Group} (hg : s.group gk = g) (hk : coreKey g.die g.core = ck)
    (lc : Nat) (m : Word) (regs : List Nat) : s.meetRegs gk lc m regs
      = ((s.coreAt ck).armed.filter (g.meets gk lc m regs)).foldl (State.meetReg gk ck g)
        (s.dropMet ck (g.meets gk lc m regs)) := by
  subst hg hk; rfl

theorem State.dropMet_armed (s : State) (ck : Nat) (hit : ArmedErr → Bool) :
    ((s.dropMet ck hit).coreAt ck).armed = (s.coreAt ck).armed.filter (fun e => !hit e) := by
  unfold State.dropMet
  split
  · next h =>
    refine (List.filter_eq_self.2 fun e he => ?_).symm
    have := List.filter_eq_nil_iff.1 (List.isEmpty_iff.1 h) e he
    simpa using this
  · rw [State.modCore_coreAt, if_pos rfl]

theorem State.dropMet_groups (s : State) (ck : Nat) (hit : ArmedErr → Bool) :
    (s.dropMet ck hit).groups = s.groups ∧ (s.dropMet ck hit).mem = s.mem := by
  unfold State.dropMet
  split <;> exact ⟨rfl, rfl⟩

/-- Errors of a group's registers have been met: of the group the poison alone differs, the armed errors of its core
stand, and the rows queued stay queued. -/
structure Met (gk ck : Nat) (s t : State) : Prop where
  mem : SameMem s t
  group : t.group gk = { s.group gk with vpois := (t.group gk).vpois }
  armed : (t.coreAt ck).armed = (s.coreAt ck).armed
  queued : (s.coreAt ck).rowRemaps ⊆ (t.coreAt ck).rowRemaps

theorem Met.refl (gk ck : Nat) (s : State) : Met gk ck s s := ⟨.refl s, rfl, rfl, List.Subset.refl _⟩

theorem Met.trans {gk ck : Nat} {s t u : State} (h : Met gk ck s t) (k : Met gk ck t u) : Met gk ck s u :=
  ⟨h.mem.trans k.mem, by rw [k.group, h.group], k.armed.trans h.armed, fun _ hx => k.queued (h.queued hx)⟩

theorem Met.of_cores {gk ck : Nat} {s t : State} (hm : t.mem = s.mem) (hg : t.groups = s.groups)
    (ha : (t.coreAt ck).armed = (s.coreAt ck).armed) (hq : (s.coreAt ck).rowRemaps ⊆ (t.coreAt ck).rowRemaps) :
    Met gk ck s t :=
  ⟨.of_mem hm, by rw [State.group, State.group, hg], ha, hq⟩

theorem State.countCore_met (s : State) (gk ck code ctx n : Nat) : Met gk ck s (s.countCore ck code ctx n) :=
  .of_cores rfl rfl (by rw [State.countCore_coreAt]) (by rw [State.countCore_coreAt]; exact List.Subset.refl _)

theorem State.queueRow_met (s : State) (gk ck u row : Nat) : Met gk ck s (s.queueRow ck u row) :=
  .of_cores rfl rfl (by rw [State.queueRow_coreAt]) (s.queueRow_grows _ _ _ _)

theorem State.poisonWord_met (s : State) (gk ck n L : Nat) : Met gk ck s (s.modGroup gk (Group.poisonWord n L)) := by
  refine ⟨.of_mem rfl, ?_, rfl, List.Subset.refl _⟩
  rw [State.modGroup_group, if_pos rfl]
  rfl

theorem State.meetReg_met (gk ck : Nat) (g : Group) (s : State) (e : ArmedErr) : Met gk ck s (s.meetReg gk ck g e) := by
  unfold State.meetReg
  have hcount := s.countCore_met gk ck (0x0D + e.kind) g.ctx 1
  dsimp only
  split
  · have hpois := hcount.trans (State.poisonWord_met _ gk ck (e.at_ / 32 % 256) (e.at_ % 32))
    split
    · exact hpois.trans (State.queueRow_met _ _ _ _ _)
    · exact hpois
  · exact hcount

/-- An error met poisons its word when it lasts, and no other. -/
theorem State.meetReg_vPoisoned (gk ck : Nat) (g : Group) (s : State) (e : ArmedErr) (n : Nat) {L : Nat} (hL : L < 32) :
    ((s.meetReg gk ck g e).group gk).vPoisoned n L
      = ((s.group gk).vPoisoned n L || decide (e.kind = 2 ∧ e.at_ / 32 % 256 = n ∧ e.at_ % 32 = L)) := by
  unfold State.meetReg
  by_cases hk : e.kind = 2
  · have hp : ∀ t : State, ((t.modGroup gk (Group.poisonWord (e.at_ / 32 % 256) (e.at_ % 32))).group gk).vPoisoned n L
        = ((t.group gk).vPoisoned n L || decide (e.at_ / 32 % 256 = n ∧ e.at_ % 32 = L)) := fun t => by
      rw [State.modGroup_group, if_pos rfl, Group.poisonWord_vPoisoned _ _ _ _ hL]
    simp only [hk, if_true, true_and]
    cases e.cell
    · exact hp _
    · exact hp _
  · simp only [hk, if_false, false_and, decide_false, Bool.or_false]
    rfl

theorem State.meetReg_queues {gk ck : Nat} {g : Group} {s : State} {e : ArmedErr} (hk : e.kind = 2) (hc : e.cell = true) :
    (g.team * 32 + 16, e.at_ / 32 % 256) ∈ ((s.meetReg gk ck g e).coreAt ck).rowRemaps := by
  simp only [State.meetReg, hk, hc, if_true]
  exact State.mem_queueRow _ _ _ _

theorem State.meetReg_foldl_met (gk ck : Nat) (g : Group) (l : List ArmedErr) (s : State) :
    Met gk ck s (l.foldl (State.meetReg gk ck g) s) :=
  List.foldlRecOn l _ (.refl gk ck s) (fun t ht e _ => ht.trans (t.meetReg_met gk ck g e))

/-- Every lasting error of the list poisons its word and, unless injected, queues its row. -/
theorem State.meetReg_foldl_lasting (gk ck : Nat) (g : Group) (l : List ArmedErr) (s : State) : ∀ e ∈ l, e.kind = 2 →
    ((l.foldl (State.meetReg gk ck g) s).group gk).vPoisoned (e.at_ / 32 % 256) (e.at_ % 32) = true
    ∧ (e.cell = true →
      (g.team * 32 + 16, e.at_ / 32 % 256) ∈ ((l.foldl (State.meetReg gk ck g) s).coreAt ck).rowRemaps) := by
  refine State.foldl_each (State.meetReg gk ck g) (fun e t => e.kind = 2 →
    (t.group gk).vPoisoned (e.at_ / 32 % 256) (e.at_ % 32) = true
    ∧ (e.cell = true → (g.team * 32 + 16, e.at_ / 32 % 256) ∈ (t.coreAt ck).rowRemaps)) (fun t e hk => ⟨?_, fun hc => ?_⟩)
    (fun t e e' he hk => ⟨?_, fun hc => ?_⟩) l s
  · rw [State.meetReg_vPoisoned _ _ _ _ _ _ (by omega), decide_eq_true ⟨hk, rfl, rfl⟩, Bool.or_true]
  · exact State.meetReg_queues hk hc
  · rw [State.meetReg_vPoisoned _ _ _ _ _ _ (by omega), (he hk).1, Bool.true_or]
  · exact (t.meetReg_met gk ck g e).queued ((he hk).2 hc)

/-- A word that no lasting error of the list is at keeps its poison. -/
theorem State.meetReg_foldl_other (gk ck : Nat) (g : Group) {l : List ArmedErr} (s : State) {n L : Nat} (hL : L < 32)
    (h : ∀ e ∈ l, e.kind = 2 → ¬ (e.at_ / 32 % 256 = n ∧ e.at_ % 32 = L)) :
    ((l.foldl (State.meetReg gk ck g) s).group gk).vPoisoned n L = (s.group gk).vPoisoned n L := by
  refine List.foldlRecOn (motive := fun t : State => (t.group gk).vPoisoned n L = (s.group gk).vPoisoned n L) l _ rfl
    fun t ht e he => ?_
  rw [State.meetReg_vPoisoned _ _ _ _ _ _ hL, ht, decide_eq_false (fun hk => h e he hk.1 hk.2), Bool.or_false]

/-- Settles O41: each instruction by the one equation of its execution, class and lease by what a change of lease
leaves of the rows, the refresh engine and the reads by what one error met does. -/
theorem allocationsAndLeases : Obligations.AllocationsAndLeases := by
  unfold Obligations.AllocationsAndLeases
  refine ⟨fun s w r => ?alloc, fun s w => ?free, fun s w r => ?renew, fun s tk h => ?land, fun s core row => ?refresh,
    fun s core gk n w j hw => ?word, fun s gk lc m regs => ?regs⟩
  case alloc =>
    refine ⟨exec_alloc_unguarded r, fun hg u c va hf => exec_alloc_fault hg hf,
      fun hg u rec_ hf => ⟨fun hx => ?_, fun hx => ?_⟩⟩
    · rw [exec_alloc_answers hg hf]
      dsimp only
      rw [if_neg hx, decide_eq_false hx]
    · rw [exec_alloc_answers hg hf]
      dsimp only
      rw [hx, if_pos rfl, decide_eq_true rfl]
      rfl
  case free =>
    extract_lets h p tk t a hd on
    have hfree : exec (.free w) s = _ := exec_free (p := p) rfl
    have haqry : exec (.aqry w) s = _ := exec_aqry (p := p) rfl
    refine ⟨fun hg => ⟨?_, ?_⟩, fun hg ha => ?_, fun hg ha hb => ?_, fun hg ha hb => ?_, fun hg ht => ?_,
      fun hg n b ht hc => ?_, fun hg i c ht hc => ?_⟩
    · rw [hfree, hg]; rfl
    · rw [haqry, State.groupExec_off hg]
    · rw [hfree, show p.guardW w = true from hg, (Alloc.not_bound_iff _).2 ha]; rfl
    · rw [hfree, show p.guardW w = true from hg, (Alloc.bound_iff _).2 ha, hb]; rfl
    · rw [hfree, show p.guardW w = true from hg, (Alloc.bound_iff _).2 ha, hb]; rfl
    · rw [haqry, State.groupExec_on hg, State.reportTo, ht]
    · rw [haqry, State.groupExec_on hg, State.reportTo, ht]
      simp only [hc]
      rfl
    · rw [haqry, State.groupExec_on hg, State.reportTo, ht]
      simp only [hc, aqryState_plain, aqrySize_plain, ClassRange.rows_length]
      rfl
  case renew =>
    extract_lets hd p g tk k lease on
    refine ⟨fun hg => ⟨?_, exec_reclass_off r rfl hg⟩, fun hg ht => ?_, fun hg h a ht => ?_, fun hg i c ht hc => ?_,
      fun hg hf hb => ?_, fun hg hf hk h a ht => ?_, fun hg hf u c va hcap => exec_reclass_fault rfl hg hf hcap,
      fun hg hf u rec_ hcap => ⟨fun hb => ?_, fun hgood h x ht => ?_⟩⟩
    · rw [exec_renew rfl, State.groupExec_off hg]
    · rw [exec_renew_on rfl hg, State.renewTo, ht]
    · exact ⟨_, (exec_renew_on rfl hg).trans (by rw [State.renewTo_handle ht]), a.renewed_keeps _ _⟩
    · refine ⟨_, (exec_renew_on rfl hg).trans (by rw [State.renewTo_range ht]), ?_⟩
      dsimp only
      rw [(State.cont_slotsBecome _).2.2.2, State.modGrp_grp]
      exact Group.renewRange_renews hc _ _ _ _
    · rw [exec_reclass_label rfl hg hf, State.reclass_refused (hb.imp_right fun hk => by simpa [badReclass] using hk)]
    · obtain ⟨hcls, hlease, hsize, hdata, hkept⟩ := a.reclassed_keeps (p.issueClock a) k lease none
      refine ⟨_, ?_, hcls, hlease, hsize, (a.relabel_keeps _ _).2.2, hkept, ?_⟩
      · rw [exec_reclass_label rfl hg hf, State.reclass_handle ht (by simpa [badReclass] using hk)]
      · intro hk0 o
        rw [hdata, hk0, Alloc.relabel_plain]
    · rw [exec_reclass_format rfl hg hf hcap, State.reclass_refused (hb.imp_right fun h => ?_)]
      exact Bool.of_not_eq_false fun hn => h (badReclass_some.1 hn)
    · intro q a
      obtain ⟨hcls, hlease, hsize, -, hkept⟩ := a.reclassed_keeps (q.issueClock a) k lease (some (r.c.toNat, rec_))
      have hteam : q.grp.team = u.grp.team := State.landTeamSts_grp_team _ _ _
      refine ⟨_, ?_, hcls, hlease, hsize, rfl, rfl, hkept⟩
      rw [exec_reclass_format rfl hg hf hcap, State.reclass_format ht (badReclass_some.2 hgood) (q := q) rfl, hteam]
  case land =>
    exact ⟨s.landTeamSts_none tk h, (s.landTeamSts_landed tk h).pend, (s.landTeamSts_landed tk h).mem⟩
  case refresh =>
    obtain ⟨t, ht, hkept⟩ := exec_refresh_kept s core row
    have hcol := exec_columnRemap s core
    refine ⟨exec_refresh_none, fun r hr => ⟨s.wordError, fun w => Nat.mod_lt _ (by decide), exec_refresh_some hr⟩,
      ⟨t, ht, hkept.mem, fun gk n L => ?_, fun tk h o => by rw [hkept.data]⟩, exec_rowRemap_none,
      fun e he hs hr => ?_, fun e he hs => ?_, fun h => ?_, fun hm hi hs hr => ?_⟩
    · rw [Group.vget, hkept.lanes, Group.vget]
    · rw [exec_rowRemap_some rfl he, if_pos hs]
      exact congrArg Host.Outcome.next (State.appendRepair_eq (s := s.setCore core _) hr _)
    · rw [exec_rowRemap_some rfl he, if_neg (Nat.not_lt.2 hs)]
    · have h : _ ∨ _ ∨ spareColumns (core / 256) ≤ (s.coreAt core).columnsUsed := h
      rw [hcol, if_pos (by simpa [or_assoc] using h)]
    · have hs : (s.coreAt core).columnsUsed < spareColumns (core / 256) := hs
      rw [hcol, if_neg (by simpa [hm, hi] using hs)]
      exact congrArg Host.Outcome.next (State.appendRepair_eq (s := s.setCore core _) hr _)
  case word =>
    refine ⟨?_, State.mem_queueRow _ _ _ _, ?_⟩
    · rw [State.meetWord_lasting]
      show (((State.modGroup _ gk _).group gk).vPoisoned n w) = true
      rw [State.modGroup_group, if_pos rfl, Group.poisonWord_vPoisoned _ _ _ _ hw, decide_eq_true ⟨rfl, rfl⟩, Bool.or_true]
    · rw [Nat.add_comm 4 j]
      rfl
  case regs =>
    extract_lets g ck t reg met
    have hmet : ∀ e, g.meets gk lc m regs e = true ↔ met e := g.meets_iff gk lc m regs
    have hes : ∀ e, e ∈ (s.coreAt ck).armed.filter (g.meets gk lc m regs) ↔ e ∈ (s.coreAt ck).armed ∧ met e :=
      fun e => by rw [List.mem_filter, hmet]
    have ht : t = _ := State.meetRegs_eq (s := s) (g := g) (ck := ck) rfl rfl lc m regs
    obtain ⟨hgroups, hmem⟩ := s.dropMet_groups ck (g.meets gk lc m regs)
    have hg : (s.dropMet ck (g.meets gk lc m regs)).group gk = g := by rw [State.group, hgroups]; rfl
    have hfold := State.meetReg_foldl_met gk ck g ((s.coreAt ck).armed.filter (g.meets gk lc m regs))
      (s.dropMet ck (g.meets gk lc m regs))
    rw [← ht] at hfold
    refine ⟨fun e => ?_, fun e he hm hk => ?_, fun n L hL hno => ?_, ?_, (SameMem.of_mem hmem).trans hfold.mem⟩
    · rw [hfold.armed, State.dropMet_armed, List.mem_filter, ← hmet]
      simp
    · rw [ht]
      exact State.meetReg_foldl_lasting gk ck g _ _ e ((hes e).2 ⟨he, hm⟩) hk
    · rw [ht, State.meetReg_foldl_other gk ck g _ hL (fun e he hk => hno e ((hes e).1 he).1 ((hes e).1 he).2 hk), hg]
    · rw [hfold.group, hg]

end Sys2Proof.Machine
end

section
/-!
PROOF. Barrier objects and the arrivals at them (12_atomics_barriers R267 to R276; 10_allocation R222), and the
statement made of them.
-/

namespace Sys2Proof.Machine

/-! Barrier objects as four words (12_atomics_barriers R267). -/

/-- A word of an object whose bytes are `f`. -/
def objWord (f : Nat → Byte) (k : Nat) : Nat := natLE ((List.range 4).map (fun i => f (4 * k + i)))

theorem objWord_congr {f g : Nat → Byte} {k : Nat} (h : ∀ i, i < 4 → f (4 * k + i) = g (4 * k + i)) :
    objWord f k = objWord g k :=
  congrArg natLE (List.map_congr_left fun i hi => h i (List.mem_range.1 hi))

theorem objWord_eq (f : Nat → Byte) (k : Nat) : objWord f k = (f (4 * k)).toNat + 256 * (f (4 * k + 1)).toNat
    + 65536 * (f (4 * k + 2)).toNat + 16777216 * (f (4 * k + 3)).toNat := by
  simp only [objWord, show List.range 4 = [0, 1, 2, 3] from rfl, List.map_cons, List.map_nil, natLE, Nat.add_zero]
  omega

theorem objWord_lt (f : Nat → Byte) (k : Nat) : objWord f k < 4294967296 := by
  rw [objWord_eq]
  have h := fun i => (f i).isLt
  have h0 := h (4 * k)
  have h1 := h (4 * k + 1)
  have h2 := h (4 * k + 2)
  have h3 := h (4 * k + 3)
  omega

theorem natLE_words (f : Nat → Byte) : natLE ((List.range 16).map f)
    = objWord f 0 + 4294967296 * (objWord f 1 + 4294967296 * (objWord f 2 + 4294967296 * objWord f 3)) := by
  simp only [objWord_eq, show List.range 16 = [0, 1, 2, 3, 4, 5, 6, 7, 8, 9, 10, 11, 12, 13, 14, 15] from rfl, List.map_cons,
    List.map_nil, natLE, Nat.reduceMul, Nat.reduceAdd]
  omega

/-- The object that four words spell. -/
def BarObj.ofWords (w : Nat → Nat) : BarObj :=
  { atgt := w 0 % 65536, phase := w 0 / 65536, acnt := w 1 % 65536
    scl := decide (w 1 / 65536 % 2 = 1), aovf := decide (w 1 / 131072 % 2 = 1), bovf := decide (w 1 / 262144 % 2 = 1)
    btgt := w 2, bcnt := w 3 }

theorem BarObj.ofBytes_words (f : Nat → Byte) : BarObj.ofBytes ((List.range 16).map f) = .ofWords (objWord f) := by
  have h0 := objWord_lt f 0
  have h1 := objWord_lt f 1
  have h2 := objWord_lt f 2
  have h3 := objWord_lt f 3
  simp only [BarObj.ofBytes, BarObj.ofWords, natLE_words, bitsOf, Nat.testBit_eq_decide_div_mod_eq, BarObj.mk.injEq,
    decide_eq_decide, Nat.reducePow]
  omega

/-- The fields of an object fit their places. -/
structure BarObj.Fits (b : BarObj) : Prop where
  atgt : b.atgt < 65536
  phase : b.phase < 65536
  acnt : b.acnt < 65536
  btgt : b.btgt < 4294967296
  bcnt : b.bcnt < 4294967296

theorem BarObj.ofWords_fits (f : Nat → Byte) : (BarObj.ofWords (objWord f)).Fits := by
  have h0 := objWord_lt f 0
  refine ⟨Nat.mod_lt _ (by decide), ?_, Nat.mod_lt _ (by decide), objWord_lt f 2, objWord_lt f 3⟩
  show objWord f 0 / 65536 < 65536
  omega

theorem flag_read (n : Nat) (f : Bool) : decide (n % 2 = 1) = f ↔ n % 2 = f.toNat := by
  cases f <;> simp

theorem flag_placed (n : Nat) (f : Bool) : (if f then n else 0) = n * f.toNat := by
  cases f <;> simp

/-- An object that fits its bytes is what they spell. -/
theorem BarObj.ofBytes_bytes {b : BarObj} (h : b.Fits) : BarObj.ofBytes b.bytes = b := by
  obtain ⟨phase, atgt, bovf, aovf, scl, acnt, btgt, bcnt⟩ := b
  obtain ⟨hatgt, hphase, hacnt, hbtgt, hbcnt⟩ := h
  dsimp only at hatgt hphase hacnt hbtgt hbcnt
  have hscl := scl.toNat_lt
  have haovf := aovf.toNat_lt
  have hbovf := bovf.toNat_lt
  simp only [BarObj.ofBytes, BarObj.bytes, natLE_bytesLE, bitsOf, Nat.testBit_eq_decide_div_mod_eq, BarObj.mk.injEq,
    flag_read, flag_placed, Nat.reducePow]
  omega

/-- The bytes of an object by their places. -/
def BarObj.byteAt (b : BarObj) (i : Nat) : Byte := b.bytes.getD i 0

theorem BarObj.bytes_eq (b : BarObj) : b.bytes = (List.range 16).map b.byteAt := by
  have hlen : b.bytes.length = 16 := bytesLE_length _ _
  refine List.ext_getElem (by simp [hlen]) fun i h1 h2 => ?_
  simp [BarObj.byteAt, List.getD_eq_getElem?_getD, List.getElem?_eq_getElem h1]

theorem BarObj.ofWords_byteAt {b : BarObj} (h : b.Fits) : BarObj.ofWords (objWord b.byteAt) = b := by
  rw [← BarObj.ofBytes_words, ← BarObj.bytes_eq, BarObj.ofBytes_bytes h]

/-- Two objects have the same fields in a word. -/
def BarObj.AgreeAt (b c : BarObj) : Nat → Prop
  | 0 => b.atgt = c.atgt ∧ b.phase = c.phase
  | 1 => b.acnt = c.acnt ∧ b.scl = c.scl ∧ b.aovf = c.aovf ∧ b.bovf = c.bovf
  | 2 => b.btgt = c.btgt
  | _ => b.bcnt = c.bcnt

theorem BarObj.ofWords_agree {v w : Nat → Nat} {k : Nat} (h : v k = w k) (hk : k < 4) :
    (BarObj.ofWords v).AgreeAt (.ofWords w) k := by
  match k with
  | 0 => exact ⟨by simp only [BarObj.ofWords, h], by simp only [BarObj.ofWords, h]⟩
  | 1 => exact ⟨by simp only [BarObj.ofWords, h], by simp only [BarObj.ofWords, h], by simp only [BarObj.ofWords, h],
      by simp only [BarObj.ofWords, h]⟩
  | 2 => exact h
  | 3 => exact h

theorem BarObj.eq_of_agree {b c : BarObj} (h : ∀ k, k < 4 → b.AgreeAt c k) : b = c := by
  obtain ⟨hatgt, hphase⟩ := h 0 (by decide)
  obtain ⟨hacnt, hscl, haovf, hbovf⟩ := h 1 (by decide)
  have hbtgt := h 2 (by decide)
  have hbcnt := h 3 (by decide)
  cases b
  cases c
  rw [BarObj.mk.injEq]
  exact ⟨hphase, hatgt, hbovf, haovf, hscl, hacnt, hbtgt, hbcnt⟩

theorem BarObj.AgreeAt.trans {b c d : BarObj} {k : Nat} (h : b.AgreeAt c k) (h' : c.AgreeAt d k) : b.AgreeAt d k := by
  match k with
  | 0 =>
    obtain ⟨hatgt, hphase⟩ := h
    exact ⟨hatgt.trans h'.1, hphase.trans h'.2⟩
  | 1 =>
    obtain ⟨hacnt, hscl, haovf, hbovf⟩ := h
    obtain ⟨hacnt', hscl', haovf', hbovf'⟩ := h'
    exact ⟨hacnt.trans hacnt', hscl.trans hscl', haovf.trans haovf', hbovf.trans hbovf'⟩
  | 2 => exact Eq.trans h h'
  | n + 3 => exact Eq.trans h h'

/-- Some words of an object rewritten: it becomes an object that differs from it in them alone. -/
theorem BarObj.ofWords_rewritten {b : BarObj} {u w : Nat → Nat} {ws : List Nat} (hb : b.Fits)
    (hu : ∀ k, k < 4 → u k = if k ∈ ws then objWord b.byteAt k else w k)
    (hw : ∀ k, k < 4 → k ∉ ws → (BarObj.ofWords w).AgreeAt b k) : BarObj.ofWords u = b := by
  refine BarObj.eq_of_agree fun k hk => ?_
  by_cases hm : k ∈ ws
  · have := BarObj.ofWords_agree ((hu k hk).trans (if_pos hm)) hk
    rwa [BarObj.ofWords_byteAt hb] at this
  · exact (BarObj.ofWords_agree ((hu k hk).trans (if_neg hm)) hk).trans (hw k hk hm)

/-! Arrivals and expected counts (R268, R271). -/

/-- A check completes the phase or leaves the object alone. -/
theorem BarObj.check_cases (b : BarObj) : b.check = b
    ∨ b.check.phase = (b.phase + 1) % 65536 ∧ b.check.acnt = 0 ∧ b.check.bcnt = 0 ∧ b.check.btgt = 0
      ∧ b.check.atgt = b.atgt := by
  unfold BarObj.check
  dsimp only
  split
  · exact .inr ⟨rfl, rfl, rfl, rfl, rfl⟩
  · exact .inl rfl

theorem BarObj.Fits.check {b : BarObj} (h : b.Fits) : b.check.Fits := by
  rcases b.check_cases with hc | ⟨hphase, hacnt, hbcnt, hbtgt, hatgt⟩
  · rwa [hc]
  · refine ⟨hatgt ▸ h.atgt, ?_, ?_, ?_, ?_⟩ <;> omega

/-- A check that leaves the phase alone leaves the object alone. -/
theorem BarObj.Fits.check_same {b : BarObj} (h : b.Fits) (hp : b.check.phase = b.phase) : b.check = b := by
  rcases b.check_cases with hc | ⟨hphase, -⟩
  · exact hc
  · have := h.phase
    omega

theorem BarObj.check_eq_counted (b : BarObj) (acnt bcnt btgt : Nat) :
    ({ b with acnt, bcnt, btgt } : BarObj).check = b.counted acnt bcnt btgt := by
  simp only [BarObj.check, BarObj.counted, Bool.and_eq_true, decide_eq_true_eq, Nat.reducePow]

theorem BarObj.arrive_eq (b : BarObj) (na nb : Nat) : b.arrive na nb = b.arrived na nb := b.check_eq_counted _ _ _

theorem BarObj.expect_eq (b : BarObj) (n : Nat) : b.expect n = b.counted b.acnt b.bcnt (min (b.btgt + n) 4294967295) :=
  b.check_eq_counted _ _ _

/-- A step of an object keeps it within its bytes, and while it keeps the phase the words it does not list. -/
def BarObj.Steps (words : List Nat) (b c : BarObj) : Prop :=
  c.Fits ∧ (c.phase = b.phase → ∀ k, k < 4 → k ∉ words → b.AgreeAt c k)

theorem BarObj.Fits.arrive_steps {b : BarObj} (h : b.Fits) (na nb : Nat) : BarObj.Steps [1, 3] b (b.arrive na nb) := by
  have hfits : ({ b with acnt := min (b.acnt + na) 0xFFFF, bcnt := min (b.bcnt + nb) 0xFFFFFFFF } : BarObj).Fits :=
    ⟨h.atgt, h.phase, by dsimp only; omega, h.btgt, by dsimp only; omega⟩
  refine ⟨hfits.check, fun hp k hk hn => ?_⟩
  rw [BarObj.arrive, hfits.check_same hp]
  match k with
  | 0 => exact ⟨rfl, rfl⟩
  | 1 => simp at hn
  | 2 => exact rfl
  | 3 => simp at hn

theorem BarObj.Fits.expect_steps {b : BarObj} (h : b.Fits) (n : Nat) : BarObj.Steps [2] b (b.expect n) := by
  have hfits : ({ b with btgt := min (b.btgt + n) 0xFFFFFFFF } : BarObj).Fits :=
    ⟨h.atgt, h.phase, h.acnt, by dsimp only; omega, h.bcnt⟩
  refine ⟨hfits.check, fun hp k hk hn => ?_⟩
  rw [BarObj.expect, hfits.check_same hp]
  match k with
  | 0 => exact ⟨rfl, rfl⟩
  | 1 => exact ⟨rfl, rfl, rfl, rfl⟩
  | 2 => simp at hn
  | 3 => exact rfl

/-! Objects of plain allocations. -/

/-- The byte of an object of an allocation by its place in the object. -/
def Alloc.objByte (a : Alloc) (o i : Nat) : Byte := a.data.getD (o + i) 0

theorem Alloc.barrier_plain {a : Alloc} (hc : a.cls = 0) (lc o : Nat) :
    a.barrier lc o = .ofWords (objWord (a.objByte o)) := by
  rw [Alloc.barrier, Alloc.read, List.map_map, ← BarObj.ofBytes_words]
  refine congrArg BarObj.ofBytes (List.map_congr_left fun i _ => ?_)
  simp only [Function.comp_apply, Alloc.unreadable_plain hc, Bool.false_eq_true, if_false, Alloc.objByte]

theorem Alloc.barrier_fits {a : Alloc} (hc : a.cls = 0) (lc o : Nat) : (a.barrier lc o).Fits := by
  rw [Alloc.barrier_plain hc]
  exact BarObj.ofWords_fits _

/-- The object of a plain allocation does not depend on the clock. -/
theorem Alloc.barrier_clock {a : Alloc} (hc : a.cls = 0) (lc lc' o : Nat) : a.barrier lc o = a.barrier lc' o := by
  rw [Alloc.barrier_plain hc, Alloc.barrier_plain hc]

theorem Alloc.barExpired_plain {a : Alloc} (hc : a.cls = 0) (lc o : Nat) : a.barExpired lc o = false := by
  simp [Alloc.barExpired, Alloc.read, Alloc.unreadable_plain hc]

/-- The bytes that an update writes: the words `ws` of an object. -/
def objBytes (b : BarObj) (o : Nat) (ws : List Nat) : List SpadByte :=
  ws.flatMap (fun k => spadRun (o + 4 * k) ((b.bytes.drop (4 * k)).take 4))

theorem take_drop_bytes (b : BarObj) {k : Nat} (hk : k < 4) :
    (b.bytes.drop (4 * k)).take 4 = (List.range 4).map (fun i => b.byteAt (4 * k + i)) := by
  have hlen : b.bytes.length = 16 := bytesLE_length _ _
  refine List.ext_getElem (by simp [hlen]; omega) fun i h1 h2 => ?_
  have hi : i < 4 := by simpa using h2
  have hlt : 4 * k + i < b.bytes.length := by omega
  simp [BarObj.byteAt, List.getD_eq_getElem?_getD, List.getElem?_eq_getElem hlt]

theorem mem_objBytes {b : BarObj} {o : Nat} {ws : List Nat} (hws : ∀ k ∈ ws, k < 4) (x : SpadByte) :
    x ∈ objBytes b o ws ↔ ∃ k ∈ ws, ∃ i, i < 4 ∧ x = (o + 4 * k + i, b.byteAt (4 * k + i), 0xFF) := by
  rw [objBytes, List.mem_flatMap]
  refine exists_congr fun k => and_congr_right fun hk => ?_
  rw [take_drop_bytes b (hws k hk), spadRun, mapI_eq_mapIdx, List.mem_mapIdx]
  simp only [List.length_map, List.length_range, List.getElem_map, List.getElem_range, exists_prop, eq_comm (a := x)]

/-- The data after an update. -/
theorem Alloc.write_objBytes_data {a : Alloc} (hc : a.cls = 0) (lc : Nat) (b : BarObj) (o : Nat) {ws : List Nat}
    (hws : ∀ k ∈ ws, k < 4) (j : Nat) : (a.write lc (objBytes b o ws)).data.getD j 0
      = if o ≤ j ∧ j < o + 16 ∧ (j - o) / 4 ∈ ws then b.byteAt (j - o) else a.data.getD j 0 := by
  rw [Alloc.write_plain hc]
  dsimp only
  refine (foldl_overwrites (read := fun (m : SMap Byte) j => m.getD j 0) (key := (·.1)) (v := fun j => b.byteAt (j - o))
    (fun m x hx j => ?_) a.data j).trans (if_congr ?_ rfl rfl)
  · obtain ⟨k, hk, i, hi, rfl⟩ := (mem_objBytes hws x).1 hx
    rw [SMap.getD_set, overwritten]
    dsimp only
    split
    · next h => rw [h, show o + 4 * k + i - o = 4 * k + i by omega]
    · rfl
  · rw [List.mem_map]
    constructor
    · rintro ⟨x, hx, rfl⟩
      obtain ⟨k, hk, i, hi, rfl⟩ := (mem_objBytes hws x).1 hx
      have := hws k hk
      dsimp only
      rw [show (o + 4 * k + i - o) / 4 = k by omega]
      exact ⟨by omega, by omega, hk⟩
    · rintro ⟨h1, h2, hk⟩
      exact ⟨_, (mem_objBytes hws _).2 ⟨_, hk, (j - o) % 4, by omega, rfl⟩, by dsimp only; omega⟩

/-- What is armed at a word none of whose bytes is written stays armed. -/
theorem Alloc.write_arm {a : Alloc} (hc : a.cls = 0) (lc : Nat) {bs : List SpadByte} {w : Nat} (h : ∀ b ∈ bs, b.1 ≠ 4 * w) :
    (a.write lc bs).arm.getD w 0 = a.arm.getD w 0 := by
  have hrows : ∀ (rows : List Nat) (f : Nat → Word), rows.foldl (fun a row => a.renewRow lc row (f row)) a = a := fun rows f =>
    List.foldlRecOn (motive := (· = a)) rows _ rfl fun b hb _ _ => by rw [hb, Alloc.renewRow, if_pos hc]
  simp only [Alloc.write, hrows]
  split
  · rfl
  · refine (SMap.getD_filter a.arm (fun k => !List.contains _ k) w 0).trans (if_pos ?_)
    rw [Bool.not_eq_true', List.contains_eq_mem, decide_eq_false_iff_not, List.mem_filter, List.all_eq_true]
    rintro ⟨-, hall⟩
    obtain ⟨b, hb, hat⟩ := List.any_eq_true.1 (hall 0 (by decide))
    simp only [Bool.and_eq_true, decide_eq_true_eq] at hat
    exact h b hb hat.1

theorem Alloc.write_frame {a : Alloc} (hc : a.cls = 0) (lc : Nat) (bs : List SpadByte) : a.write lc bs
    = { a with data := (a.write lc bs).data, pois := (a.write lc bs).pois, arm := (a.write lc bs).arm } := by
  rw [Alloc.write_plain hc]

/-- An update of a plain allocation's object. -/
theorem Alloc.barUpdate_becomes {a : Alloc} (hc : a.cls = 0) (lc o : Nat) {words : List Nat} (hws : ∀ k ∈ words, k < 4)
    {f : BarObj → BarObj} (hf : BarObj.Steps words (a.barrier lc o) (f (a.barrier lc o))) :
    ObjectBecomes a (a.barUpdate lc o words f) o (f (a.barrier lc o)) := by
  obtain ⟨hfits, hkeep⟩ := hf
  unfold Alloc.barUpdate
  dsimp only
  generalize f (a.barrier lc o) = new at *
  obtain ⟨ws, hws', hdef, hagree⟩ : ∃ ws : List Nat, (∀ k ∈ ws, k < 4)
      ∧ (if new.phase ≠ (a.barrier lc o).phase then [0, 1, 2, 3] else words) = ws
      ∧ ∀ k, k < 4 → k ∉ ws → (a.barrier lc o).AgreeAt new k := by
    refine ⟨_, ?_, rfl, ?_⟩
    all_goals split
    · decide
    · exact hws
    · intro k hk hn
      exact absurd (by simp only [List.mem_cons, List.not_mem_nil, or_false]; omega) hn
    · next hp => exact hkeep (not_not.1 hp)
  rw [hdef]
  rw [Alloc.barrier_plain hc] at hagree
  have hcls : (a.write lc (objBytes new o ws)).cls = 0 := by rw [Alloc.write_plain hc]; exact hc
  refine ⟨fun lc' => ?_, fun k hk => ?_, Alloc.write_frame hc lc _, fun w hw => Alloc.write_arm hc lc fun b hb => ?_⟩
  · refine (Alloc.barrier_plain hcls lc' o).trans (BarObj.ofWords_rewritten hfits (ws := ws) (fun k hk => ?_) hagree)
    split
    · next hm =>
      refine objWord_congr fun i hi => ?_
      have hin : o ≤ o + (4 * k + i) ∧ o + (4 * k + i) < o + 16 ∧ (o + (4 * k + i) - o) / 4 ∈ ws :=
        ⟨by omega, by omega, by rwa [show (o + (4 * k + i) - o) / 4 = k by omega]⟩
      rw [Alloc.objByte, Alloc.write_objBytes_data hc _ _ _ hws', if_pos hin, Nat.add_sub_cancel_left]
    · next hm =>
      refine objWord_congr fun i hi => ?_
      rw [Alloc.objByte, Alloc.write_objBytes_data hc _ _ _ hws', if_neg, Alloc.objByte]
      rintro ⟨-, -, h⟩
      rw [show (o + (4 * k + i) - o) / 4 = k by omega] at h
      exact hm h
  · exact (Alloc.write_objBytes_data hc _ _ _ hws' k).trans (if_neg (by omega))
  · obtain ⟨k, hk, i, hi, rfl⟩ := (mem_objBytes hws' b).1 hb
    have := hws' k hk
    dsimp only
    omega

theorem Alloc.barUpdate_arrive {a : Alloc} (hc : a.cls = 0) (lc o na nb : Nat) :
    ObjectBecomes a (a.barUpdate lc o [1, 3] (fun b => b.arrive na nb)) o ((a.barrier 0 o).arrived na nb) := by
  have h := Alloc.barUpdate_becomes hc lc o (words := [1, 3]) (f := fun b => b.arrive na nb) (by decide)
    ((a.barrier_fits hc lc o).arrive_steps na nb)
  rwa [BarObj.arrive_eq, Alloc.barrier_clock hc lc 0] at h

theorem Alloc.barUpdate_expect {a : Alloc} (hc : a.cls = 0) (lc o n : Nat) : ObjectBecomes a
    (a.barUpdate lc o [2] (fun b => b.expect n)) o ((a.barrier lc o).counted (a.barrier lc o).acnt (a.barrier lc o).bcnt
      (min ((a.barrier lc o).btgt + n) 4294967295)) := by
  have h := Alloc.barUpdate_becomes hc lc o (words := [2]) (f := fun b => b.expect n) (by decide)
    ((a.barrier_fits hc lc o).expect_steps n)
  rwa [BarObj.expect_eq] at h

theorem Alloc.barUpdate_init {a : Alloc} (hc : a.cls = 0) (lc o : Nat) {b : BarObj} (hb : b.Fits) :
    ObjectBecomes a (a.barUpdate lc o [0, 1, 2, 3] (fun _ => b)) o b :=
  Alloc.barUpdate_becomes hc lc o (by decide) ⟨hb, fun _ k hk hn => absurd (by
    simp only [List.mem_cons, List.not_mem_nil, or_false]; omega) hn⟩

/-! Objects that are there, and that are not (R270). -/

/-- The status bit of an object that is not there. -/
def Alloc.missBit (a : Alloc) : Word := if a.bound then 2 else 1

theorem Alloc.missing_there {a : Alloc} {o n : Nat} (hb : a.bound = true) (ho : o + n ≤ a.size) : a.missing o n = 0 := by
  simp [Alloc.missing, hb, Nat.not_lt.2 ho]

theorem Alloc.missing_gone {a : Alloc} {o n : Nat} (h : a.bound = false ∨ a.size < o + n) : a.missing o n = a.missBit := by
  unfold Alloc.missing Alloc.missBit
  cases hb : a.bound
  · rfl
  · rw [if_neg (by decide), if_pos (h.resolve_left (by simp [hb]))]
    rfl

theorem Alloc.missBit_ne (a : Alloc) : a.missBit ≠ 0 := by
  unfold Alloc.missBit
  split <;> decide

theorem State.withObj_there {s : State} {w : W0} {r : RRaw} {u n : Nat} {a : Alloc}
    (ha : (s.team s.grp.team).alloc w.a.toNat = a) (hb : a.bound = true) (ho : a.objAt u r.c.toNat + n ≤ a.size)
    (k : Alloc → Nat → State) (miss : State) : s.withObj w r u n k miss = k a (a.objAt u r.c.toNat) := by
  subst ha
  exact if_neg (not_not.2 (Alloc.missing_there hb ho))

theorem State.withObj_gone {s : State} {w : W0} {r : RRaw} {u n : Nat} {a : Alloc}
    (ha : (s.team s.grp.team).alloc w.a.toNat = a) (h : a.bound = false ∨ a.size < a.objAt u r.c.toNat + n)
    (k : Alloc → Nat → State) (miss : State) : s.withObj w r u n k miss = miss.setMemst a.missBit := by
  subst ha
  unfold State.withObj
  dsimp only
  rw [Alloc.missing_gone h]
  exact if_pos (Alloc.missBit_ne _)

theorem State.barRead_there {s : State} {w : W0} {r : RRaw} {a : Alloc} (ha : (s.team s.grp.team).alloc w.a.toNat = a)
    (hb : a.bound = true) (ho : a.objAt 16 r.c.toNat + 16 ≤ a.size) :
    s.barRead w r = (s, a.barrier (s.issueClock a) (a.objAt 16 r.c.toNat)) := by
  subst ha
  exact if_neg (not_not.2 (Alloc.missing_there hb ho))

theorem State.barRead_gone {s : State} {w : W0} {r : RRaw} {a : Alloc} (ha : (s.team s.grp.team).alloc w.a.toNat = a)
    (h : a.bound = false ∨ a.size < a.objAt 16 r.c.toNat + 16) : s.barRead w r = (s.setMemst a.missBit, {}) := by
  subst ha
  unfold State.barRead
  dsimp only
  rw [Alloc.missing_gone h]
  exact if_pos (Alloc.missBit_ne _)

theorem BarObj.passed_eq (b : BarObj) (n : Nat) : b.passed n
    = decide (1 ≤ (b.phase + 65536 - n % 65536) % 65536 ∧ (b.phase + 65536 - n % 65536) % 65536 ≤ 32768) :=
  (Bool.decide_and _ _).symm

theorem State.ordered_held {s : State} (ha : s.acquireOut s.cur = true) (rel : Bool) (k : State) :
    s.ordered rel k = s.holdIssue := by
  simp [State.ordered, ha]

/-! The barrier instructions of a group on its own team's objects (R271, R273). -/

/-- What an object's instruction does under its guard, in its order. -/
def State.barExec (p : State) (w : W0) (k : State) : Out := .next (if !p.guardW w then p.cont else p.ordered false k)

theorem State.barExec_off {p : State} {w : W0} (hg : p.guardW w = false) (k : State) : p.barExec w k = .next p.cont := by
  rw [State.barExec, hg]
  rfl

theorem State.barExec_free {p : State} {w : W0} (hg : p.guardW w = true) (ha : p.acquireOut p.cur = false) (k : State) :
    p.barExec w k = .next k := by
  rw [State.barExec, hg, State.ordered_free ha (by simp)]
  rfl

theorem State.barExec_held {p : State} {w : W0} (hg : p.guardW w = true) (ha : p.acquireOut p.cur = true) (k : State) :
    p.barExec w k = .next p.holdIssue := by
  rw [State.barExec, hg, State.ordered_held ha]
  rfl

/-- The object that BINIT writes. -/
def State.freshObj (p : State) (r : RRaw) : BarObj :=
  { atgt := (p.rdG r.b.toNat).toNat % 65536, scl := r.m16.getLsbD 0 }

theorem State.freshObj_fits (p : State) (r : RRaw) : (p.freshObj r).Fits :=
  ⟨Nat.mod_lt _ (by decide), Nat.zero_lt_succ _, Nat.zero_lt_succ _, Nat.zero_lt_succ _, Nat.zero_lt_succ _⟩

theorem exec_binit {s p : State} {w : W0} {r : RRaw} (hp : s.landSts w.a.toNat = p) : exec (.binit w r) s
    = p.barExec w (p.withObj w r 16 16 (fun a o => p.setAlloc p.grp.team w.a.toNat
        (a.barUpdate (p.issueClock a) o [0, 1, 2, 3] (fun _ => p.freshObj r))) p).cont := by
  subst hp; rfl

theorem exec_bexp {s p : State} {w : W0} {r : RRaw} (hp : s.landSts w.a.toNat = p) : exec (.bexp w r) s
    = p.barExec w (p.withObj w r 16 16 (fun a o =>
        let q := if a.barExpired (p.issueClock a) o then p.setMemst memstLAPSE else p
        q.setAlloc q.grp.team w.a.toNat
          (a.barUpdate (p.issueClock a) o [2] (fun b => b.expect (p.rdG r.b.toNat).toNat))) p).cont := by
  subst hp; rfl

theorem exec_btest {s p u : State} {w : W0} {r : RRaw} {b : BarObj} (hp : s.landSts w.a.toNat = p)
    (hb : p.barRead w r = (u, b)) : exec (.btest w r) s = p.barExec w
      ((u.acquireAt p.cur (if b.scl then 3 else 2)).wrGP w.d.toNat (b.passed (p.phaseArg r))).cont := by
  subst hp
  show execBtest w r s = _
  rw [execBtest]
  simp only [hb]
  rfl

theorem exec_bwait {s p u : State} {w : W0} {r : RRaw} {b : BarObj} (hp : s.landSts w.a.toNat = p)
    (hb : p.barRead w r = (u, b)) : exec (.bwait w r) s = .next (if !p.guardW w then p.cont
      else if b.passed (p.phaseArg r) then p.ordered false (u.acquireAt p.cur (if b.scl then 3 else 2)).cont
      else u.holdIssue) := by
  subst hp
  show execBwait w r s = _
  rw [execBwait]
  simp only [hb]

theorem exec_bwait_off {s p : State} {w : W0} {r : RRaw} (hp : s.landSts w.a.toNat = p) (hg : p.guardW w = false) :
    exec (.bwait w r) s = .next p.cont := by
  rw [exec_bwait hp (u := (p.barRead w r).1) (b := (p.barRead w r).2) rfl, hg]
  rfl

theorem exec_bwait_passed {s p u : State} {w : W0} {r : RRaw} {b : BarObj} (hp : s.landSts w.a.toNat = p)
    (hb : p.barRead w r = (u, b)) (hg : p.guardW w = true) (ha : p.acquireOut p.cur = false)
    (hn : b.passed (p.phaseArg r) = true) :
    exec (.bwait w r) s = .next (u.acquireAt p.cur (if b.scl then 3 else 2)).cont := by
  rw [exec_bwait hp hb, hg, hn, State.ordered_free ha (by simp)]
  rfl

theorem exec_bwait_waits {s p u : State} {w : W0} {r : RRaw} {b : BarObj} (hp : s.landSts w.a.toNat = p)
    (hb : p.barRead w r = (u, b)) (hg : p.guardW w = true) (hn : b.passed (p.phaseArg r) = false) :
    exec (.bwait w r) s = .next u.holdIssue := by
  rw [exec_bwait hp hb, hg, hn]
  rfl

/-! CHKT and TIME (R274, R276). -/

/-- What CHKT says of the word it reads. -/
def chktAnswer (r : RRaw) (v mask : Word) : Bool :=
  if r.m16.getLsbD 0 then decide (v &&& mask ≠ 0) else decide (v &&& mask = mask)

/-- The word of a plain allocation that CHKT reads. -/
def Alloc.word (a : Alloc) (o : Nat) : Word :=
  BitVec.ofNat 32 (natLE ((List.range 4).map (fun i => a.data.getD (o + i) 0)))

theorem exec_chkt {s p : State} {w : W0} {r : RRaw} {a : Alloc} {o : Nat} (hp : s.landSts w.a.toNat = p)
    (ha : (p.team p.grp.team).alloc w.a.toNat = a) (ho : a.objAt 4 r.c.toNat = o) : exec (.chkt w r) s = p.barExec w
      (((p.setMemst (if a.missing o 4 ≠ 0 then a.missing o 4
          else if (a.read (p.issueClock a) ((List.range 4).map (fun i => o + i))).expired then memstLAPSE else 0)).wrGP w.d.toNat
        (chktAnswer r (if a.missing o 4 ≠ 0 then 0
          else BitVec.ofNat 32 (natLE (a.read (p.issueClock a) ((List.range 4).map (fun i => o + i))).bytes))
        (p.rdG r.b.toNat))).cont) := by
  subst hp ha ho; rfl

theorem Alloc.read_plain {a : Alloc} (hc : a.cls = 0) (lc : Nat) (offs : List Nat) :
    (a.read lc offs).bytes = offs.map (fun o => a.data.getD o 0) ∧ (a.read lc offs).expired = false := by
  simp [Alloc.read, Alloc.unreadable_plain hc]

theorem exec_chkt_there {s p : State} {w : W0} {r : RRaw} {a : Alloc} {o : Nat} (hp : s.landSts w.a.toNat = p)
    (ha : (p.team p.grp.team).alloc w.a.toNat = a) (ho : a.objAt 4 r.c.toNat = o) (hc : a.cls = 0) (hb : a.bound = true)
    (hs : o + 4 ≤ a.size) : exec (.chkt w r) s
      = p.barExec w (((p.setMemst 0).wrGP w.d.toNat (chktAnswer r (a.word o) (p.rdG r.b.toNat))).cont) := by
  obtain ⟨hbytes, hexp⟩ := Alloc.read_plain hc (p.issueClock a) ((List.range 4).map (fun i => o + i))
  rw [exec_chkt hp ha ho, Alloc.missing_there hb hs, hbytes, hexp, List.map_map]
  rfl

theorem exec_chkt_gone {s p : State} {w : W0} {r : RRaw} {a : Alloc} {o : Nat} (hp : s.landSts w.a.toNat = p)
    (ha : (p.team p.grp.team).alloc w.a.toNat = a) (ho : a.objAt 4 r.c.toNat = o) (h : a.bound = false ∨ a.size < o + 4) :
    exec (.chkt w r) s
      = p.barExec w (((p.setMemst a.missBit).wrGP w.d.toNat (chktAnswer r 0 (p.rdG r.b.toNat))).cont) := by
  rw [exec_chkt hp ha ho, Alloc.missing_gone h, if_pos a.missBit_ne, if_pos a.missBit_ne]

theorem chktAnswer_zero (r : RRaw) (mask : Word) :
    chktAnswer r 0 mask = if r.m16.getLsbD 0 then false else decide (mask = 0) := by
  have h : (0 : Word) &&& mask = 0 := BitVec.zero_and
  unfold chktAnswer
  rw [h]
  cases r.m16.getLsbD 0
  · exact decide_eq_decide.2 eq_comm
  · rfl

theorem State.setMemst_zero_written (p : State) (n : Nat) (b : Bool) :
    GroupPredWritten p ((p.setMemst 0).wrGP n b) n b := by
  have h : ∀ g : Group, ({ g with memst := g.memst ||| 0 } : Group) = g := fun g => by
    rw [show g.memst ||| 0 = g.memst from BitVec.or_zero]
  have hw : (p.setMemst 0).wrGP n b = p.wrGP n b := by
    rw [State.setMemst, State.wrGP, State.modGrp_modGrp, State.wrGP]
    simp only [h]
  rw [hw]
  exact p.wrGP_written n b

theorem exec_time (w : W0) (s : State) : exec (.time w) s = .next (s.ordered false (s.groupExec w (fun s =>
    s.wrG64 w.d.toNat (BitVec.ofNat 64 (s.dieTime s.grp.die))))) := rfl

/-! Errors of cells that reads of scratchpad meet (10_allocation R222). -/

/-- An error at a word of an allocation met: it is armed no more, and when it lasts its word is poisoned. -/
def Alloc.metAt (a : Alloc) (w k : Nat) : Alloc :=
  { a with arm := a.arm.set w 0 0, pois := if 2 ≤ k then a.pois.set w true false else a.pois }

/-- Errors of a handle's cells have been met: of teams the handle's armed errors and poison alone differ, and the
groups and the arrivals stand. -/
structure CellsMet (tk h : Nat) (s t : State) : Prop where
  mem : SameMem s t
  groups : t.groups = s.groups
  arrivals : t.arrivals = s.arrivals
  saved : t.saved = s.saved
  issue : t.cur = s.cur ∧ t.lat = s.lat
  team : ∀ k, t.team k = { s.team k with handles := (t.team k).handles }
  alloc : (t.team tk).alloc h = { (s.team tk).alloc h with
    arm := ((t.team tk).alloc h).arm, pois := ((t.team tk).alloc h).pois }

theorem CellsMet.refl (tk h : Nat) (s : State) : CellsMet tk h s s := ⟨.refl s, rfl, rfl, rfl, ⟨rfl, rfl⟩, fun _ => rfl, rfl⟩

theorem CellsMet.trans {tk h : Nat} {s t u : State} (a : CellsMet tk h s t) (b : CellsMet tk h t u) : CellsMet tk h s u :=
  ⟨a.mem.trans b.mem, b.groups.trans a.groups, b.arrivals.trans a.arrivals, b.saved.trans a.saved,
    ⟨b.issue.1.trans a.issue.1, b.issue.2.trans a.issue.2⟩, fun k => by rw [b.team, a.team], by rw [b.alloc, a.alloc]⟩

theorem State.meetCell_eq (s : State) (tk h w k : Nat) : s.meetCell tk h w k
    = { s.setAlloc tk h (((s.team tk).alloc h).metAt w k) with cores := (s.meetCell tk h w k).cores } := by
  unfold State.meetCell Alloc.metAt
  by_cases hk : 2 ≤ k
  · simp only [hk, if_true]
    rfl
  · simp only [hk, if_false]
    rfl

theorem State.setAlloc_team (s : State) (tk h j : Nat) (a : Alloc) :
    (s.setAlloc tk h a).team j = if j = tk then (s.team tk).setAlloc h a else s.team j := State.setTeam_team _ _ _ _

theorem State.setAlloc_alloc (s : State) (tk h : Nat) (a : Alloc) : ((s.setAlloc tk h a).team tk).alloc h = a := by
  rw [State.setAlloc_team, if_pos rfl, Team.setAlloc_alloc, if_pos rfl]

theorem State.meetCell_team (s : State) (tk h w k j : Nat) :
    (s.meetCell tk h w k).team j = (s.setAlloc tk h (((s.team tk).alloc h).metAt w k)).team j := by
  rw [State.meetCell_eq]
  rfl

theorem State.meetCell_alloc (s : State) (tk h w k : Nat) :
    ((s.meetCell tk h w k).team tk).alloc h = ((s.team tk).alloc h).metAt w k := by
  rw [State.meetCell_team, State.setAlloc_alloc]

theorem State.meetCell_met (s : State) (tk h w k : Nat) : CellsMet tk h s (s.meetCell tk h w k) := by
  have heq := s.meetCell_eq tk h w k
  refine ⟨.of_mem (by rw [heq]; rfl), by rw [heq]; rfl, by rw [heq]; rfl, by rw [heq]; rfl, by rw [heq]; exact ⟨rfl, rfl⟩,
    fun j => ?_, by rw [State.meetCell_alloc]; rfl⟩
  rw [State.meetCell_team, State.setAlloc_team]
  split
  · next h => rw [h]; rfl
  · rfl

/-- A read meets the error armed at a word: it is readable and there. -/
def Alloc.meets (a : Alloc) (lc w : Nat) : Bool := !(a.unreadable lc (4 * w) || decide (a.size ≤ 4 * w))

/-- The step of a read for one word. -/
def State.meetAt (a : Alloc) (tk h lc : Nat) (s : State) (w : Nat) : State :=
  if a.arm.getD w 0 = 0 ∨ a.meets lc w = false then s else s.meetCell tk h w (a.arm.getD w 0 - 1)

theorem State.meetSpad_eq {s : State} {tk h : Nat} {a : Alloc} (ha : (s.team tk).alloc h = a) (lc : Nat) (offs : List Nat) :
    s.meetSpad tk h lc offs = (dedup (offs.map (· / 4))).foldl (State.meetAt a tk h lc) s := by
  subst ha
  have hstep : s.meetSpad tk h lc offs = if ((s.team tk).alloc h).arm.isEmpty then s
      else (dedup (offs.map (· / 4))).foldl (State.meetAt ((s.team tk).alloc h) tk h lc) s := by
    refine congrArg (ite _ s) (congrArg (fun f => List.foldl f s _) (funext fun t => funext fun w => ?_))
    unfold State.meetAt Alloc.meets
    split
    · next h0 => rw [if_pos (.inl h0)]
    · next k hk =>
      rw [hk]
      cases ((s.team tk).alloc h).unreadable lc (4 * w) || decide (((s.team tk).alloc h).size ≤ 4 * w) <;> simp
  rw [hstep]
  split
  · next he =>
    refine (List.foldlRecOn (motive := (· = s)) _ _ rfl fun t ht w _ => ?_).symm
    rw [ht, State.meetAt, List.isEmpty_iff.1 he, if_pos (.inl rfl)]
  · rfl

theorem State.meetAt_met (a : Alloc) (tk h lc : Nat) (s : State) (w : Nat) : CellsMet tk h s (s.meetAt a tk h lc w) := by
  unfold State.meetAt
  split
  · exact .refl tk h s
  · exact s.meetCell_met tk h w _

theorem State.meetSpad_met (s : State) (tk h lc : Nat) (offs : List Nat) : CellsMet tk h s (s.meetSpad tk h lc offs) := by
  rw [State.meetSpad_eq rfl]
  exact List.foldlRecOn _ _ (.refl tk h s) fun t ht w _ => ht.trans (t.meetAt_met _ tk h lc w)

theorem mem_wordsOf (offs : List Nat) (w : Nat) : w ∈ dedup (offs.map (· / 4)) ↔ ∃ o ∈ offs, o / 4 = w := by
  rw [mem_dedup, List.mem_map]

/-- A read disarms the readable words it is of, and no other. -/
theorem State.meetSpad_arm {s : State} {tk h : Nat} {a : Alloc} (ha : (s.team tk).alloc h = a) (lc : Nat) (offs : List Nat)
    (w : Nat) : (((s.meetSpad tk h lc offs).team tk).alloc h).arm.getD w 0
      = if (∃ o ∈ offs, o / 4 = w) ∧ a.meets lc w = true then 0 else a.arm.getD w 0 := by
  have hstep : ∀ t : State, ∀ j ∈ dedup (offs.map (· / 4)), (((t.meetAt a tk h lc j).team tk).alloc h).arm.getD w 0
      = if j = w then (if a.arm.getD w 0 = 0 ∨ a.meets lc w = false then ((t.team tk).alloc h).arm.getD w 0 else 0)
        else ((t.team tk).alloc h).arm.getD w 0 := by
    intro t j _
    unfold State.meetAt
    by_cases hj : j = w
    · rw [hj, if_pos rfl]
      split
      · rfl
      · simp only [State.meetCell_alloc, Alloc.metAt, SMap.getD_set_same]
    · rw [if_neg hj]
      split
      · rfl
      · simp only [State.meetCell_alloc, Alloc.metAt, SMap.getD_set_other _ _ _ (Ne.symm hj)]
  rw [State.meetSpad_eq ha, foldl_at_mem (g := fun t : State => ((t.team tk).alloc h).arm.getD w 0)
    (h := fun old => if a.arm.getD w 0 = 0 ∨ a.meets lc w = false then old else 0) hstep (dedup_nodup _), ha]
  simp only [mem_wordsOf]
  by_cases hw : ∃ o ∈ offs, o / 4 = w
  · by_cases h0 : a.arm.getD w 0 = 0 <;> cases hm : a.meets lc w <;> simp [hw, h0]
  · rw [if_neg hw, if_neg (fun h => hw h.1)]

/-- A read poisons the readable words it is of whose cells fail for good, and no other. -/
theorem State.meetSpad_pois {s : State} {tk h : Nat} {a : Alloc} (ha : (s.team tk).alloc h = a) (lc : Nat) (offs : List Nat)
    (w : Nat) : (((s.meetSpad tk h lc offs).team tk).alloc h).pois.getD w false
      = if (∃ o ∈ offs, o / 4 = w) ∧ a.meets lc w = true ∧ 3 ≤ a.arm.getD w 0 then true else a.pois.getD w false := by
  have hstep : ∀ t : State, ∀ j ∈ dedup (offs.map (· / 4)), (((t.meetAt a tk h lc j).team tk).alloc h).pois.getD w false
      = if j = w then (if a.meets lc w = true ∧ 3 ≤ a.arm.getD w 0 then true else ((t.team tk).alloc h).pois.getD w false)
        else ((t.team tk).alloc h).pois.getD w false := by
    intro t j _
    unfold State.meetAt
    by_cases hj : j = w
    · rw [hj, if_pos rfl]
      by_cases hskip : a.arm.getD w 0 = 0 ∨ a.meets lc w = false
      · rw [if_pos hskip, if_neg]
        rintro ⟨hm, h3⟩
        exact hskip.elim (fun h0 => by omega) (fun hf => by simp [hf] at hm)
      · obtain ⟨h0, hm⟩ := not_or.1 hskip
        rw [if_neg hskip, State.meetCell_alloc, Bool.of_not_eq_false hm, Alloc.metAt]
        dsimp only
        by_cases h3 : 2 ≤ a.arm.getD w 0 - 1
        · rw [if_pos h3, if_pos ⟨rfl, by omega⟩]
          exact SMap.getD_set_same _ _ _ _
        · rw [if_neg h3, if_neg (fun h => h3 (by omega))]
    · rw [if_neg hj]
      split
      · rfl
      · rw [State.meetCell_alloc, Alloc.metAt]
        dsimp only
        split
        · exact SMap.getD_set_other _ _ _ (Ne.symm hj)
        · rfl
  rw [State.meetSpad_eq ha, foldl_at_mem (g := fun t : State => ((t.team tk).alloc h).pois.getD w false)
    (h := fun old => if a.meets lc w = true ∧ 3 ≤ a.arm.getD w 0 then true else old) hstep (dedup_nodup _), ha]
  simp only [mem_wordsOf]
  by_cases hw : ∃ o ∈ offs, o / 4 = w
  · rw [if_pos hw]
    exact if_congr (by simp only [hw, true_and]) rfl rfl
  · rw [if_neg hw, if_neg (fun h => hw h.1)]

theorem Alloc.meets_iff (a : Alloc) (lc w : Nat) : a.meets lc w = true ↔ a.unreadable lc (4 * w) = false ∧ 4 * w < a.size := by
  simp only [Alloc.meets, Bool.not_eq_true', Bool.or_eq_false_iff, decide_eq_false_iff_not, Nat.not_le]

/-! Scratchpad bytes of a team that is swapped out (12_atomics_barriers R275; 13_copy R297). -/

theorem State.engineSec_served (s : State) (die sec : Nat) (attr : PAttr) (sieve : Bool) :
    Served s (s.engineSec die sec attr sieve).1 := by
  unfold State.engineSec
  split
  · exact s.readHome_served die sec attr false false
  · exact s.readDev_served die sec attr false sieve

theorem State.engineRead_served (s : State) (ctx die va n : Nat) (core : Option Nat) (sieve : Bool) :
    Served s (s.engineRead ctx die va n core sieve).1 :=
  State.readVia_served (fun t x => t.engineSec_served die (x.pk / 16) x.attr sieve) s _ _ va n core

theorem State.dropL1_served (s : State) (p : Nat → Bool) (line : Nat) : Served s (s.dropL1 p line) := ⟨rfl⟩

theorem State.engineWrite_served (s : State) (die core : Nat) (bs : List SByte) : Served s (s.engineWrite die core bs) := by
  refine .foldl (fun t e => ?_) _ s
  refine .trans ?_ (State.dropL1_served _ _ _)
  have h := t.acceptDev_served die e
  exact .ite (h.trans ((State.sendOrdered_homeward _ die _).trans (State.writeOn_homeward _ _ _)).served) h

theorem State.engineStore_served (s : State) (ctx die core va : Nat) (bs : List Byte) :
    Served s (s.engineStore ctx die core va bs).1 := by
  have hall := s.translateAll_served ctx die .w (some core) (pageStarts va bs.length)
  unfold State.engineStore
  split
  · next heq => exact .of_fst heq hall
  · next t heq =>
    refine (Served.of_fst heq hall).trans (.trans ?_ (State.engineWrite_served _ _ _ _))
    refine List.foldlRecOn (motive := fun acc : State × List SByte => Served t acc.1) _ _ (.refl t) fun acc hacc p _ => ?_
    have ht := acc.1.translate_served ctx die p.1 .w (some core)
    split
    · next hx => exact hacc.trans (.of_fst hx ht)
    · next hx => exact hacc.trans (.of_fst hx ht)

theorem State.saveStore_served (s : State) (tk off : Nat) (bs : List Byte) : Served s (s.saveStore tk off bs) := by
  unfold State.saveStore
  dsimp only
  split
  · exact .refl s
  · exact s.engineStore_served _ _ _ _ _

theorem State.putSpad_served (s : State) (tk h : Nat) (a : Alloc) (offs : List Nat) :
    Served (s.setAlloc tk h a) (s.putSpad tk h a offs) :=
  .ite (.refl _) (.foldl (fun t _ => t.saveStore_served _ _ _) _ _)

theorem State.putSpad_here {s : State} {tk : Nat} (ht : (s.team tk).away = false) (h : Nat) (a : Alloc) (offs : List Nat) :
    s.putSpad tk h a offs = s.setAlloc tk h a := by
  have haway : ((s.setAlloc tk h a).team tk).away = false := by
    rw [State.setAlloc_team, if_pos rfl]
    exact ht
  rw [State.putSpad, haway]
  rfl

theorem State.allocNow_here {s : State} {tk : Nat} (ht : (s.team tk).away = false ∨ s.saved.getD tk 0 = 0) (h o n : Nat) :
    s.allocNow tk h o n = (s, (s.team tk).alloc h) := by
  unfold State.allocNow
  dsimp only
  split
  · next ha hb => exact absurd ht (by simp [ha, hb])
  · rfl

/-- The bytes of an allocation as its save area holds some of them. -/
def Alloc.withBytes (a : Alloc) (o : Nat) (bs : List VByte) : Alloc :=
  { a with data := (mapI bs (fun i x => (o + i, x.val))).foldl (fun d e => d.set e.1 e.2 0) a.data }

theorem State.allocNow_saved {s u : State} {tk b o n : Nat} {bs : List VByte} (ht : (s.team tk).away = true)
    (hb : s.saved.getD tk 0 = b + 1) (h : Nat) (hr : s.engineRead (s.team tk).ctx (s.team tk).die
      (vaOf (BitVec.ofNat 64 (b + s.imageRows tk h + o))) n = (u, .ok bs)) :
    s.allocNow tk h o n = (u, ((s.team tk).alloc h).withBytes o bs) := by
  unfold State.allocNow
  dsimp only
  rw [ht, hb]
  simp only [hr]
  rfl

theorem Alloc.withBytes_data (a : Alloc) (o : Nat) (bs : List VByte) (j : Nat) : (a.withBytes o bs).data.getD j 0
    = if o ≤ j ∧ j < o + bs.length then (bs.getD (j - o) {}).val else a.data.getD j 0 := by
  have hmem : ∀ e : Nat × Byte, e ∈ mapI bs (fun i x => (o + i, x.val)) ↔ ∃ i, ∃ h : i < bs.length, (o + i, bs[i].val) = e := by
    intro e
    rw [mapI_eq_mapIdx, List.mem_mapIdx]
  refine (foldl_overwrites (read := fun (m : SMap Byte) j => m.getD j 0) (key := (·.1))
    (v := fun j => (bs.getD (j - o) {}).val) (fun m e he j => ?_) a.data j).trans (if_congr ?_ rfl rfl)
  · obtain ⟨i, hi, rfl⟩ := (hmem e).1 he
    rw [SMap.getD_set]
    dsimp only
    split
    · next h => rw [h, Nat.add_sub_cancel_left, List.getD_eq_getElem?_getD, List.getElem?_eq_getElem hi, Option.getD_some]
    · rfl
  · rw [List.mem_map]
    constructor
    · rintro ⟨e, he, rfl⟩
      obtain ⟨i, hi, rfl⟩ := (hmem e).1 he
      dsimp only
      omega
    · rintro ⟨h1, h2⟩
      exact ⟨_, (hmem _).2 ⟨j - o, by omega, rfl⟩, by dsimp only; omega⟩

/-- An allocation as it is found differs from the team's in its bytes alone, and finding it serves a read. -/
theorem State.allocNow_found (s : State) (tk h o n : Nat) : Served s (s.allocNow tk h o n).1
    ∧ (s.allocNow tk h o n).2 = { (s.team tk).alloc h with data := (s.allocNow tk h o n).2.data } := by
  unfold State.allocNow
  dsimp only
  split
  · next b _ _ =>
    have hr := s.engineRead_served (s.team tk).ctx (s.team tk).die (vaOf (BitVec.ofNat 64 (b + s.imageRows tk h + o))) n
      none false
    split
    · next heq => exact ⟨.of_fst heq hr, rfl⟩
    · next heq => exact ⟨.of_fst heq hr, rfl⟩
  · exact ⟨.refl s, rfl⟩

/-! Arrivals performed (12_atomics_barriers R268, R272, R275). -/

theorem State.noteMemst_zero (s : State) (gk : Nat) : s.noteMemst gk 0 = s := by simp [State.noteMemst]

theorem Alloc.hasObject.missing {a : Alloc} {o : Nat} (h : a.hasObject o) : a.missing o 16 = 0 :=
  Alloc.missing_there h.2.1 h.2.2

/-- An arrival at an object that is there, as it is found. -/
theorem State.arriveAt_there {s : State} {gk tk h o na nb : Nat} {issuer : Option (Nat × Nat)}
    (hthere : ((s.team tk).alloc h).hasObject o) {r : State × Alloc} (hr : (s.objectMet tk h o issuer).allocNow tk h o 16 = r) :
    r.2.cls = 0 ∧ s.arriveAt gk tk h o na nb issuer = r.1.putSpad tk h
      (r.2.barUpdate (s.allocClock tk ((s.team tk).alloc h) issuer) o [1, 3] (fun b => b.arrive na nb))
      ((List.range 16).map (o + ·)) := by
  subst hr
  have hc : ((s.objectMet tk h o issuer).allocNow tk h o 16).2.cls = 0 := by
    rw [(State.allocNow_found _ tk h o 16).2, State.objectMet, (s.meetSpad_met tk h _ _).alloc]
    exact hthere.1
  refine ⟨hc, ?_⟩
  unfold State.arriveAt
  rw [hthere.missing, if_neg (not_not.2 rfl)]
  unfold State.objectMet at hc ⊢
  dsimp only
  rw [Alloc.barExpired_plain hc]
  rfl

/-- An object replaced after errors of its cells were met. -/
theorem CellsMet.becomes {s t : State} {tk h lc o : Nat} {a' : Alloc} {b : BarObj}
    (ht : t = s.meetSpad tk h lc ((List.range 16).map (o + ·)))
    (hb : ObjectBecomes ((t.team tk).alloc h) a' o b) : ObjectBecomes ((s.team tk).alloc h) a' o b := by
  obtain ⟨hbar, hdata, hframe, harm⟩ := hb
  have hmet : CellsMet tk h s t := ht ▸ s.meetSpad_met tk h lc _
  refine ⟨hbar, fun k hk => by rw [hdata k hk, hmet.alloc], by rw [hframe, hmet.alloc], fun w hw => ?_⟩
  rw [harm w hw, ht, State.meetSpad_arm rfl, if_neg]
  rintro ⟨⟨x, hx, hxw⟩, -⟩
  obtain ⟨i, hi, rfl⟩ := List.mem_map.1 hx
  have := List.mem_range.1 hi
  omega

theorem CellsMet.barrier {s t : State} {tk h : Nat} (k : CellsMet tk h s t) (hc : ((s.team tk).alloc h).cls = 0) (lc o : Nat) :
    ((t.team tk).alloc h).cls = 0 ∧ ((t.team tk).alloc h).barrier lc o = ((s.team tk).alloc h).barrier lc o := by
  have hcls : ((t.team tk).alloc h).cls = 0 := by rw [k.alloc]; exact hc
  refine ⟨hcls, ?_⟩
  rw [Alloc.barrier_plain hcls, Alloc.barrier_plain hc, k.alloc]
  rfl

/-- An arrival at an object of a team on its core. -/
theorem State.arriveAt_here {s : State} {gk tk h o na nb : Nat} {issuer : Option (Nat × Nat)}
    (hthere : ((s.team tk).alloc h).hasObject o) (ht : (s.team tk).away = false) : ∃ a',
    s.arriveAt gk tk h o na nb issuer = (s.objectMet tk h o issuer).setAlloc tk h a'
    ∧ ObjectBecomes ((s.team tk).alloc h) a' o ((((s.team tk).alloc h).barrier 0 o).arrived na nb) := by
  have hmet : CellsMet tk h s (s.objectMet tk h o issuer) := s.meetSpad_met tk h _ _
  have haway : ((s.objectMet tk h o issuer).team tk).away = false := by rw [hmet.team]; exact ht
  obtain ⟨hc, harr⟩ := State.arriveAt_there (gk := gk) (na := na) (nb := nb) hthere (State.allocNow_here (.inl haway) h o 16)
  refine ⟨_, harr.trans (State.putSpad_here haway h _ _), ?_⟩
  have hb := Alloc.barUpdate_arrive hc (s.allocClock tk ((s.team tk).alloc h) issuer) o na nb
  rw [(hmet.barrier hthere.1 0 o).2] at hb
  exact CellsMet.becomes rfl hb

/-! BARV (R272). -/

/-- The issuing group and what it has latched stand. -/
structure SameIssue (s t : State) : Prop where
  cur : t.cur = s.cur
  lat : t.lat = s.lat

theorem SameIssue.refl (s : State) : SameIssue s s := ⟨rfl, rfl⟩

theorem SameIssue.trans {s t u : State} (h : SameIssue s t) (k : SameIssue t u) : SameIssue s u :=
  ⟨k.cur.trans h.cur, k.lat.trans h.lat⟩

theorem SameIssue.foldl {α : Type} {f : State → α → State} (h : ∀ s a, SameIssue s (f s a)) (l : List α) (s : State) :
    SameIssue s (l.foldl f s) :=
  List.foldlRecOn l f (.refl s) (fun t ht a _ => ht.trans (h t a))

theorem SameIssue.ite {s t u : State} {p : Prop} [Decidable p] (ht : SameIssue s t) (hu : SameIssue s u) :
    SameIssue s (if p then t else u) := by
  split
  · exact ht
  · exact hu

theorem Served.issue {s t : State} (h : Served s t) : SameIssue s t := ⟨h.cur, by rw [h.only]⟩

theorem State.seq_issue (s : State) (n : Nat) : SameIssue s { s with seq := n } := ⟨rfl, rfl⟩
theorem State.setGroup_issue (s : State) (k : Nat) (x : Group) : SameIssue s (s.setGroup k x) := ⟨rfl, rfl⟩
theorem State.setTeam_issue (s : State) (k : Nat) (x : Team) : SameIssue s (s.setTeam k x) := ⟨rfl, rfl⟩
theorem State.setCluster_issue (s : State) (k : Nat) (x : Cluster) : SameIssue s (s.setCluster k x) := ⟨rfl, rfl⟩
theorem State.cswWhere_issue (s : State) (p : Group → Bool) (bit : Word) : SameIssue s (s.cswWhere p bit) := ⟨rfl, rfl⟩

theorem State.spillMerge_issue (s : State) (ck : Nat) : SameIssue s (s.spillMerge ck) := by
  unfold State.spillMerge
  dsimp only
  split
  · exact .refl s
  · refine .trans ?_ (State.acceptDev_served _ _ _).issue
    exact .trans (s.setCluster_issue ck _) (State.cswWhere_issue _ _ _)

theorem State.mergeAdd_issue (s : State) (ck : Nat) (e : SecEntry) : SameIssue s (s.mergeAdd ck e) := by
  unfold State.mergeAdd
  dsimp only
  split
  · exact s.setCluster_issue ck _
  · refine .trans ?_ (State.setCluster_issue _ ck _)
    refine .trans ?_ (State.seq_issue _ _)
    split
    · exact s.spillMerge_issue ck
    · split
      · split
        · exact .refl s
        · exact s.spillMerge_issue _
      · exact .refl s

theorem State.spillTwb_issue (s : State) (tk : Nat) : SameIssue s (s.spillTwb tk) := by
  unfold State.spillTwb
  dsimp only
  split
  · exact .refl s
  · refine .trans ?_ (State.mergeAdd_issue _ _ _)
    refine .trans ?_ (State.seq_issue _ _)
    exact .trans (s.setTeam_issue tk _) (State.cswWhere_issue _ _ _)

theorem State.twbAdd_issue (s : State) (tk : Nat) (e : SecEntry) : SameIssue s (s.twbAdd tk e) := by
  unfold State.twbAdd
  dsimp only
  split
  · exact s.setTeam_issue tk _
  · refine .trans ?_ (State.setTeam_issue _ tk _)
    refine .trans ?_ (State.seq_issue _ _)
    exact .ite (s.spillTwb_issue tk) (.refl s)

theorem State.completeGsb_issue (s : State) (gk : Nat) (p : SecEntry → Bool) : SameIssue s (s.completeGsb gk p) := by
  refine .foldl (fun t e => ?_) _ s
  split
  · refine .trans (t.readSec_served gk e.sec e.attr 1 false false true false).issue ?_
    exact State.setGroup_issue _ gk _
  · exact .refl t

theorem State.pushTeam_issue (s : State) (gk : Nat) (p : SecEntry → Bool) : SameIssue s (s.pushTeam gk p) := by
  refine .trans ?_ (.foldl (fun t e => t.twbAdd_issue _ _) _ _)
  refine .trans ?_ (State.seq_issue _ _)
  exact (s.completeGsb_issue gk p).trans (State.setGroup_issue _ gk _)

theorem State.pushClus_issue (s : State) (tk : Nat) (p : SecEntry → Bool) : SameIssue s (s.pushClus tk p) := by
  refine .trans ?_ (.foldl (fun t e => t.mergeAdd_issue _ _) _ _)
  refine .trans ?_ (State.seq_issue _ _)
  exact s.setTeam_issue tk _

theorem State.commitPois_issue (s : State) (gk lvl : Nat) : SameIssue s (s.commitPois gk lvl) :=
  .ite ⟨rfl, rfl⟩ (.refl s)

/-- A completed commit below DEV changes groups and teams. -/
theorem State.commitDone_issue (s : State) (gk : Nat) {lvl : Nat} (hl : lvl < 4) : SameIssue s (s.commitDone gk lvl) := by
  unfold State.commitDone
  dsimp only
  rw [if_neg (Nat.not_le.2 hl)]
  exact .ite ⟨rfl, rfl⟩ ⟨rfl, rfl⟩

/-- A commit to TEAM or CLUS keeps the issuing group and its latched instruction. -/
theorem State.commit_issue (s : State) (gk : Nat) {lvl : Nat} (hl : lvl < 4) : SameIssue s (s.commit gk lvl) := by
  refine .trans ?_ (State.commitDone_issue _ _ hl)
  unfold State.commitPush
  dsimp only
  rw [if_neg (show lvl ≠ 5 by omega), if_neg (Nat.not_le.2 hl)]
  have hpois : ∀ t : State, SameIssue s t → SameIssue s ((t.commitPois gk lvl).pushTeam gk) := fun t ht =>
    (ht.trans (t.commitPois_issue gk lvl)).trans (State.pushTeam_issue _ gk _)
  split
  · refine .trans (hpois _ ?_) (State.pushClus_issue _ _ _)
    exact .ite ⟨rfl, rfl⟩ (.refl s)
  · refine hpois _ ?_
    exact .ite ⟨rfl, rfl⟩ (.refl s)

/-- A release at TEAM or CLUS keeps the issuing group and its latched instruction. -/
theorem State.releaseAt_issue (s : State) (gk : Nat) {lvl : Nat} (hl : lvl < 4) : SameIssue s (s.releaseAt gk lvl) := by
  unfold State.releaseAt
  dsimp only
  rw [if_neg (Nat.not_le.2 hl)]
  exact .ite (s.commit_issue gk hl) (.refl s)

/-- The arrivals that BARV makes: its count for each of its lanes. -/
def State.barvArrivals (p : State) (w : W0) (r : RRaw) : Nat := (lanesOf (p.activeW w)).length * p.barvCount w r

/-- The cluster position that BARV names. -/
def State.barvPeer (p : State) (r : RRaw) : Nat :=
  if r.m16.getLsbD 14 then (p.rdG r.b.toNat).toNat % 16 else bitsOf r.m16.toNat 10 4

theorem exec_barv {s p u : State} {w : W0} {r : RRaw} (hp : s.landSts w.a.toNat = p)
    (hu : p.releaseAt p.cur (if r.m16.getLsbD 15 then 3 else 2) = u) (ha : p.acquireOut p.cur = false)
    (hr : p.releaseWaits p.cur = false) : exec (.barv w r) s = .next
      (if p.barvArrivals w r = 0 then (u.issueOp w.f { kind := .barrier }).cont
      else if r.m16.getLsbD 15 then u.sendArrival w r (p.barvPeer r) (p.barvArrivals w r)
      else ((u.withObj w r 16 16 (fun _ o => u.arriveAt p.cur p.grp.team w.a.toNat o (p.barvArrivals w r) 0
        (some (p.cur, p.lat.lc))) u).issueOp w.f { kind := .barrier }).cont) := by
  subst hp hu
  exact congrArg Host.Outcome.next (State.ordered_free ha (fun _ => hr) _)

theorem State.sendArrival_absent {s : State} {w : W0} {r : RRaw} {peer : Nat}
    (h : s.clusterHas (s.team s.grp.team).cluster peer = false) (na : Nat) :
    s.sendArrival w r peer na = ((s.setMemst 1).issueOp w.f { kind := .barrier }).cont := by
  unfold State.sendArrival
  simp only [h, Bool.false_eq_true, if_false]
  rfl

theorem State.sendArrival_sent {s : State} {w : W0} {r : RRaw} {peer tk : Nat}
    (h : s.clusterHas (s.team s.grp.team).cluster peer = true)
    (ht : s.clusterTeam (s.team s.grp.team).cluster peer = some tk) (na : Nat) :
    let u := s.issueOp w.f { kind := .barrier, ready := false }
    let x : Arrival := { live := true, team := tk, handle := w.a.toNat, off := 16 * r.c.toNat, lc := s.lat.lc, na
                         grp := s.cur, op := s.nextId }
    s.sendArrival w r peer na = (({ u with nextId := u.nextId + 1 } : State).setArrival u.nextId x).cont := by
  unfold State.sendArrival
  simp only [h, if_true, ht]
  rfl

/-! Arrivals from other teams (R272, R275). -/

/-- What of an arrival has been performed besides its object: it is gone, and its operation is ready. -/
def ArrivalDone (x : Arrival) (req : Nat) (s t : State) : Prop :=
  t.arrivals = s.arrivals.set req {} {}
  ∧ (t.group x.grp).pend = (s.group x.grp).pend.map (fun o => if o.id = x.op then { o with ready := true } else o)

/-- An arrival performed at a live team whose object is there. -/
theorem State.performArrival_eq {s : State} {req : Nat} {x : Arrival} {o : Nat} (hx : s.arrival req = x)
    (hlive : (s.team x.team).live = true) (ho : x.off % pow2Up ((s.team x.team).alloc x.handle).size = o)
    (hobj : ((s.team x.team).alloc x.handle).hasObject o) : s.performArrival req
      = ((s.setArrival req {}).arriveAt x.grp x.team x.handle o x.na x.nb (if x.barw then none else some (x.grp, x.lc))).modGroup
        x.grp (fun g => { g with pend := g.pend.map (fun o => if o.id = x.op then { o with ready := true } else o) }) := by
  subst hx ho
  have hteam : (s.setArrival req {}).team (s.arrival req).team = s.team (s.arrival req).team := rfl
  have hat : (s.setArrival req {}).arrivalAt (s.arrival req)
      = (s.arrival req).off % pow2Up ((s.team (s.arrival req).team).alloc (s.arrival req).handle).size := rfl
  unfold State.performArrival
  simp only [hteam, hlive, if_true, hat, hobj.missing, State.noteMemst_zero]

theorem ArrivalDone.of_modGroup {s t : State} {x : Arrival} {req : Nat} (ha : t.arrivals = s.arrivals.set req {} {})
    (hg : t.groups = s.groups) : ArrivalDone x req s (t.modGroup x.grp (fun g =>
      { g with pend := g.pend.map (fun o => if o.id = x.op then { o with ready := true } else o) })) := by
  refine ⟨ha, ?_⟩
  rw [State.modGroup_group, if_pos rfl, State.group, hg, State.group]

/-- An arrival at an object that is there, as it is found: its object alone changes of what the team holds. -/
theorem State.arriveAt_found {s : State} {gk tk h o na nb : Nat} {issuer : Option (Nat × Nat)}
    (hthere : ((s.team tk).alloc h).hasObject o) {r : State × Alloc} (hr : (s.objectMet tk h o issuer).allocNow tk h o 16 = r) :
    let t := s.arriveAt gk tk h o na nb issuer
    t.arrivals = s.arrivals ∧ t.groups = s.groups
    ∧ ObjectBecomes r.2 ((t.team tk).alloc h) o ((r.2.barrier 0 o).arrived na nb) := by
  obtain ⟨hc, harr⟩ := State.arriveAt_there (gk := gk) (na := na) (nb := nb) hthere hr
  have hmet : CellsMet tk h s (s.objectMet tk h o issuer) := s.meetSpad_met tk h _ _
  have hfound : Served (s.objectMet tk h o issuer) r.1 := hr ▸ (State.allocNow_found _ tk h o 16).1
  have hput := r.1.putSpad_served tk h
    (r.2.barUpdate (s.allocClock tk ((s.team tk).alloc h) issuer) o [1, 3] (fun b => b.arrive na nb))
    ((List.range 16).map (o + ·))
  dsimp only
  rw [harr, hput.only]
  refine ⟨?_, ?_, ?_⟩
  · show r.1.arrivals = _
    rw [hfound.only]
    exact hmet.arrivals
  · show r.1.groups = _
    rw [hfound.only]
    exact hmet.groups
  · show ObjectBecomes _ (((r.1.setAlloc tk h _).team tk).alloc h) _ _
    rw [State.setAlloc_alloc]
    exact Alloc.barUpdate_arrive hc _ o na nb

theorem exec_remoteArrival (req : Nat) (s : State) : exec (.remoteArrival req) s
    = .next (if (s.arrival req).live && !(s.team (s.arrival req).team).away
        && !s.frozenAt (s.team (s.arrival req).team).die (s.team (s.arrival req).team).core then s.performArrival req else s) :=
  rfl

theorem exec_barw (req : Nat) (s : State) : exec (.barw req) s
    = .next (if (s.arrival req).live && (s.team (s.arrival req).team).away
        && !s.savedFrozen (s.arrival req).team (s.arrival req).handle (s.arrivalAt (s.arrival req))
      then s.performArrival req else s) := rfl

/-- An arrival at a team on its core. -/
theorem State.performArrival_here {s : State} {req : Nat} {x : Arrival} {o : Nat} (hx : s.arrival req = x)
    (hlive : (s.team x.team).live = true) (haway : (s.team x.team).away = false)
    (ho : x.off % pow2Up ((s.team x.team).alloc x.handle).size = o) (hobj : ((s.team x.team).alloc x.handle).hasObject o) :
    let u := s.performArrival req
    ArrivalDone x req s u ∧ SameMem s u ∧ ObjectBecomes ((s.team x.team).alloc x.handle) ((u.team x.team).alloc x.handle) o
      ((((s.team x.team).alloc x.handle).barrier 0 o).arrived x.na x.nb) := by
  have heq := State.performArrival_eq hx hlive ho hobj
  obtain ⟨a', harr, hbec⟩ := State.arriveAt_here (s := s.setArrival req {}) (gk := x.grp) (na := x.na) (nb := x.nb)
    (issuer := if x.barw then none else some (x.grp, x.lc)) hobj haway
  have hmet : CellsMet x.team x.handle (s.setArrival req {}) ((s.setArrival req {}).objectMet x.team x.handle o
    (if x.barw then none else some (x.grp, x.lc))) := State.meetSpad_met _ _ _ _ _
  dsimp only
  rw [heq, harr]
  refine ⟨.of_modGroup hmet.arrivals hmet.groups, fun k => hmet.mem k, ?_⟩
  have halloc := State.setAlloc_alloc ((s.setArrival req {}).objectMet x.team x.handle o
    (if x.barw then none else some (x.grp, x.lc))) x.team x.handle a'
  exact halloc.symm ▸ hbec

/-- An arrival at the object of a team as it is found. -/
theorem State.performArrival_found {s : State} {req : Nat} {x : Arrival} {o : Nat} (hx : s.arrival req = x)
    (hlive : (s.team x.team).live = true) (ho : x.off % pow2Up ((s.team x.team).alloc x.handle).size = o)
    (hobj : ((s.team x.team).alloc x.handle).hasObject o) :
    let u := s.performArrival req
    ArrivalDone x req s u ∧ ObjectBecomes (s.arrivalFinds req).2 ((u.team x.team).alloc x.handle) o
      (((s.arrivalFinds req).2.barrier 0 o).arrived x.na x.nb) := by
  have heq := State.performArrival_eq hx hlive ho hobj
  have hfinds : ((s.setArrival req {}).objectMet x.team x.handle o
      (if x.barw then none else some (x.grp, x.lc))).allocNow x.team x.handle o 16 = s.arrivalFinds req := by
    subst hx ho
    unfold State.arrivalFinds
    simp only [State.noteMemst_zero]
  obtain ⟨harr, hgrp, hbec⟩ := State.arriveAt_found (s := s.setArrival req {}) (gk := x.grp) (na := x.na) (nb := x.nb)
    (issuer := if x.barw then none else some (x.grp, x.lc)) hobj hfinds
  dsimp only
  rw [heq]
  exact ⟨.of_modGroup harr hgrp, hbec⟩

/-- Settles O38: each instruction by the equation of its execution, the objects as four words of which an update
rewrites some, the arrivals and the reads by what the errors of cells met and the save area's reads leave alone. -/
theorem barriersCountTheirPhases : Obligations.BarriersCountTheirPhases := by
  unfold Obligations.BarriersCountTheirPhases
  refine ⟨fun s w r => ?own, fun s w r => ?barv, fun s req => ?arrivals, fun s tk h o n => ?saved,
    fun s tk h lc offs => ?cells⟩
  case own =>
    extract_lets h p tk a o miss gone b phase scope passed on free noted at_ v mask
    have hp : s.landSts w.a.toNat = p := rfl
    have ha : (p.team p.grp.team).alloc w.a.toNat = a := rfl
    have hpassed : ∀ c : BarObj, c.passed (p.phaseArg r) = passed c.phase := fun c => c.passed_eq _
    refine ⟨fun hg => ⟨?_, exec_bwait_off hp hg, ?_, ?_, ?_⟩, fun hg hf hm => ⟨?_, ?_, ?_, fun hn => ?_⟩,
      fun hg hm hn => ?_, fun hg hf hobj => ?_, fun hg hf hobj => ?_, fun hg hf hobj hn => ?_, fun hg hobj hn => ?_,
      fun hg hf hobj => ?_, fun hf hg => ?_, fun hf => ?_, fun hf => ?_, fun hg hf hc hb hs => ?_, fun hg hf hm => ?_⟩
    · rw [exec_binit hp, State.barExec_off hg]
    · rw [exec_btest hp (u := (p.barRead w r).1) (b := (p.barRead w r).2) rfl, State.barExec_off hg]
    · rw [exec_bexp hp, State.barExec_off hg]
    · rw [exec_chkt hp ha rfl, State.barExec_off hg]
    · rw [exec_binit hp, State.barExec_free hg hf, State.withObj_gone ha hm]
      rfl
    · rw [exec_bexp hp, State.barExec_free hg hf, State.withObj_gone ha hm]
      rfl
    · rw [exec_btest hp (State.barRead_gone ha hm), State.barExec_free hg hf, hpassed]
      rfl
    · rw [exec_bwait_passed hp (State.barRead_gone ha hm) hg hf ((hpassed _).trans hn)]
      rfl
    · rw [exec_bwait_waits hp (State.barRead_gone ha hm) hg ((hpassed _).trans hn)]
      rfl
    · obtain ⟨hc, hb, hs⟩ := hobj
      refine ⟨_, ?_, Alloc.barUpdate_init hc (p.issueClock a) o (p.freshObj_fits r)⟩
      rw [exec_binit hp, State.barExec_free hg hf, State.withObj_there ha hb hs]
      rfl
    · obtain ⟨hc, hb, hs⟩ := hobj
      refine ⟨_, ?_, Alloc.barUpdate_expect hc (p.issueClock a) o _⟩
      rw [exec_bexp hp, State.barExec_free hg hf, State.withObj_there ha hb hs, Alloc.barExpired_plain hc]
      rfl
    · obtain ⟨hc, hb, hs⟩ := hobj
      exact exec_bwait_passed hp (State.barRead_there ha hb hs) hg hf ((hpassed _).trans hn)
    · obtain ⟨hc, hb, hs⟩ := hobj
      exact exec_bwait_waits hp (State.barRead_there ha hb hs) hg ((hpassed _).trans hn)
    · obtain ⟨hc, hb, hs⟩ := hobj
      rw [exec_btest hp (State.barRead_there ha hb hs), State.barExec_free hg hf, hpassed]
      rfl
    · rw [exec_btest hp (u := (p.barRead w r).1) (b := (p.barRead w r).2) rfl, State.barExec_held hg hf]
    · rw [exec_time, State.ordered_held hf]
    · exact groupExec_writes64 s _ w _ _ ((exec_time w s).trans (by rw [State.ordered_free hf (by simp)]))
    · refine ⟨_, ?_, p.setMemst_zero_written w.d.toNat (chktAnswer r (a.word at_) mask)⟩
      rw [exec_chkt_there hp ha rfl hc hb hs, State.barExec_free hg hf]
      rfl
    · rw [exec_chkt_gone hp ha rfl hm, State.barExec_free hg hf, chktAnswer_zero]
      rfl
  case barv =>
    extract_lets h p m cnt na rmt s1 tk a o peer ck counted
    intro hacq hrel
    have hna : p.barvArrivals w r = na := rfl
    have hexec : exec (.barv w r) s = _ := exec_barv (p := p) (u := s1) rfl rfl hacq hrel
    have hissue : SameIssue p s1 := p.releaseAt_issue p.cur (by split <;> decide)
    rw [hna] at hexec
    refine ⟨fun h0 => ?_, fun h0 hloc hteam haway hobj => ?_, fun h0 hloc hteam hm => ?_, fun h0 hr hhas => ?_,
      fun h0 hr hhas tq htq => ?_⟩
    · rw [hexec, if_pos h0]
    · have ha : (s1.team s1.grp.team).alloc w.a.toNat = a := by rw [hteam]
      obtain ⟨a', harr, hbec⟩ := State.arriveAt_here (s := s1) (gk := p.cur) (tk := tk) (h := h) (na := na) (nb := 0)
        (issuer := some (p.cur, p.lat.lc)) hobj haway
      refine ⟨a', ?_, hbec⟩
      rw [hexec, if_neg h0, if_neg (Bool.eq_false_iff.1 hloc), State.withObj_there ha hobj.2.1 hobj.2.2, hissue.cur, hissue.lat]
      exact congrArg (fun u => Host.Outcome.next (counted u)) harr
    · have ha : (s1.team s1.grp.team).alloc w.a.toNat = a := by rw [hteam]
      rw [hexec, if_neg h0, if_neg (Bool.eq_false_iff.1 hloc), State.withObj_gone ha hm]
      rfl
    · rw [hexec, if_neg h0, if_pos hr]
      exact congrArg Host.Outcome.next (State.sendArrival_absent hhas na)
    · rw [hexec, if_neg h0, if_pos hr]
      exact congrArg Host.Outcome.next (State.sendArrival_sent hhas htq na)
  case arrivals =>
    extract_lets x t a o lands
    have hat : s.arrivalAt x = o := rfl
    have hremote : exec (.remoteArrival req) s = .next (if x.live && !t.away && !s.frozenAt t.die t.core
        then s.performArrival req else s) := exec_remoteArrival req s
    have hbarw : exec (.barw req) s = .next (if x.live && t.away && !s.savedFrozen x.team x.handle o
        then s.performArrival req else s) := exec_barw req s
    refine ⟨fun h => ?_, fun h => ?_, fun hx hl ha hf hobj => ?_, fun h => ?_, fun hx hl ha hf hobj => ?_⟩
    · rw [hremote, if_neg]
      rcases h with h | h | h <;> simp [h]
    · rw [hbarw, if_neg]
      rcases h with h | h <;> simp [h]
    · obtain ⟨⟨harr, hpend⟩, hmem, hbec⟩ := State.performArrival_here (x := x) rfl hl ha (o := o) rfl hobj
      exact ⟨_, by rw [hremote, hx, ha, hf]; rfl, ⟨harr, hbec, hpend⟩, hmem⟩
    · rw [hbarw, h]
      simp
    · obtain ⟨⟨harr, hpend⟩, hbec⟩ := State.performArrival_found (x := x) rfl hl (o := o) rfl hobj
      exact ⟨_, by rw [hbarw, hx, ha, hf]; rfl, harr, hbec, hpend⟩
  case saved =>
    refine ⟨fun h' => State.allocNow_here h' h o n, fun b u bs ha hb hr => ?_⟩
    rw [State.allocNow_saved ha hb h hr]
    refine ⟨rfl, rfl, fun i hi => ?_, fun k hk => ?_⟩
    · rw [Alloc.withBytes_data, if_pos (by omega), Nat.add_sub_cancel_left]
    · rw [Alloc.withBytes_data, if_neg (by omega)]
  case cells =>
    extract_lets a b meets
    have hmeets : ∀ w, ((∃ o ∈ offs, o / 4 = w) ∧ a.meets lc w = true) ↔ meets w := fun w => by rw [Alloc.meets_iff]
    have hmet := s.meetSpad_met tk h lc offs
    have harm : ∀ w, b.arm.getD w 0 = _ := State.meetSpad_arm (s := s) (h := h) (a := a) rfl lc offs
    have hpois : ∀ w, b.pois.getD w false = _ := State.meetSpad_pois (s := s) (h := h) (a := a) rfl lc offs
    refine ⟨hmet.alloc, fun w hw => ⟨?_, fun h3 => ?_⟩, fun w hw => ?_, fun w hw => ?_, hmet.mem⟩
    · rw [harm, if_pos ((hmeets w).2 hw)]
    · rw [hpois, if_pos ⟨((hmeets w).2 hw).1, ((hmeets w).2 hw).2, h3⟩]
    · rw [harm, if_neg (fun h => hw ((hmeets w).1 h))]
    · rw [hpois, if_neg]
      rintro ⟨h1, h2, h3⟩
      exact hw.elim (fun hn => hn ((hmeets w).1 ⟨h1, h2⟩)) (Nat.not_lt.2 h3)

end Sys2Proof.Machine
end
